-- ==== Sys2Proof/Word.lean ====
section
/-! DEFINITION. The machine's plain word types (R6, R9, R11 and R534 of the spec). -/

namespace Sys2Proof

/-- One byte. -/
abbrev Byte := BitVec 8

/-- A register of the device register space: registers are 32 bits wide. -/
abbrev Word := BitVec 32

/-- A 64-bit quantity: an engine register, a counter of the bank, a host bus address. -/
abbrev Word64 := BitVec 64

end Sys2Proof
end

