-- ==== Sys2Proof/Types.lean ====
section
/-! DEFINITION. The data that commands carry and the machine keeps: full-form times, the sheets of
an imposition image (R72 to R86), and the records other chapters define. -/

namespace Sys2Proof

/-- A full-form time (R11): seconds, nanoseconds and a fraction in units of 2^-16 ns.  A value
whose `ns` is 1,000,000,000 or more is one the device refuses (R12). -/
structure Full where
  sec : Nat := 0
  ns : Nat := 0
  frac : Nat := 0
  deriving DecidableEq, Repr

/-- R12: the NS field of a full-form value the device takes is below 1,000,000,000. -/
def Full.ok (t : Full) : Bool := Nat.blt t.ns 1000000000

/-- The nanoseconds a full-form time stands for; the fraction is dropped. -/
def Full.toNs (t : Full) : Nat := t.sec * 1000000000 + t.ns

/-- A role entry of STRUCTURE: role code, privileged flag, bundle index and instance. -/
structure RoleEntry where
  role : Nat := 0
  priv : Bool := false
  bundle : Nat := 0
  inst : Nat := 0
  deriving DecidableEq, Repr

/-- A queue-range entry of STRUCTURE. -/
structure QRange where
  base : Nat
  count : Nat
  func : Nat
  homeQuire : Nat
  deriving DecidableEq, Repr

/-- The STRUCTURE sheet (R78). -/
structure StructureSheet where
  pace : List Nat
  pair : List Nat
  ctrlActive : Nat
  ctrlStandby : Nat
  totalVfs : Nat
  roles : List RoleEntry
  qranges : List QRange
  deriving DecidableEq, Repr

/-- A gate control list entry (R174). -/
structure GateEntry where
  gates : BitVec 8 := 0
  interval : Nat := 0
  op : Nat := 0
  reserved : Nat := 0
  deriving DecidableEq, Repr

/-- R175: when a gate control list entry is valid. -/
def GateEntry.ok (e : GateEntry) : Bool :=
  Nat.ble 8 e.interval && Nat.ble e.interval 16777215 && Nat.ble e.op 2 && Nat.beq e.reserved 0

/-- A port record of PORTS (R79) with the gate entries it points to. -/
structure PortRec where
  media : Nat := 0
  speed : Nat := 0
  fec : Nat := 0
  preempt : Bool := false
  pattern : Bool := false
  lead : Nat := 2000
  cycle : Nat := 0
  base : Full := {}
  gcl : List GateEntry := []
  plcaId : Nat := 0
  plcaCount : Nat := 0
  deriving DecidableEq, Repr

/-- A DRAM partition of MEMORY. -/
structure Partition where
  kind : Nat
  owner : Nat
  base : Nat
  size : Nat
  deriving DecidableEq, Repr

/-- A flow partition of MEMORY (R245). -/
structure FlowPart where
  base : Nat
  count : Nat
  keyMask : Nat
  portMask : Nat
  deriving DecidableEq, Repr

/-- The TIME sheet. -/
structure TimeSheet where
  dual : Bool := false
  working : Nat := 0
  second : Nat := 0
  mon : List Nat := []
  flags : Nat := 0
  jump : Nat := 10000
  lockBound : Nat := 1000
  setupMargin : Nat := 10000
  slewPpb : Nat := 10000
  deriving DecidableEq, Repr

/-- A slot of the ring schedule table (R296). -/
structure RingSlot where
  offset : Nat := 0
  station : Nat := 0
  enabled : Bool := false
  noReply : Bool := false
  reqLen : Nat := 0
  reqOff : Nat := 0
  replyLen : Nat := 0
  gutter : Nat := 0
  rxq : Nat := 0
  txq : Nat := 0
  useTxq : Bool := false
  deriving DecidableEq, Repr

/-- A cycle mark of the ring schedule table (R297). -/
structure RingMark where
  offset : Nat := 0
  enabled : Bool := false
  event : Bool := false
  irq : Bool := false
  gate : Bool := false
  send : Bool := false
  deriving DecidableEq, Repr

/-- A bank of the ring schedule table (R298, R326): its slots and marks in ascending index, DLIM and TURN. -/
structure RingBank where
  slots : List RingSlot := []
  marks : List RingMark := []
  dlim : Nat := 20000
  turn : Nat := 2000
  deriving DecidableEq, Repr

/-- The RING sheet. -/
structure RingSheet where
  enabled : Bool := false
  mayMaster : Bool := false
  cycle : Nat := 31000
  ethertype : Nat := 0x88B5
  priority : Nat := 0
  missLimit : Nat := 3
  gutter : Nat := 1000
  slotCap : Nat := 1
  slots : List RingSlot := []
  marks : List RingMark := []
  stations : BitVec 256 := 0
  payload : List Byte := []
  deriving DecidableEq, Repr

/-- An event-pin record of EVENTS (R328). -/
structure PinRec where
  function : Nat := 0
  polarity : Nat := 0
  initLevel : Nat := 0
  align : Nat := 0
  alignPort : Nat := 0
  filterNs : Nat := 0
  deriving DecidableEq, Repr

/-- An ECDSA P-521 signature (R75, R83, R103), or an AES-256-GCM tag (R86), by what it verifies: the digest of
the public key, or the key, that it was made under, and the digest it was made over.  The arithmetic of the
curve and of the cipher is left out. -/
structure Signature where
  key : Nat := 0
  covers : BitVec 512 := 0
  deriving DecidableEq, Repr

/-- A 168-byte seal (R75, R85): key identifier and signature. -/
structure Seal where
  keyId : Nat := 0
  sig : Signature := {}
  deriving DecidableEq, Repr

/-- The seal verifies under the key of digest `key` over data of digest `d`; its key identifier is the first 32
bytes of the key's digest. -/
def Seal.verifies (x : Seal) (key : Nat) (d : BitVec 512) : Bool :=
  decide (x.keyId = key % 2 ^ 256) && decide (x.sig.key = key) && decide (x.sig.covers = d)

/-- A directory entry of CODE (R82): kind 1 bundle, 2 tip-in, 3 customer; `digest` stands for the record's
SHA-512 digest. -/
structure CodeRec where
  kind : Nat
  id : Nat
  version : Nat
  folioMask : BitVec 32
  digest : Nat
  /-- The role directory: role code, CLASS and private-image index (R344). -/
  roleDir : List (Nat × Nat × Nat) := []
  /-- Control-store words by microaddress, the private images by index, each with its words by offset
  (R346, R348). -/
  words : List (Nat × Nat) := []
  privImages : List (List (Nat × Nat)) := []
  /-- Dispatch table entries by opcode (R358), and the exported microaddresses (R372). -/
  dispatch : List (Nat × Nat) := []
  exports : List Nat := []
  /-- The seal of a bundle or a tip-in, and the GCM tag of a tip-in (R86). -/
  sealed : Seal := {}
  tag : Signature := {}
  deriving DecidableEq, Repr

/-- The role codes of a bundle's role directory (R345). -/
def CodeRec.roles (c : CodeRec) : List Nat := c.roleDir.map (·.1)

/-- A row of the compatibility matrix (R76). -/
structure MatrixRow where
  stepping : Nat
  endpaper : Nat
  binder : Nat
  bundleSet : Nat
  tipinSet : Nat
  deriving DecidableEq, Repr

/-- The header of a sheet (R73): its TYPE, SHEET_VER and LENGTH, the offset at which it stands, and every padding
byte and reserved field of the sheet, read as one number. -/
structure SheetHead where
  type : Nat
  version : Nat := 1
  offset : Nat
  length : Nat
  zeros : Nat := 0
  deriving DecidableEq, Repr

/-- An imposition image as the binder reads it: its sheet headers, the fields of its sheets, its seals and its
SHA-512 digest (R72 to R86). -/
structure Image where
  magic : Nat := 0x46494D50
  format : Nat := 1
  imageLen : Nat := 0
  sheetCount : Nat := 10
  sheets : List SheetHead := []
  serial : BitVec 64 := 0
  /-- SEAL (R83): the digest of PUBKEY, and SIG_R and SIG_S. -/
  pubkeyDigest : Nat := 0
  sealed : Signature := {}
  stepMask : BitVec 32 := 0
  endpaperMin : Nat := 0
  binderMin : Nat := 0
  binderMax : Nat := 0
  bundleSet : Nat := 0
  tipinSet : Nat := 0
  bundles : List (Nat × Nat) := []
  tipins : List (Nat × Nat) := []
  matrix : List MatrixRow := []
  matrixSeal : Seal := {}
  struct : StructureSheet
  ports : List PortRec
  dramBytes : Nat
  parts : List Partition
  flowParts : List FlowPart
  time : TimeSheet
  ring : RingSheet
  pins : List PinRec
  code : List CodeRec
  customerCount : Nat := 0
  dmaReserved : Nat := 0
  digest : BitVec 512 := 0
  deriving DecidableEq, Repr

/-- A binder firmware as the endpaper reads it (R102, R103): `digest` is its SHA-512 digest and `body` that of
every byte before SIG_R. -/
structure BinderFw where
  magic : Nat
  version : Nat
  codeLen : Nat
  pubkeyDigest : Nat
  body : BitVec 512
  sig : Signature
  digest : BitVec 512
  deriving DecidableEq, Repr

/-- The header of a flash slot (R101). -/
structure SlotHeader where
  magic : Nat
  format : Nat
  binderOff : Nat
  binderLen : Nat
  imageOff : Nat
  imageLen : Nat
  deriving DecidableEq, Repr

/-- The signature of a binder verifies (R103). -/
def BinderFw.sigOk (f : BinderFw) : Bool := decide (f.sig = ⟨f.pubkeyDigest, f.body⟩)

/-- An owner enrolment record (R85): the first 32 bytes of the digest of the device's identity key, the digest of
the owner's PUBKEY, the flag, the digest of all that precedes the seal, and the seal. -/
structure EnrolRecord where
  deviceId : Nat
  ownerDigest : Nat
  exclusive : Bool
  body : BitVec 512
  sealed : Seal
  deriving DecidableEq, Repr

/-- An event the device posts (R28, R405): its code and its DATA. -/
structure Event where
  code : Nat
  data : Nat
  deriving DecidableEq, Repr

/-- How a read the device issued ended: with good data, completed with an error status, or with
poisoned data (R389, R454). -/
inductive ReadEnd where
  | good
  | refused
  | poisoned
  deriving DecidableEq, Repr

/-- What a receiver reports of a frame on the wire (R222, R223): the FCS it ends with, an error code-group in
it, and the RS-FEC codewords corrected and marked uncorrectable within it. -/
structure RxLine where
  fcs : BitVec 32 := 0
  codeErr : Bool := false
  corrected : Nat := 0
  uncorrectable : Nat := 0
  deriving DecidableEq, Repr

/-- A frame on the wire: its bytes, FCS left out, and what a receiver reports of it. -/
structure WireFrame where
  bytes : List Byte
  line : RxLine := {}
  deriving DecidableEq, Repr

/-- What a PCS and the in-band word of a PHY report (R216, R217): lock or synchronisation, FEC lock, a
complete clause 37 exchange or an in-band word received, whether that exchange resolved to full duplex, link
up in the word, remote fault, and its speed code. -/
structure PcsReport where
  lock : Bool := false
  fecLock : Bool := false
  anDone : Bool := false
  fullDuplex : Bool := true
  up : Bool := false
  remoteFault : Bool := false
  speed : BitVec 3 := 0
  deriving DecidableEq, Repr

/-- The path on which a read was issued (R456). -/
inductive ReadPath where
  | entry (qid pos : Nat)
  | table (qid pos : Nat)
  | txBody (qid pos : Nat)
  | cmdBlock (qid pos : Nat)
  | flowCmd
  | mailbox
  | dma (channel burst : Nat)
  | dmaFetch (channel : Nat)
  deriving DecidableEq, Repr

/-- What a completion of an NVMe command brings (R480, R482, R483, R486): the controller's MDTS in bytes (0 for
no limit), the namespace, or the bytes read. -/
inductive NvmeData where
  | none
  | controller (mdts : Nat)
  | namespaceInfo (active : Bool) (lbaBytes metadata capacity : Nat)
  | bytes (b : List Byte)
  deriving DecidableEq, Repr

/-- What a fetch of a DMA channel brings (R420): how a read of host memory ended, the instruction, and
the request line that the next paced instruction or request WAIT from it on names (R428). -/
structure DmaFetch where
  fin : ReadEnd := .good
  word : BitVec 256 := 0
  next : Option (BitVec 6) := none
  deriving DecidableEq, Repr

/-- Where a flow command comes from: the register mailbox, or the entry of a command queue (R281). -/
inductive CmdSrc where
  | mailbox
  | queue (qid pos : Nat)
  deriving DecidableEq, Repr

/-- What the device takes from a flow command block (R278). -/
structure FlowBlock where
  op : BitVec 8
  part : BitVec 8 := 0
  flags : BitVec 8 := 0
  flowIdx : BitVec 32 := 0
  key : BitVec 512 := 0
  context : BitVec 512 := 0
  deriving DecidableEq, Repr

/-- The SRAM arrays with spare rows (R512). -/
inductive RowArray where
  | quireStore (quire : Fin 16)
  | sharedStore (folio : Fin 32)
  | privateStore (engine : Fin 160)
  | packetBuffer
  | flowCache
  | queueCache
  deriving DecidableEq, Repr

/-- The item in which a checked fault lies, where the response needs more than its unit (R510): a frame in
the packet buffer, a bucket group of the flow cache, a flow, or bytes of DRAM. -/
inductive FaultItem where
  | none
  | frame (handle : Nat)
  | flowGroup (part bucket : Nat)
  | flow (index : Nat)
  | dram (addr len : Nat)
  deriving DecidableEq, Repr

/-- One test of R513: a known-answer test of an engine, a march test of a row, or the end of a full pass. -/
inductive SelfTest where
  | kat (engine : Fin 160) (pass : Bool)
  | march (array : RowArray) (pass : Bool)
  | passDone
  deriving DecidableEq, Repr

/-- A happening that forms a trace record (R531); `more` is what the bundle adds to an ENGINE record. -/
inductive TraceItem where
  | engine (engine : Fin 160) (opcode : BitVec 8) (addr : BitVec 15) (commit : Bool) (key : BitVec 20)
      (more : Option (BitVec 128))
  | port (port : Fin 12) (tx : Bool) (cls : BitVec 3) (len : BitVec 16) (status : BitVec 8) (index : BitVec 20)
  | gate (port : Fin 12) (entry : BitVec 10) (states : BitVec 8) (hold : Bool)
  | ring (cycle : BitVec 16) (slot : BitVec 12) (station : BitVec 8) (outcome : BitVec 4)
  | event (code : BitVec 16) (data : BitVec 48)
  deriving DecidableEq, Repr

/-- The rails that the rail monitor averages (R565). -/
inductive Rail where
  | eng (die : Fin 4)
  | hub
  | sram
  | sd
  | ddr
  | vddq
  | vddh
  | pll
  | vio18
  | vio33
  deriving DecidableEq, Repr

/-- A book of R61 found out of balance at a ledger point: its place in the order of R61 (0 cells, 1 spine, 2
queue entries, 3 shaper credits, 4 PCIe credits, 5 DMA tags, 6 FRER windows) and its index. -/
structure BookOut where
  book : Fin 7
  index : BitVec 24
  deriving DecidableEq, Repr

/-- The outcome of one replayed decision record (R513): equal, charged to the active folio, or to the standby. -/
inductive Replay where
  | equal
  | chargedActive
  | chargedStandby
  deriving DecidableEq, Repr

/-- What a pair epoch carries of the ring master (R519): schedule with its DLIM and TURN, exclusions, miss counts. -/
structure PairEpoch where
  ring : RingSheet
  dlim : Nat := 20000
  turn : Nat := 2000
  excluded : BitVec 256
  misses : List Nat
  deriving DecidableEq, Repr

/-- A request the device does not serve (R450): a memory request with Memory Space Enable 0 or in D3hot, an I/O
request, a locked read, an AtomicOp, a Type 1 configuration request. -/
inductive BadRequest where
  | memory
  | io
  | lockedRead
  | atomicOp
  | config1
  deriving DecidableEq, Repr

/-- A read outstanding on the host link: its function, its Tag value and the path that issued it (R453, R467). -/
structure HostRead where
  func : Nat
  tag : Nat
  path : ReadPath
  /-- How long ago it was issued. -/
  ageNs : Nat := 0
  deriving DecidableEq, Repr

/-- Where a host access to a function goes: its BAR0, its BAR4 (the MSI-X table and PBA, R448) or its
configuration space (R444, R445). -/
inductive Space where
  | bar0
  | bar4
  | config
  deriving DecidableEq, Repr

end Sys2Proof
end

