-- ==== Sys2Proof/Syntax.lean ====
section
/-! DEFINITION. The commands of the FR8128: one constructor for each row of the opcode table, with the
operands its meaning needs: what a write or a read carries, and what the happening outside the device
determines. -/

namespace Sys2Proof

/-- A command: a row of the opcode table and its operands. -/
inductive Instr where
  /-- REGISTER_WRITE (R9): A register write with no behaviour of its own is decoded by address, width and
  access type and changes the addressed fields. -/
  | registerWrite (fn : BitVec 6) (space : Space) (addr : BitVec 26) (data : List Byte) (poisoned : Bool)
  /-- GROUP_READ_LATCH (R10): A read of the _LO word of a register group latches the other words of the
  group until _HI is read. -/
  | groupReadLatch (fn : BitVec 6) (space : Space) (addr : BitVec 26) (len : Fin 4097)
  /-- AUX_PG_RISE (R558): AUX_PG rises, auxiliary logic leaves reset and GLB_WAKE_CAUSE is reset. -/
  | auxPgRise
  /-- AUX_PG_FALL (R560): AUX_PG falls and the device is fully reset, losing all auxiliary state. -/
  | auxPgFall
  /-- MAIN_PG_FALL (R560): MAIN_PG falls while PERST_N is deasserted, which is a power loss with every
  main-rail output going to high impedance. -/
  | mainPgFall
  /-- PERST_ASSERT (R129): PERST_N is asserted for 1 µs or longer and a fundamental reset acts at once. -/
  | perstAssert
  /-- PERST_DEASSERT (R97): PERST_N deasserts with main power good, the strap is sampled and the device
  enters Boot with uptime, time base and status cleared. -/
  | perstDeassert (bootsel : BitVec 2)
  /-- HOT_RESET (R125): An in-band hot reset or Data Link Layer down resets PCIe-facing state and retires
  every queue entry as ABORTED, or acts as a fundamental reset when HOT_FULL is 1. -/
  | hotReset (linkDown : Bool) (bootsel : BitVec 2) (reads : List HostRead)
  /-- FLR (R465): A function-level reset stops the function's requests, retires its work under R125 and
  resets its PCIe state. -/
  | flr (fn : BitVec 6) (reads : List HostRead)
  /-- D3HOT_ENTRY (R118): A function enters D3hot, and when every enabled function is in D3hot the device
  enters Quiet. -/
  | d3hotEntry (fn : BitVec 6)
  /-- D0_RETURN (R118): A function returns to D0 and the device leaves Quiet for Running or Degraded. -/
  | d0Return (fn : BitVec 6)
  /-- L2_ENTRY (R121): The link enters L2 and the main rails fall, so the device enters Dormant with wake
  detectors armed on PATTERN-mode ports. -/
  | l2Entry
  /-- BUS_MASTER_ENABLE_CHANGE (R451): A change of Bus Master Enable stops or resumes the function's
  requests, and held work resumes when it returns. -/
  | busMasterEnableChange (fn : BitVec 6) (enable : Bool)
  /-- BOOT_SLOT_READ (R101): The endpaper finishes reading the SFDP table and a slot header, marking the
  slot empty or reading its binder. -/
  | bootSlotRead (slot : Fin 2) (density : Option Nat) (hdr : Option SlotHeader)
  /-- BINDER_LOADED (R103): A binder firmware has been read and is verified against the root key and
  signature, then started. -/
  | binderLoaded (fw : Option BinderFw)
  /-- DRAM_TRAINING_DONE (R104): DRAM training and capacity detection finish, and the binder copies the
  image into DRAM. -/
  | dramTrainingDone (bytes : Option Nat)
  /-- IMAGE_LOADED (R86): An image is in DRAM and the binder verifies it step by step, refusing at the
  first failure or entering Imposing. -/
  | imageLoaded (img : Option Image)
  /-- IMPOSED (R86): Imposing ends: structure is applied, control stores are write-locked, code versions
  are checked and the device enters Running or Degraded. -/
  | imposed (out : BitVec 160)
  /-- LOAD_BINDER (R107): Mailbox command 0x01 makes the endpaper read a binder from host memory and start
  it under R103. -/
  | loadBinder
  /-- LOAD_IMAGE (R107): Mailbox command 0x02 makes the binder read an image from host memory into DRAM and
  verify it. -/
  | loadImage
  /-- ENROL (R85): Mailbox command 0x03 burns the owner-key digest and EXCLUSIVE flag into fuses when the
  record is valid and no owner is enrolled. -/
  | enrol (record : EnrolRecord) (vppMv : Nat)
  /-- ATTEST (R114): Mailbox command 0x04 reads a nonce and writes a signed 544-byte attestation report
  over the host buffer. -/
  | attest (nonce : BitVec 256)
  /-- MB_TRANSFER_DONE (R108): The DMA transfer of a mailbox buffer ends, completing the command with DONE
  or ERROR. -/
  | mbTransferDone (ok : Bool)
  /-- REIMP_GO (R90): A write of IMP_REIMP_CTRL.GO starts verification of a partial re-imposition, or is
  refused with BUSY. -/
  | reimpGo
  /-- ABANDON (R93): A write of IMP_REIMP_CTRL.ABANDON during verification ends the request as refused with
  no change. -/
  | abandon
  /-- REIMP_VERIFIED (R90): Verification of a partial re-imposition ends, refusing it or entering
  Reimposing and emptying the named quires. -/
  | reimpVerified (img : Image)
  /-- REIMP_MIGRATED_OUT (R91): A named quire's flows and queues have migrated to its pair and its control
  stores are rewritten and locked. -/
  | reimpMigratedOut (quire : Fin 16)
  /-- REIMP_LOADED (R91): A named quire's stores are loaded and its code version is checked, then its work
  migrates back. -/
  | reimpLoaded (quire : Fin 16) (records : List CodeRec)
  /-- REIMP_DONE (R91): Work has migrated back to the reloaded quires, the device returns to Running or
  Degraded and the new image becomes the running image. -/
  | reimpDone
  /-- QUIRE_RESET (R126): A write of GLB_QRESET starts a quire reset by migrating the quire's work to its
  pair, or is refused. -/
  | quireReset (quires : BitVec 16)
  /-- QUIRE_RESET_DONE (R126): The quire's march and known-answer tests end, its work migrates back and any
  isolation ends. -/
  | quireResetDone (quire : Fin 16) (marchOk : Bool) (failed : BitVec 10)
  /-- ENGINE_RESET (R127): A write of GLB_ERESET.GO resets a marked-out engine or idle spare and starts its
  known-answer tests, or is refused. -/
  | engineReset (engine : BitVec 8)
  /-- ENGINE_KAT_DONE (R127): An engine's known-answer test ends; a pass makes it its folio's spare and a
  fail keeps it marked out. -/
  | engineKatDone (pass : Bool)
  /-- CREDIT_RETURN (R64): A credit return arrives on a spine link and the sender adds the credits back to
  its book. -/
  | creditReturn (link vc : Fin 4) (dir : Fin 2) (n : Fin 17)
  /-- CELL_RELEASE (R63): A cell release arrives at the hub, moving cells from allocated to returning and
  then to free. -/
  | cellRelease (handle : Nat)
  /-- WORK_ITEM_ARRIVAL (R359): A work item reaches a folio's dispatch queue and an idle engine of its role
  takes it. -/
  | workItemArrival (folio : Fin 32)
  /-- DIE_LOST (R45): An engine die is lost: credit books are frozen, its work is redispatched or completed
  as lost and its cells are reclaimed. -/
  | dieLost (die : Fin 4)
  /-- PACE_MONITOR_SAMPLE (R50): Every 10 µs the pace monitor publishes the average pace of its quire. -/
  | paceMonitorSample (quire : Fin 16) (pace : BitVec 16)
  /-- PACE_LOW_TIMEOUT (R52): A pace-low condition lasting 10 ms makes the device isolate the quire. -/
  | paceLowTimeout (quire : Fin 16)
  /-- RAIL_ADJUST (R51): At most once per 100 µs the hub steps an engine-die regulator by 5 mV toward the
  target pace. -/
  | railAdjust (die : Fin 4)
  /-- RAIL_MONITOR_SAMPLE (R565): A 10 µs rail average outside its fault limits raises the rail's checked
  fault. -/
  | railMonitorSample (rail : Rail) (v : BitVec 16)
  /-- LEDGER_POINT (R536): At each period or NOW, the hub snapshots all counters and books into one bank
  and checks every book. -/
  | ledgerPoint (out : List BookOut)
  /-- NOW (R535): A write of OBS_LEDGER_CTRL.NOW takes a ledger point within 2 µs. -/
  | now (out : List BookOut)
  /-- LEDGER_NUM_READ (R537): A read of OBS_LEDGER_NUM holds the latest complete snapshot bank for reading. -/
  | ledgerNumRead
  /-- RELEASE (R537): A write of OBS_LEDGER_RELEASE ends the snapshot hold. -/
  | release
  /-- HOLD_EXPIRED (R537): A snapshot hold ends 10 ms after the read and HOLD_EXPIRED is posted. -/
  | holdExpired
  /-- TRACE_RECORD (R533): A trace record reaches the hub FIFO, or is discarded and counted when the FIFO
  is full. -/
  | traceRecord (item : TraceItem) (ageNs : Nat)
  /-- TRACE_SYNC (R532): At trace enable and each whole ms of uptime the hub sends a SYNC record. -/
  | traceSync
  /-- FORE_EDGE_REALIGN (R56): Every 1 µs each fore-edge realigns its local copy of the time base. -/
  | foreEdgeRealign
  /-- STEP_APPLIED (R141): An accepted step takes effect at the next 1 µs boundary on the time base and
  every fore-edge copy, and schedules meet it as R142 states. -/
  | stepApplied
  /-- SLEW_DONE (R143): A slew residual reaches zero and SLEW_DONE is posted. -/
  | slewDone
  /-- TB_SET (R167): A commit of TB_SET sets the time base as a step of (value − now), or is refused with
  SET_REFUSED. -/
  | tbSet (value : Full)
  /-- TB_STEP (R167): A commit of TB_STEP requests a signed step, accepted under the jump threshold or
  refused. -/
  | tbStep (value : BitVec 64)
  /-- TB_RATE (R134): A write of TB_RATE sets the rate adjustment, clamped to ±500 ppm, under the host
  stack. -/
  | tbRate (value : BitVec 32)
  /-- APPLY (R146): TB_STEP_AUTH ACTION 1 applies the pending step. -/
  | apply
  /-- SLEW (R146): TB_STEP_AUTH ACTION 2 turns the pending step into a slew residual. -/
  | slew
  /-- REJECT (R146): TB_STEP_AUTH ACTION 3 drops the pending step. -/
  | reject
  /-- TB_HOST_STATUS_WRITE (R140): A write of TB_HOST_STATUS sets the time status under the host stack, or
  is ignored where R137 does not allow it. -/
  | tbHostStatusWrite (value : BitVec 2)
  /-- PTP_CTRL_WRITE (R160): A write of PTP_CTRL enables PTP and ports, and changes STACK only when ENABLE
  was already 0. -/
  | ptpCtrlWrite (value : Word)
  /-- PTP_SWITCH_GO (R148): A write of PTP_SWITCH.GO swaps working and second domains when the second is
  LOCKED, or is refused. -/
  | ptpSwitchGo
  /-- SYNC (R137): A usable Sync, or Sync and Follow_Up pair, of a tracked domain gives an offset
  measurement that steers the servo and the time status. -/
  | sync (port : Fin 12) (domain seq : Nat) (twoStep : Bool) (origin : Full) (correction : Int) (rx : Full)
  /-- FOLLOW_UP (R160): A Follow_Up message completes a two-step Sync measurement. -/
  | followUp (port : Fin 12) (domain seq : Nat) (origin : Full) (correction : Int)
  /-- ANNOUNCE (R160): An Announce message feeds the best master clock algorithm and port states. -/
  | announce (port : Fin 12) (domain : Nat) (gm : BitVec 64) (dataSet : List Nat) (utc : BitVec 16) (utcValid : Bool)
  /-- DELAY_REQ (R160): A Delay_Req message is answered in the end-to-end delay exchange. -/
  | delayReq (port : Fin 12) (domain seq : Nat) (rx : Full)
  /-- DELAY_RESP (R160): A Delay_Resp message completes an end-to-end delay measurement. -/
  | delayResp (port : Fin 12) (domain : Nat) (t3 t4 : Full)
  /-- PDELAY_REQ (R160): A Pdelay_Req message is answered in the peer delay exchange. -/
  | pdelayReq (port : Fin 12) (seq : Nat) (rx : Full)
  /-- PDELAY_RESP (R160): A Pdelay_Resp or its follow-up completes a mean link delay measurement. -/
  | pdelayResp (port : Fin 12) (t1 t2 t3 t4 : Full)
  /-- PTP_UNSUPPORTED_MESSAGE (R161): A received PTP message using an unsupported feature is discarded and
  counted. -/
  | ptpUnsupportedMessage (port : Fin 12)
  /-- DOMAIN_LOST (R138): A domain receives no usable Sync within announceReceiptTimeout, or loses its
  grandmaster, and its reference is lost. -/
  | domainLost (slot : Fin 4) (noMaster : Bool)
  /-- PPS_IN_EDGE (R164): An edge of 1PPS_IN is stamped, and when 1PPS_IN is the working reference it gives
  an offset measurement. -/
  | ppsInEdge (falling : Bool) (stamp : Full)
  /-- PPS_IN_LOST (R138): 1PPS_IN misses 3 consecutive seconds and the reference is lost. -/
  | ppsInLost
  /-- PPS_OUT_RISE (R163): The time base crosses a whole second and 1PPS_OUT rises when its status rules
  allow. -/
  | ppsOutRise
  /-- PPS_OUT_FALL (R163): 1PPS_OUT falls after WIDTH_US. -/
  | ppsOutFall
  /-- REF10M_LOST (R165): The 10 MHz input is lost and the HOLDOVER rate falls back to the servo average. -/
  | ref10mLost
  /-- HEADER_ARRIVAL (R196): A frame header reaches its fore-edge; its launch time is read once into full
  form and it joins its class. -/
  | headerArrival (port : Fin 12) (cls : Fin 8)
  /-- LAUNCH_TIME_DUE (R197): A launch time becomes due and the frame is eligible to cross the MII within
  its granularity. -/
  | launchTimeDue (port : Fin 12)
  /-- LATE_DROPPED (R198): A launch-time frame certain to exceed its late tolerance completes LATE_DROPPED
  and its cells are released. -/
  | lateDropped (port : Fin 12) (plcaWaitNs : Nat)
  /-- FRAME_TRANSMIT_START (R173): At a transmission opportunity the fore-edge selects the highest eligible
  class and starts its head frame, with stamps and one-step insertion. -/
  | frameTransmitStart (port : Fin 12) (plcaWaitNs : Nat)
  /-- FRAME_TRANSMIT_END (R60): The last byte of a frame leaves the MAC, its cells are released and its
  completion is made. -/
  | frameTransmitEnd (port : Fin 12)
  /-- GATE_ENTRY_START (R181): An operational gate entry begins and gate states change at the first port
  clock at or after it. -/
  | gateEntryStart (port : Fin 12)
  /-- CBS_CREDIT_RECOVERED (R203): A shaped class's credit returns to zero and the class becomes eligible
  again. -/
  | cbsCreditRecovered (port : Fin 12)
  /-- CBS_SLOPE_WRITE (R204): A write of IDLE_SLOPE is refused above 75 % of port rate, or changes the
  slope and recomputes LO_CREDIT. -/
  | cbsSlopeWrite (port : Fin 12) (cls : Fin 8) (value : BitVec 25)
  /-- HOLD_ASSERT (R207): At a SetAndHoldMAC entry's start minus HOLD_ADVANCE the hold is asserted on the
  preemptable MAC. -/
  | holdAssert (port : Fin 12)
  /-- HOLD_RELEASE (R207): At a SetAndReleaseMAC entry's start plus RELEASE_ADVANCE the hold is released. -/
  | holdRelease (port : Fin 12)
  /-- GCL_GO (R177): A write of PORTn_CONFIG_CHANGE.GO starts validation of the admin list, or is refused
  with BUSY. -/
  | gclGo (port : Fin 12)
  /-- GCL_CANCEL (R179): A write of PORTn_CONFIG_CHANGE.CANCEL ends a validation or drops a pending change. -/
  | gclCancel (port : Fin 12)
  /-- GCL_VALIDATED (R178): Validation of the admin list ends, refusing it with GCL_REFUSED or writing the
  change time into the fore-edge. -/
  | gclValidated (port : Fin 12)
  /-- GCL_CHANGED (R180): At the change time the admin list becomes operational at one tick and GCL_CHANGED
  is posted. -/
  | gclChanged (port : Fin 12)
  /-- ADMIN_COPY_DONE (R180): The copy of the new operational list into the admin bank finishes and STATE
  returns to IDLE. -/
  | adminCopyDone (port : Fin 12)
  /-- PCS_LOCK_CHANGE (R217): The PCS gains or loses lock, or an SFP or in-band status changes, starting
  the link hold timers. -/
  | pcsLockChange (port : Fin 12) (report : PcsReport)
  /-- LINK_DOWN (R217): A loss that lasts DOWN_HOLD_US declares the link down and a frame on the medium is
  returned for resend. -/
  | linkDown (port : Fin 12)
  /-- LINK_UP (R217): Lock and status held for UP_HOLD_MS declare the link up and verify starts. -/
  | linkUp (port : Fin 12)
  /-- ADMIN_DOWN_WRITE (R217): A write of ADMIN_DOWN declares the link down at once or lets it come up
  after UP_HOLD_MS. -/
  | adminDownWrite (port : Fin 12) (value : Word)
  /-- FRAME_RECEIVE (R222): A frame is received whole, checked, filtered, stamped and classified into a
  flow. -/
  | frameReceive (port : Fin 12) (bytes : List Byte) (line : RxLine) (ageNs : Nat)
  /-- MM_FRAGMENT_RECEIVE (R230): A preemptable fragment is received and reassembled, or discarded as an
  assembly error. -/
  | mmFragmentReceive (port : Fin 8) (smd count : BitVec 8) (bytes : List Byte) (last : Bool) (mcrc : BitVec 32) (line : RxLine) (ageNs : Nat)
  /-- VERIFY_RECEIVE (R226): A received verify mPacket is answered with a respond mPacket. -/
  | verifyReceive (port : Fin 8)
  /-- RESPOND_RECEIVE (R226): A respond mPacket received within the wait sets VSTATE SUCCEEDED and posts
  VERIFY_OK. -/
  | respondReceive (port : Fin 8)
  /-- VERIFY_TIMEOUT (R226): VERIFY_MS passes without a respond; another attempt is sent or, after 3,
  VSTATE becomes FAILED. -/
  | verifyTimeout (port : Fin 8)
  /-- MM_ENABLE_WRITE (R226): A write of MM_CTRL.ENABLE from 0 to 1 while the link is up starts verify. -/
  | mmEnableWrite (port : Fin 8) (value : Word)
  /-- PAUSE_RECEIVE (R237): A received PAUSE frame stops every class for its quanta, or is counted and
  discarded. -/
  | pauseReceive (port : Fin 12) (quanta : BitVec 16)
  /-- PFC_RECEIVE (R237): A received PFC frame stops the classes of paused priorities, or is counted and
  discarded. -/
  | pfcReceive (port : Fin 12) (enable : BitVec 8) (quanta : BitVec 128)
  /-- FC_STOP_EXPIRE (R237): A flow-control stop's time runs out and the class becomes eligible again. -/
  | fcStopExpire (port : Fin 12) (cls : Fin 8)
  /-- FC_REFRESH (R235): Half of PAUSE_TIME passes with occupancy still at XON or above and the frame is
  sent again. -/
  | fcRefresh (port : Fin 12) (prio : Fin 8)
  /-- PLCA_BEACON_RECEIVE (R238): A PLCA BEACON is received, applying staged PLCA parameters and restoring
  PLCA. -/
  | plcaBeaconReceive (t1s : Fin 4)
  /-- PLCA_BEACON_LOSS (R239): No BEACON arrives within the loss limit and the port falls back to CSMA/CD. -/
  | plcaBeaconLoss (t1s : Fin 4)
  /-- COLLISIONS (R239): A collision on a T1S segment is counted, and after 16 attempts the frame is resent
  afresh. -/
  | collisions (t1s : Fin 4)
  /-- WAKE_PATTERN_MATCH (R240): In Dormant a matching frame asserts WAKE_N and sets the port's bit in
  GLB_WAKE_CAUSE. -/
  | wakePatternMatch (k : Fin 6) (frame : WireFrame)
  /-- MDIO_POLL (R552): Every 1 ms the device reads the link status of each external PHY over MDIO. -/
  | mdioPoll (up : BitVec 6)
  /-- FLOW_CACHE_FILL (R253): A bucket group fetched from DRAM arrives in the flow cache and waiting
  lookups proceed. -/
  | flowCacheFill (part : BitVec 6) (bucket : BitVec 18)
  /-- FLOW_CHECKPOINT (R255): Each 1 ms a lent flow is checkpointed to the hub and DRAM. -/
  | flowCheckpoint (flow : BitVec 20)
  /-- FLOW_IDLE_RETURN (R255): A lent flow with no work item for IDLE_US is returned with its final state. -/
  | flowIdleReturn (flow : BitVec 20)
  /-- FLOW_SWEEP (R272): A sweep visits a flow, applying the recovery timeout, refreshing the policer and
  running a due latent test. -/
  | flowSweep (flow : BitVec 20)
  /-- CMD_BLOCK_READ (R398): The read of a command block completes and its command runs, or the read fails. -/
  | cmdBlockRead (src : CmdSrc) (fin : ReadEnd) (block : FlowBlock) (wbOk : Bool)
  /-- INSERT (R279): Flow command INSERT installs a flow in a candidate bucket or the overflow CAM. -/
  | insert (src : CmdSrc) (part : BitVec 8) (key context : BitVec 512)
  /-- FLOW_MODIFY (R279): Flow command MODIFY replaces the context fields INSERT takes, with a recovery
  reset where needed. -/
  | flowModify (src : CmdSrc) (part flags : BitVec 8) (flowIdx : BitVec 32) (key context : BitVec 512)
  /-- DELETE (R279): Flow command DELETE stops classifying to the flow, lets its items finish, then frees
  its slot. -/
  | delete (src : CmdSrc) (part flags : BitVec 8) (flowIdx : BitVec 32) (key : BitVec 512)
  /-- READ (R279): Flow command READ folds deltas and returns a consistent image of the flow, clearing with
  CLEAR. -/
  | read (src : CmdSrc) (part flags : BitVec 8) (flowIdx : BitVec 32) (key : BitVec 512)
  /-- FLOW_RECOVERY_RESET (R279): Flow command RECOVERY_RESET performs a recovery reset under R271. -/
  | flowRecoveryReset (src : CmdSrc) (part flags : BitVec 8) (flowIdx : BitVec 32) (key : BitVec 512)
  /-- GEN_RESET (R279): Flow command GEN_RESET sets GEN_SEQ to 0 and counts GEN_RESTARTS. -/
  | genReset (src : CmdSrc) (part flags : BitVec 8) (flowIdx : BitVec 32) (key : BitVec 512)
  /-- FRER_PROFILE_COMMIT (R282): A write of a FRER profile's W3 commits it, or is ignored when out of
  range or when it changes a profile in use. -/
  | frerProfileCommit (profile : BitVec 8)
  /-- POLICER_PROFILE_COMMIT (R283): A write of a policer profile's W3 commits the four words, or is
  ignored when invalid. -/
  | policerProfileCommit (profile : BitVec 12)
  /-- PAIR_LINK_FRAME_RECEIVE (R521): A frame copy arrives over the pair link, is stamped locally and
  classified as source 12. -/
  | pairLinkFrameReceive (lane : Fin 2) (bytes : List Byte) (ageNs : Nat)
  /-- PAIR_COPY_TIMEOUT (R521): A pair-link copy waits 20 µs without credit and is dropped and counted. -/
  | pairCopyTimeout
  /-- CYCLE_START (R299): At C(n) the master launches CYCLE, DELAY and POLL frames of the built cycle, or a
  HOLD when none is present. -/
  | cycleStart
  /-- RING_CYCLE_BUILD (R302): A built cycle reaches the ring fore-edges, counted as a lead miss when late
  and discarded when its cycle was sent as HOLD. -/
  | ringCycleBuild (cycle : BitVec 16)
  /-- RING_MARK (R297): At a mark's instant it posts its event, requests its interrupt, releases GATE waits
  and sends a MARK frame. -/
  | ringMark (mark : Fin 16)
  /-- REPLY (R304): A REPLY arrives at the master and is judged by its deviation as accepted, drift or
  discarded. -/
  | reply (side : Fin 2) (cycle : BitVec 16) (slot : BitVec 12) (station flags : BitVec 8) (d : BitVec 32) (payload : List Byte) (ageNs : Nat)
  /-- RING_SLOT_DEADLINE (R307): A slot's deadline passes; an accepted reply is delivered or the slot is
  counted missed. -/
  | ringSlotDeadline (cycle : BitVec 16) (slot : BitVec 12)
  /-- DELAY_OUT_RECEIVE (R308): A DELAY OUT frame returns to the master, which computes Λ and sends BACK in
  ring mode. -/
  | delayOutReceive (side : Fin 2) (seq : BitVec 16) (of : Fin 2) (ret : Bool) (ageNs : Nat)
  /-- DELAY_BACK_RECEIVE (R308): A DELAY BACK frame arrives and the master records T3 for the ASSIGN. -/
  | delayBackReceive (side : Fin 2) (seq : BitVec 16) (of : Fin 2) (ageNs : Nat)
  /-- RING_RETURN_FRAME (R313): A ring frame returns to the master, and one with RET set on P6 declares a
  break. -/
  | ringReturnFrame (side : Fin 2) (type : BitVec 4) (cycle : BitVec 16) (ret : Bool)
  /-- RING_CYCLE_RETURN_TIMEOUT (R313): A CYCLE has not returned on P7 by C(n) + Λ + two gutters and a
  break is declared. -/
  | ringCycleReturnTimeout
  /-- HEAL (R314): A write of RING_CTRL.HEAL requests the return to ring mode. -/
  | heal
  /-- MEASURE (R308): A write of RING_CTRL.MEASURE requests a delay measurement in the next cycle. -/
  | measure
  /-- RING_ENABLE_WRITE (R324): A write of RING_CTRL.ENABLE starts the ring at LISTEN, or stops it at the
  next cycle start. -/
  | ringEnableWrite (enable : Bool)
  /-- RING_ETHERTYPE_WRITE (R324): A write of RING_ETHERTYPE takes effect at the next cycle start or at
  once when no cycles run. -/
  | ringEthertypeWrite (value : BitVec 16)
  /-- RING_READMIT (R305): A write of RING_READMIT.GO readmits a station from the next cycle with its miss
  count at zero. -/
  | ringReadmit (station : BitVec 8)
  /-- RING_TABLE_GO (R301): A write of RING_TABLE_COMMIT.GO starts validation of the admin bank, or is
  refused with BUSY. -/
  | ringTableGo
  /-- RING_TABLE_CANCEL (R301): A write of RING_TABLE_COMMIT.CANCEL ends validation or drops a pending
  change. -/
  | ringTableCancel
  /-- RING_TABLE_VALIDATED (R301): Ring table validation ends, refusing it with TABLE_REFUSED or scheduling
  the change. -/
  | ringTableValidated
  /-- RING_LISTEN_END (R317): The 10 ms listen ends; a non-master-capable device enters STANDBY, others
  start the hold-off. -/
  | ringListenEnd
  /-- RING_HOLDOFF_END (R317): The SERIAL hold-off ends and the device starts sending CLAIMs. -/
  | ringHoldoffEnd
  /-- CLAIM_SEND (R317): Every 100 µs during the claim the device sends a CLAIM from P6 and P7. -/
  | claimSend
  /-- CLAIM_RECEIVE (R317): A received CLAIM with a lower tuple makes the device yield and become standby. -/
  | claimReceive (priority : BitVec 8) (serial : BitVec 64)
  /-- CLAIM_WON (R317): The 2 ms claim ends with no lower tuple seen and the device enters MEASURE. -/
  | claimWon
  /-- FOREIGN_MASTER (R320): A CYCLE or HOLD from another master is counted and mastership stops at the end
  of the cycle. -/
  | foreignMaster
  /-- STANDBY_FORWARD (R319): A standby master receives a ring frame and aligns to CYCLEs. -/
  | standbyForward (side : Fin 2) (bytes : List Byte) (ageNs : Nat)
  /-- STANDBY_RELAY_LAUNCH (R319): 13,000 ns after arrival the standby master sends the frame on its other
  ring port. -/
  | standbyRelayLaunch
  /-- EVT_INPUT_CHANGE (R330): An event input pin changes level and its glitch filter starts. -/
  | evtInputChange (pin : Fin 32) (level : Bool)
  /-- EVT_EDGE_ACCEPT (R330): A level held for FILTER_NS is accepted as an edge, stamped, counted or
  captured and raises the DMA request line. -/
  | evtEdgeAccept (pin : Fin 32)
  /-- EVT_TARGET (R336): A schedule target falls and a pulse's leading edge is driven or a snapshot target
  is taken. -/
  | evtTarget (pin : Fin 32)
  /-- EVT_PULSE_END (R336): A pulse's WIDTH ends and the pin returns to its inactive level. -/
  | evtPulseEnd (pin : Fin 32)
  /-- EVT_SNAPSHOT_FORM (R334): FILTER_NS + 100 ns after a target the snapshot record is formed. -/
  | evtSnapshotForm (pin : Fin 32)
  /-- EVT_SCHEDULE_COMMIT (R337): A write of EVT_PINn_REPEAT commits a new schedule, or is refused with
  SCHEDULE_REFUSED. -/
  | evtScheduleCommit (pin : Fin 32) (value : BitVec 32)
  /-- CLEAR (R334): A write of EVT_PINn_CTRL.CLEAR sets the pulse count to 0 between two ticks. -/
  | clear (pin : Fin 32)
  /-- EVT_ARM_WRITE (R341): A write of ARM arms a pin or ends its schedule after any pulse in progress. -/
  | evtArmWrite (pin : Fin 32) (arm : Bool)
  /-- EVT_LEVEL_OUT_WRITE (R340): A write of EVT_LEVEL_OUT drives each level-output pin at the next tick. -/
  | evtLevelOutWrite (value : BitVec 32)
  /-- EVT_RECORD_DELIVER (R332): A pin's FIFO record leaves for its event queue when the queue can accept
  it. -/
  | evtRecordDeliver (pin : Fin 32)
  /-- SEQ (R351): NEXT mode SEQ continues at the next microaddress. -/
  | seq (e : Fin 160)
  /-- BR (R351): NEXT mode BR branches to TARGET when the condition holds. -/
  | br (e : Fin 160)
  /-- CALL (R351): NEXT mode CALL branches and pushes the return address, aborting on a full stack. -/
  | call (e : Fin 160)
  /-- RET (R351): NEXT mode RET pops the stack, or returns from a handler. -/
  | ret (e : Fin 160)
  /-- DISPATCH (R359): NEXT mode DISPATCH ends the work item and the engine takes the next eligible item. -/
  | dispatch (e : Fin 160)
  /-- WAIT (R351): NEXT mode WAIT repeats until its condition holds, such as a mark's GATE. -/
  | wait (e : Fin 160)
  /-- NOP (R353): ALU operation NOP does nothing. -/
  | nop (e : Fin 160) (k : Fin 2)
  /-- ADD (R353): ALU operation ADD adds operands. -/
  | add (e : Fin 160) (k : Fin 2)
  /-- SUB (R353): ALU operation SUB subtracts operands. -/
  | sub (e : Fin 160) (k : Fin 2)
  /-- AND (R353): ALU operation AND. -/
  | and (e : Fin 160) (k : Fin 2)
  /-- OR (R353): ALU operation OR. -/
  | or (e : Fin 160) (k : Fin 2)
  /-- XOR (R353): ALU operation XOR. -/
  | xor (e : Fin 160) (k : Fin 2)
  /-- SHL (R353): ALU operation SHL shifts left by B[5:0]. -/
  | shl (e : Fin 160) (k : Fin 2)
  /-- SHR (R353): ALU operation SHR shifts right logically. -/
  | shr (e : Fin 160) (k : Fin 2)
  /-- SAR (R353): ALU operation SAR shifts right arithmetically. -/
  | sar (e : Fin 160) (k : Fin 2)
  /-- ROL (R353): ALU operation ROL rotates left. -/
  | rol (e : Fin 160) (k : Fin 2)
  /-- MOV (R353): ALU operation MOV copies operand A. -/
  | mov (e : Fin 160) (k : Fin 2)
  /-- LDI64 (R353): ALU0 operation LDI64 loads the whole 64-bit immediate. -/
  | ldi64 (e : Fin 160)
  /-- CMP (R353): ALU operation CMP computes A − B for the flags only. -/
  | cmp (e : Fin 160) (k : Fin 2)
  /-- MIN (R353): ALU operation MIN, signed. -/
  | min (e : Fin 160) (k : Fin 2)
  /-- MAX (R353): ALU operation MAX, signed. -/
  | max (e : Fin 160) (k : Fin 2)
  /-- ADD16 (R353): ALU operation ADD16 adds modulo 2^16. -/
  | add16 (e : Fin 160) (k : Fin 2)
  /-- SUB16S (R353): ALU operation SUB16S gives the sign-extended 16-bit difference. -/
  | sub16s (e : Fin 160) (k : Fin 2)
  /-- SUB32S (R353): ALU operation SUB32S gives the sign-extended 32-bit difference of R14. -/
  | sub32s (e : Fin 160) (k : Fin 2)
  /-- MUL (R353): ALU operation MUL gives the low 64 bits of the product. -/
  | mul (e : Fin 160) (k : Fin 2)
  /-- MULHI (R353): ALU operation MULHI gives the unsigned high 64 bits of the product. -/
  | mulhi (e : Fin 160) (k : Fin 2)
  /-- BSWAP (R353): ALU operation BSWAP reverses the bytes of A. -/
  | bswap (e : Fin 160) (k : Fin 2)
  /-- POPCNT (R353): ALU operation POPCNT counts the set bits of A. -/
  | popcnt (e : Fin 160) (k : Fin 2)
  /-- CLZ (R353): ALU operation CLZ counts the leading zeros of A. -/
  | clz (e : Fin 160) (k : Fin 2)
  /-- CRC32 (R353): ALU operation CRC32 updates A by the low byte of B. -/
  | crc32 (e : Fin 160) (k : Fin 2)
  /-- EXTRACT (R354): Field unit EXTRACT reads bits from the work-item window into FREG. -/
  | extract (e : Fin 160)
  /-- FIELD_INSERT (R354): Field unit INSERT stages bits from FREG into the frame, written at commit. -/
  | fieldInsert (e : Fin 160)
  /-- LOAD (R355): Memory operation LOAD reads ITEM, CTX, QUIRE or LOCAL through the shadow. -/
  | load (e : Fin 160)
  /-- STORE (R355): Memory operation STORE stages a write in the shadow. -/
  | store (e : Fin 160)
  /-- ADDM (R355): Memory operation ADDM stages an addition to memory. -/
  | addm (e : Fin 160)
  /-- BITSET (R355): Memory operation BITSET stages a bit set. -/
  | bitset (e : Fin 160)
  /-- BITCLR (R355): Memory operation BITCLR stages a bit clear. -/
  | bitclr (e : Fin 160)
  /-- EMIT_RXQ (R356): Hub operation EMIT_RXQ stages delivery of the frame to a receive queue. -/
  | emitRxq (e : Fin 160)
  /-- EMIT_PORT (R356): Hub operation EMIT_PORT stages placing the frame on a port class queue. -/
  | emitPort (e : Fin 160)
  /-- EMIT_REC (R356): Hub operation EMIT_REC stages a recording copy. -/
  | emitRec (e : Fin 160)
  /-- EMIT_PAIR (R356): Hub operation EMIT_PAIR stages a pair-link copy. -/
  | emitPair (e : Fin 160)
  /-- DROP (R356): Hub operation DROP stages release of the item's cells with a cause code. -/
  | drop (e : Fin 160)
  /-- COMPLETE (R356): Hub operation COMPLETE stages a completion for the item's work entry. -/
  | complete (e : Fin 160)
  /-- EVENT (R356): Hub operation EVENT stages posting of an event. -/
  | event (e : Fin 160)
  /-- READ_HUB (R356): Hub operation READ_HUB reads a hub resource into HRES. -/
  | readHub (e : Fin 160)
  /-- DRAM_READ (R356): Hub operation DRAM_READ reads up to 64 bytes of DRAM into LOCAL. -/
  | dramRead (e : Fin 160)
  /-- DRAM_WRITE (R356): Hub operation DRAM_WRITE stages a write of up to 64 bytes from LOCAL. -/
  | dramWrite (e : Fin 160)
  /-- FRAME_READ (R356): Hub operation FRAME_READ reads frame bytes beyond 128 into LOCAL. -/
  | frameRead (e : Fin 160)
  /-- FRAME_WRITE (R356): Hub operation FRAME_WRITE stages frame bytes from LOCAL into the item's cells. -/
  | frameWrite (e : Fin 160)
  /-- CMD_REPLY (R356): Hub operation CMD_REPLY stages the end of a command entry. -/
  | cmdReply (e : Fin 160)
  /-- FORE_EDGE (R356): Privileged hub operation FORE_EDGE stages handing a built frame or cycle to a
  fore-edge. -/
  | foreEdge (e : Fin 160)
  /-- TIME_ADJ (R356): Privileged hub operation TIME_ADJ stages a rate, step or slew request to the time
  base. -/
  | timeAdj (e : Fin 160)
  /-- COMMIT (R363): A word with COMMIT publishes the whole shadow at its end as one unit. -/
  | commit (e : Fin 160)
  /-- PROG (R368): A commit with PROG publishes X29 as the item's progress word. -/
  | prog (e : Fin 160)
  /-- SAFE_POINT (R366): At a safe point the sequencer carries out pending migrations, then takes pending
  interrupts. -/
  | safePoint (e : Fin 160)
  /-- BOUND_EXCEEDED (R362): An item's word count exceeds 4 × BOUND and the routine aborts with cause
  BOUND. -/
  | boundExceeded (e : Fin 160)
  /-- ROLE_TIMER_EXPIRE (R369): A role timer set by TIME_ADJ expires and raises the TIMER interrupt. -/
  | roleTimerExpire (e : Fin 160)
  /-- ENGINE_SPARE_GO (R374): A write of ENG_SPARE_CTRL.GO requests a planned migration to the folio's
  spare, or is refused. -/
  | engineSpareGo (engine : BitVec 8)
  /-- MIGRATION_DONE (R374): The engine state copy to the spare completes, the spare continues and the
  device enters Degraded. -/
  | migrationDone (e : Fin 160)
  /-- ENGINE_HARD_FAILURE (R375): An engine's hard failure returns its item to the queue and the spare
  takes the role, or the folio is marked out. -/
  | engineHardFailure (e : Fin 160)
  /-- DOORBELL (R387): An aligned 64-bit doorbell write is accepted, moving a producer or consumer position
  and arming, or is rejected. -/
  | doorbell (fn : BitVec 6) (value : BitVec 64)
  /-- DB_BAD_WIDTH (R386): Any other write to a doorbell page is discarded and counted. -/
  | dbBadWidth
  /-- WORK_ENTRY_FETCH (R389): A read of work entries completes and entries with a valid mark are taken and
  checked. -/
  | workEntryFetch (qid : BitVec 20) (fin : ReadEnd) (entries : List (BitVec 256))
  /-- FRAGMENT_TABLE_READ (R395): A fragment table read completes and is checked, followed, or ends in
  LEN_ERROR or LOOP_SUSPECT. -/
  | fragmentTableRead (qid : BitVec 20) (pos : Nat) (fin : ReadEnd) (fragments : List (BitVec 128))
  /-- TX_BODY_READ_DONE (R390): A frame body read completes into cells, or ends in BUS_ERROR. -/
  | txBodyReadDone (qid : BitVec 20) (pos : Nat) (fin : ReadEnd) (body : List Byte)
  /-- COMPLETION_WRITE (R391): A ready completion is written to its CQ in order, or waits when the CQ is
  full. -/
  | completionWrite (cq : BitVec 20)
  /-- EVENT_POST (R404): An event is routed to its EQ, waiting, dropped or discarded as unrouted. -/
  | eventPost
  /-- RX_DELIVERY (R406): A frame is written into consecutive receive buffers and its completion made. -/
  | rxDelivery (qid : BitVec 20)
  /-- RX_HOLD_EXPIRE (R407): A frame waiting for buffers reaches QM_RX_HOLD and is truncated or dropped. -/
  | rxHoldExpire (qid : BitVec 20)
  /-- QM_CREATE (R410): Queue operation CREATE takes the context and enters DISABLED. -/
  | qmCreate (fn : BitVec 6)
  /-- QM_ENABLE (R410): Queue operation ENABLE enters ENABLED when allowed. -/
  | qmEnable (fn : BitVec 6)
  /-- QM_SHUTDOWN (R412): Queue operation SHUTDOWN drains outstanding entries as ABORTED and enters
  DISABLED. -/
  | qmShutdown (fn : BitVec 6)
  /-- QM_RESET (R410): Queue operation RESET shuts down a work queue and returns every position to 0. -/
  | qmReset (fn : BitVec 6)
  /-- QM_DESTROY (R410): Queue operation DESTROY enters ABSENT. -/
  | qmDestroy (fn : BitVec 6)
  /-- QM_MODIFY (R410): Queue operation MODIFY takes LATE_TOL_NS and IRQ_EN. -/
  | qmModify (fn : BitVec 6)
  /-- QM_QUERY (R410): Queue operation QUERY writes the whole context into the context words. -/
  | qmQuery (fn : BitVec 6)
  /-- DRAINED (R412): The last completion of a draining queue is written and DRAINED is posted. -/
  | drained (qid : BitVec 20)
  /-- CPL_TIMEOUT (R456): A read reaches its completion timeout, its tag is quarantined and the timeout is
  reported on its path. -/
  | cplTimeout (path : ReadPath) (fn : BitVec 6) (tag : BitVec 10)
  /-- LATE_COMPLETION (R457): A completion for a timed-out read is discarded, frees its tag and makes a
  NOTICE for queue reads. -/
  | lateCompletion (fn : BitVec 6) (tag : BitVec 10)
  /-- TAG_QUARANTINE_EXPIRE (R66): Twice the completion timeout passes and a quarantined tag returns to
  free. -/
  | tagQuarantineExpire (fn : BitVec 6) (tag : BitVec 10)
  /-- DMA_START (R423): A write of DMA_CHn_CTRL.START starts a channel at index 0 with counters and offsets
  cleared. -/
  | dmaStart (ch : Fin 32) (byRole : Bool)
  /-- DMA_STOP (R438): A write of DMA_CHn_CTRL.STOP moves the channel to STOPPING and then halts it
  ABORTED. -/
  | dmaStop (ch : Fin 32) (byRole : Bool)
  /-- CLEAR_REQ (R428): A write of DMA_CHn_CTRL.CLEAR_REQ clears the channel's pending request count. -/
  | clearReq (ch : Fin 32) (byRole : Bool)
  /-- DMA_FLAGS_WRITE (R424): A write of DMA_FLAGS sets flags, which may end a flag WAIT. -/
  | dmaFlagsWrite (value : BitVec 32)
  /-- DMA_MOVE (R422): Instruction MOVE copies LEN bytes in bursts. -/
  | dmaMove (ch : Fin 32) (f : DmaFetch)
  /-- DMA_GATHER (R422): Instruction GATHER copies each list entry's data to consecutive destination bytes. -/
  | dmaGather (ch : Fin 32) (f : DmaFetch) (list : List (BitVec 128)) (listFin : ReadEnd)
  /-- DMA_SCATTER (R422): Instruction SCATTER copies consecutive source bytes to each list entry's area. -/
  | dmaScatter (ch : Fin 32) (f : DmaFetch) (list : List (BitVec 128)) (listFin : ReadEnd)
  /-- DMA_LOOP (R423): Instruction LOOP decrements its counter, adds strides and jumps back until done. -/
  | dmaLoop (ch : Fin 32) (f : DmaFetch)
  /-- DMA_WAIT_REQUEST (R424): Instruction WAIT with SUB 0 ends when a request is taken on its line. -/
  | dmaWaitRequest (ch : Fin 32) (f : DmaFetch)
  /-- DMA_WAIT_TIME (R424): Instruction WAIT with SUB 1 ends when its target time is due. -/
  | dmaWaitTime (ch : Fin 32) (f : DmaFetch)
  /-- DMA_WAIT_FLAG (R424): Instruction WAIT with SUB 2 ends when its flag is set, clearing it. -/
  | dmaWaitFlag (ch : Fin 32) (f : DmaFetch)
  /-- DMA_SIGNAL_COMPLETION (R435): Instruction SIGNAL with SUB 0 fences then writes a DMA completion to
  its CQ. -/
  | dmaSignalCompletion (ch : Fin 32) (f : DmaFetch)
  /-- DMA_SIGNAL_FLAG (R435): Instruction SIGNAL with SUB 1 fences then sets a flag. -/
  | dmaSignalFlag (ch : Fin 32) (f : DmaFetch)
  /-- DMA_FENCE (R425): Instruction FENCE holds later instructions until earlier reads and writes are done. -/
  | dmaFence (ch : Fin 32) (f : DmaFetch)
  /-- DMA_HALT (R422): Instruction HALT fences and makes the channel IDLE. -/
  | dmaHalt (ch : Fin 32) (f : DmaFetch)
  /-- DMA_READ_COMPLETION (R431): A burst read response arrives and decrements the burst's count when good. -/
  | dmaReadCompletion (ch : Fin 32) (burst off : Nat) (data : List Byte) (fin : ReadEnd)
  /-- DMA_REQUEST (R428): A request on a DMA request line raises each watching channel's pending count. -/
  | dmaRequest (line : BitVec 6)
  /-- DMA_TIMER (R429): A DMA timer raises its request line at each multiple of its period on the time
  base. -/
  | dmaTimer (k : Fin 4)
  /-- VF_ENABLE (R447): A write of the SR-IOV VF Enable enables NumVFs virtual functions, or resets them
  when cleared. -/
  | vfEnable (enable : Bool) (numVfs : BitVec 16) (reads : List HostRead)
  /-- WIN_COMMIT (R469): A write of PCIE_WIN_COMMIT validates and copies staged windows into the active
  set, or is refused. -/
  | winCommit (windows : BitVec 4)
  /-- WINDOW_WRITE (R471): A host write to a DRAM window is stored, with poison if marked, or discarded
  when RDONLY. -/
  | windowWrite (w fn : Fin 4) (off : BitVec 23) (data : List (Option Byte)) (poisoned : Bool)
  /-- WINDOW_READ (R470): A host read of a DRAM window is completed under the mapping in force at its
  arrival. -/
  | windowRead (w fn : Fin 4) (off : BitVec 23) (len : Fin 4097) (ue : Bool)
  /-- UNSUPPORTED_REQUEST (R450): A request the device does not serve is completed with Unsupported
  Request. -/
  | unsupportedRequest (fn : BitVec 6) (kind : BadRequest)
  /-- LINK_CHANGE (R472): The host link comes up, retrains, or changes speed or width, and LINK_CHANGE is
  posted. -/
  | linkChange (speed : BitVec 3) (width : BitVec 4) (eqDone reversed : Bool) (lstate : BitVec 3)
  /-- VECTOR_COALESCE_TIMEOUT (R460): TIME_US passes since a vector's first pending request and its message
  is sent. -/
  | vectorCoalesceTimeout (fn : BitVec 6) (vector : BitVec 11)
  /-- VECTOR_UNMASK (R461): A vector or function mask clears and the pending message is sent. -/
  | vectorUnmask (fn : BitVec 6) (vector : BitVec 11)
  /-- LTR_WRITE (R464): A write of an LTR register resends the value in force within 10 µs. -/
  | ltrWrite (quiet : Bool) (value : BitVec 16)
  /-- CART_PRESENCE_CHANGE (R479): The debounced presence input changes, and its loss in service is a
  surprise removal. -/
  | cartPresenceChange (present : Bool)
  /-- CART_LATCH_CHANGE (R491): The debounced latch sensor changes, and opening it while powered is a
  surprise removal. -/
  | cartLatchChange (isOpen : Bool)
  /-- CART_BUTTON_PRESS (R479): A debounced attention button press starts or cancels a swap, or is counted
  with no effect. -/
  | cartButtonPress
  /-- POWER_FAULT (R491): CART_PWRFLT_N asserts, slot power goes off at once and the bay enters FAULT. -/
  | powerFault
  /-- CART_INSERT_SETTLED (R479): Presence and latch hold for 1 s and the bay powers the slot. -/
  | cartInsertSettled
  /-- CART_PERST_RELEASE (R479): 100 ms after power-on CART_PERST_N is deasserted. -/
  | cartPerstRelease
  /-- CART_LINK_UP (R479): The cartridge link comes up and the bay enters INIT. -/
  | cartLinkUp (speed : BitVec 3) (width : BitVec 4)
  /-- CART_LINK_TIMEOUT (R479): The cartridge link is not up within 1 s and the bay enters FAULT. -/
  | cartLinkTimeout
  /-- CART_STOP_TIMEOUT (R479): 5 s pass in STOPPING without a second press and the bay enters SHUTTING. -/
  | cartStopTimeout
  /-- NVME_COMPLETION (R480): An NVMe command completion is found by phase tag and the recorder advances,
  retries or faults. -/
  | nvmeCompletion (id : Nat) (ok : Bool) (d : NvmeData)
  /-- NVME_TIMEOUT (R487): An NVMe command has no completion after 5 s and counts as failed. -/
  | nvmeTimeout (id : Nat)
  /-- CART_SHUTDOWN_DONE (R479): CSTS.SHST reads shutdown complete, slot power goes off and the bay enters
  SAFE. -/
  | cartShutdownDone
  /-- CART_SHUTDOWN_TIMEOUT (R480): Shutdown does not complete within 10 s and power is removed regardless. -/
  | cartShutdownTimeout
  /-- LABEL (R484): A write of SLOT_REC_CTRL.LABEL in UNLABELLED writes a fresh label. -/
  | label
  /-- RECORDING_COPY (R485): A recording copy is appended to the open segment, closing it when the next
  record would not fit. -/
  | recordingCopy
  /-- SEGMENT_CLOSE_TIMEOUT (R485): SEG_MAX_MS after its first record a segment closes. -/
  | segmentCloseTimeout
  /-- BAD_INBOUND (R476): A cartridge memory request outside the recording partitions completes with
  Unsupported Request. -/
  | badInbound (addr len : Nat)
  /-- HEARTBEAT_SEND (R496): Every 10 µs a liaison engine sends its folio's heartbeat to the Guard. -/
  | heartbeatSend (standby : Bool) (time ring schedule : BitVec 16)
  /-- HEARTBEAT_RECEIVE (R498): The Guard accepts a heartbeat and restarts the folio's silence count. -/
  | heartbeatReceive
  /-- CTRL_MISSED (R498): The active folio's silence count reaches 3,000 ticks and the Guard decides a
  takeover. -/
  | ctrlMissed
  /-- CTRL_STALL (R498): An alive count unchanged for STALL_US makes the Guard decide a takeover. -/
  | ctrlStall (role : Fin 3)
  /-- NO_STANDBY (R499): A silent or not-ready standby has STANDBY_VALID cleared. -/
  | noStandby
  /-- TAKEOVER_DONE (R503): The old active's engines are tested and it becomes standby, or the Guard enters
  SINGLE. -/
  | takeoverDone (failed : BitVec 5)
  /-- GUARD_HANDOVER_WRITE (R505): A write of GUARD_CTRL.HANDOVER starts a planned handover, or is refused. -/
  | guardHandoverWrite
  /-- HANDOVER_REFUSED (R506): A planned handover not switched within its limit is abandoned. -/
  | handoverRefused
  /-- EPOCH_BOUNDARY (R507): At each multiple of EPOCH_US the hub raises EPOCH on the active control
  engines. -/
  | epochBoundary
  /-- EPOCH_TRAILER (R508): An epoch trailer arrives at the standby and the epoch becomes complete or is
  torn. -/
  | epochTrailer (number : BitVec 32) (final recordsOk crcOk : Bool) (replays : List Replay)
  /-- SELF_TEST (R513): The device runs the next known-answer or march test on an idle resource. -/
  | selfTest (t : SelfTest)
  /-- GUARD_OSC_CHECK (R497): Each ms the Guard oscillator is measured and a bad reading is the fault
  GUARD_OSC. -/
  | guardOscCheck (khz : Nat)
  /-- CHECKED_FAULT (R510): A checked fault is counted, recorded in HLTH_FAULT and answered as its table
  row states. -/
  | checkedFault (code : BitVec 8) (unit : BitVec 16) (item : FaultItem)
  /-- ROW_SPARED (R512): A row reaching CE_LIMIT corrected errors is spared live. -/
  | rowSpared (array : RowArray) (cells : BitVec 8)
  /-- PAIR_HEARTBEAT_SEND (R515): Every 100 µs the Guard sends a pair heartbeat with its vote and serial. -/
  | pairHeartbeatSend
  /-- PAIR_HEARTBEAT_RECEIVE (R515): A partner heartbeat arrives, binding the pair or changing the vote
  count. -/
  | pairHeartbeatReceive (vote : Fin 3) (serial : BitVec 64) (priority : BitVec 8) (active : Bool) (bundleSet tipinSet : BitVec 32) (credits : BitVec 10)
  /-- PAIR_LOST (R515): No partner heartbeat arrives for 300 µs and the partner counts as lost. -/
  | pairLost
  /-- ARB_VOTE_EDGE (R517): An edge of ARB_VOTE_IN keeps or gives the arbiter's FOR vote. -/
  | arbVoteEdge
  /-- ARB_VOTE_TIMEOUT (R517): No edge within 100 µs makes the arbiter vote NOT_FOR. -/
  | arbVoteTimeout
  /-- PAIR_EPOCH_RECEIVE (R519): A pair epoch of the ring master arrives and is kept when complete. -/
  | pairEpochReceive (complete : Bool) (epoch : PairEpoch)
  /-- PAIR_LANE_CHANGE (R515): A pair-link lane goes down or up and copies move to the remaining lane. -/
  | pairLaneChange (lane : Fin 2) (up : Bool)
  /-- COLOPHON (R522): Each PERIOD_MS the device forms a colophon, latches it and writes it to the ring
  when enabled. -/
  | colophon
  /-- THERMAL_THRESHOLD_CROSS (R552): A die temperature crosses a threshold, asserting or releasing
  THERM_N, posting TEMP_WARN or raising TEMP_CRIT. -/
  | thermalThresholdCross (die : Fin 5) (temp : BitVec 16)
  /-- SMBUS_READ (R552): An SMBus read of the management target returns the latest colophon. -/
  | smbusRead
  /-- SMBUS_WRITE (R552): An SMBus write to the management target is acknowledged and ignored. -/
  | smbusWrite (offset : BitVec 16) (data : BitVec 8)
  /-- MAIN_PG_RISE (R560): MAIN_PG is asserted after PERST_N has already been deasserted, and Boot starts,
  with the 20 ms of R99 counted from that instant. -/
  | mainPgRise
  /-- REF10M_LOCKED (R165): The 10 MHz input becomes present and its measurement settles, so that
  REF10M_LOCKED reads 1 and HOLDOVER may take its rate from it. -/
  | ref10mLocked (rate : Option Int)
  /-- CART_LINK_DOWN (R479): The cartridge link fails after it has come up, and the bay enters FAULT with
  slot power off. -/
  | cartLinkDown
  /-- GUARD_PAIR_CTRL_WRITE (R516): A write of GUARD_PAIR_CTRL changes ENABLE, WITHDRAW, ARB_SRC or
  HOST_VOTE, starting or stopping pair heartbeats and changing the device's own or the arbiter's vote and
  thus its system-active role. -/
  | guardPairCtrlWrite (value : Word)
  /-- FLOW_CMD_GO (R283): A write of FLOW_CMD_CTRL.GO sets the flow mailbox BUSY and issues the read of the
  command block at FLOW_CMD_ADDR, or is ignored while BUSY. -/
  | flowCmdGo (pf3 : Bool)
  /-- INTERRUPT_MODE_CHANGE (R461): A configuration write changes a function's MSI-X Enable, MSI Enable or
  Interrupt Disable, so pending requests are delivered in the new mode and coalescing counts and timers
  restart. -/
  | interruptModeChange (fn : BitVec 6) (msix mask msi : Bool) (messages : BitVec 6) (intxDisable : Bool)
  deriving DecidableEq, Repr

end Sys2Proof
end

