-- ==== Sys2Proof/Decode.lean ====
section
/-! DEFINITION. Decoding by the bits of the opcode table: no row of it gives any bits. -/

namespace Sys2Proof

/-- The command that a word of `nbits` bits spells by the table's bits: none. -/
def decodeTableWord (_nbits _w : Nat) : Option Instr := none

end Sys2Proof
end

