-- ==== Sys2Proof/Config.lean ====
section
/-! DEFINITION. What one part fixes (its grade, its fuses, its serial) and the values the spec
leaves open, which are constants without a body: nothing can be proved of them but what holds of
every value. -/

namespace Sys2Proof

/-- A value the spec leaves open, fresh each time: `n` is the machine's count of the values drawn.
No body: every statement holds whatever it is. -/
opaque Config.freeValue : Nat → BitVec 64

/-- A free value of unbounded width, for digests and contents the spec leaves open. -/
opaque Config.freeNat : Nat → Nat

/-- The device's 64-bit serial (R325), a fuse. -/
opaque Config.serial : BitVec 64

/-- The Akavaga root-key digest held in fuses (R84, R103). -/
opaque Config.rootDigest : Nat

/-- The SHA-512 digest of bytes (R75). -/
opaque Config.sha512 : List Byte → BitVec 512

/-- The SHA-512 digest of the bytes of an image from offset 0 up to SIG_R (R83): of the image without its
signature. -/
opaque Config.imageDigest : Image → BitVec 512

/-- The SHA-512 digest of a CODE record up to its seal, and of a tip-in's decrypted text (R86): of the record
without its seal and its tag. -/
opaque Config.recordDigest : CodeRec → BitVec 512

/-- The patch key held in fuses, under which tip-ins are encrypted (R86). -/
opaque Config.patchKey : Nat

/-- The first 32 bytes of the digest of the device's identity public key (R85). -/
opaque Config.identityId : Nat

/-- The identity public key (R114), 133 bytes. -/
opaque Config.identityKey : Nat

/-- How far the local copy of the time base at the fore-edge of port `n` stands from the time base at uptime
`u` (R56): a value the spec leaves open, of which the model takes what R56 allows, ±2 ns. -/
opaque Config.copyDrift : (n u : Nat) → Nat

/-- The hash key of R248, drawn at Imposing `n`. -/
opaque Config.hashKey : Nat → BitVec 128

/-- The CRC32 step of the ALUs (R353), whose polynomial the spec does not give: A and the low byte of B. -/
opaque Config.crc32Step : BitVec 64 → BitVec 8 → BitVec 64

/-- True on FR8128-E, false on FR8128-I (R2).  DESIGN CHOICE: the part modelled is FR8128-I. -/
def Config.gradeE : Bool := false

/-- The stepping code of A0 (R1, R3). -/
def Config.stepping : Nat := 0x00

/-- The endpaper version of A0 (R130). -/
def Config.endpaperVer : Nat := 0x01000000

end Sys2Proof
end

