-- ==== Sys2Proof/Machine/Table.lean ====
section
/-! DEFINITION. Sparse tables: the register file, the counter bank, the DRAM bytes and every other
large set of like things are lists of (key, value) pairs in one canonical form, keys strictly
rising and no pair whose value is what an unlisted key reads as. -/

namespace Sys2Proof.Machine

/-- A sparse table from keys to values. -/
abbrev Table (α : Type) := List (Nat × α)

/-- The value at key `k`; an unlisted key reads `d k`. -/
def Table.get {α : Type} (d : Nat → α) : Table α → Nat → α
  | [], k => d k
  | p :: t, k => if p.1 = k then p.2 else Table.get d t k

/-- Put `v` at key `k`, keeping the keys in rising order. -/
def Table.insert {α : Type} : Table α → Nat → α → Table α
  | [], k, v => [(k, v)]
  | p :: t, k, v =>
    if k < p.1 then (k, v) :: p :: t
    else if k = p.1 then (k, v) :: t
    else p :: Table.insert t k v

/-- Drop key `k`. -/
def Table.erase {α : Type} : Table α → Nat → Table α
  | [], _ => []
  | p :: t, k => if p.1 = k then Table.erase t k else p :: Table.erase t k

/-- Set key `k` to `v`: a value that an unlisted key reads as removes the entry. -/
def Table.set {α : Type} [DecidableEq α] (d : Nat → α) (t : Table α) (k : Nat) (v : α) : Table α :=
  if v = d k then Table.erase t k else Table.insert t k v

/-- Change every listed value, dropping those that become what an unlisted key reads as. -/
def Table.mapVals {α : Type} [DecidableEq α] (d : Nat → α) (f : α → α) : Table α → Table α
  | [] => []
  | p :: t => if f p.2 = d p.1 then Table.mapVals d f t else (p.1, f p.2) :: Table.mapVals d f t

/-- Keys strictly above `b` and strictly rising, and no value that an unlisted key reads as. -/
def Table.wfFrom {α : Type} [DecidableEq α] (d : Nat → α) : Nat → Table α → Bool
  | _, [] => true
  | b, p :: t => Nat.ble b p.1 && !decide (p.2 = d p.1) && Table.wfFrom d (p.1 + 1) t

/-- The canonical form of a table. -/
def Table.wf {α : Type} [DecidableEq α] (d : Nat → α) (t : Table α) : Bool := Table.wfFrom d 0 t

end Sys2Proof.Machine
end

