-- ==== Sys2Proof/Machine/Blocks.lean ====
section
/-! DEFINITION. The state that single blocks keep beyond their registers: queues, the host link,
ports and fore-edges, flows.  Plain data. -/

namespace Sys2Proof.Machine

/-! ### Work queues (R379 to R417) -/

/-- A completion (R399, R400).  `retires` counts the entries of queue `qid` that its writing
retires (R391); `hist` names the flow whose latency its writing records, and the uptime of the
receive delimiter (R263). -/
structure Cpl where
  qid : Nat := 0
  status : Nat := 0
  kind : Nat := 0
  ts : Nat := 0
  stampValid : Bool := false
  detail : Nat := 0
  x8 : Nat := 0
  x12 : Nat := 0
  body : Nat := 0
  stamp : Full := {}
  x24 : Nat := 0
  retires : Nat := 0
  hist : Option (Nat × Nat) := none
  deriving DecidableEq, Repr

/-- Where a taken entry of a work queue stands. -/
inductive Phase where
  /-- Its fragment table is awaited (R395). -/
  | table
  /-- Its body is awaited (R393), or its command block (R398). -/
  | body
  /-- Its frame is on its way to the MAC, or its command runs. -/
  | started
  /-- It has its completion. -/
  | done
  deriving DecidableEq, Repr

/-- A work entry the device holds a copy of (R389): its position and its four quadwords, and what
has become of it. -/
structure Entry where
  pos : Nat
  q0 : Nat := 0
  q1 : Nat := 0
  q2 : Nat := 0
  q3 : Nat := 0
  phase : Phase := .body
  /-- Fragment tables followed (R396), data bytes named so far, fragments of the next table. -/
  hops : Nat := 0
  sum : Nat := 0
  left : Nat := 0
  /-- Port copies still to leave, and the outcomes of those that have (R264). -/
  copies : Nat := 0
  outcomes : List (Nat × Nat) := []
  stamp : Option (Full × Nat) := none
  result : Option Cpl := none
  /-- Its completion has been handed to its CQ. -/
  offered : Bool := false
  deriving DecidableEq, Repr

/-- A frame bound for a receive queue (R406, R407). -/
structure RxCopy where
  frame : Nat
  bytes : List Byte := []
  poisoned : Bool := false
  stamp : Full := {}
  ts : Nat := 0
  source : Nat := 0
  unmatched : Bool := false
  flow : Option Nat := none
  hist : Bool := false
  rxUp : Nat := 0
  /-- First buffer used, buffers used and bytes written so far. -/
  first : Nat := 0
  used : Nat := 0
  written : Nat := 0
  /-- A ring reply: its KIND 3 fields (R400). -/
  reply : Option Cpl := none
  deriving DecidableEq, Repr

/-- A queue (R379 to R384, R409): the context image and what waits on chip. -/
structure Queue where
  state : Nat := 0
  kind : Nat := 0
  ringAddr : Nat := 0
  loc : Bool := false
  log2 : Nat := 4
  irqEn : Bool := false
  func : Nat := 0
  link : Nat := 0
  linkEn : Bool := false
  pi : Nat := 0
  ci : Nat := 0
  taken : Nat := 0
  armed : Bool := false
  haltStatus : Nat := 0
  haltIndex : Nat := 0
  port : Nat := 0
  cls : Nat := 0
  lateTol : Nat := 0
  done : Nat := 0
  /-- Work queues: entries taken and not retired, and copies read and not yet taken. -/
  entries : List Entry := []
  fetched : List Entry := []
  /-- Mark failures (R389): position, reads, uptime of the first. -/
  failed : List (Nat × Nat × Nat) := []
  /-- CQ: completions in the order in which they became writable, and the eight that wait. -/
  ready : List Cpl := []
  waiting : List Cpl := []
  /-- CQ: the linked queues are paused by its overflow (R408). -/
  overflow : Bool := false
  /-- EQ: event entries that wait for room (R405), and the count of events posted (R403). -/
  events : List (Nat × Nat × Nat) := []
  seq : Nat := 0
  /-- RXQ: frames that wait for buffers, and the uptime at which the hold started (R407). -/
  rxWait : List RxCopy := []
  holdStart : Option Nat := none
  /-- DRAINING ends in a RESET (R410), and the function whose mailbox waits. -/
  resetAfter : Bool := false
  deriving DecidableEq, Repr

/-! ### Host link (R451 to R472) -/

/-- A Tag value in quarantine (R66, R467). -/
structure Quarantine where
  func : Nat
  tag : Nat
  path : ReadPath
  byReset : Bool := false
  /-- The uptime at which it ends at the latest: twice the completion timeout after the read was issued (R66). -/
  expires : Nat := 0
  deriving DecidableEq, Repr

/-- Requests pending on an interrupt vector: their number and the uptime of the first (R460); and
the pending bit (R461). -/
structure Vector where
  requests : Nat := 0
  first : Nat := 0
  pendingBit : Bool := false
  /-- Its MSI-X mask has been cleared; its MSI mask is set. -/
  unmasked : Bool := false
  msiMasked : Bool := false
  deriving DecidableEq, Repr

/-- The host side (R442 to R474). -/
structure HostSide where
  quarantine : List Quarantine := []
  /-- Interrupt vectors, keyed by function * 2048 + vector. -/
  vectors : Table Vector := []
  /-- INTx Interrupt Disable, MSI messages enabled, PME_En and PME_Status by function. -/
  intxDisable : BitVec 64 := 0
  /-- MSI-X Function Mask, by function. -/
  fnMask : BitVec 64 := 0
  msiMessages : Table Nat := []
  pmeEn : BitVec 64 := 0
  pmeStatus : BitVec 64 := 0
  ltrEnable : Bool := false
  /-- VF Enable and NumVFs (R447). -/
  numVfs : Nat := 0
  deriving DecidableEq, Repr

/-! ### Ports and fore-edges (R170 to R243) -/

/-- A frame on its way out of a port: in the hub's class queue or at the fore-edge. -/
structure TxFrame where
  frame : Nat
  cls : Nat
  /-- Length as it leaves the port, FCS and tags included (R186). -/
  len : Nat
  bytes : List Byte := []
  /-- The launch time held as a full-form instant, in ns (R196); short form in the hub. -/
  launch : Option Nat := none
  lateTol : Nat := 0
  /-- The work queue and position its completion retires. -/
  owner : Option (Nat × Nat) := none
  flow : Option Nat := none
  hist : Bool := false
  rxUp : Nat := 0
  ts2 : Bool := false
  oneStep : Bool := false
  ptpOff : Nat := 0
  udpOff : Nat := 0
  poisoned : Bool := false
  /-- In the hub: the time base, in 2^-16 ns, at which it entered the class queue (R193). -/
  since : Nat := 0
  /-- Counted in HEADBAND_DEFER for the window in force (R190). -/
  deferred : Bool := false
  /-- Transmit stamp, time status and LATE_SENT, set when it starts. -/
  stamp : Full := {}
  ts : Nat := 0
  txUp : Nat := 0
  late : Bool := false
  deriving DecidableEq, Repr

/-- A flow-control frame: its priority and quanta, and whether it is a PFC frame (R234 to R236). -/
structure FlowControl where
  prio : Nat
  quanta : Nat
  pfc : Bool := false
  deriving DecidableEq, Repr

/-- The frame on the medium of a port. -/
structure OnMedium where
  tx : TxFrame
  /-- Uptime at the start of the fragment. -/
  startUp : Nat
  /-- Bytes sent in earlier fragments. -/
  sent : Nat := 0
  preemptable : Bool := false
  /-- It started under the test of R187, so that it ends before its gate closes. -/
  whole : Bool := false
  /-- Its start sequence number, and the fragment count of a continuation (R227, R228). -/
  seq : Nat := 0
  frag : Option Nat := none
  /-- A split is called for (R228). -/
  split : Bool := false
  /-- Its gate closed while it was on the medium. -/
  overrun : Bool := false
  /-- A flow-control frame, and what it says. -/
  control : Option FlowControl := none
  /-- Attempts that ended in a collision (R239). -/
  attempts : Nat := 0
  deriving DecidableEq, Repr

/-- A preempted frame: bytes sent, its start sequence number and the fragment count of its next
continuation. -/
structure Suspended where
  tx : TxFrame
  sent : Nat
  seq : Nat := 0
  fragments : Nat
  deriving DecidableEq, Repr

/-- What filtered the frames of a port until uptime `endUp` (R222, R233): whether the link was up, and the
filter's registers. -/
structure RxPast where
  endUp : Nat
  up : Bool
  filter : Table Word
  deriving DecidableEq, Repr

/-- A frame being reassembled from fragments (R230). -/
structure Reassembly where
  bytes : List Byte
  seq : Nat
  next : Nat
  /-- Uptime of the delimiter of its first fragment. -/
  startUp : Nat := 0
  deriving DecidableEq, Repr

/-- A port (R170 to R243), beyond its registers. -/
structure Port where
  hub : List TxFrame := []
  fe : List TxFrame := []
  cur : Option OnMedium := none
  susp : Option Suspended := none
  /-- The TXQ served last, by class (R172). -/
  served : Table Nat := []
  /-- Shaper credit by class, in 10^-6 bit, and the uptime to which it is settled (R203). -/
  credit : Table Int := []
  settled : Nat := 0
  /-- Classes whose credit has run since then, and those that have held frames, as masks. -/
  runs : Nat := 0
  holds : Nat := 0
  /-- The uptime at which the medium is free: the last frame and its gap have passed (R186). -/
  gapEnd : Nat := 0
  /-- Slopes and preemption classes in force (R204, R205). -/
  slope : Table Nat := []
  preempt : Nat := 0
  /-- The initial list is awaited with every gate closed (R184). -/
  awaiting : Bool := false
  /-- The change has been made and its copy to the admin bank runs (R180). -/
  copying : Bool := false
  /-- The instant at which the pending change was accepted, in 2^-16 ns (R182). -/
  pendedAt : Nat := 0
  /-- The uptime at which the stop of a class ends (R237). -/
  stop : Table Nat := []
  /-- Flow control: cells by priority, frames waiting. -/
  occupancy : Table Nat := []
  fcWait : List FlowControl := []
  assembly : Option Reassembly := none
  startSeq : Nat := 0
  /-- Lock and the in-band status hold; and with them FEC lock and the clause 37 exchange (R216, R217).  The
  uptimes since which the first has been as it is with the other conditions, and since which the link could
  be up. -/
  locked : Bool := false
  condition : Bool := false
  lockSince : Nat := 0
  readySince : Nat := 0
  /-- Uptime of the last verify mPacket (R226), of the last flow-control frame sent by priority (R235), and of
  the last BEACON (R239). -/
  verifyAt : Nat := 0
  fcSent : Table Nat := []
  beaconAt : Nat := 0
  /-- PLCA: frames sent in the present transmit opportunity after its first, and the uptime at which the last
  frame ended (R238). -/
  burst : Nat := 0
  lastEnd : Nat := 0
  /-- What filtered earlier frames, newest first (R222, R233). -/
  rxLog : List RxPast := []
  /-- PLCA parameters in force (R238): PLCA_CTRL and BURST as last taken. -/
  plcaCtrl : Nat := 0
  plcaBurst : Nat := 0
  /-- The link status last read over MDIO (R552). -/
  mdioUp : Bool := false
  deriving DecidableEq, Repr

/-! ### Flows (R244 to R284) -/

/-- A work item (R357): its header, the frame bytes it carries, and the flow, frame and work entry
it stands for.  `folio` is where it is bound. -/
structure WorkItem where
  folio : Nat
  /-- The engine die on whose link it has been sent (R33); none while the hub holds it. -/
  link : Option Nat := none
  /-- The flits it took there, the flow state lent with it included (R33, R254). -/
  flits : Nat := 0
  opcode : Nat
  kind : Nat := 0
  source : Nat := 0
  flags : Nat := 0
  key : Nat := 0
  progress : Nat := 0
  length : Nat := 0
  stampStatus : Nat := 0
  frame : Nat := 0
  stamp : Nat := 0
  arrivalUs : Nat := 0
  seq : Nat := 0
  bytes : List Byte := []
  flow : Option Nat := none
  entry : Option (Nat × Nat) := none
  /-- The poison mark, stamp and source frame that a hub operation delivers with. -/
  full : List Byte := []
  poisoned : Bool := false
  rxStamp : Full := {}
  rxUp : Nat := 0
  /-- Its frame has been neither policed, discarded by recovery nor delivered (R257). -/
  owed : Bool := false
  deriving DecidableEq, Repr

/-- A frame copy that waits for pair-link credit (R521): its bytes, flow and the uptime since. -/
structure PairCopy where
  frame : Nat
  bytes : List Byte
  flow : Option Nat := none
  since : Nat := 0
  deriving DecidableEq, Repr

/-- A recording copy (R485) on its way to the recorder. -/
structure RecCopy where
  frame : Nat
  stream : Nat
  bytes : List Byte
  source : Nat := 0
  poisoned : Bool := false
  ts : Nat := 0
  stamp : Full := {}
  rxUp : Nat := 0
  deriving DecidableEq, Repr

/-- A flow: base context (512 bits), statistics line (512 bits) and extension (1,024 bits) as R256
to R258 lay them out, and its lending. -/
structure Flow where
  ctx : Nat := 0
  stats : Nat := 0
  ext : Nat := 0
  /-- The quire that holds it (R254), the uptime of its last work item, work items since the last
  checkpoint, and the checkpoint. -/
  lent : Option Nat := none
  lastItem : Nat := 0
  since : Nat := 0
  saved : Nat × Nat × Nat := (0, 0, 0)
  deriving DecidableEq, Repr

/-- An overflow CAM entry (R251). -/
structure CamEntry where
  part : Nat
  print : Nat
  flow : Nat
  deriving DecidableEq, Repr

/-- A frame that passed the receive filter: what classification needs of it. -/
structure RxFrame where
  frame : Nat
  source : Nat
  bytes : List Byte
  /-- Length on the wire, FCS included. -/
  len : Nat
  /-- A host-transmit frame: its work queue and position, and its stream handle. -/
  owner : Option (Nat × Nat) := none
  /-- A host-transmit frame whose entry a reset has retired: the port and the frame the entry asked for (R125). -/
  orphan : Option (Nat × TxFrame) := none
  stream : Nat := 0
  poisoned : Bool := false
  stamp : Full := {}
  ts : Nat := 0
  rxUp : Nat := 0
  deriving DecidableEq, Repr

/-- It is a host-transmit frame. -/
def RxFrame.hostTx (r : RxFrame) : Bool := r.owner.isSome || r.orphan.isSome

/-- A DELETE that lets the work items of its flow finish (R279): the flow, where the command came from and
the address of its block, and whether its write-back succeeds. -/
structure Deleting where
  flow : Nat
  src : CmdSrc
  addr : Nat
  wbOk : Bool
  deriving DecidableEq, Repr

/-- The flow table and the classifier (R244 to R284). -/
structure Flows where
  table : Table Flow := []
  cam : List CamEntry := []
  /-- Bucket groups in the cache, most recently used first (R253): partition and bucket. -/
  cache : List (Nat × Nat) := []
  /-- Frames whose lookup waits on a fetch (R253). -/
  wait : List RxFrame := []
  /-- How often the hash key has been drawn (R248). -/
  keyDraw : Nat := 0
  /-- The function that issued the mailbox command in progress (R283). -/
  cmdFunc : Option Nat := none
  /-- DELETE commands whose flow still has work items (R279). -/
  deletes : List Deleting := []
  /-- Ports of frames delivered whose request has not reached the DMA channels (R428). -/
  raised : List Nat := []
  deriving DecidableEq, Repr

/-- The pair link (R515, R521): cell credits held, copies that wait, lanes up. -/
structure PairLink where
  lanes : BitVec 2 := 0
  credits : Nat := 0
  copies : List PairCopy := []
  deriving DecidableEq, Repr

/-! ### The ring (R285 to R327) -/

/-- A ring header (R289). -/
structure RingHdr where
  version : Nat := 1
  type : Nat
  cycle : Nat := 0
  slot : Nat := 0
  station : Nat := 255
  flags : Nat := 0
  rtime : Nat := 0
  plen : Nat := 0
  deriving DecidableEq, Repr

/-- A REPLY received for a slot (R303, R307). -/
structure RingReply where
  accepted : Bool
  payload : List Byte
  flags : Nat
  e : Int
  d : Nat
  port : Nat
  stamp : Full
  ts : Nat
  rxUp : Nat
  deriving DecidableEq, Repr

/-- A slot polled in a cycle (R299 to R307): `ports` are those on which its REPLY may arrive, `q` its
reply time on the ring count. -/
structure RingPoll where
  cycle : Nat
  slot : Nat
  station : Nat
  ports : List Nat
  q : Int
  gutter : Nat
  dlim : Nat
  replyLen : Nat
  noReply : Bool
  rxq : Nat
  replies : List RingReply := []
  /-- Its deadline has passed. -/
  closed : Bool := false
  deriving DecidableEq, Repr

/-- A poll of a built cycle (R300, R302): its payload and the work entry that gave it. -/
structure BuiltPoll where
  slot : Nat
  payload : List Byte
  owner : Option (Nat × Nat) := none
  poisoned : Bool := false
  deriving DecidableEq, Repr

/-- A cycle built ahead of its start. -/
structure BuiltCycle where
  cycle : Nat
  polls : List BuiltPoll
  deriving DecidableEq, Repr

/-- A delay measurement in progress (R308): T1 and T3 − T1 by side. -/
structure RingMeasure where
  seq : Nat
  cycle : Nat
  line : Bool
  t1 : List (Nat × Int)
  value : List (Nat × Int) := []
  deriving DecidableEq, Repr

/-- What a station reports of its links (R314): the last polled cycle, the run of cycles with PEER_UP,
and whether this cycle already brought it. -/
structure RingPeer where
  cycle : Nat := 0
  run : Nat := 0
  good : Bool := false
  deriving DecidableEq, Repr

/-- The body of an entry of a payload queue (R300). -/
structure RingBody where
  qid : Nat
  pos : Nat
  bytes : List Byte
  poisoned : Bool
  deriving DecidableEq, Repr

/-- A frame on its way through a standby master (R319). -/
structure RingRelay where
  port : Nat
  bytes : List Byte
  due : Nat
  deriving DecidableEq, Repr

/-- The ring (R285 to R327), beyond its registers and the table window. -/
structure Ring where
  /-- Cycles run from `c0`, C(0) on the ring count; the next cycle to start; the cycle in which MEASURE
  was entered. -/
  c0 : Option Int := none
  n : Nat := 0
  first : Nat := 0
  /-- BRIDGE in units of 2^-32 ns (R293). -/
  bridge : Int := 0
  /-- A break pends until this ring count (R313). -/
  lineAt : Option Int := none
  healReq : Bool := false
  measureReq : Bool := false
  stopReq : Bool := false
  foreign : Bool := false
  /-- Mastership ends at the end of the cycle, without a foreign master (R518). -/
  yieldReq : Bool := false
  measure : Option RingMeasure := none
  seq : Nat := 0
  /-- The first cycle whose return is tested (R313), and the cycle whose start ends GRACE (R315). -/
  testFrom : Option Nat := none
  graceEnd : Option Nat := none
  /-- The present cycle runs as a HOLD; its CYCLE frame has returned on P7. -/
  hold : Bool := false
  returned : Bool := false
  polls : List RingPoll := []
  built : List BuiltCycle := []
  bodies : List RingBody := []
  /-- The payload last sent, by slot. -/
  last : Table (List Byte) := []
  resync : BitVec 256 := 0
  overLimit : BitVec 256 := 0
  looped : BitVec 256 := 0
  peers : Table RingPeer := []
  /-- The EtherType in force (R324). -/
  ethertype : Nat := 0x88B5
  /-- The time-base instant, in ns, from which a pending table takes effect (R301). -/
  tableDue : Nat := 0
  /-- The polls of the present cycle that have not left, and whether its DELAY frame is to come (R299). -/
  unsent : List BuiltPoll := []
  delaying : Bool := false
  /-- The marks that have acted in the present cycle (R297). -/
  marked : BitVec 16 := 0
  /-- CLAIMs are being sent: the hold-off has ended; how many have gone (R317). -/
  claiming : Bool := false
  claims : Nat := 0
  /-- Uptime, in ns, at which LISTEN, the hold-off or the claim began (R317). -/
  since : Nat := 0
  /-- Standby (R319): frames being forwarded, the path delay, and the stamps of the measurement. -/
  relay : List RingRelay := []
  delay : Int := 0
  standT1 : Option (Nat × Nat × Int) := none
  standT2 : Option (Nat × Nat × Int) := none
  /-- The port whose CYCLE frames align the ring count: that of the first, or of the last ASSIGN (R310). -/
  alignPort : Option Nat := none
  /-- DMA requests of the ring, lines 24 and 25, that have not reached the channels (R428). -/
  raised : List Nat := []
  deriving DecidableEq, Repr

/-! ### Engines (R344 to R378) -/

/-- A staged memory write (R355): operation, space, address, bytes, data; for the field unit's INSERT
(operation 6) the address is the first bit of the frame and `size` the number of bits. -/
structure ShadowOp where
  op : Nat
  space : Nat
  addr : Nat
  size : Nat
  data : Nat
  deriving DecidableEq, Repr

/-- A staged hub operation (R356) with its arguments, and the LOCAL bytes it carries. -/
structure HubOp where
  code : Nat
  args : List Nat
  bytes : List Byte := []
  deriving DecidableEq, Repr

/-- An engine (R350). -/
structure Engine where
  bank0 : Table (BitVec 64) := []
  bank1 : Table (BitVec 64) := []
  stack : List Nat := []
  hret : Nat := 0
  handler : Bool := false
  z : Bool := false
  n : Bool := false
  c : Bool := false
  v : Bool := false
  /-- The last hub reply carried OK; the last WAIT on a mark ended with the ring stopping (R352). -/
  replyOk : Bool := false
  ringStopped : Bool := false
  loc : Table (Option Byte) := []
  item : Option WorkItem := none
  pc : Nat := 0
  bound : Nat := 0
  words : Nat := 0
  /-- The shadow of the routine, and that of a handler (R363, R367). -/
  shadow : List ShadowOp := []
  hub : List HubOp := []
  hShadow : List ShadowOp := []
  hHub : List HubOp := []
  /-- The uptime, in ns, at which the role timer that TIME_ADJ set expires (R369). -/
  timer : Option Nat := none
  /-- Interrupts raised, by opcode (R369). -/
  ints : BitVec 16 := 0
  /-- In the present word: units that have run, results (precedence, register, value), new flags, the
  status of a hub reply. -/
  ran : BitVec 8 := 0
  results : List (Nat × Nat × BitVec 64) := []
  flags : Option (Bool × Bool × Bool × Bool) := none
  reply : Option Bool := none
  /-- Parked on a WAIT with this COND, in the routine and in a handler; its mark has occurred, or the
  ring has stopped, since. -/
  parked : Option Nat := none
  hParked : Option Nat := none
  gate : Bool := false
  stop : Bool := false
  /-- The word just ended was a safe point (R366). -/
  safe : Bool := false
  /-- The same of the routine, while a handler runs. -/
  hSafe : Bool := false
  /-- A planned migration is asked for (R374). -/
  migrate : Bool := false
  deriving DecidableEq, Repr

/-- The engines: each engine, the dispatch queue of each folio, and the quire stores by quire * 4 MiB +
address. -/
structure Engines where
  eng : Table Engine := []
  queue : Table (List WorkItem) := []
  quire : Table Byte := []
  deriving DecidableEq, Repr

/-! ### Event pins (R328 to R343) -/

/-- A running schedule of a pin (R335): its ALIGN, START, WIDTH, PERIOD, COUNT and EVERY, the targets met
or skipped so far, the first target of ALIGN 0 in 2^-16 ns, the index of the next target, and the run of
skipped targets not yet posted: the first and their number. -/
structure EvtSched where
  align : Nat
  start : Nat
  width : Nat
  period : Nat
  count : Nat
  every : Nat
  done : Nat := 0
  base : Int := 0
  j : Nat := 0
  run : Option (Int × Nat) := none
  deriving DecidableEq, Repr

/-- An event pin: an input change under the filter (stamp in 2^-16 ns, time status, uptime), the stamp and
uptime of the last accepted edge, a pulse in progress and its end, edges toward SNAP_EVERY, snapshots to
form (target, status, uptime), stamps of edges since, and the FIFO. -/
structure EvtPin where
  cand : Option (Nat × Nat × Nat) := none
  lastEdge : Option Nat := none
  active : Bool := false
  pulseEnd : Nat := 0
  sched : Option EvtSched := none
  group : Nat := 0
  snaps : List (Nat × Nat × Nat) := []
  recent : List Nat := []
  fifo : List (Nat × Nat) := []
  deriving DecidableEq, Repr

/-- The event unit; `dropping`: records are lost until their queue is enabled again (R332). -/
structure Evt where
  pins : Table EvtPin := []
  dropping : Bool := false
  deriving DecidableEq, Repr

/-! ### The recording bay (R475 to R493) -/

/-- A segment (R485): its sequence number, header flags, records, the bytes after its header, the uptimes
of its first and last record, when the first joined it; whether it lies in RIDE_THROUGH; rewrites that have failed (R486). -/
structure RecSegment where
  seq : Nat
  flags : Nat := 0
  records : Nat := 0
  body : List Byte := []
  firstUp : Nat := 0
  lastUp : Nat := 0
  since : Nat := 0
  ride : Bool := false
  rewrites : Nat := 0
  deriving DecidableEq, Repr

/-- A cartridge label (R483). -/
structure CartLabel where
  segLog2 : Nat
  flags : Nat := 0
  labelSeq : Nat := 1
  slotCount : Nat
  nextSlot : Nat := 0
  nextSeq : Nat := 0
  writer : Nat := 0
  created : Nat := 0
  deriving DecidableEq, Repr

/-- What an NVMe command of the recorder is for (R480, R485, R486). -/
inductive NvmeOp where
  | enable
  | identifyController
  | identifyNamespace
  | createCq
  | createSq
  | readLabel (copy : Nat)
  | freshLabel (copy : Nat)
  | freshFlush
  | writeSegment (seq : Nat)
  | readSegment (seq : Nat)
  | writeLabel (seq : Nat)
  | flush (seq : Nat)
  | shutdown
  deriving DecidableEq, Repr

/-- A command outstanding at the cartridge, and whether it is its second attempt. -/
structure NvmeCmd where
  id : Nat
  op : NvmeOp
  again : Bool := false
  since : Nat := 0
  deriving DecidableEq, Repr

/-- The recording bay (R477 to R490): power, indicators (as PCIe codes them), CART_PERST_N, the uptimes that
its timers run from, the state STOPPING was entered from, the controller, the label in force, the segments
and the one being written. -/
structure Cart where
  power : Bool := false
  attnInd : Nat := 3
  pwrInd : Nat := 3
  perst : Bool := true
  insertSince : Nat := 0
  poweredAt : Nat := 0
  perstAt : Nat := 0
  stopAt : Nat := 0
  stopFrom : Nat := 0
  shutAt : Option Nat := none
  cmds : List NvmeCmd := []
  nextCmd : Nat := 0
  /-- The controller's limits as identified: MDTS in bytes (0 none), LBA size; its I/O queues exist. -/
  mdts : Nat := 0
  lba : Nat := 512
  ready : Bool := false
  resets : Nat := 0
  copies : List (Option CartLabel) := []
  label : Option CartLabel := none
  /-- The copy that the next label write goes to; NEXT_SLOT has returned to 0. -/
  copy : Nat := 0
  round : Bool := false
  opened : Option RecSegment := none
  closed : List RecSegment := []
  /-- The segment being written: its SEQ, its slot, the Write commands left. -/
  writing : Option (Nat × Nat × Nat) := none
  dropped : Bool := false
  ridePosted : Bool := false
  written : Nat := 0
  deriving DecidableEq, Repr

/-! ### DMA channels (R418 to R441) -/

/-- Consecutive bytes of host memory or of device DRAM. -/
structure Seg where
  dram : Bool
  addr : Nat
  len : Nat
  deriving DecidableEq, Repr

/-- A burst whose reads are in flight (R427, R431): the instruction it belongs to, its source and
destination, its count, the retries made, and whether it has been counted poisoned. -/
structure DmaBurst where
  id : Nat
  inst : Nat
  src : List Seg
  dst : List Seg
  len : Nat
  count : Nat
  retries : Nat := 0
  poisoned : Bool := false
  deriving DecidableEq, Repr

/-- A DMA channel (R418 to R438): the next instruction, the present one and how many have started, what
remains of it to issue, the bursts in flight, the loop counters and offsets, the line it watches. -/
structure DmaChan where
  next : Nat := 0
  word : Nat := 0
  inst : Nat := 0
  src : List Seg := []
  dst : List Seg := []
  rest : Nat := 0
  flight : List DmaBurst := []
  nextBurst : Nat := 0
  ctr : Table Nat := []
  offA : Nat := 0
  offB : Nat := 0
  line : Option Nat := none
  /-- The present instruction holds the channel: a WAIT, or a FENCE, SIGNAL or HALT as a fence. -/
  held : Bool := false
  /-- The CQ that its SIGNAL completion is on the way to (R436). -/
  signal : Option Nat := none
  /-- Since the last SIGNAL: poisoned data arrived, and retries made. -/
  poisoned : Bool := false
  retries : Nat := 0
  deriving DecidableEq, Repr

/-! ### The Guard and the pair (R494 to R521) -/

/-- A heartbeat on its way to the Guard (R496); `act`: its folio was the active one when it left. -/
structure Heartbeat where
  folio : Nat
  seq : Nat
  alive : List Nat
  epoch : Nat
  ready : Bool
  act : Bool
  deriving DecidableEq, Repr

/-- A planned handover in progress (R505): the uptime of its request, who asked (0 host software, 1 a
re-imposition, 2 a quire reset) and the quire, and whether the final epoch is complete. -/
structure Handover where
  since : Nat
  origin : Nat := 0
  quire : Nat := 0
  complete : Bool := false
  deriving DecidableEq, Repr

/-- The Guard beyond its registers: by folio, 1 + the uptime of the last heartbeat accepted and the
sequence of the next; heartbeats in transit; READY of the standby; by control role, the active folio's
alive count plus 1 and the uptime at which it changed; the number of the last epoch and whether it is being
copied; EPOCH_US in force; mismatches charged in a row; in a takeover, the uptime of the old active's last
heartbeat and whether the new one's first has come; 1 + the uptime of the last checked fault; LAST_PASS;
the spare rows used, by array; by folio, 1 + the 10 µs period of its last heartbeat; the servo's and the ring
master's state as the epoch being copied holds them; the uptime of the last colophon, or of the end of
Imposing. -/
structure Guard where
  beat : Table Nat := []
  beatSeq : Table Nat := []
  beats : List Heartbeat := []
  ready : Bool := false
  alive : Table (Nat × Nat) := []
  epoch : Nat := 0
  copying : Bool := false
  epochUs : Nat := 1000
  handover : Option Handover := none
  charged : Nat := 0
  oldBeat : Nat := 0
  resumed : Bool := false
  faultAt : Nat := 0
  lastPass : Nat := 0
  rows : Table Nat := []
  beatSlot : Table Nat := []
  copyServo : Int × List Int := (0, [])
  copyRing : Option PairEpoch := none
  coloAt : Option Nat := none
  deriving DecidableEq, Repr

/-- The bound pair (R515 to R519): the uptime of the partner's last heartbeat, the pair is bound, the
partner's PRIORITY and whether it is system active, the uptime of the last edge of ARB_VOTE_IN and whether
the pin toggles within bounds, the last complete pair epoch, and 1 + the 100 µs period of the last heartbeat
sent. -/
structure Pair where
  seen : Option Nat := none
  bound : Bool := false
  priority : Nat := 0
  active : Bool := false
  arbEdge : Option Nat := none
  arbToggles : Bool := false
  epoch : Option PairEpoch := none
  sentSlot : Nat := 0
  deriving DecidableEq, Repr

end Sys2Proof.Machine
end

