-- ==== Sys2Proof/Machine/RegMap.lean ====
section
/-! DEFINITION. The register map of the FR8128: the offset of every register the chapters of
the spec define (R542 and the register rules R95, R130, R131, R168, R169, R212, R242, R283,
R325, R342, R377, R416, R440, R473, R492, R525, R526 and R540), the place of every field, and
the bank index of every counter (R534).  Offsets are relative to BAR0; names are the manual's
own, a register of an indexed group taking its indices in the order of the name. -/

namespace Sys2Proof.Machine

/-- A field of a register: the register's BAR0 offset, the lowest bit and the width. -/
structure Field where
  reg : Nat
  lo : Nat
  width : Nat
  deriving DecidableEq, Repr

/-- GLB_ID (R130). -/
abbrev Reg.GLB_ID : Nat := 0x00000
def Reg.GLB_ID_STEPPING : Field := ⟨Reg.GLB_ID, 0, 8⟩
def Reg.GLB_ID_PART : Field := ⟨Reg.GLB_ID, 16, 16⟩
/-- GLB_ENDPAPER_VER (R130). -/
abbrev Reg.GLB_ENDPAPER_VER : Nat := 0x00004
/-- GLB_BINDER_VER (R130). -/
abbrev Reg.GLB_BINDER_VER : Nat := 0x00008
/-- GLB_MODE (R130). -/
abbrev Reg.GLB_MODE : Nat := 0x00010
def Reg.GLB_MODE_MODE : Field := ⟨Reg.GLB_MODE, 0, 3⟩
def Reg.GLB_MODE_DEGRADED : Field := ⟨Reg.GLB_MODE, 3, 1⟩
def Reg.GLB_MODE_CAUSE : Field := ⟨Reg.GLB_MODE, 8, 8⟩
/-- GLB_WAKE_CAUSE (R130). -/
abbrev Reg.GLB_WAKE_CAUSE : Nat := 0x00014
def Reg.GLB_WAKE_CAUSE_PORT : Field := ⟨Reg.GLB_WAKE_CAUSE, 0, 12⟩
def Reg.GLB_WAKE_CAUSE_MAIN : Field := ⟨Reg.GLB_WAKE_CAUSE, 12, 1⟩
/-- GLB_RESET_CFG (R130). -/
abbrev Reg.GLB_RESET_CFG : Nat := 0x00018
def Reg.GLB_RESET_CFG_HOT_FULL : Field := ⟨Reg.GLB_RESET_CFG, 0, 1⟩
/-- GLB_QRESET (R130). -/
abbrev Reg.GLB_QRESET : Nat := 0x00020
def Reg.GLB_QRESET_QUIRES : Field := ⟨Reg.GLB_QRESET, 0, 16⟩
/-- GLB_ERESET (R130). -/
abbrev Reg.GLB_ERESET : Nat := 0x00024
def Reg.GLB_ERESET_ENGINE : Field := ⟨Reg.GLB_ERESET, 0, 8⟩
def Reg.GLB_ERESET_GO : Field := ⟨Reg.GLB_ERESET, 31, 1⟩
/-- GLB_RESET_STATUS (R130). -/
abbrev Reg.GLB_RESET_STATUS : Nat := 0x00028
def Reg.GLB_RESET_STATUS_QUIRE_BUSY : Field := ⟨Reg.GLB_RESET_STATUS, 0, 16⟩
def Reg.GLB_RESET_STATUS_ENGINE_BUSY : Field := ⟨Reg.GLB_RESET_STATUS, 16, 1⟩
def Reg.GLB_RESET_STATUS_REFUSAL : Field := ⟨Reg.GLB_RESET_STATUS, 24, 8⟩
/-- IMP_BOOT_STATUS (R131). -/
abbrev Reg.IMP_BOOT_STATUS : Nat := 0x10000
def Reg.IMP_BOOT_STATUS_SOURCE : Field := ⟨Reg.IMP_BOOT_STATUS, 0, 2⟩
def Reg.IMP_BOOT_STATUS_STAGE : Field := ⟨Reg.IMP_BOOT_STATUS, 4, 4⟩
def Reg.IMP_BOOT_STATUS_REASON_A : Field := ⟨Reg.IMP_BOOT_STATUS, 8, 8⟩
def Reg.IMP_BOOT_STATUS_REASON_B : Field := ⟨Reg.IMP_BOOT_STATUS, 16, 8⟩
def Reg.IMP_BOOT_STATUS_REASON_HF : Field := ⟨Reg.IMP_BOOT_STATUS, 24, 8⟩
/-- IMP_BOOT_STRAPS (R131). -/
abbrev Reg.IMP_BOOT_STRAPS : Nat := 0x10004
def Reg.IMP_BOOT_STRAPS_BOOTSEL : Field := ⟨Reg.IMP_BOOT_STRAPS, 0, 2⟩
def Reg.IMP_BOOT_STRAPS_FLASH_LOG2 : Field := ⟨Reg.IMP_BOOT_STRAPS, 8, 8⟩
/-- IMP_MB_ADDR_LO (R131). -/
abbrev Reg.IMP_MB_ADDR_LO : Nat := 0x10010
/-- IMP_MB_ADDR_HI (R131). -/
abbrev Reg.IMP_MB_ADDR_HI : Nat := 0x10014
/-- IMP_MB_LEN (R131). -/
abbrev Reg.IMP_MB_LEN : Nat := 0x10018
/-- IMP_MB_CMD (R131). -/
abbrev Reg.IMP_MB_CMD : Nat := 0x1001C
def Reg.IMP_MB_CMD_CMD : Field := ⟨Reg.IMP_MB_CMD, 0, 8⟩
/-- IMP_MB_STATUS (R131). -/
abbrev Reg.IMP_MB_STATUS : Nat := 0x10020
def Reg.IMP_MB_STATUS_STATE : Field := ⟨Reg.IMP_MB_STATUS, 0, 2⟩
def Reg.IMP_MB_STATUS_REASON : Field := ⟨Reg.IMP_MB_STATUS, 8, 8⟩
def Reg.IMP_MB_STATUS_LAST_CMD : Field := ⟨Reg.IMP_MB_STATUS, 16, 8⟩
/-- IMP_RUN_SERIAL_LO (R95). -/
abbrev Reg.IMP_RUN_SERIAL_LO : Nat := 0x10100
/-- IMP_RUN_SERIAL_HI (R95). -/
abbrev Reg.IMP_RUN_SERIAL_HI : Nat := 0x10104
/-- IMP_RUN_KEY (R95). -/
abbrev Reg.IMP_RUN_KEY : Nat := 0x10108
def Reg.IMP_RUN_KEY_OWNER_SIGNED : Field := ⟨Reg.IMP_RUN_KEY, 0, 1⟩
def Reg.IMP_RUN_KEY_OWNER_ENROLLED : Field := ⟨Reg.IMP_RUN_KEY, 1, 1⟩
def Reg.IMP_RUN_KEY_EXCLUSIVE : Field := ⟨Reg.IMP_RUN_KEY, 2, 1⟩
/-- IMP_REIMP_ADDR_LO (R95). -/
abbrev Reg.IMP_REIMP_ADDR_LO : Nat := 0x10110
/-- IMP_REIMP_ADDR_HI (R95). -/
abbrev Reg.IMP_REIMP_ADDR_HI : Nat := 0x10114
/-- IMP_REIMP_LEN (R95). -/
abbrev Reg.IMP_REIMP_LEN : Nat := 0x10118
/-- IMP_REIMP_QUIRES (R95). -/
abbrev Reg.IMP_REIMP_QUIRES : Nat := 0x1011C
def Reg.IMP_REIMP_QUIRES_QUIRES : Field := ⟨Reg.IMP_REIMP_QUIRES, 0, 16⟩
/-- IMP_REIMP_CTRL (R95). -/
abbrev Reg.IMP_REIMP_CTRL : Nat := 0x10120
def Reg.IMP_REIMP_CTRL_GO : Field := ⟨Reg.IMP_REIMP_CTRL, 0, 1⟩
def Reg.IMP_REIMP_CTRL_ABANDON : Field := ⟨Reg.IMP_REIMP_CTRL, 1, 1⟩
/-- IMP_REIMP_STATUS (R95). -/
abbrev Reg.IMP_REIMP_STATUS : Nat := 0x10124
def Reg.IMP_REIMP_STATUS_STATE : Field := ⟨Reg.IMP_REIMP_STATUS, 0, 3⟩
def Reg.IMP_REIMP_STATUS_REASON : Field := ⟨Reg.IMP_REIMP_STATUS, 8, 8⟩
def Reg.IMP_REIMP_STATUS_DONE_QUIRES : Field := ⟨Reg.IMP_REIMP_STATUS, 16, 16⟩
/-- IMP_REIMP_ISOLATED (R95). -/
abbrev Reg.IMP_REIMP_ISOLATED : Nat := 0x10128
def Reg.IMP_REIMP_ISOLATED_QUIRES : Field := ⟨Reg.IMP_REIMP_ISOLATED, 0, 16⟩
/-- GUARD_STATUS (R525). -/
abbrev Reg.GUARD_STATUS : Nat := 0x20000
def Reg.GUARD_STATUS_STATE : Field := ⟨Reg.GUARD_STATUS, 0, 3⟩
def Reg.GUARD_STATUS_STANDBY_VALID : Field := ⟨Reg.GUARD_STATUS, 3, 1⟩
def Reg.GUARD_STATUS_ACTIVE : Field := ⟨Reg.GUARD_STATUS, 8, 5⟩
def Reg.GUARD_STATUS_STANDBY : Field := ⟨Reg.GUARD_STATUS, 16, 5⟩
/-- GUARD_CTRL (R525). -/
abbrev Reg.GUARD_CTRL : Nat := 0x20004
def Reg.GUARD_CTRL_HANDOVER : Field := ⟨Reg.GUARD_CTRL, 0, 1⟩
/-- GUARD_EPOCH (R525). -/
abbrev Reg.GUARD_EPOCH : Nat := 0x20008
def Reg.GUARD_EPOCH_EPOCH_US : Field := ⟨Reg.GUARD_EPOCH, 0, 17⟩
/-- GUARD_EPOCH_LAST (R525). -/
abbrev Reg.GUARD_EPOCH_LAST : Nat := 0x2000C
/-- GUARD_STALL (R525). -/
abbrev Reg.GUARD_STALL : Nat := 0x20010
def Reg.GUARD_STALL_STALL_US : Field := ⟨Reg.GUARD_STALL, 0, 17⟩
/-- GUARD_LAST (R525). -/
abbrev Reg.GUARD_LAST : Nat := 0x20014
def Reg.GUARD_LAST_CAUSE : Field := ⟨Reg.GUARD_LAST, 0, 4⟩
def Reg.GUARD_LAST_GAP_US : Field := ⟨Reg.GUARD_LAST, 16, 16⟩
/-- GUARD_REPLAY (R525). -/
abbrev Reg.GUARD_REPLAY : Nat := 0x20018
def Reg.GUARD_REPLAY_EVERY : Field := ⟨Reg.GUARD_REPLAY, 0, 8⟩
def Reg.GUARD_REPLAY_LIMIT : Field := ⟨Reg.GUARD_REPLAY, 8, 4⟩
/-- GUARD_PAIR_CTRL (R525). -/
abbrev Reg.GUARD_PAIR_CTRL : Nat := 0x20020
def Reg.GUARD_PAIR_CTRL_ENABLE : Field := ⟨Reg.GUARD_PAIR_CTRL, 0, 1⟩
def Reg.GUARD_PAIR_CTRL_WITHDRAW : Field := ⟨Reg.GUARD_PAIR_CTRL, 1, 1⟩
def Reg.GUARD_PAIR_CTRL_ARB_SRC : Field := ⟨Reg.GUARD_PAIR_CTRL, 2, 1⟩
def Reg.GUARD_PAIR_CTRL_HOST_VOTE : Field := ⟨Reg.GUARD_PAIR_CTRL, 3, 1⟩
def Reg.GUARD_PAIR_CTRL_PRIORITY : Field := ⟨Reg.GUARD_PAIR_CTRL, 8, 8⟩
/-- GUARD_PAIR_STATUS (R525). -/
abbrev Reg.GUARD_PAIR_STATUS : Nat := 0x20024
def Reg.GUARD_PAIR_STATUS_ROLE : Field := ⟨Reg.GUARD_PAIR_STATUS, 0, 2⟩
def Reg.GUARD_PAIR_STATUS_LANES : Field := ⟨Reg.GUARD_PAIR_STATUS, 2, 2⟩
def Reg.GUARD_PAIR_STATUS_OWN_VOTE : Field := ⟨Reg.GUARD_PAIR_STATUS, 4, 2⟩
def Reg.GUARD_PAIR_STATUS_PARTNER_VOTE : Field := ⟨Reg.GUARD_PAIR_STATUS, 6, 2⟩
def Reg.GUARD_PAIR_STATUS_ARB_FOR : Field := ⟨Reg.GUARD_PAIR_STATUS, 8, 1⟩
def Reg.GUARD_PAIR_STATUS_VOTES : Field := ⟨Reg.GUARD_PAIR_STATUS, 9, 2⟩
def Reg.GUARD_PAIR_STATUS_MISMATCH : Field := ⟨Reg.GUARD_PAIR_STATUS, 11, 1⟩
/-- GUARD_PARTNER_LO (R525). -/
abbrev Reg.GUARD_PARTNER_LO : Nat := 0x20028
/-- GUARD_PARTNER_HI (R525). -/
abbrev Reg.GUARD_PARTNER_HI : Nat := 0x2002C
/-- GUARD_CNT_k (R525). -/
abbrev Reg.GUARD_CNT (k : Nat) : Nat := 0x20100 + 0x4 * k
/-- HLTH_COLO_CTRL (R526). -/
abbrev Reg.HLTH_COLO_CTRL : Nat := 0x30000
def Reg.HLTH_COLO_CTRL_EN : Field := ⟨Reg.HLTH_COLO_CTRL, 0, 1⟩
def Reg.HLTH_COLO_CTRL_LOC : Field := ⟨Reg.HLTH_COLO_CTRL, 1, 1⟩
def Reg.HLTH_COLO_CTRL_LOG2_SLOTS : Field := ⟨Reg.HLTH_COLO_CTRL, 8, 4⟩
def Reg.HLTH_COLO_CTRL_PERIOD_MS : Field := ⟨Reg.HLTH_COLO_CTRL, 16, 14⟩
/-- HLTH_COLO_ADDR_LO (R526). -/
abbrev Reg.HLTH_COLO_ADDR_LO : Nat := 0x30008
/-- HLTH_COLO_ADDR_HI (R526). -/
abbrev Reg.HLTH_COLO_ADDR_HI : Nat := 0x3000C
/-- HLTH_COLO_SEQ (R526). -/
abbrev Reg.HLTH_COLO_SEQ : Nat := 0x30010
/-- HLTH_FAULT (R526). -/
abbrev Reg.HLTH_FAULT : Nat := 0x30020
def Reg.HLTH_FAULT_CODE : Field := ⟨Reg.HLTH_FAULT, 0, 8⟩
def Reg.HLTH_FAULT_WHERE : Field := ⟨Reg.HLTH_FAULT, 16, 16⟩
/-- HLTH_ROW_CFG (R526). -/
abbrev Reg.HLTH_ROW_CFG : Nat := 0x30024
def Reg.HLTH_ROW_CFG_CE_LIMIT : Field := ⟨Reg.HLTH_ROW_CFG, 0, 8⟩
/-- HLTH_TEST_CFG (R526). -/
abbrev Reg.HLTH_TEST_CFG : Nat := 0x30028
def Reg.HLTH_TEST_CFG_KAT_EN : Field := ⟨Reg.HLTH_TEST_CFG, 0, 1⟩
def Reg.HLTH_TEST_CFG_MARCH_EN : Field := ⟨Reg.HLTH_TEST_CFG, 1, 1⟩
def Reg.HLTH_TEST_CFG_REPLAY_EN : Field := ⟨Reg.HLTH_TEST_CFG, 2, 1⟩
def Reg.HLTH_TEST_CFG_PASS_S : Field := ⟨Reg.HLTH_TEST_CFG, 16, 12⟩
/-- HLTH_TEMP_d (R526). -/
abbrev Reg.HLTH_TEMP (d : Nat) : Nat := 0x30040 + 0x4 * d
def Reg.HLTH_TEMP_TEMP (d : Nat) : Field := ⟨Reg.HLTH_TEMP d, 0, 16⟩
def Reg.HLTH_TEMP_MAX (d : Nat) : Field := ⟨Reg.HLTH_TEMP d, 16, 16⟩
/-- HLTH_TEMP_WARN (R526). -/
abbrev Reg.HLTH_TEMP_WARN : Nat := 0x30054
def Reg.HLTH_TEMP_WARN_WARN : Field := ⟨Reg.HLTH_TEMP_WARN, 0, 16⟩
/-- HLTH_CNT_k (R526). -/
abbrev Reg.HLTH_CNT (k : Nat) : Nat := 0x30100 + 0x4 * k
/-- HLTH_COLO_Wk (R526). -/
abbrev Reg.HLTH_COLO_W (k : Nat) : Nat := 0x30200 + 0x4 * k
/-- OBS_TRACE_CTRL (R540). -/
abbrev Reg.OBS_TRACE_CTRL : Nat := 0x40000
def Reg.OBS_TRACE_CTRL_EN : Field := ⟨Reg.OBS_TRACE_CTRL, 0, 1⟩
/-- OBS_TRACE_SRC (R540). -/
abbrev Reg.OBS_TRACE_SRC : Nat := 0x40004
def Reg.OBS_TRACE_SRC_ENGINE : Field := ⟨Reg.OBS_TRACE_SRC, 0, 1⟩
def Reg.OBS_TRACE_SRC_PORT : Field := ⟨Reg.OBS_TRACE_SRC, 1, 1⟩
def Reg.OBS_TRACE_SRC_GATE : Field := ⟨Reg.OBS_TRACE_SRC, 2, 1⟩
def Reg.OBS_TRACE_SRC_RING : Field := ⟨Reg.OBS_TRACE_SRC, 3, 1⟩
def Reg.OBS_TRACE_SRC_EVENT : Field := ⟨Reg.OBS_TRACE_SRC, 4, 1⟩
/-- OBS_TRACE_FOLIOS (R540). -/
abbrev Reg.OBS_TRACE_FOLIOS : Nat := 0x40008
/-- OBS_TRACE_PORTS (R540). -/
abbrev Reg.OBS_TRACE_PORTS : Nat := 0x4000C
def Reg.OBS_TRACE_PORTS_PORTS : Field := ⟨Reg.OBS_TRACE_PORTS, 0, 12⟩
/-- OBS_TRACE_STATUS (R540). -/
abbrev Reg.OBS_TRACE_STATUS : Nat := 0x40010
def Reg.OBS_TRACE_STATUS_FIFO : Field := ⟨Reg.OBS_TRACE_STATUS, 0, 16⟩
/-- OBS_LEDGER_CTRL (R540). -/
abbrev Reg.OBS_LEDGER_CTRL : Nat := 0x40020
def Reg.OBS_LEDGER_CTRL_NOW : Field := ⟨Reg.OBS_LEDGER_CTRL, 0, 1⟩
/-- OBS_LEDGER_PERIOD (R540). -/
abbrev Reg.OBS_LEDGER_PERIOD : Nat := 0x40024
def Reg.OBS_LEDGER_PERIOD_PERIOD_US : Field := ⟨Reg.OBS_LEDGER_PERIOD, 0, 20⟩
/-- OBS_LEDGER_NUM (R540). -/
abbrev Reg.OBS_LEDGER_NUM : Nat := 0x40028
/-- OBS_LEDGER_TIME_LO (R540). -/
abbrev Reg.OBS_LEDGER_TIME_LO : Nat := 0x40030
/-- OBS_LEDGER_TIME_HI (R540). -/
abbrev Reg.OBS_LEDGER_TIME_HI : Nat := 0x40034
/-- OBS_LEDGER_RELEASE (R540). -/
abbrev Reg.OBS_LEDGER_RELEASE : Nat := 0x40038
def Reg.OBS_LEDGER_RELEASE_RELEASE : Field := ⟨Reg.OBS_LEDGER_RELEASE, 0, 1⟩
/-- OBS_BOOK_STATUS (R540). -/
abbrev Reg.OBS_BOOK_STATUS : Nat := 0x4003C
def Reg.OBS_BOOK_STATUS_OUT : Field := ⟨Reg.OBS_BOOK_STATUS, 0, 7⟩
/-- OBS_CNT_k (R540). -/
abbrev Reg.OBS_CNT (k : Nat) : Nat := 0x40100 + 0x4 * k
/-- OBS_LIVE_i_LO (R540). -/
abbrev Reg.OBS_LIVE_LO (i : Nat) : Nat := 0x50000 + 0x8 * i
/-- OBS_LIVE_i_HI (R540). -/
abbrev Reg.OBS_LIVE_HI (i : Nat) : Nat := 0x50004 + 0x8 * i
/-- OBS_SNAP_i_LO (R540). -/
abbrev Reg.OBS_SNAP_LO (i : Nat) : Nat := 0x60000 + 0x8 * i
/-- OBS_SNAP_i_HI (R540). -/
abbrev Reg.OBS_SNAP_HI (i : Nat) : Nat := 0x60004 + 0x8 * i
/-- PCIE_LINK (R473). -/
abbrev Reg.PCIE_LINK : Nat := 0x80000
def Reg.PCIE_LINK_SPEED : Field := ⟨Reg.PCIE_LINK, 0, 3⟩
def Reg.PCIE_LINK_WIDTH : Field := ⟨Reg.PCIE_LINK, 4, 4⟩
def Reg.PCIE_LINK_UP : Field := ⟨Reg.PCIE_LINK, 8, 1⟩
def Reg.PCIE_LINK_EQ_DONE : Field := ⟨Reg.PCIE_LINK, 9, 1⟩
def Reg.PCIE_LINK_REVERSED : Field := ⟨Reg.PCIE_LINK, 10, 1⟩
def Reg.PCIE_LINK_LSTATE : Field := ⟨Reg.PCIE_LINK, 12, 3⟩
/-- PCIE_FUNC (R473). -/
abbrev Reg.PCIE_FUNC : Nat := 0x80004
def Reg.PCIE_FUNC_FUNCNUM : Field := ⟨Reg.PCIE_FUNC, 0, 8⟩
def Reg.PCIE_FUNC_MSE : Field := ⟨Reg.PCIE_FUNC, 8, 1⟩
def Reg.PCIE_FUNC_BME : Field := ⟨Reg.PCIE_FUNC, 9, 1⟩
def Reg.PCIE_FUNC_IRQ_MODE : Field := ⟨Reg.PCIE_FUNC, 10, 2⟩
def Reg.PCIE_FUNC_DSTATE : Field := ⟨Reg.PCIE_FUNC, 12, 2⟩
def Reg.PCIE_FUNC_TAGS : Field := ⟨Reg.PCIE_FUNC, 14, 2⟩
/-- PCIE_CTO (R473). -/
abbrev Reg.PCIE_CTO : Nat := 0x80008
def Reg.PCIE_CTO_TIMEOUT_US : Field := ⟨Reg.PCIE_CTO, 0, 26⟩
def Reg.PCIE_CTO_CODE : Field := ⟨Reg.PCIE_CTO, 26, 4⟩
/-- PCIE_TAGS (R473). -/
abbrev Reg.PCIE_TAGS : Nat := 0x8000C
def Reg.PCIE_TAGS_OUTSTANDING : Field := ⟨Reg.PCIE_TAGS, 0, 10⟩
def Reg.PCIE_TAGS_QUARANTINED : Field := ⟨Reg.PCIE_TAGS, 10, 10⟩
/-- PCIE_WINw_STAGE (R473). -/
abbrev Reg.PCIE_WIN_STAGE (w : Nat) : Nat := 0x80100 + 0x8 * w
def Reg.PCIE_WIN_STAGE_EN (w : Nat) : Field := ⟨Reg.PCIE_WIN_STAGE w, 0, 1⟩
def Reg.PCIE_WIN_STAGE_RDONLY (w : Nat) : Field := ⟨Reg.PCIE_WIN_STAGE w, 1, 1⟩
def Reg.PCIE_WIN_STAGE_OWNER (w : Nat) : Field := ⟨Reg.PCIE_WIN_STAGE w, 2, 2⟩
def Reg.PCIE_WIN_STAGE_BASE (w : Nat) : Field := ⟨Reg.PCIE_WIN_STAGE w, 10, 22⟩
/-- PCIE_WINw_ACTIVE (R473). -/
abbrev Reg.PCIE_WIN_ACTIVE (w : Nat) : Nat := 0x80104 + 0x8 * w
def Reg.PCIE_WIN_ACTIVE_EN (w : Nat) : Field := ⟨Reg.PCIE_WIN_ACTIVE w, 0, 1⟩
def Reg.PCIE_WIN_ACTIVE_RDONLY (w : Nat) : Field := ⟨Reg.PCIE_WIN_ACTIVE w, 1, 1⟩
def Reg.PCIE_WIN_ACTIVE_OWNER (w : Nat) : Field := ⟨Reg.PCIE_WIN_ACTIVE w, 2, 2⟩
def Reg.PCIE_WIN_ACTIVE_BASE (w : Nat) : Field := ⟨Reg.PCIE_WIN_ACTIVE w, 10, 22⟩
/-- PCIE_WIN_COMMIT (R473). -/
abbrev Reg.PCIE_WIN_COMMIT : Nat := 0x80120
def Reg.PCIE_WIN_COMMIT_WINDOWS : Field := ⟨Reg.PCIE_WIN_COMMIT, 0, 4⟩
/-- PCIE_WIN_STATUS (R473). -/
abbrev Reg.PCIE_WIN_STATUS : Nat := 0x80124
def Reg.PCIE_WIN_STATUS_REFUSED : Field := ⟨Reg.PCIE_WIN_STATUS, 0, 4⟩
def Reg.PCIE_WIN_STATUS_ERROR : Field := ⟨Reg.PCIE_WIN_STATUS, 4, 4⟩
/-- PCIE_LTR_ACTIVE (R473). -/
abbrev Reg.PCIE_LTR_ACTIVE : Nat := 0x80200
def Reg.PCIE_LTR_ACTIVE_VALUE : Field := ⟨Reg.PCIE_LTR_ACTIVE, 0, 10⟩
def Reg.PCIE_LTR_ACTIVE_SCALE : Field := ⟨Reg.PCIE_LTR_ACTIVE, 10, 3⟩
def Reg.PCIE_LTR_ACTIVE_REQ : Field := ⟨Reg.PCIE_LTR_ACTIVE, 15, 1⟩
/-- PCIE_LTR_QUIET (R473). -/
abbrev Reg.PCIE_LTR_QUIET : Nat := 0x80204
def Reg.PCIE_LTR_QUIET_VALUE : Field := ⟨Reg.PCIE_LTR_QUIET, 0, 10⟩
def Reg.PCIE_LTR_QUIET_SCALE : Field := ⟨Reg.PCIE_LTR_QUIET, 10, 3⟩
def Reg.PCIE_LTR_QUIET_REQ : Field := ⟨Reg.PCIE_LTR_QUIET, 15, 1⟩
/-- PCIE_INTX_PEND (R473). -/
abbrev Reg.PCIE_INTX_PEND : Nat := 0x80210
/-- PCIE_CNT_k (R473). -/
abbrev Reg.PCIE_CNT (k : Nat) : Nat := 0x80300 + 0x4 * k
/-- PCIE_VEC_v (R473). -/
abbrev Reg.PCIE_VEC (v : Nat) : Nat := 0x84000 + 0x4 * v
def Reg.PCIE_VEC_COUNT (v : Nat) : Field := ⟨Reg.PCIE_VEC v, 0, 8⟩
def Reg.PCIE_VEC_TIME_US (v : Nat) : Field := ⟨Reg.PCIE_VEC v, 8, 16⟩
/-- PCIE_IMAP_k_LO (R473). -/
abbrev Reg.PCIE_IMAP_LO (k : Nat) : Nat := 0x88000 + 0x8 * k
def Reg.PCIE_IMAP_LO_QID (k : Nat) : Field := ⟨Reg.PCIE_IMAP_LO k, 0, 20⟩
def Reg.PCIE_IMAP_LO_VALID (k : Nat) : Field := ⟨Reg.PCIE_IMAP_LO k, 31, 1⟩
/-- PCIE_IMAP_k_HI (R473). -/
abbrev Reg.PCIE_IMAP_HI (k : Nat) : Nat := 0x88004 + 0x8 * k
def Reg.PCIE_IMAP_HI_VECTOR (k : Nat) : Field := ⟨Reg.PCIE_IMAP_HI k, 0, 11⟩
/-- SLOT_CTRL (R492). -/
abbrev Reg.SLOT_CTRL : Nat := 0x90000
def Reg.SLOT_CTRL_AUTO : Field := ⟨Reg.SLOT_CTRL, 0, 1⟩
def Reg.SLOT_CTRL_PWR_CTRL : Field := ⟨Reg.SLOT_CTRL, 1, 1⟩
def Reg.SLOT_CTRL_ATTN_IND : Field := ⟨Reg.SLOT_CTRL, 2, 2⟩
def Reg.SLOT_CTRL_PWR_IND : Field := ⟨Reg.SLOT_CTRL, 4, 2⟩
/-- SLOT_STATUS (R492). -/
abbrev Reg.SLOT_STATUS : Nat := 0x90004
def Reg.SLOT_STATUS_ABP : Field := ⟨Reg.SLOT_STATUS, 0, 1⟩
def Reg.SLOT_STATUS_PFD : Field := ⟨Reg.SLOT_STATUS, 1, 1⟩
def Reg.SLOT_STATUS_MRLSC : Field := ⟨Reg.SLOT_STATUS, 2, 1⟩
def Reg.SLOT_STATUS_PDC : Field := ⟨Reg.SLOT_STATUS, 3, 1⟩
def Reg.SLOT_STATUS_DLLSC : Field := ⟨Reg.SLOT_STATUS, 4, 1⟩
def Reg.SLOT_STATUS_MRLS : Field := ⟨Reg.SLOT_STATUS, 5, 1⟩
def Reg.SLOT_STATUS_PDS : Field := ⟨Reg.SLOT_STATUS, 6, 1⟩
def Reg.SLOT_STATUS_DLLA : Field := ⟨Reg.SLOT_STATUS, 7, 1⟩
def Reg.SLOT_STATUS_SPEED : Field := ⟨Reg.SLOT_STATUS, 8, 3⟩
def Reg.SLOT_STATUS_WIDTH : Field := ⟨Reg.SLOT_STATUS, 11, 4⟩
/-- SLOT_STATE (R492). -/
abbrev Reg.SLOT_STATE : Nat := 0x90008
def Reg.SLOT_STATE_STATE : Field := ⟨Reg.SLOT_STATE, 0, 4⟩
/-- SLOT_REC_CTRL (R492). -/
abbrev Reg.SLOT_REC_CTRL : Nat := 0x90010
def Reg.SLOT_REC_CTRL_WRAP : Field := ⟨Reg.SLOT_REC_CTRL, 0, 1⟩
def Reg.SLOT_REC_CTRL_AUTO_LABEL : Field := ⟨Reg.SLOT_REC_CTRL, 1, 1⟩
def Reg.SLOT_REC_CTRL_VERIFY : Field := ⟨Reg.SLOT_REC_CTRL, 2, 2⟩
def Reg.SLOT_REC_CTRL_LABEL : Field := ⟨Reg.SLOT_REC_CTRL, 4, 1⟩
/-- SLOT_REC_CFG (R492). -/
abbrev Reg.SLOT_REC_CFG : Nat := 0x90014
def Reg.SLOT_REC_CFG_SEG_LOG2 : Field := ⟨Reg.SLOT_REC_CFG, 0, 5⟩
def Reg.SLOT_REC_CFG_SEG_MAX_MS : Field := ⟨Reg.SLOT_REC_CFG, 16, 16⟩
/-- SLOT_CAP_LO (R492). -/
abbrev Reg.SLOT_CAP_LO : Nat := 0x90018
/-- SLOT_CAP_HI (R492). -/
abbrev Reg.SLOT_CAP_HI : Nat := 0x9001C
/-- SLOT_NEXT_SEQ_LO (R492). -/
abbrev Reg.SLOT_NEXT_SEQ_LO : Nat := 0x90020
/-- SLOT_NEXT_SEQ_HI (R492). -/
abbrev Reg.SLOT_NEXT_SEQ_HI : Nat := 0x90024
/-- SLOT_BACKLOG (R492). -/
abbrev Reg.SLOT_BACKLOG : Nat := 0x90028
def Reg.SLOT_BACKLOG_SEGMENTS : Field := ⟨Reg.SLOT_BACKLOG, 0, 16⟩
/-- SLOT_CNT_k (R492). -/
abbrev Reg.SLOT_CNT (k : Nat) : Nat := 0x90100 + 0x4 * k
/-- DMA_RESERVED (R440). -/
abbrev Reg.DMA_RESERVED : Nat := 0xA0000
def Reg.DMA_RESERVED_COUNT : Field := ⟨Reg.DMA_RESERVED, 0, 6⟩
/-- DMA_FLAGS (R440). -/
abbrev Reg.DMA_FLAGS : Nat := 0xA0004
/-- DMA_FLAGS_CLR (R440). -/
abbrev Reg.DMA_FLAGS_CLR : Nat := 0xA0008
/-- DMA_TIMERk (R440). -/
abbrev Reg.DMA_TIMER (k : Nat) : Nat := 0xA0010 + 0x4 * k
def Reg.DMA_TIMER_PERIOD_NS (k : Nat) : Field := ⟨Reg.DMA_TIMER k, 0, 30⟩
/-- DMA_CNT_k (R440). -/
abbrev Reg.DMA_CNT (k : Nat) : Nat := 0xA0040 + 0x4 * k
/-- DMA_CHn_PROG_LO (R440). -/
abbrev Reg.DMA_CH_PROG_LO (n : Nat) : Nat := 0xA1000 + 0x40 * n
/-- DMA_CHn_PROG_HI (R440). -/
abbrev Reg.DMA_CH_PROG_HI (n : Nat) : Nat := 0xA1004 + 0x40 * n
/-- DMA_CHn_CFG (R440). -/
abbrev Reg.DMA_CH_CFG (n : Nat) : Nat := 0xA1008 + 0x40 * n
def Reg.DMA_CH_CFG_BURST (n : Nat) : Field := ⟨Reg.DMA_CH_CFG n, 0, 13⟩
def Reg.DMA_CH_CFG_PROG_LOC (n : Nat) : Field := ⟨Reg.DMA_CH_CFG n, 13, 1⟩
def Reg.DMA_CH_CFG_RETRY_LIMIT (n : Nat) : Field := ⟨Reg.DMA_CH_CFG n, 16, 4⟩
def Reg.DMA_CH_CFG_TAGS (n : Nat) : Field := ⟨Reg.DMA_CH_CFG n, 20, 7⟩
def Reg.DMA_CH_CFG_OWNER (n : Nat) : Field := ⟨Reg.DMA_CH_CFG n, 27, 1⟩
/-- DMA_CHn_ERRCQ (R440). -/
abbrev Reg.DMA_CH_ERRCQ (n : Nat) : Nat := 0xA100C + 0x40 * n
def Reg.DMA_CH_ERRCQ_CQ (n : Nat) : Field := ⟨Reg.DMA_CH_ERRCQ n, 0, 20⟩
def Reg.DMA_CH_ERRCQ_EN (n : Nat) : Field := ⟨Reg.DMA_CH_ERRCQ n, 31, 1⟩
/-- DMA_CHn_CTRL (R440). -/
abbrev Reg.DMA_CH_CTRL (n : Nat) : Nat := 0xA1010 + 0x40 * n
def Reg.DMA_CH_CTRL_START (n : Nat) : Field := ⟨Reg.DMA_CH_CTRL n, 0, 1⟩
def Reg.DMA_CH_CTRL_STOP (n : Nat) : Field := ⟨Reg.DMA_CH_CTRL n, 1, 1⟩
def Reg.DMA_CH_CTRL_CLEAR_REQ (n : Nat) : Field := ⟨Reg.DMA_CH_CTRL n, 2, 1⟩
/-- DMA_CHn_STATUS (R440). -/
abbrev Reg.DMA_CH_STATUS (n : Nat) : Nat := 0xA1014 + 0x40 * n
def Reg.DMA_CH_STATUS_STATE (n : Nat) : Field := ⟨Reg.DMA_CH_STATUS n, 0, 3⟩
def Reg.DMA_CH_STATUS_HALT_STATUS (n : Nat) : Field := ⟨Reg.DMA_CH_STATUS n, 8, 8⟩
def Reg.DMA_CH_STATUS_HALT_DETAIL (n : Nat) : Field := ⟨Reg.DMA_CH_STATUS n, 16, 8⟩
def Reg.DMA_CH_STATUS_PENDING (n : Nat) : Field := ⟨Reg.DMA_CH_STATUS n, 24, 8⟩
/-- DMA_CHn_PC (R440). -/
abbrev Reg.DMA_CH_PC (n : Nat) : Nat := 0xA1018 + 0x40 * n
def Reg.DMA_CH_PC_INDEX (n : Nat) : Field := ⟨Reg.DMA_CH_PC n, 0, 16⟩
/-- DMA_CHn_REMAIN (R440). -/
abbrev Reg.DMA_CH_REMAIN (n : Nat) : Nat := 0xA101C + 0x40 * n
/-- DMA_CHn_TAGS (R440). -/
abbrev Reg.DMA_CH_TAGS (n : Nat) : Nat := 0xA1020 + 0x40 * n
def Reg.DMA_CH_TAGS_OUTSTANDING (n : Nat) : Field := ⟨Reg.DMA_CH_TAGS n, 0, 7⟩
def Reg.DMA_CH_TAGS_QUARANTINED (n : Nat) : Field := ⟨Reg.DMA_CH_TAGS n, 8, 7⟩
def Reg.DMA_CH_TAGS_FREE (n : Nat) : Field := ⟨Reg.DMA_CH_TAGS n, 16, 7⟩
/-- EVT_CTRL (R342). -/
abbrev Reg.EVT_CTRL : Nat := 0xC0000
def Reg.EVT_CTRL_EQ : Field := ⟨Reg.EVT_CTRL, 0, 20⟩
/-- EVT_LEVEL_IN (R342). -/
abbrev Reg.EVT_LEVEL_IN : Nat := 0xC0004
/-- EVT_LEVEL_OUT (R342). -/
abbrev Reg.EVT_LEVEL_OUT : Nat := 0xC0008
/-- EVT_CNT_k (R342). -/
abbrev Reg.EVT_CNT (k : Nat) : Nat := 0xC0010 + 0x4 * k
/-- EVT_PINn_CFG (R342). -/
abbrev Reg.EVT_PIN_CFG (n : Nat) : Nat := 0xC0100 + 0x40 * n
def Reg.EVT_PIN_CFG_FUNCTION (n : Nat) : Field := ⟨Reg.EVT_PIN_CFG n, 0, 3⟩
def Reg.EVT_PIN_CFG_POLARITY (n : Nat) : Field := ⟨Reg.EVT_PIN_CFG n, 3, 2⟩
def Reg.EVT_PIN_CFG_ALIGN (n : Nat) : Field := ⟨Reg.EVT_PIN_CFG n, 5, 2⟩
def Reg.EVT_PIN_CFG_ALIGN_PORT (n : Nat) : Field := ⟨Reg.EVT_PIN_CFG n, 7, 4⟩
def Reg.EVT_PIN_CFG_FILTER_NS (n : Nat) : Field := ⟨Reg.EVT_PIN_CFG n, 11, 20⟩
/-- EVT_PINn_CTRL (R342). -/
abbrev Reg.EVT_PIN_CTRL (n : Nat) : Nat := 0xC0104 + 0x40 * n
def Reg.EVT_PIN_CTRL_ARM (n : Nat) : Field := ⟨Reg.EVT_PIN_CTRL n, 0, 1⟩
def Reg.EVT_PIN_CTRL_POST (n : Nat) : Field := ⟨Reg.EVT_PIN_CTRL n, 1, 1⟩
def Reg.EVT_PIN_CTRL_REQ_SYNC (n : Nat) : Field := ⟨Reg.EVT_PIN_CTRL n, 2, 1⟩
def Reg.EVT_PIN_CTRL_CLEAR (n : Nat) : Field := ⟨Reg.EVT_PIN_CTRL n, 3, 1⟩
def Reg.EVT_PIN_CTRL_SNAP_EVERY (n : Nat) : Field := ⟨Reg.EVT_PIN_CTRL n, 8, 16⟩
/-- EVT_PINn_START (R342). -/
abbrev Reg.EVT_PIN_START (n : Nat) : Nat := 0xC0108 + 0x40 * n
/-- EVT_PINn_WIDTH (R342). -/
abbrev Reg.EVT_PIN_WIDTH (n : Nat) : Nat := 0xC010C + 0x40 * n
def Reg.EVT_PIN_WIDTH_WIDTH_NS (n : Nat) : Field := ⟨Reg.EVT_PIN_WIDTH n, 0, 30⟩
/-- EVT_PINn_PERIOD (R342). -/
abbrev Reg.EVT_PIN_PERIOD (n : Nat) : Nat := 0xC0110 + 0x40 * n
def Reg.EVT_PIN_PERIOD_PERIOD_NS (n : Nat) : Field := ⟨Reg.EVT_PIN_PERIOD n, 0, 30⟩
/-- EVT_PINn_REPEAT (R342). -/
abbrev Reg.EVT_PIN_REPEAT (n : Nat) : Nat := 0xC0114 + 0x40 * n
def Reg.EVT_PIN_REPEAT_COUNT (n : Nat) : Field := ⟨Reg.EVT_PIN_REPEAT n, 0, 16⟩
def Reg.EVT_PIN_REPEAT_EVERY (n : Nat) : Field := ⟨Reg.EVT_PIN_REPEAT n, 16, 16⟩
/-- EVT_PINn_STATUS (R342). -/
abbrev Reg.EVT_PIN_STATUS (n : Nat) : Nat := 0xC0118 + 0x40 * n
def Reg.EVT_PIN_STATUS_FIFO (n : Nat) : Field := ⟨Reg.EVT_PIN_STATUS n, 0, 7⟩
def Reg.EVT_PIN_STATUS_RUNNING (n : Nat) : Field := ⟨Reg.EVT_PIN_STATUS n, 7, 1⟩
def Reg.EVT_PIN_STATUS_SEQ (n : Nat) : Field := ⟨Reg.EVT_PIN_STATUS n, 8, 8⟩
def Reg.EVT_PIN_STATUS_ERROR (n : Nat) : Field := ⟨Reg.EVT_PIN_STATUS n, 16, 4⟩
/-- EVT_PINn_COUNT (R342). -/
abbrev Reg.EVT_PIN_COUNT (n : Nat) : Nat := 0xC011C + 0x40 * n
/-- EVT_PINn_LAST_LO (R342). -/
abbrev Reg.EVT_PIN_LAST_LO (n : Nat) : Nat := 0xC0120 + 0x40 * n
/-- EVT_PINn_LAST_MID (R342). -/
abbrev Reg.EVT_PIN_LAST_MID (n : Nat) : Nat := 0xC0124 + 0x40 * n
/-- EVT_PINn_LAST_HI (R342). -/
abbrev Reg.EVT_PIN_LAST_HI (n : Nat) : Nat := 0xC0128 + 0x40 * n
def Reg.EVT_PIN_LAST_HI_SEC_HI (n : Nat) : Field := ⟨Reg.EVT_PIN_LAST_HI n, 0, 16⟩
def Reg.EVT_PIN_LAST_HI_FRAC_NS (n : Nat) : Field := ⟨Reg.EVT_PIN_LAST_HI n, 16, 16⟩
/-- EVT_PINn_LAST_COUNT (R342). -/
abbrev Reg.EVT_PIN_LAST_COUNT (n : Nat) : Nat := 0xC012C + 0x40 * n
/-- TB_NOW_LO (R168). -/
abbrev Reg.TB_NOW_LO : Nat := 0xD0000
/-- TB_NOW_MID (R168). -/
abbrev Reg.TB_NOW_MID : Nat := 0xD0004
/-- TB_NOW_HI (R168). -/
abbrev Reg.TB_NOW_HI : Nat := 0xD0008
def Reg.TB_NOW_HI_SEC_HI : Field := ⟨Reg.TB_NOW_HI, 0, 16⟩
def Reg.TB_NOW_HI_FRAC_NS : Field := ⟨Reg.TB_NOW_HI, 16, 16⟩
/-- TB_UPTIME_LO (R168). -/
abbrev Reg.TB_UPTIME_LO : Nat := 0xD0010
/-- TB_UPTIME_HI (R168). -/
abbrev Reg.TB_UPTIME_HI : Nat := 0xD0014
/-- TB_STATUS (R168). -/
abbrev Reg.TB_STATUS : Nat := 0xD0018
def Reg.TB_STATUS_STATUS : Field := ⟨Reg.TB_STATUS, 0, 2⟩
def Reg.TB_STATUS_DUAL : Field := ⟨Reg.TB_STATUS, 2, 1⟩
def Reg.TB_STATUS_SLEWING : Field := ⟨Reg.TB_STATUS, 3, 1⟩
def Reg.TB_STATUS_STEP_PENDING : Field := ⟨Reg.TB_STATUS, 4, 1⟩
def Reg.TB_STATUS_HOST_STACK : Field := ⟨Reg.TB_STATUS, 5, 1⟩
def Reg.TB_STATUS_REF : Field := ⟨Reg.TB_STATUS, 6, 2⟩
def Reg.TB_STATUS_WORKING : Field := ⟨Reg.TB_STATUS, 8, 8⟩
def Reg.TB_STATUS_REF10M_USED : Field := ⟨Reg.TB_STATUS, 16, 1⟩
/-- TB_SET_LO (R168). -/
abbrev Reg.TB_SET_LO : Nat := 0xD0020
/-- TB_SET_MID (R168). -/
abbrev Reg.TB_SET_MID : Nat := 0xD0024
/-- TB_SET_HI (R168). -/
abbrev Reg.TB_SET_HI : Nat := 0xD0028
def Reg.TB_SET_HI_SEC_HI : Field := ⟨Reg.TB_SET_HI, 0, 16⟩
def Reg.TB_SET_HI_FRAC_NS : Field := ⟨Reg.TB_SET_HI, 16, 16⟩
/-- TB_STEP_LO (R168). -/
abbrev Reg.TB_STEP_LO : Nat := 0xD0030
/-- TB_STEP_HI (R168). -/
abbrev Reg.TB_STEP_HI : Nat := 0xD0034
/-- TB_PENDING_LO (R168). -/
abbrev Reg.TB_PENDING_LO : Nat := 0xD0038
/-- TB_PENDING_HI (R168). -/
abbrev Reg.TB_PENDING_HI : Nat := 0xD003C
/-- TB_STEP_AUTH (R168). -/
abbrev Reg.TB_STEP_AUTH : Nat := 0xD0040
def Reg.TB_STEP_AUTH_ACTION : Field := ⟨Reg.TB_STEP_AUTH, 0, 2⟩
/-- TB_RATE (R168). -/
abbrev Reg.TB_RATE : Nat := 0xD0044
/-- TB_JUMP (R168). -/
abbrev Reg.TB_JUMP : Nat := 0xD0048
def Reg.TB_JUMP_JUMP_NS : Field := ⟨Reg.TB_JUMP, 0, 30⟩
/-- TB_LOCK_BOUND (R168). -/
abbrev Reg.TB_LOCK_BOUND : Nat := 0xD004C
def Reg.TB_LOCK_BOUND_BOUND_NS : Field := ⟨Reg.TB_LOCK_BOUND, 0, 20⟩
/-- TB_SETUP_MARGIN (R168). -/
abbrev Reg.TB_SETUP_MARGIN : Nat := 0xD0050
def Reg.TB_SETUP_MARGIN_MARGIN_NS : Field := ⟨Reg.TB_SETUP_MARGIN, 0, 27⟩
/-- TB_SLEW_PPB (R168). -/
abbrev Reg.TB_SLEW_PPB : Nat := 0xD0054
def Reg.TB_SLEW_PPB_SLEW_PPB : Field := ⟨Reg.TB_SLEW_PPB, 0, 14⟩
/-- TB_SLEW_RESIDUAL (R168). -/
abbrev Reg.TB_SLEW_RESIDUAL : Nat := 0xD0058
/-- TB_HOST_STATUS (R168). -/
abbrev Reg.TB_HOST_STATUS : Nat := 0xD005C
def Reg.TB_HOST_STATUS_STATUS : Field := ⟨Reg.TB_HOST_STATUS, 0, 2⟩
/-- TB_PPS_CTRL (R168). -/
abbrev Reg.TB_PPS_CTRL : Nat := 0xD0060
def Reg.TB_PPS_CTRL_OUT_EN : Field := ⟨Reg.TB_PPS_CTRL, 0, 1⟩
def Reg.TB_PPS_CTRL_OUT_ANY : Field := ⟨Reg.TB_PPS_CTRL, 1, 1⟩
def Reg.TB_PPS_CTRL_IN_EDGE : Field := ⟨Reg.TB_PPS_CTRL, 2, 1⟩
def Reg.TB_PPS_CTRL_WIDTH_US : Field := ⟨Reg.TB_PPS_CTRL, 8, 24⟩
/-- TB_REF_STATUS (R168). -/
abbrev Reg.TB_REF_STATUS : Nat := 0xD0064
def Reg.TB_REF_STATUS_PPS_IN_PRESENT : Field := ⟨Reg.TB_REF_STATUS, 0, 1⟩
def Reg.TB_REF_STATUS_REF10M_PRESENT : Field := ⟨Reg.TB_REF_STATUS, 1, 1⟩
def Reg.TB_REF_STATUS_REF10M_LOCKED : Field := ⟨Reg.TB_REF_STATUS, 2, 1⟩
def Reg.TB_REF_STATUS_PPS_PHASE : Field := ⟨Reg.TB_REF_STATUS, 16, 16⟩
/-- TB_PPS_IN_TS_LO (R168). -/
abbrev Reg.TB_PPS_IN_TS_LO : Nat := 0xD0070
/-- TB_PPS_IN_TS_MID (R168). -/
abbrev Reg.TB_PPS_IN_TS_MID : Nat := 0xD0074
/-- TB_PPS_IN_TS_HI (R168). -/
abbrev Reg.TB_PPS_IN_TS_HI : Nat := 0xD0078
def Reg.TB_PPS_IN_TS_HI_SEC_HI : Field := ⟨Reg.TB_PPS_IN_TS_HI, 0, 16⟩
def Reg.TB_PPS_IN_TS_HI_FRAC_NS : Field := ⟨Reg.TB_PPS_IN_TS_HI, 16, 16⟩
/-- TB_UTC_OFFSET (R168). -/
abbrev Reg.TB_UTC_OFFSET : Nat := 0xD007C
def Reg.TB_UTC_OFFSET_UTC_OFFSET : Field := ⟨Reg.TB_UTC_OFFSET, 0, 16⟩
def Reg.TB_UTC_OFFSET_VALID : Field := ⟨Reg.TB_UTC_OFFSET, 16, 1⟩
/-- TB_LAT_TX_n (R168). -/
abbrev Reg.TB_LAT_TX (n : Nat) : Nat := 0xD0100 + 0x8 * n
/-- TB_LAT_RX_n (R168). -/
abbrev Reg.TB_LAT_RX (n : Nat) : Nat := 0xD0104 + 0x8 * n
/-- PTP_CTRL (R169). -/
abbrev Reg.PTP_CTRL : Nat := 0xE0000
def Reg.PTP_CTRL_ENABLE : Field := ⟨Reg.PTP_CTRL, 0, 1⟩
def Reg.PTP_CTRL_STACK : Field := ⟨Reg.PTP_CTRL, 1, 1⟩
def Reg.PTP_CTRL_ONE_STEP : Field := ⟨Reg.PTP_CTRL, 2, 1⟩
def Reg.PTP_CTRL_PEER_DELAY : Field := ⟨Reg.PTP_CTRL, 3, 1⟩
def Reg.PTP_CTRL_AUTO_SWITCH : Field := ⟨Reg.PTP_CTRL, 4, 1⟩
def Reg.PTP_CTRL_PORT_EN : Field := ⟨Reg.PTP_CTRL, 8, 6⟩
/-- PTP_SWITCH (R169). -/
abbrev Reg.PTP_SWITCH : Nat := 0xE0004
def Reg.PTP_SWITCH_GO : Field := ⟨Reg.PTP_SWITCH, 0, 1⟩
/-- PTP_DOMi_CFG (R169). -/
abbrev Reg.PTP_DOM_CFG (i : Nat) : Nat := 0xE0010 + 0x10 * i
def Reg.PTP_DOM_CFG_DOMAIN (i : Nat) : Field := ⟨Reg.PTP_DOM_CFG i, 0, 8⟩
def Reg.PTP_DOM_CFG_ROLE (i : Nat) : Field := ⟨Reg.PTP_DOM_CFG i, 8, 2⟩
def Reg.PTP_DOM_CFG_STATE (i : Nat) : Field := ⟨Reg.PTP_DOM_CFG i, 10, 2⟩
/-- PTP_DOMi_OFFSET (R169). -/
abbrev Reg.PTP_DOM_OFFSET (i : Nat) : Nat := 0xE0014 + 0x10 * i
/-- PTP_DOMi_GM_LO (R169). -/
abbrev Reg.PTP_DOM_GM_LO (i : Nat) : Nat := 0xE0018 + 0x10 * i
/-- PTP_DOMi_GM_HI (R169). -/
abbrev Reg.PTP_DOM_GM_HI (i : Nat) : Nat := 0xE001C + 0x10 * i
/-- PTP_PORTp_CFG (R169). -/
abbrev Reg.PTP_PORT_CFG (p : Nat) : Nat := 0xE0100 + 0x8 * p
def Reg.PTP_PORT_CFG_LOG_SYNC (p : Nat) : Field := ⟨Reg.PTP_PORT_CFG p, 0, 4⟩
def Reg.PTP_PORT_CFG_LOG_ANNOUNCE (p : Nat) : Field := ⟨Reg.PTP_PORT_CFG p, 4, 4⟩
def Reg.PTP_PORT_CFG_LOG_PDELAY (p : Nat) : Field := ⟨Reg.PTP_PORT_CFG p, 8, 4⟩
def Reg.PTP_PORT_CFG_ANN_TIMEOUT (p : Nat) : Field := ⟨Reg.PTP_PORT_CFG p, 12, 4⟩
def Reg.PTP_PORT_CFG_STATE (p : Nat) : Field := ⟨Reg.PTP_PORT_CFG p, 16, 3⟩
/-- PTP_PORTp_MLD (R169). -/
abbrev Reg.PTP_PORT_MLD (p : Nat) : Nat := 0xE0104 + 0x8 * p
/-- RING_CTRL (R325). -/
abbrev Reg.RING_CTRL : Nat := 0xF0000
def Reg.RING_CTRL_ENABLE : Field := ⟨Reg.RING_CTRL, 0, 1⟩
def Reg.RING_CTRL_MEASURE : Field := ⟨Reg.RING_CTRL, 1, 1⟩
def Reg.RING_CTRL_HEAL : Field := ⟨Reg.RING_CTRL, 2, 1⟩
/-- RING_STATUS (R325). -/
abbrev Reg.RING_STATUS : Nat := 0xF0004
def Reg.RING_STATUS_STATE : Field := ⟨Reg.RING_STATUS, 0, 3⟩
def Reg.RING_STATUS_LINE : Field := ⟨Reg.RING_STATUS, 3, 1⟩
def Reg.RING_STATUS_GRACE : Field := ⟨Reg.RING_STATUS, 4, 1⟩
def Reg.RING_STATUS_CYCLE : Field := ⟨Reg.RING_STATUS, 16, 16⟩
/-- RING_ETHERTYPE (R325). -/
abbrev Reg.RING_ETHERTYPE : Nat := 0xF0008
def Reg.RING_ETHERTYPE_ETHERTYPE : Field := ⟨Reg.RING_ETHERTYPE, 0, 16⟩
/-- RING_CYCLE (R325). -/
abbrev Reg.RING_CYCLE : Nat := 0xF000C
def Reg.RING_CYCLE_CYCLE_NS : Field := ⟨Reg.RING_CYCLE, 0, 27⟩
/-- RING_GUTTER (R325). -/
abbrev Reg.RING_GUTTER : Nat := 0xF0010
def Reg.RING_GUTTER_GUTTER_NS : Field := ⟨Reg.RING_GUTTER, 0, 16⟩
/-- RING_MISS_LIMIT (R325). -/
abbrev Reg.RING_MISS_LIMIT : Nat := 0xF0014
def Reg.RING_MISS_LIMIT_LIMIT : Field := ⟨Reg.RING_MISS_LIMIT, 0, 4⟩
/-- RING_READMIT (R325). -/
abbrev Reg.RING_READMIT : Nat := 0xF0018
def Reg.RING_READMIT_STATION : Field := ⟨Reg.RING_READMIT, 0, 8⟩
def Reg.RING_READMIT_GO : Field := ⟨Reg.RING_READMIT, 31, 1⟩
/-- RING_PRIORITY (R325). -/
abbrev Reg.RING_PRIORITY : Nat := 0xF001C
def Reg.RING_PRIORITY_PRIORITY : Field := ⟨Reg.RING_PRIORITY, 0, 8⟩
/-- RING_SERIAL_LO (R325). -/
abbrev Reg.RING_SERIAL_LO : Nat := 0xF0020
/-- RING_SERIAL_HI (R325). -/
abbrev Reg.RING_SERIAL_HI : Nat := 0xF0024
/-- RING_NOW_LO (R325). -/
abbrev Reg.RING_NOW_LO : Nat := 0xF0028
/-- RING_NOW_HI (R325). -/
abbrev Reg.RING_NOW_HI : Nat := 0xF002C
/-- RING_BRIDGE_LO (R325). -/
abbrev Reg.RING_BRIDGE_LO : Nat := 0xF0030
/-- RING_BRIDGE_HI (R325). -/
abbrev Reg.RING_BRIDGE_HI : Nat := 0xF0034
/-- RING_LAMBDA_A (R325). -/
abbrev Reg.RING_LAMBDA_A : Nat := 0xF0038
/-- RING_LAMBDA_B (R325). -/
abbrev Reg.RING_LAMBDA_B : Nat := 0xF003C
/-- RING_TABLE_COMMIT (R325). -/
abbrev Reg.RING_TABLE_COMMIT : Nat := 0xF0040
def Reg.RING_TABLE_COMMIT_GO : Field := ⟨Reg.RING_TABLE_COMMIT, 0, 1⟩
def Reg.RING_TABLE_COMMIT_CANCEL : Field := ⟨Reg.RING_TABLE_COMMIT, 1, 1⟩
/-- RING_TABLE_STATUS (R325). -/
abbrev Reg.RING_TABLE_STATUS : Nat := 0xF0044
def Reg.RING_TABLE_STATUS_STATE : Field := ⟨Reg.RING_TABLE_STATUS, 0, 2⟩
def Reg.RING_TABLE_STATUS_ERROR : Field := ⟨Reg.RING_TABLE_STATUS, 4, 4⟩
def Reg.RING_TABLE_STATUS_ENTRY : Field := ⟨Reg.RING_TABLE_STATUS, 8, 12⟩
/-- RING_TABLE_CHANGE (R325). -/
abbrev Reg.RING_TABLE_CHANGE : Nat := 0xF0048
def Reg.RING_TABLE_CHANGE_CYCLE : Field := ⟨Reg.RING_TABLE_CHANGE, 0, 16⟩
/-- RING_EXCLUDED_k (R325). -/
abbrev Reg.RING_EXCLUDED (k : Nat) : Nat := 0xF0080 + 0x4 * k
/-- RING_DRIFT_k (R325). -/
abbrev Reg.RING_DRIFT (k : Nat) : Nat := 0xF00A0 + 0x4 * k
/-- RING_CNT_k (R325). -/
abbrev Reg.RING_CNT (k : Nat) : Nat := 0xF0100 + 0x4 * k
/-- PORTn_MEDIA (R242). -/
abbrev Reg.PORT_MEDIA (n : Nat) : Nat := 0x100000 + 0x10000 * n
def Reg.PORT_MEDIA_MEDIA (n : Nat) : Field := ⟨Reg.PORT_MEDIA n, 0, 8⟩
def Reg.PORT_MEDIA_SPEED (n : Nat) : Field := ⟨Reg.PORT_MEDIA n, 8, 8⟩
def Reg.PORT_MEDIA_FEC (n : Nat) : Field := ⟨Reg.PORT_MEDIA n, 16, 2⟩
def Reg.PORT_MEDIA_PREEMPT_CAP (n : Nat) : Field := ⟨Reg.PORT_MEDIA n, 18, 1⟩
/-- PORTn_LINK_STATUS (R242). -/
abbrev Reg.PORT_LINK_STATUS (n : Nat) : Nat := 0x100004 + 0x10000 * n
def Reg.PORT_LINK_STATUS_UP (n : Nat) : Field := ⟨Reg.PORT_LINK_STATUS n, 0, 1⟩
def Reg.PORT_LINK_STATUS_PCS_LOCK (n : Nat) : Field := ⟨Reg.PORT_LINK_STATUS n, 1, 1⟩
def Reg.PORT_LINK_STATUS_FEC_LOCK (n : Nat) : Field := ⟨Reg.PORT_LINK_STATUS n, 2, 1⟩
def Reg.PORT_LINK_STATUS_AN_DONE (n : Nat) : Field := ⟨Reg.PORT_LINK_STATUS n, 3, 1⟩
def Reg.PORT_LINK_STATUS_SPEED_MISMATCH (n : Nat) : Field := ⟨Reg.PORT_LINK_STATUS n, 4, 1⟩
def Reg.PORT_LINK_STATUS_PHY_SPEED (n : Nat) : Field := ⟨Reg.PORT_LINK_STATUS n, 5, 3⟩
def Reg.PORT_LINK_STATUS_REMOTE_FAULT (n : Nat) : Field := ⟨Reg.PORT_LINK_STATUS n, 8, 1⟩
/-- PORTn_LINK_CTRL (R242). -/
abbrev Reg.PORT_LINK_CTRL (n : Nat) : Nat := 0x100008 + 0x10000 * n
def Reg.PORT_LINK_CTRL_DOWN_HOLD_US (n : Nat) : Field := ⟨Reg.PORT_LINK_CTRL n, 0, 10⟩
def Reg.PORT_LINK_CTRL_UP_HOLD_MS (n : Nat) : Field := ⟨Reg.PORT_LINK_CTRL n, 16, 10⟩
def Reg.PORT_LINK_CTRL_ADMIN_DOWN (n : Nat) : Field := ⟨Reg.PORT_LINK_CTRL n, 31, 1⟩
/-- PORTn_MAC_CTRL (R242). -/
abbrev Reg.PORT_MAC_CTRL (n : Nat) : Nat := 0x10000C + 0x10000 * n
def Reg.PORT_MAC_CTRL_TX_EN (n : Nat) : Field := ⟨Reg.PORT_MAC_CTRL n, 0, 1⟩
def Reg.PORT_MAC_CTRL_RX_EN (n : Nat) : Field := ⟨Reg.PORT_MAC_CTRL n, 1, 1⟩
def Reg.PORT_MAC_CTRL_MAX_FRAME (n : Nat) : Field := ⟨Reg.PORT_MAC_CTRL n, 16, 14⟩
/-- PORTn_MAC_ADDR_LO (R242). -/
abbrev Reg.PORT_MAC_ADDR_LO (n : Nat) : Nat := 0x100010 + 0x10000 * n
/-- PORTn_MAC_ADDR_HI (R242). -/
abbrev Reg.PORT_MAC_ADDR_HI (n : Nat) : Nat := 0x100014 + 0x10000 * n
/-- PORTn_RX_FILTER (R242). -/
abbrev Reg.PORT_RX_FILTER (n : Nat) : Nat := 0x100020 + 0x10000 * n
def Reg.PORT_RX_FILTER_MODE (n : Nat) : Field := ⟨Reg.PORT_RX_FILTER n, 0, 1⟩
def Reg.PORT_RX_FILTER_BCAST (n : Nat) : Field := ⟨Reg.PORT_RX_FILTER n, 1, 1⟩
def Reg.PORT_RX_FILTER_ALLMULTI (n : Nat) : Field := ⟨Reg.PORT_RX_FILTER n, 2, 1⟩
def Reg.PORT_RX_FILTER_PROMISC (n : Nat) : Field := ⟨Reg.PORT_RX_FILTER n, 3, 1⟩
/-- PORTn_PERF_k_LO (R242). -/
abbrev Reg.PORT_PERF_LO (n k : Nat) : Nat := 0x100100 + 0x10000 * n + 0x8 * k
/-- PORTn_PERF_k_HI (R242). -/
abbrev Reg.PORT_PERF_HI (n k : Nat) : Nat := 0x100104 + 0x10000 * n + 0x8 * k
def Reg.PORT_PERF_HI_EN (n k : Nat) : Field := ⟨Reg.PORT_PERF_HI n k, 31, 1⟩
/-- PORTn_PAT_k_MASKj (R242). -/
abbrev Reg.PORT_PAT_MASK (n k j : Nat) : Nat := 0x100200 + 0x10000 * n + 0x20 * k + 0x4 * j
/-- PORTn_PAT_k_CRC (R242). -/
abbrev Reg.PORT_PAT_CRC (n k : Nat) : Nat := 0x100210 + 0x10000 * n + 0x20 * k
def Reg.PORT_PAT_CRC_CRC (n k : Nat) : Field := ⟨Reg.PORT_PAT_CRC n k, 0, 16⟩
def Reg.PORT_PAT_CRC_EN (n k : Nat) : Field := ⟨Reg.PORT_PAT_CRC n k, 31, 1⟩
/-- PORTn_PAT_MATCH (R242). -/
abbrev Reg.PORT_PAT_MATCH (n : Nat) : Nat := 0x100300 + 0x10000 * n
def Reg.PORT_PAT_MATCH_MATCH (n : Nat) : Field := ⟨Reg.PORT_PAT_MATCH n, 0, 8⟩
/-- PORTn_FC_CTRL (R242). -/
abbrev Reg.PORT_FC_CTRL (n : Nat) : Nat := 0x100400 + 0x10000 * n
def Reg.PORT_FC_CTRL_MODE (n : Nat) : Field := ⟨Reg.PORT_FC_CTRL n, 0, 2⟩
def Reg.PORT_FC_CTRL_RX_HONOUR (n : Nat) : Field := ⟨Reg.PORT_FC_CTRL n, 2, 1⟩
def Reg.PORT_FC_CTRL_FC_CLASS (n : Nat) : Field := ⟨Reg.PORT_FC_CTRL n, 4, 3⟩
def Reg.PORT_FC_CTRL_PAUSE_TIME (n : Nat) : Field := ⟨Reg.PORT_FC_CTRL n, 16, 16⟩
/-- PORTn_FC_WM_p (R242). -/
abbrev Reg.PORT_FC_WM (n p : Nat) : Nat := 0x100410 + 0x10000 * n + 0x4 * p
def Reg.PORT_FC_WM_XOFF (n p : Nat) : Field := ⟨Reg.PORT_FC_WM n p, 0, 16⟩
def Reg.PORT_FC_WM_XON (n p : Nat) : Field := ⟨Reg.PORT_FC_WM n p, 16, 16⟩
/-- PORTn_FC_STATUS (R242). -/
abbrev Reg.PORT_FC_STATUS (n : Nat) : Nat := 0x100430 + 0x10000 * n
def Reg.PORT_FC_STATUS_XOFF_SENT (n : Nat) : Field := ⟨Reg.PORT_FC_STATUS n, 0, 8⟩
def Reg.PORT_FC_STATUS_STOPPED (n : Nat) : Field := ⟨Reg.PORT_FC_STATUS n, 8, 8⟩
/-- PORTn_MM_CTRL (R242). -/
abbrev Reg.PORT_MM_CTRL (n : Nat) : Nat := 0x100500 + 0x10000 * n
def Reg.PORT_MM_CTRL_ENABLE (n : Nat) : Field := ⟨Reg.PORT_MM_CTRL n, 0, 1⟩
def Reg.PORT_MM_CTRL_VERIFY_DIS (n : Nat) : Field := ⟨Reg.PORT_MM_CTRL n, 1, 1⟩
def Reg.PORT_MM_CTRL_VERIFY_MS (n : Nat) : Field := ⟨Reg.PORT_MM_CTRL n, 8, 8⟩
/-- PORTn_MM_STATUS (R242). -/
abbrev Reg.PORT_MM_STATUS (n : Nat) : Nat := 0x100504 + 0x10000 * n
def Reg.PORT_MM_STATUS_VSTATE (n : Nat) : Field := ⟨Reg.PORT_MM_STATUS n, 0, 3⟩
def Reg.PORT_MM_STATUS_ACTIVE (n : Nat) : Field := ⟨Reg.PORT_MM_STATUS n, 3, 1⟩
def Reg.PORT_MM_STATUS_ATTEMPTS (n : Nat) : Field := ⟨Reg.PORT_MM_STATUS n, 4, 2⟩
/-- PORTn_PLCA_CTRL (R242). -/
abbrev Reg.PORT_PLCA_CTRL (n : Nat) : Nat := 0x100600 + 0x10000 * n
def Reg.PORT_PLCA_CTRL_ID (n : Nat) : Field := ⟨Reg.PORT_PLCA_CTRL n, 0, 8⟩
def Reg.PORT_PLCA_CTRL_COUNT (n : Nat) : Field := ⟨Reg.PORT_PLCA_CTRL n, 8, 8⟩
def Reg.PORT_PLCA_CTRL_TO_TIMER (n : Nat) : Field := ⟨Reg.PORT_PLCA_CTRL n, 16, 8⟩
def Reg.PORT_PLCA_CTRL_MAX_BURST (n : Nat) : Field := ⟨Reg.PORT_PLCA_CTRL n, 24, 8⟩
/-- PORTn_PLCA_BURST (R242). -/
abbrev Reg.PORT_PLCA_BURST (n : Nat) : Nat := 0x100604 + 0x10000 * n
def Reg.PORT_PLCA_BURST_BURST_TIMER (n : Nat) : Field := ⟨Reg.PORT_PLCA_BURST n, 0, 8⟩
/-- PORTn_PLCA_STATUS (R242). -/
abbrev Reg.PORT_PLCA_STATUS (n : Nat) : Nat := 0x100608 + 0x10000 * n
def Reg.PORT_PLCA_STATUS_ACTIVE (n : Nat) : Field := ⟨Reg.PORT_PLCA_STATUS n, 0, 1⟩
/-- PORTn_STAT_k (R242). -/
abbrev Reg.PORT_STAT (n k : Nat) : Nat := 0x101000 + 0x10000 * n + 0x4 * k
/-- PORTn_TC_MAP (R212). -/
abbrev Reg.PORT_TC_MAP (n : Nat) : Nat := 0x104000 + 0x10000 * n
def Reg.PORT_TC_MAP_PCP0 (n : Nat) : Field := ⟨Reg.PORT_TC_MAP n, 0, 3⟩
def Reg.PORT_TC_MAP_PCP1 (n : Nat) : Field := ⟨Reg.PORT_TC_MAP n, 3, 3⟩
def Reg.PORT_TC_MAP_PCP2 (n : Nat) : Field := ⟨Reg.PORT_TC_MAP n, 6, 3⟩
def Reg.PORT_TC_MAP_PCP3 (n : Nat) : Field := ⟨Reg.PORT_TC_MAP n, 9, 3⟩
def Reg.PORT_TC_MAP_PCP4 (n : Nat) : Field := ⟨Reg.PORT_TC_MAP n, 12, 3⟩
def Reg.PORT_TC_MAP_PCP5 (n : Nat) : Field := ⟨Reg.PORT_TC_MAP n, 15, 3⟩
def Reg.PORT_TC_MAP_PCP6 (n : Nat) : Field := ⟨Reg.PORT_TC_MAP n, 18, 3⟩
def Reg.PORT_TC_MAP_PCP7 (n : Nat) : Field := ⟨Reg.PORT_TC_MAP n, 21, 3⟩
/-- PORTn_PREEMPT_CLASS (R212). -/
abbrev Reg.PORT_PREEMPT_CLASS (n : Nat) : Nat := 0x104004 + 0x10000 * n
def Reg.PORT_PREEMPT_CLASS_PREEMPTABLE (n : Nat) : Field := ⟨Reg.PORT_PREEMPT_CLASS n, 0, 8⟩
/-- PORTn_HEADBAND_EXTRA (R212). -/
abbrev Reg.PORT_HEADBAND_EXTRA (n : Nat) : Nat := 0x104008 + 0x10000 * n
def Reg.PORT_HEADBAND_EXTRA_EXTRA_NS (n : Nat) : Field := ⟨Reg.PORT_HEADBAND_EXTRA n, 0, 10⟩
/-- PORTn_LEAD (R212). -/
abbrev Reg.PORT_LEAD (n : Nat) : Nat := 0x10400C + 0x10000 * n
def Reg.PORT_LEAD_LEAD_NS (n : Nat) : Field := ⟨Reg.PORT_LEAD n, 0, 16⟩
/-- PORTn_HOLD_ADVANCE (R212). -/
abbrev Reg.PORT_HOLD_ADVANCE (n : Nat) : Nat := 0x104010 + 0x10000 * n
def Reg.PORT_HOLD_ADVANCE_HOLD_NS (n : Nat) : Field := ⟨Reg.PORT_HOLD_ADVANCE n, 0, 17⟩
/-- PORTn_RELEASE_ADVANCE (R212). -/
abbrev Reg.PORT_RELEASE_ADVANCE (n : Nat) : Nat := 0x104014 + 0x10000 * n
def Reg.PORT_RELEASE_ADVANCE_RELEASE_NS (n : Nat) : Field := ⟨Reg.PORT_RELEASE_ADVANCE n, 0, 17⟩
/-- PORTn_ADMIN_BASE_LO (R212). -/
abbrev Reg.PORT_ADMIN_BASE_LO (n : Nat) : Nat := 0x104020 + 0x10000 * n
/-- PORTn_ADMIN_BASE_MID (R212). -/
abbrev Reg.PORT_ADMIN_BASE_MID (n : Nat) : Nat := 0x104024 + 0x10000 * n
/-- PORTn_ADMIN_BASE_HI (R212). -/
abbrev Reg.PORT_ADMIN_BASE_HI (n : Nat) : Nat := 0x104028 + 0x10000 * n
def Reg.PORT_ADMIN_BASE_HI_SEC_HI (n : Nat) : Field := ⟨Reg.PORT_ADMIN_BASE_HI n, 0, 16⟩
def Reg.PORT_ADMIN_BASE_HI_FRAC_NS (n : Nat) : Field := ⟨Reg.PORT_ADMIN_BASE_HI n, 16, 16⟩
/-- PORTn_ADMIN_CYCLE (R212). -/
abbrev Reg.PORT_ADMIN_CYCLE (n : Nat) : Nat := 0x10402C + 0x10000 * n
def Reg.PORT_ADMIN_CYCLE_CYCLE_NS (n : Nat) : Field := ⟨Reg.PORT_ADMIN_CYCLE n, 0, 30⟩
/-- PORTn_ADMIN_CYCLE_EXT (R212). -/
abbrev Reg.PORT_ADMIN_CYCLE_EXT (n : Nat) : Nat := 0x104030 + 0x10000 * n
def Reg.PORT_ADMIN_CYCLE_EXT_EXT_NS (n : Nat) : Field := ⟨Reg.PORT_ADMIN_CYCLE_EXT n, 0, 30⟩
/-- PORTn_ADMIN_LEN (R212). -/
abbrev Reg.PORT_ADMIN_LEN (n : Nat) : Nat := 0x104034 + 0x10000 * n
def Reg.PORT_ADMIN_LEN_LEN (n : Nat) : Field := ⟨Reg.PORT_ADMIN_LEN n, 0, 11⟩
/-- PORTn_CONFIG_CHANGE (R212). -/
abbrev Reg.PORT_CONFIG_CHANGE (n : Nat) : Nat := 0x104038 + 0x10000 * n
def Reg.PORT_CONFIG_CHANGE_GO (n : Nat) : Field := ⟨Reg.PORT_CONFIG_CHANGE n, 0, 1⟩
def Reg.PORT_CONFIG_CHANGE_CANCEL (n : Nat) : Field := ⟨Reg.PORT_CONFIG_CHANGE n, 1, 1⟩
/-- PORTn_GATE_STATUS (R212). -/
abbrev Reg.PORT_GATE_STATUS (n : Nat) : Nat := 0x10403C + 0x10000 * n
def Reg.PORT_GATE_STATUS_STATE (n : Nat) : Field := ⟨Reg.PORT_GATE_STATUS n, 0, 2⟩
def Reg.PORT_GATE_STATUS_ACTIVE (n : Nat) : Field := ⟨Reg.PORT_GATE_STATUS n, 2, 1⟩
def Reg.PORT_GATE_STATUS_HOLD (n : Nat) : Field := ⟨Reg.PORT_GATE_STATUS n, 3, 1⟩
def Reg.PORT_GATE_STATUS_ERROR (n : Nat) : Field := ⟨Reg.PORT_GATE_STATUS n, 4, 4⟩
def Reg.PORT_GATE_STATUS_GATES (n : Nat) : Field := ⟨Reg.PORT_GATE_STATUS n, 8, 8⟩
def Reg.PORT_GATE_STATUS_OPER_ENTRY (n : Nat) : Field := ⟨Reg.PORT_GATE_STATUS n, 16, 10⟩
/-- PORTn_CHANGE_TIME_LO (R212). -/
abbrev Reg.PORT_CHANGE_TIME_LO (n : Nat) : Nat := 0x104040 + 0x10000 * n
/-- PORTn_CHANGE_TIME_MID (R212). -/
abbrev Reg.PORT_CHANGE_TIME_MID (n : Nat) : Nat := 0x104044 + 0x10000 * n
/-- PORTn_CHANGE_TIME_HI (R212). -/
abbrev Reg.PORT_CHANGE_TIME_HI (n : Nat) : Nat := 0x104048 + 0x10000 * n
def Reg.PORT_CHANGE_TIME_HI_SEC_HI (n : Nat) : Field := ⟨Reg.PORT_CHANGE_TIME_HI n, 0, 16⟩
def Reg.PORT_CHANGE_TIME_HI_FRAC_NS (n : Nat) : Field := ⟨Reg.PORT_CHANGE_TIME_HI n, 16, 16⟩
/-- PORTn_OPER_BASE_LO (R212). -/
abbrev Reg.PORT_OPER_BASE_LO (n : Nat) : Nat := 0x104050 + 0x10000 * n
/-- PORTn_OPER_BASE_MID (R212). -/
abbrev Reg.PORT_OPER_BASE_MID (n : Nat) : Nat := 0x104054 + 0x10000 * n
/-- PORTn_OPER_BASE_HI (R212). -/
abbrev Reg.PORT_OPER_BASE_HI (n : Nat) : Nat := 0x104058 + 0x10000 * n
def Reg.PORT_OPER_BASE_HI_SEC_HI (n : Nat) : Field := ⟨Reg.PORT_OPER_BASE_HI n, 0, 16⟩
def Reg.PORT_OPER_BASE_HI_FRAC_NS (n : Nat) : Field := ⟨Reg.PORT_OPER_BASE_HI n, 16, 16⟩
/-- PORTn_OPER_CYCLE (R212). -/
abbrev Reg.PORT_OPER_CYCLE (n : Nat) : Nat := 0x10405C + 0x10000 * n
def Reg.PORT_OPER_CYCLE_CYCLE_NS (n : Nat) : Field := ⟨Reg.PORT_OPER_CYCLE n, 0, 30⟩
/-- PORTn_OPER_CYCLE_EXT (R212). -/
abbrev Reg.PORT_OPER_CYCLE_EXT (n : Nat) : Nat := 0x104060 + 0x10000 * n
def Reg.PORT_OPER_CYCLE_EXT_EXT_NS (n : Nat) : Field := ⟨Reg.PORT_OPER_CYCLE_EXT n, 0, 30⟩
/-- PORTn_OPER_LEN (R212). -/
abbrev Reg.PORT_OPER_LEN (n : Nat) : Nat := 0x104064 + 0x10000 * n
def Reg.PORT_OPER_LEN_LEN (n : Nat) : Field := ⟨Reg.PORT_OPER_LEN n, 0, 11⟩
/-- PORTn_LAUNCH_STATUS (R212). -/
abbrev Reg.PORT_LAUNCH_STATUS (n : Nat) : Nat := 0x104068 + 0x10000 * n
def Reg.PORT_LAUNCH_STATUS_HELD (n : Nat) : Field := ⟨Reg.PORT_LAUNCH_STATUS n, 0, 10⟩
/-- PORTn_GATE_ERROR (R212). -/
abbrev Reg.PORT_GATE_ERROR (n : Nat) : Nat := 0x10406C + 0x10000 * n
def Reg.PORT_GATE_ERROR_ENTRY (n : Nat) : Field := ⟨Reg.PORT_GATE_ERROR n, 0, 10⟩
/-- PORTn_CBS_SLOPE_c (R212). -/
abbrev Reg.PORT_CBS_SLOPE (n c : Nat) : Nat := 0x104100 + 0x10000 * n + 0x10 * c
def Reg.PORT_CBS_SLOPE_IDLE_SLOPE (n c : Nat) : Field := ⟨Reg.PORT_CBS_SLOPE n c, 0, 25⟩
/-- PORTn_CBS_HI_c (R212). -/
abbrev Reg.PORT_CBS_HI (n c : Nat) : Nat := 0x104104 + 0x10000 * n + 0x10 * c
def Reg.PORT_CBS_HI_HI_CREDIT (n c : Nat) : Field := ⟨Reg.PORT_CBS_HI n c, 0, 31⟩
/-- PORTn_CBS_LO_c (R212). -/
abbrev Reg.PORT_CBS_LO (n c : Nat) : Nat := 0x104108 + 0x10000 * n + 0x10 * c
/-- PORTn_CBS_CREDIT_c (R212). -/
abbrev Reg.PORT_CBS_CREDIT (n c : Nat) : Nat := 0x10410C + 0x10000 * n + 0x10 * c
/-- PORTn_SCHED_CNT_k (R212). -/
abbrev Reg.PORT_SCHED_CNT (n k : Nat) : Nat := 0x104200 + 0x10000 * n + 0x4 * k
/-- PORTn_ADMIN_GCL_k_LO (R212). -/
abbrev Reg.PORT_ADMIN_GCL_LO (n k : Nat) : Nat := 0x108000 + 0x10000 * n + 0x8 * k
/-- PORTn_ADMIN_GCL_k_HI (R212). -/
abbrev Reg.PORT_ADMIN_GCL_HI (n k : Nat) : Nat := 0x108004 + 0x10000 * n + 0x8 * k
/-- PORTn_OPER_GCL_k_LO (R212). -/
abbrev Reg.PORT_OPER_GCL_LO (n k : Nat) : Nat := 0x10A000 + 0x10000 * n + 0x8 * k
/-- PORTn_OPER_GCL_k_HI (R212). -/
abbrev Reg.PORT_OPER_GCL_HI (n k : Nat) : Nat := 0x10A004 + 0x10000 * n + 0x8 * k
/-- FLOW_LEND (R283). -/
abbrev Reg.FLOW_LEND : Nat := 0x200000
def Reg.FLOW_LEND_IDLE_US : Field := ⟨Reg.FLOW_LEND, 0, 14⟩
/-- FLOW_HIST_BASE (R283). -/
abbrev Reg.FLOW_HIST_BASE : Nat := 0x200004
def Reg.FLOW_HIST_BASE_BASE_NS : Field := ⟨Reg.FLOW_HIST_BASE, 0, 16⟩
/-- FLOW_CAM_STATUS (R283). -/
abbrev Reg.FLOW_CAM_STATUS : Nat := 0x200008
def Reg.FLOW_CAM_STATUS_USED : Field := ⟨Reg.FLOW_CAM_STATUS, 0, 13⟩
def Reg.FLOW_CAM_STATUS_HIGH_WATER : Field := ⟨Reg.FLOW_CAM_STATUS, 16, 13⟩
/-- FLOW_CMD_ADDR_LO (R283). -/
abbrev Reg.FLOW_CMD_ADDR_LO : Nat := 0x200010
/-- FLOW_CMD_ADDR_HI (R283). -/
abbrev Reg.FLOW_CMD_ADDR_HI : Nat := 0x200014
/-- FLOW_CMD_CTRL (R283). -/
abbrev Reg.FLOW_CMD_CTRL : Nat := 0x200018
def Reg.FLOW_CMD_CTRL_GO : Field := ⟨Reg.FLOW_CMD_CTRL, 0, 1⟩
/-- FLOW_CMD_STATUS (R283). -/
abbrev Reg.FLOW_CMD_STATUS : Nat := 0x20001C
def Reg.FLOW_CMD_STATUS_STATE : Field := ⟨Reg.FLOW_CMD_STATUS, 0, 2⟩
def Reg.FLOW_CMD_STATUS_RESULT : Field := ⟨Reg.FLOW_CMD_STATUS, 8, 8⟩
def Reg.FLOW_CMD_STATUS_OP : Field := ⟨Reg.FLOW_CMD_STATUS, 16, 8⟩
/-- FLOW_MISS_s (R283). -/
abbrev Reg.FLOW_MISS (s : Nat) : Nat := 0x200040 + 0x4 * s
def Reg.FLOW_MISS_TO_RXQ (s : Nat) : Field := ⟨Reg.FLOW_MISS s, 0, 1⟩
def Reg.FLOW_MISS_RXQ (s : Nat) : Field := ⟨Reg.FLOW_MISS s, 2, 20⟩
/-- FLOW_PART_p_COUNT (R283). -/
abbrev Reg.FLOW_PART_COUNT (p : Nat) : Nat := 0x200100 + 0x4 * p
def Reg.FLOW_PART_COUNT_VALID_FLOWS (p : Nat) : Field := ⟨Reg.FLOW_PART_COUNT p, 0, 21⟩
/-- FLOW_CNT_k (R283). -/
abbrev Reg.FLOW_CNT (k : Nat) : Nat := 0x200200 + 0x4 * k
/-- FLOW_FRER_PROF_k_W0 (R283). -/
abbrev Reg.FLOW_FRER_PROF_W0 (k : Nat) : Nat := 0x201000 + 0x10 * k
def Reg.FLOW_FRER_PROF_W0_HLEN (k : Nat) : Field := ⟨Reg.FLOW_FRER_PROF_W0 k, 0, 11⟩
def Reg.FLOW_FRER_PROF_W0_ALG (k : Nat) : Field := ⟨Reg.FLOW_FRER_PROF_W0 k, 11, 1⟩
def Reg.FLOW_FRER_PROF_W0_INDIVIDUAL (k : Nat) : Field := ⟨Reg.FLOW_FRER_PROF_W0 k, 12, 1⟩
def Reg.FLOW_FRER_PROF_W0_TAKE_NO_SEQ (k : Nat) : Field := ⟨Reg.FLOW_FRER_PROF_W0 k, 13, 1⟩
def Reg.FLOW_FRER_PROF_W0_LATENT_EN (k : Nat) : Field := ⟨Reg.FLOW_FRER_PROF_W0 k, 14, 1⟩
def Reg.FLOW_FRER_PROF_W0_RESET_MS (k : Nat) : Field := ⟨Reg.FLOW_FRER_PROF_W0 k, 16, 16⟩
/-- FLOW_FRER_PROF_k_W1 (R283). -/
abbrev Reg.FLOW_FRER_PROF_W1 (k : Nat) : Nat := 0x201004 + 0x10 * k
def Reg.FLOW_FRER_PROF_W1_LE_DIFF (k : Nat) : Field := ⟨Reg.FLOW_FRER_PROF_W1 k, 0, 16⟩
def Reg.FLOW_FRER_PROF_W1_PATHS (k : Nat) : Field := ⟨Reg.FLOW_FRER_PROF_W1 k, 16, 3⟩
/-- FLOW_FRER_PROF_k_W2 (R283). -/
abbrev Reg.FLOW_FRER_PROF_W2 (k : Nat) : Nat := 0x201008 + 0x10 * k
def Reg.FLOW_FRER_PROF_W2_LE_PERIOD_MS (k : Nat) : Field := ⟨Reg.FLOW_FRER_PROF_W2 k, 0, 16⟩
def Reg.FLOW_FRER_PROF_W2_LE_RESET_TESTS (k : Nat) : Field := ⟨Reg.FLOW_FRER_PROF_W2 k, 16, 8⟩
/-- FLOW_FRER_PROF_k_W3 (R283). -/
abbrev Reg.FLOW_FRER_PROF_W3 (k : Nat) : Nat := 0x20100C + 0x10 * k
/-- FLOW_POL_PROF_k_W0 (R283). -/
abbrev Reg.FLOW_POL_PROF_W0 (k : Nat) : Nat := 0x204000 + 0x10 * k
def Reg.FLOW_POL_PROF_W0_CIR (k : Nat) : Field := ⟨Reg.FLOW_POL_PROF_W0 k, 0, 25⟩
/-- FLOW_POL_PROF_k_W1 (R283). -/
abbrev Reg.FLOW_POL_PROF_W1 (k : Nat) : Nat := 0x204004 + 0x10 * k
def Reg.FLOW_POL_PROF_W1_PIR (k : Nat) : Field := ⟨Reg.FLOW_POL_PROF_W1 k, 0, 25⟩
/-- FLOW_POL_PROF_k_W2 (R283). -/
abbrev Reg.FLOW_POL_PROF_W2 (k : Nat) : Nat := 0x204008 + 0x10 * k
def Reg.FLOW_POL_PROF_W2_CBS (k : Nat) : Field := ⟨Reg.FLOW_POL_PROF_W2 k, 0, 24⟩
/-- FLOW_POL_PROF_k_W3 (R283). -/
abbrev Reg.FLOW_POL_PROF_W3 (k : Nat) : Nat := 0x20400C + 0x10 * k
def Reg.FLOW_POL_PROF_W3_PBS (k : Nat) : Field := ⟨Reg.FLOW_POL_PROF_W3 k, 0, 24⟩
def Reg.FLOW_POL_PROF_W3_YELLOW_ACTION (k : Nat) : Field := ⟨Reg.FLOW_POL_PROF_W3 k, 24, 2⟩
/-- QM_QCMD_QID (R416). -/
abbrev Reg.QM_QCMD_QID : Nat := 0x300000
def Reg.QM_QCMD_QID_QID : Field := ⟨Reg.QM_QCMD_QID, 0, 20⟩
/-- QM_QCMD (R416). -/
abbrev Reg.QM_QCMD : Nat := 0x300004
def Reg.QM_QCMD_OP : Field := ⟨Reg.QM_QCMD, 0, 3⟩
/-- QM_QCMD_STATUS (R416). -/
abbrev Reg.QM_QCMD_STATUS : Nat := 0x300008
def Reg.QM_QCMD_STATUS_STATE : Field := ⟨Reg.QM_QCMD_STATUS, 0, 2⟩
def Reg.QM_QCMD_STATUS_RESULT : Field := ⟨Reg.QM_QCMD_STATUS, 8, 8⟩
def Reg.QM_QCMD_STATUS_OP : Field := ⟨Reg.QM_QCMD_STATUS, 16, 3⟩
/-- QM_QCTX_Wj (R416). -/
abbrev Reg.QM_QCTX_W (j : Nat) : Nat := 0x300040 + 0x4 * j
/-- QM_RX_HOLD (R416). -/
abbrev Reg.QM_RX_HOLD : Nat := 0x300100
def Reg.QM_RX_HOLD_HOLD_US : Field := ⟨Reg.QM_RX_HOLD, 0, 10⟩
/-- QM_HOP_LIMIT (R416). -/
abbrev Reg.QM_HOP_LIMIT : Nat := 0x300104
def Reg.QM_HOP_LIMIT_LIMIT : Field := ⟨Reg.QM_HOP_LIMIT, 0, 9⟩
/-- QM_CNT_k (R416). -/
abbrev Reg.QM_CNT (k : Nat) : Nat := 0x300200 + 0x4 * k
/-- QM_EVT_ROUTE_b (R416). -/
abbrev Reg.QM_EVT_ROUTE (b : Nat) : Nat := 0x300400 + 0x4 * b
def Reg.QM_EVT_ROUTE_EQ (b : Nat) : Field := ⟨Reg.QM_EVT_ROUTE b, 0, 20⟩
def Reg.QM_EVT_ROUTE_EN (b : Nat) : Field := ⟨Reg.QM_EVT_ROUTE b, 31, 1⟩
/-- ENG_ROLE_e (R377). -/
abbrev Reg.ENG_ROLE (e : Nat) : Nat := 0x400000 + 0x4 * e
def Reg.ENG_ROLE_ROLE (e : Nat) : Field := ⟨Reg.ENG_ROLE e, 0, 16⟩
def Reg.ENG_ROLE_STATE (e : Nat) : Field := ⟨Reg.ENG_ROLE e, 16, 3⟩
def Reg.ENG_ROLE_PRIV (e : Nat) : Field := ⟨Reg.ENG_ROLE e, 19, 1⟩
def Reg.ENG_ROLE_SLOT (e : Nat) : Field := ⟨Reg.ENG_ROLE e, 20, 3⟩
/-- ENG_FOLIO_f (R377). -/
abbrev Reg.ENG_FOLIO (f : Nat) : Nat := 0x400400 + 0x4 * f
def Reg.ENG_FOLIO_DEPTH (f : Nat) : Field := ⟨Reg.ENG_FOLIO f, 0, 9⟩
def Reg.ENG_FOLIO_SPARE_USED (f : Nat) : Field := ⟨Reg.ENG_FOLIO f, 9, 1⟩
def Reg.ENG_FOLIO_MARKED_OUT (f : Nat) : Field := ⟨Reg.ENG_FOLIO f, 10, 1⟩
def Reg.ENG_FOLIO_HIGH_WATER (f : Nat) : Field := ⟨Reg.ENG_FOLIO f, 16, 9⟩
/-- ENG_FOLIO_f_BUNDLE_LO (R377). -/
abbrev Reg.ENG_FOLIO_BUNDLE_LO (f : Nat) : Nat := 0x400500 + 0x8 * f
/-- ENG_FOLIO_f_BUNDLE_HI (R377). -/
abbrev Reg.ENG_FOLIO_BUNDLE_HI (f : Nat) : Nat := 0x400504 + 0x8 * f
/-- ENG_PACE_q (R377). -/
abbrev Reg.ENG_PACE (q : Nat) : Nat := 0x400600 + 0x4 * q
def Reg.ENG_PACE_PACE (q : Nat) : Field := ⟨Reg.ENG_PACE q, 0, 16⟩
def Reg.ENG_PACE_MIN (q : Nat) : Field := ⟨Reg.ENG_PACE q, 16, 16⟩
/-- ENG_SPARE_CTRL (R377). -/
abbrev Reg.ENG_SPARE_CTRL : Nat := 0x400800
def Reg.ENG_SPARE_CTRL_ENGINE : Field := ⟨Reg.ENG_SPARE_CTRL, 0, 8⟩
def Reg.ENG_SPARE_CTRL_GO : Field := ⟨Reg.ENG_SPARE_CTRL, 31, 1⟩
/-- ENG_SPARE_STATUS (R377). -/
abbrev Reg.ENG_SPARE_STATUS : Nat := 0x400804
def Reg.ENG_SPARE_STATUS_BUSY : Field := ⟨Reg.ENG_SPARE_STATUS, 0, 1⟩
def Reg.ENG_SPARE_STATUS_ENGINE : Field := ⟨Reg.ENG_SPARE_STATUS, 8, 8⟩
def Reg.ENG_SPARE_STATUS_REFUSAL : Field := ⟨Reg.ENG_SPARE_STATUS, 16, 8⟩
/-- ENG_ABORT_LO (R377). -/
abbrev Reg.ENG_ABORT_LO : Nat := 0x400810
def Reg.ENG_ABORT_LO_ADDR : Field := ⟨Reg.ENG_ABORT_LO, 0, 15⟩
def Reg.ENG_ABORT_LO_OPCODE : Field := ⟨Reg.ENG_ABORT_LO, 16, 8⟩
def Reg.ENG_ABORT_LO_ENGINE : Field := ⟨Reg.ENG_ABORT_LO, 24, 8⟩
/-- ENG_ABORT_HI (R377). -/
abbrev Reg.ENG_ABORT_HI : Nat := 0x400814
def Reg.ENG_ABORT_HI_CAUSE : Field := ⟨Reg.ENG_ABORT_HI, 0, 4⟩
/-- ENG_CNT_k (R377). -/
abbrev Reg.ENG_CNT (k : Nat) : Nat := 0x400900 + 0x4 * k

/-! The counters, by bank index (R534). -/

def Cnt.PORT_LEAD_MISS (n : Nat) : Nat := (0x0C + n) * 256 + 32 + 0
def Cnt.PORT_HEADBAND_DEFER (n : Nat) : Nat := (0x0C + n) * 256 + 32 + 1
def Cnt.PORT_LATE_SENT (n : Nat) : Nat := (0x0C + n) * 256 + 32 + 2
def Cnt.PORT_LATE_DROPPED (n : Nat) : Nat := (0x0C + n) * 256 + 32 + 3
def Cnt.PORT_NEVER_OPENS (n : Nat) : Nat := (0x0C + n) * 256 + 32 + 4
def Cnt.PORT_TX_OVERRUN (n : Nat) : Nat := (0x0C + n) * 256 + 32 + 5
def Cnt.PORT_TIME_INVALID (n : Nat) : Nat := (0x0C + n) * 256 + 32 + 6
def Cnt.PORT_SLOPE_REFUSED (n : Nat) : Nat := (0x0C + n) * 256 + 32 + 7
def Cnt.FLOW_LOOKUP_HIT : Nat := 0x1800
def Cnt.FLOW_LOOKUP_MISS : Nat := 0x1801
def Cnt.FLOW_CAM_HIT : Nat := 0x1802
def Cnt.FLOW_CACHE_FILL : Nat := 0x1803
def Cnt.FLOW_LEND : Nat := 0x1804
def Cnt.FLOW_RETURN : Nat := 0x1805
def Cnt.FLOW_RESTART : Nat := 0x1806
def Cnt.FLOW_COMMANDS : Nat := 0x1807
def Cnt.FLOW_PROF_REFUSED : Nat := 0x1808
def Cnt.RING_CYCLES : Nat := 0x0B00
def Cnt.RING_HOLD_SENT : Nat := 0x0B01
def Cnt.RING_POLLS : Nat := 0x0B02
def Cnt.RING_REPLIES_OK : Nat := 0x0B03
def Cnt.RING_DRIFT : Nat := 0x0B04
def Cnt.RING_MISSED : Nat := 0x0B05
def Cnt.RING_EXCLUSIONS : Nat := 0x0B06
def Cnt.RING_DUP_ADDR : Nat := 0x0B07
def Cnt.RING_BAD_FRAME : Nat := 0x0B08
def Cnt.RING_STALE : Nat := 0x0B09
def Cnt.RING_TOPOLOGY : Nat := 0x0B0A
def Cnt.RING_LEAD_MISS : Nat := 0x0B0B
def Cnt.RING_CLAIMS : Nat := 0x0B0C
def Cnt.RING_FOREIGN : Nat := 0x0B0D
def Cnt.RING_GRACE_MISSED : Nat := 0x0B0E
def Cnt.EVT_CAPTURES : Nat := 0x0800
def Cnt.EVT_SNAPSHOTS : Nat := 0x0801
def Cnt.EVT_PULSES : Nat := 0x0802
def Cnt.EVT_SKIPPED : Nat := 0x0803
def Cnt.EVT_CAPTURE_LOST : Nat := 0x0804
def Cnt.ENG_ROUTINE_ABORT : Nat := 0x1A00
def Cnt.ENG_DISPATCH_INVALID : Nat := 0x1A01
def Cnt.ENG_MIGRATIONS_PLANNED : Nat := 0x1A02
def Cnt.ENG_MIGRATIONS_FAILED : Nat := 0x1A03
def Cnt.ENG_ITEMS_RETURNED : Nat := 0x1A04
def Cnt.ENG_CS_ECC_CORR : Nat := 0x1A05
def Cnt.ENG_CS_ECC_UNCORR : Nat := 0x1A06
def Cnt.ENG_REG_ECC_CORR : Nat := 0x1A07
def Cnt.ENG_HANDLERS : Nat := 0x1A08
def Cnt.ENG_HANDLER_DISCARDED : Nat := 0x1A09
def Cnt.QM_DOORBELLS : Nat := 0x1900
def Cnt.QM_DB_REJECT : Nat := 0x1901
def Cnt.QM_DB_BAD_WIDTH : Nat := 0x1902
def Cnt.QM_REFETCH : Nat := 0x1903
def Cnt.QM_FETCH_ERROR : Nat := 0x1904
def Cnt.QM_LOOP_SUSPECT : Nat := 0x1905
def Cnt.QM_LEN_ERROR : Nat := 0x1906
def Cnt.QM_RX_TRUNCATED : Nat := 0x1907
def Cnt.QM_RX_DROP_NOBUF : Nat := 0x1908
def Cnt.QM_CQ_OVERFLOW : Nat := 0x1909
def Cnt.QM_EQ_DROPPED : Nat := 0x190A
def Cnt.QM_LATE_COMPLETION : Nat := 0x190B
def Cnt.QM_ABORTED : Nat := 0x190C
def Cnt.QM_EVT_UNROUTED : Nat := 0x190D
def Cnt.DMA_BURSTS : Nat := 0x0700
def Cnt.DMA_RETRIES : Nat := 0x0701
def Cnt.DMA_HALTS : Nat := 0x0702
def Cnt.DMA_POISONED_BURSTS : Nat := 0x0703
def Cnt.DMA_REQ_OVERRUN : Nat := 0x0704
def Cnt.DMA_LATE_COMPLETION : Nat := 0x0705
def Cnt.PCIE_CPL_TIMEOUT : Nat := 0x0500
def Cnt.PCIE_LATE_COMPLETION : Nat := 0x0501
def Cnt.PCIE_RESET_DISCARD : Nat := 0x0502
def Cnt.PCIE_POISONED_RX : Nat := 0x0503
def Cnt.PCIE_POISONED_TX : Nat := 0x0504
def Cnt.PCIE_UR_SENT : Nat := 0x0505
def Cnt.PCIE_REPLAY : Nat := 0x0506
def Cnt.PCIE_RECEIVER_ERR : Nat := 0x0507
def Cnt.PCIE_BAD_TLP : Nat := 0x0508
def Cnt.PCIE_BAD_DLLP : Nat := 0x0509
def Cnt.PCIE_WIN_RO_DROP : Nat := 0x050A
def Cnt.SLOT_SEGMENTS_WRITTEN : Nat := 0x0600
def Cnt.SLOT_RECORDS : Nat := 0x0601
def Cnt.SLOT_REC_DROPPED : Nat := 0x0602
def Cnt.SLOT_CART_GONE_CMDS : Nat := 0x0603
def Cnt.SLOT_VERIFY_FAIL : Nat := 0x0604
def Cnt.SLOT_CMD_RETRY : Nat := 0x0605
def Cnt.SLOT_BAD_INBOUND : Nat := 0x0606
def Cnt.SLOT_ERR_MSG : Nat := 0x0607
def Cnt.SLOT_SURPRISE_REMOVALS : Nat := 0x0608
def Cnt.SLOT_BUTTON_IGNORED : Nat := 0x0609
def Cnt.GUARD_TAKEOVERS : Nat := 0x0200
def Cnt.GUARD_HANDOVERS : Nat := 0x0201
def Cnt.GUARD_HANDOVER_REFUSED : Nat := 0x0202
def Cnt.GUARD_HEARTBEATS_MISSED : Nat := 0x0203
def Cnt.GUARD_EPOCHS : Nat := 0x0204
def Cnt.GUARD_EPOCH_TORN : Nat := 0x0205
def Cnt.GUARD_REPLAY_RUN : Nat := 0x0206
def Cnt.GUARD_REPLAY_MISMATCH : Nat := 0x0207
def Cnt.GUARD_PAIR_TAKEOVERS : Nat := 0x0208
def Cnt.GUARD_PAIR_HB_MISSED : Nat := 0x0209
def Cnt.GUARD_PAIR_EPOCH_TORN : Nat := 0x020A
def Cnt.HLTH_DRAM_CE : Nat := 0x0300
def Cnt.HLTH_DRAM_UE : Nat := 0x0301
def Cnt.HLTH_SRAM_CE : Nat := 0x0302
def Cnt.HLTH_SRAM_UE : Nat := 0x0303
def Cnt.HLTH_ROWS_SPARED : Nat := 0x0304
def Cnt.HLTH_ROW_SPARES_OUT : Nat := 0x0305
def Cnt.HLTH_KAT_RUN : Nat := 0x0306
def Cnt.HLTH_KAT_FAIL : Nat := 0x0307
def Cnt.HLTH_MARCH_ROWS : Nat := 0x0308
def Cnt.HLTH_MARCH_FAIL : Nat := 0x0309
def Cnt.HLTH_BOOK_FAULTS : Nat := 0x030A
def Cnt.HLTH_PACE_LOW : Nat := 0x030B
def Cnt.HLTH_CHECKED_FAULTS : Nat := 0x030C
def Cnt.HLTH_COLOPHONS : Nat := 0x030D
def Cnt.OBS_TRACE_RECORDS : Nat := 0x0400
def Cnt.OBS_TRACE_DISCARD_SPINE : Nat := 0x0401
def Cnt.OBS_TRACE_DISCARD_FIFO : Nat := 0x0402
def Cnt.OBS_LEDGER_POINTS : Nat := 0x0403
def Cnt.PORT_RX_OK (n : Nat) : Nat := (0x0C + n) * 256 + 0
def Cnt.PORT_RX_BYTES (n : Nat) : Nat := (0x0C + n) * 256 + 1
def Cnt.PORT_RX_FCS_ERR (n : Nat) : Nat := (0x0C + n) * 256 + 3
def Cnt.PORT_RX_STOMPED (n : Nat) : Nat := (0x0C + n) * 256 + 4
def Cnt.PORT_RX_RUNT (n : Nat) : Nat := (0x0C + n) * 256 + 5
def Cnt.PORT_RX_OVERSIZE (n : Nat) : Nat := (0x0C + n) * 256 + 6
def Cnt.PORT_RX_FILTERED (n : Nat) : Nat := (0x0C + n) * 256 + 7
def Cnt.PORT_RX_NO_CELL (n : Nat) : Nat := (0x0C + n) * 256 + 8
def Cnt.PORT_RX_PAUSE (n : Nat) : Nat := (0x0C + n) * 256 + 9
def Cnt.PORT_RX_PCS_ERR (n : Nat) : Nat := (0x0C + n) * 256 + 10
def Cnt.PORT_TX_OK (n : Nat) : Nat := (0x0C + n) * 256 + 11
def Cnt.PORT_TX_BYTES (n : Nat) : Nat := (0x0C + n) * 256 + 12
def Cnt.PORT_TX_STOMPED (n : Nat) : Nat := (0x0C + n) * 256 + 14
def Cnt.PORT_TX_PAUSE (n : Nat) : Nat := (0x0C + n) * 256 + 15
def Cnt.PORT_TX_LINK_RESEND (n : Nat) : Nat := (0x0C + n) * 256 + 16
def Cnt.PORT_MM_ASSY_OK (n : Nat) : Nat := (0x0C + n) * 256 + 17
def Cnt.PORT_MM_ASSY_ERR (n : Nat) : Nat := (0x0C + n) * 256 + 18
def Cnt.PORT_MM_SMD_ERR (n : Nat) : Nat := (0x0C + n) * 256 + 19
def Cnt.PORT_MM_FRAG_RX (n : Nat) : Nat := (0x0C + n) * 256 + 20
def Cnt.PORT_MM_FRAG_TX (n : Nat) : Nat := (0x0C + n) * 256 + 21
def Cnt.PORT_MM_HOLD (n : Nat) : Nat := (0x0C + n) * 256 + 22
def Cnt.PORT_FEC_CORR (n : Nat) : Nat := (0x0C + n) * 256 + 23
def Cnt.PORT_FEC_UNCORR (n : Nat) : Nat := (0x0C + n) * 256 + 24
def Cnt.PORT_LINK_DOWN (n : Nat) : Nat := (0x0C + n) * 256 + 25
def Cnt.PORT_PLCA_BEACON_LOSS (n : Nat) : Nat := (0x0C + n) * 256 + 26
def Cnt.PORT_COLLISIONS (n : Nat) : Nat := (0x0C + n) * 256 + 27
def Cnt.PORT_PAT_MATCH (n : Nat) : Nat := (0x0C + n) * 256 + 28
def Cnt.PORT_RX_NOT_UP (n : Nat) : Nat := (0x0C + n) * 256 + 29

end Sys2Proof.Machine
end

