-- ==== Sys2Proof/Machine/RegTable.lean ====
section
/-! DEFINITION. How each register of the map takes a plain write (R6, R7, R580), and the value
each holds at reset, from the register tables of the spec. -/

namespace Sys2Proof.Machine

/-- How a register takes a 32-bit write: the register and its copies (`c1` of them `s1` bytes
apart, each with `c2` of them `s2` bytes apart), the bits that are RW, RW1C and RW1S (R6; every
other bit ignores a write), and the ranges its definition states as (lowest bit, width, least,
greatest), outside which R580 ignores the whole write. -/
structure RegDef where
  base : Nat
  c1 : Nat
  s1 : Nat
  c2 : Nat
  s2 : Nat
  rw : Nat
  w1c : Nat
  w1s : Nat
  ranges : List (Nat × Nat × Nat × Nat)
  deriving DecidableEq, Repr

/-- The reset value of a register (and its copies) where it is not zero. -/
structure RegReset where
  base : Nat
  c1 : Nat
  s1 : Nat
  c2 : Nat
  s2 : Nat
  value : Nat
  deriving DecidableEq, Repr

/-- Whether offset `a` is one of the copies of a register at `base`. -/
def regCovers (base c1 s1 c2 s2 a : Nat) : Bool :=
  Nat.ble base a && Nat.blt ((a - base) / s1) c1 && Nat.blt ((a - base) % s1 / s2) c2 &&
    Nat.beq ((a - base) % s1 % s2) 0

def regDefs0 : List RegDef :=
  [⟨0x00014, 1, 0x4, 1, 0x4, 0x0, 0x1FFF, 0x0, []⟩,
   ⟨0x00018, 1, 0x4, 1, 0x4, 0x1, 0x0, 0x0, []⟩,
   ⟨0x10010, 1, 0x4, 1, 0x4, 0xFFFFFFFF, 0x0, 0x0, []⟩,
   ⟨0x10014, 1, 0x4, 1, 0x4, 0xFFFFFFFF, 0x0, 0x0, []⟩,
   ⟨0x10018, 1, 0x4, 1, 0x4, 0xFFFFFFFF, 0x0, 0x0, []⟩,
   ⟨0x10110, 1, 0x4, 1, 0x4, 0xFFFFFFFF, 0x0, 0x0, []⟩,
   ⟨0x10114, 1, 0x4, 1, 0x4, 0xFFFFFFFF, 0x0, 0x0, []⟩,
   ⟨0x10118, 1, 0x4, 1, 0x4, 0xFFFFFFFF, 0x0, 0x0, []⟩,
   ⟨0x1011C, 1, 0x4, 1, 0x4, 0xFFFF, 0x0, 0x0, []⟩,
   ⟨0x20008, 1, 0x4, 1, 0x4, 0x1FFFF, 0x0, 0x0, [(0, 17, 125, 100000)]⟩,
   ⟨0x20010, 1, 0x4, 1, 0x4, 0x1FFFF, 0x0, 0x0, [(0, 17, 100, 100000)]⟩,
   ⟨0x20018, 1, 0x4, 1, 0x4, 0xFFF, 0x0, 0x0, [(0, 8, 1, 255), (8, 4, 1, 15)]⟩,
   ⟨0x20020, 1, 0x4, 1, 0x4, 0xFF0F, 0x0, 0x0, []⟩,
   ⟨0x30000, 1, 0x4, 1, 0x4, 0x3FFF0F03, 0x0, 0x0, [(8, 4, 0, 8), (16, 14, 10, 10000)]⟩,
   ⟨0x30008, 1, 0x4, 1, 0x4, 0xFFFFFFFF, 0x0, 0x0, []⟩,
   ⟨0x3000C, 1, 0x4, 1, 0x4, 0xFFFFFFFF, 0x0, 0x0, []⟩,
   ⟨0x30024, 1, 0x4, 1, 0x4, 0xFF, 0x0, 0x0, [(0, 8, 1, 255)]⟩,
   ⟨0x30028, 1, 0x4, 1, 0x4, 0xFFF0007, 0x0, 0x0, [(16, 12, 10, 3600)]⟩,
   ⟨0x30054, 1, 0x4, 1, 0x4, 0xFFFF, 0x0, 0x0, []⟩,
   ⟨0x40000, 1, 0x4, 1, 0x4, 0x1, 0x0, 0x0, []⟩,
   ⟨0x40004, 1, 0x4, 1, 0x4, 0x1F, 0x0, 0x0, []⟩,
   ⟨0x40008, 1, 0x4, 1, 0x4, 0xFFFFFFFF, 0x0, 0x0, []⟩,
   ⟨0x4000C, 1, 0x4, 1, 0x4, 0xFFF, 0x0, 0x0, []⟩,
   ⟨0x40024, 1, 0x4, 1, 0x4, 0xFFFFF, 0x0, 0x0, [(0, 20, 100, 1000000)]⟩,
   ⟨0x80100, 4, 0x8, 1, 0x8, 0xFFFFFC0F, 0x0, 0x0, []⟩,
   ⟨0x80200, 1, 0x4, 1, 0x4, 0x9FFF, 0x0, 0x0, []⟩,
   ⟨0x80204, 1, 0x4, 1, 0x4, 0x9FFF, 0x0, 0x0, []⟩,
   ⟨0x80210, 1, 0x4, 1, 0x4, 0x0, 0xFFFFFFFF, 0x0, []⟩,
   ⟨0x84000, 2048, 0x4, 1, 0x4, 0xFFFFFF, 0x0, 0x0, []⟩,
   ⟨0x88000, 4096, 0x8, 1, 0x8, 0x800FFFFF, 0x0, 0x0, []⟩,
   ⟨0x88004, 4096, 0x8, 1, 0x8, 0x7FF, 0x0, 0x0, []⟩,
   ⟨0x90000, 1, 0x4, 1, 0x4, 0x3F, 0x0, 0x0, []⟩,
   ⟨0x90004, 1, 0x4, 1, 0x4, 0x0, 0x1F, 0x0, []⟩,
   ⟨0x90010, 1, 0x4, 1, 0x4, 0xF, 0x0, 0x0, []⟩,
   ⟨0x90014, 1, 0x4, 1, 0x4, 0xFFFF001F, 0x0, 0x0, [(0, 5, 20, 26), (16, 16, 10, 60000)]⟩,
   ⟨0xA0004, 1, 0x4, 1, 0x4, 0x0, 0x0, 0xFFFFFFFF, []⟩,
   ⟨0xA0010, 4, 0x4, 1, 0x4, 0x3FFFFFFF, 0x0, 0x0, []⟩,
   ⟨0xA1000, 32, 0x40, 1, 0x40, 0xFFFFFFFF, 0x0, 0x0, []⟩,
   ⟨0xA1004, 32, 0x40, 1, 0x40, 0xFFFFFFFF, 0x0, 0x0, []⟩,
   ⟨0xA1008, 32, 0x40, 1, 0x40, 0x7FF3FFF, 0x0, 0x0, [(0, 13, 64, 4096), (20, 7, 1, 64)]⟩]

def regDefs1 : List RegDef :=
  [⟨0xA100C, 32, 0x40, 1, 0x40, 0x800FFFFF, 0x0, 0x0, []⟩,
   ⟨0xC0000, 1, 0x4, 1, 0x4, 0xFFFFF, 0x0, 0x0, []⟩,
   ⟨0xC0008, 1, 0x4, 1, 0x4, 0xFFFFFFFF, 0x0, 0x0, []⟩,
   ⟨0xC0104, 32, 0x40, 1, 0x40, 0xFFFF07, 0x0, 0x0, []⟩,
   ⟨0xC0108, 32, 0x40, 1, 0x40, 0xFFFFFFFF, 0x0, 0x0, []⟩,
   ⟨0xC010C, 32, 0x40, 1, 0x40, 0x3FFFFFFF, 0x0, 0x0, []⟩,
   ⟨0xC0110, 32, 0x40, 1, 0x40, 0x3FFFFFFF, 0x0, 0x0, []⟩,
   ⟨0xC0114, 32, 0x40, 1, 0x40, 0xFFFFFFFF, 0x0, 0x0, []⟩,
   ⟨0xD0020, 1, 0x4, 1, 0x4, 0xFFFFFFFF, 0x0, 0x0, []⟩,
   ⟨0xD0024, 1, 0x4, 1, 0x4, 0xFFFFFFFF, 0x0, 0x0, []⟩,
   ⟨0xD0028, 1, 0x4, 1, 0x4, 0xFFFFFFFF, 0x0, 0x0, []⟩,
   ⟨0xD0030, 1, 0x4, 1, 0x4, 0xFFFFFFFF, 0x0, 0x0, []⟩,
   ⟨0xD0034, 1, 0x4, 1, 0x4, 0xFFFFFFFF, 0x0, 0x0, []⟩,
   ⟨0xD0044, 1, 0x4, 1, 0x4, 0xFFFFFFFF, 0x0, 0x0, []⟩,
   ⟨0xD0048, 1, 0x4, 1, 0x4, 0x3FFFFFFF, 0x0, 0x0, [(0, 30, 100, 1000000000)]⟩,
   ⟨0xD004C, 1, 0x4, 1, 0x4, 0xFFFFF, 0x0, 0x0, [(0, 20, 10, 1000000)]⟩,
   ⟨0xD0050, 1, 0x4, 1, 0x4, 0x7FFFFFF, 0x0, 0x0, [(0, 27, 1000, 100000000)]⟩,
   ⟨0xD005C, 1, 0x4, 1, 0x4, 0x3, 0x0, 0x0, []⟩,
   ⟨0xD0060, 1, 0x4, 1, 0x4, 0xFFFFFF07, 0x0, 0x0, [(8, 24, 1, 500000)]⟩,
   ⟨0xD0100, 12, 0x8, 1, 0x8, 0xFFFFFFFF, 0x0, 0x0, []⟩,
   ⟨0xD0104, 12, 0x8, 1, 0x8, 0xFFFFFFFF, 0x0, 0x0, []⟩,
   ⟨0xE0000, 1, 0x4, 1, 0x4, 0x3F13, 0x0, 0x0, []⟩,
   ⟨0xE0100, 6, 0x8, 1, 0x8, 0xFFFF, 0x0, 0x0, [(12, 4, 2, 10)]⟩,
   ⟨0xF0000, 1, 0x4, 1, 0x4, 0x1, 0x0, 0x0, []⟩,
   ⟨0xF0008, 1, 0x4, 1, 0x4, 0xFFFF, 0x0, 0x0, [(0, 16, 1536, 65535)]⟩,
   ⟨0xF0014, 1, 0x4, 1, 0x4, 0xF, 0x0, 0x0, [(0, 4, 1, 15)]⟩,
   ⟨0xF00A0, 8, 0x4, 1, 0x4, 0x0, 0xFFFFFFFF, 0x0, []⟩,
   ⟨0x100008, 12, 0x10000, 1, 0x10000, 0x83FF03FF, 0x0, 0x0, [(0, 10, 0, 1000), (16, 10, 0, 1000)]⟩,
   ⟨0x10000C, 12, 0x10000, 1, 0x10000, 0x3FFF0003, 0x0, 0x0, [(16, 14, 1518, 9216)]⟩,
   ⟨0x100010, 12, 0x10000, 1, 0x10000, 0xFFFFFFFF, 0x0, 0x0, []⟩,
   ⟨0x100014, 12, 0x10000, 1, 0x10000, 0xFFFF, 0x0, 0x0, []⟩,
   ⟨0x100020, 12, 0x10000, 1, 0x10000, 0xF, 0x0, 0x0, []⟩,
   ⟨0x100100, 12, 0x10000, 16, 0x8, 0xFFFFFFFF, 0x0, 0x0, []⟩,
   ⟨0x100104, 12, 0x10000, 16, 0x8, 0x8000FFFF, 0x0, 0x0, []⟩,
   ⟨0x100200, 12, 0x10000, 8, 0x20, 0xFFFFFFFF, 0x0, 0x0, []⟩,
   ⟨0x100204, 12, 0x10000, 8, 0x20, 0xFFFFFFFF, 0x0, 0x0, []⟩,
   ⟨0x100208, 12, 0x10000, 8, 0x20, 0xFFFFFFFF, 0x0, 0x0, []⟩,
   ⟨0x10020C, 12, 0x10000, 8, 0x20, 0xFFFFFFFF, 0x0, 0x0, []⟩,
   ⟨0x100210, 12, 0x10000, 8, 0x20, 0x8000FFFF, 0x0, 0x0, []⟩,
   ⟨0x100300, 12, 0x10000, 1, 0x10000, 0x0, 0xFF, 0x0, []⟩]

def regDefs2 : List RegDef :=
  [⟨0x100400, 12, 0x10000, 1, 0x10000, 0xFFFF0077, 0x0, 0x0, [(0, 2, 0, 2)]⟩,
   ⟨0x100410, 12, 0x10000, 8, 0x4, 0xFFFFFFFF, 0x0, 0x0, []⟩,
   ⟨0x100500, 12, 0x10000, 1, 0x10000, 0xFF03, 0x0, 0x0, [(8, 8, 1, 128)]⟩,
   ⟨0x100600, 12, 0x10000, 1, 0x10000, 0xFFFFFFFF, 0x0, 0x0, [(8, 8, 1, 255), (16, 8, 1, 255)]⟩,
   ⟨0x100604, 12, 0x10000, 1, 0x10000, 0xFF, 0x0, 0x0, [(0, 8, 1, 255)]⟩,
   ⟨0x104000, 12, 0x10000, 1, 0x10000, 0xFFFFFF, 0x0, 0x0, []⟩,
   ⟨0x104004, 12, 0x10000, 1, 0x10000, 0xFF, 0x0, 0x0, []⟩,
   ⟨0x104008, 12, 0x10000, 1, 0x10000, 0x3FF, 0x0, 0x0, [(0, 10, 0, 1000)]⟩,
   ⟨0x104010, 12, 0x10000, 1, 0x10000, 0x1FFFF, 0x0, 0x0, [(0, 17, 0, 100000)]⟩,
   ⟨0x104014, 12, 0x10000, 1, 0x10000, 0x1FFFF, 0x0, 0x0, [(0, 17, 0, 100000)]⟩,
   ⟨0x104020, 12, 0x10000, 1, 0x10000, 0xFFFFFFFF, 0x0, 0x0, []⟩,
   ⟨0x104024, 12, 0x10000, 1, 0x10000, 0xFFFFFFFF, 0x0, 0x0, []⟩,
   ⟨0x104028, 12, 0x10000, 1, 0x10000, 0xFFFFFFFF, 0x0, 0x0, []⟩,
   ⟨0x10402C, 12, 0x10000, 1, 0x10000, 0x3FFFFFFF, 0x0, 0x0, []⟩,
   ⟨0x104030, 12, 0x10000, 1, 0x10000, 0x3FFFFFFF, 0x0, 0x0, []⟩,
   ⟨0x104034, 12, 0x10000, 1, 0x10000, 0x7FF, 0x0, 0x0, []⟩,
   ⟨0x104100, 12, 0x10000, 8, 0x10, 0x1FFFFFF, 0x0, 0x0, []⟩,
   ⟨0x104104, 12, 0x10000, 8, 0x10, 0x7FFFFFFF, 0x0, 0x0, []⟩,
   ⟨0x108000, 12, 0x10000, 1024, 0x8, 0xFFFFFFFF, 0x0, 0x0, []⟩,
   ⟨0x108004, 12, 0x10000, 1024, 0x8, 0xFFFFFFFF, 0x0, 0x0, []⟩,
   ⟨0x200000, 1, 0x4, 1, 0x4, 0x3FFF, 0x0, 0x0, [(0, 14, 1, 10000)]⟩,
   ⟨0x200004, 1, 0x4, 1, 0x4, 0xFFFF, 0x0, 0x0, [(0, 16, 1, 65535)]⟩,
   ⟨0x200010, 1, 0x4, 1, 0x4, 0xFFFFFFFF, 0x0, 0x0, []⟩,
   ⟨0x200014, 1, 0x4, 1, 0x4, 0xFFFFFFFF, 0x0, 0x0, []⟩,
   ⟨0x200040, 13, 0x4, 1, 0x4, 0x3FFFFD, 0x0, 0x0, []⟩,
   ⟨0x201000, 256, 0x10, 1, 0x10, 0xFFFF7FFF, 0x0, 0x0, []⟩,
   ⟨0x201004, 256, 0x10, 1, 0x10, 0x7FFFF, 0x0, 0x0, []⟩,
   ⟨0x201008, 256, 0x10, 1, 0x10, 0xFFFFFF, 0x0, 0x0, []⟩,
   ⟨0x204000, 4096, 0x10, 1, 0x10, 0x1FFFFFF, 0x0, 0x0, []⟩,
   ⟨0x204004, 4096, 0x10, 1, 0x10, 0x1FFFFFF, 0x0, 0x0, []⟩,
   ⟨0x204008, 4096, 0x10, 1, 0x10, 0xFFFFFF, 0x0, 0x0, []⟩,
   ⟨0x20400C, 4096, 0x10, 1, 0x10, 0x3FFFFFF, 0x0, 0x0, []⟩,
   ⟨0x300000, 1, 0x4, 1, 0x4, 0xFFFFF, 0x0, 0x0, []⟩,
   ⟨0x300040, 16, 0x4, 1, 0x4, 0xFFFFFFFF, 0x0, 0x0, []⟩,
   ⟨0x300100, 1, 0x4, 1, 0x4, 0x3FF, 0x0, 0x0, [(0, 10, 1, 1000)]⟩,
   ⟨0x300104, 1, 0x4, 1, 0x4, 0x1FF, 0x0, 0x0, [(0, 9, 1, 256)]⟩,
   ⟨0x300400, 27, 0x4, 1, 0x4, 0x800FFFFF, 0x0, 0x0, []⟩]

def regResets0 : List RegReset :=
  [⟨0x00000, 1, 0x4, 1, 0x4, 0x81280000⟩,
   ⟨0x00004, 1, 0x4, 1, 0x4, 0x1000000⟩,
   ⟨0x20008, 1, 0x4, 1, 0x4, 0x3E8⟩,
   ⟨0x20010, 1, 0x4, 1, 0x4, 0x3E8⟩,
   ⟨0x20018, 1, 0x4, 1, 0x4, 0x340⟩,
   ⟨0x20020, 1, 0x4, 1, 0x4, 0x8000⟩,
   ⟨0x30000, 1, 0x4, 1, 0x4, 0x640400⟩,
   ⟨0x30024, 1, 0x4, 1, 0x4, 0x10⟩,
   ⟨0x30028, 1, 0x4, 1, 0x4, 0x3C0007⟩,
   ⟨0x30040, 5, 0x4, 1, 0x4, 0x80000000⟩,
   ⟨0x30054, 1, 0x4, 1, 0x4, 0x190⟩,
   ⟨0x40024, 1, 0x4, 1, 0x4, 0x3E8⟩,
   ⟨0x80004, 1, 0x4, 1, 0x4, 0x4000⟩,
   ⟨0x80008, 1, 0x4, 1, 0x4, 0x2710⟩,
   ⟨0x80200, 1, 0x4, 1, 0x4, 0x880A⟩,
   ⟨0x80204, 1, 0x4, 1, 0x4, 0x9001⟩,
   ⟨0x84000, 2048, 0x4, 1, 0x4, 0x1⟩,
   ⟨0x90000, 1, 0x4, 1, 0x4, 0x3F⟩,
   ⟨0x90010, 1, 0x4, 1, 0x4, 0x2⟩,
   ⟨0x90014, 1, 0x4, 1, 0x4, 0x3E80017⟩,
   ⟨0xA1008, 32, 0x40, 1, 0x40, 0x830100⟩,
   ⟨0xA1020, 32, 0x40, 1, 0x40, 0x80000⟩,
   ⟨0xC0114, 32, 0x40, 1, 0x40, 0x10000⟩,
   ⟨0xD0048, 1, 0x4, 1, 0x4, 0x2710⟩,
   ⟨0xD004C, 1, 0x4, 1, 0x4, 0x3E8⟩,
   ⟨0xD0140, 4, 0x8, 1, 0x8, 0x3200000⟩,
   ⟨0xD0144, 4, 0x8, 1, 0x8, 0x6400000⟩,
   ⟨0xD0050, 1, 0x4, 1, 0x4, 0x2710⟩,
   ⟨0xD0060, 1, 0x4, 1, 0x4, 0x186A000⟩,
   ⟨0xD0140, 4, 0x8, 1, 0x8, 0x3200000⟩,
   ⟨0xD0144, 4, 0x8, 1, 0x8, 0x6400000⟩,
   ⟨0xE0000, 1, 0x4, 1, 0x4, 0x10⟩,
   ⟨0xE0100, 6, 0x8, 1, 0x8, 0x300D⟩,
   ⟨0x100008, 12, 0x10000, 1, 0x10000, 0xA000A⟩,
   ⟨0x10000C, 12, 0x10000, 1, 0x10000, 0x5F20003⟩,
   ⟨0x100020, 12, 0x10000, 1, 0x10000, 0x2⟩,
   ⟨0x100400, 12, 0x10000, 1, 0x10000, 0xFFFF0074⟩,
   ⟨0x100410, 12, 0x10000, 8, 0x4, 0x4000800⟩,
   ⟨0x100500, 12, 0x10000, 1, 0x10000, 0xA00⟩,
   ⟨0x100600, 12, 0x10000, 1, 0x10000, 0x200000⟩,
   ⟨0x100604, 12, 0x10000, 1, 0x10000, 0x80⟩,
   ⟨0x104000, 12, 0x10000, 1, 0x10000, 0xFAC681⟩]

def regResets1 : List RegReset :=
  [⟨0x200000, 1, 0x4, 1, 0x4, 0x64⟩,
   ⟨0x200004, 1, 0x4, 1, 0x4, 0x3E8⟩,
   ⟨0x300100, 1, 0x4, 1, 0x4, 0x14⟩,
   ⟨0x300104, 1, 0x4, 1, 0x4, 0x40⟩,
   ⟨0x400600, 16, 0x4, 1, 0x4, 0xFFFF0000⟩]

/-- Every register that takes a write. -/
def regDefs : List RegDef := regDefs0 ++ regDefs1 ++ regDefs2

/-- Every register whose reset value is not zero. -/
def regResets : List RegReset := regResets0 ++ regResets1

/-- The definition of the register at offset `a`, if a write can change it. -/
def regDef? (a : Nat) : Option RegDef :=
  regDefs.find? fun r => regCovers r.base r.c1 r.s1 r.c2 r.s2 a

/-- Configuration space at reset (R444 to R447): the words the spec gives, at the offsets PCI Express puts
their fields (PRESUMED where the spec names only the field), by function: 0 to 3 the PFs, then the VFs. -/
def cfgReset (fn off : Nat) : Nat :=
  let pf := Nat.blt fn 4
  match off with
  | 0x00 => if pf then 0x81281D8A + fn * 0x10000 else 0xFFFFFFFF
  | 0x04 => 0x00100000
  | 0x08 => if fn = 1 ∨ fn = 3 then 0x08800000 else if fn = 2 then 0x02800000 else 0x02000000
  | 0x0C => if pf then 0x00800000 else 0
  | 0x10 | 0x18 | 0x20 => if pf then 0x4 else 0
  | 0x2C => 0x81281D8A + min fn 4 * 0x10000
  | 0x34 => 0x40
  | 0x3C => if pf then (fn + 1) * 0x100 else 0
  | 0x40 => if pf then 0xC8C35001 else 0x48C37001
  | 0x44 => 0x8
  | 0x50 => if pf then 0x018A7005 else 0
  | 0x70 => 0x0002B010
  | 0x74 => 0x10008D22
  | 0x78 => 0x2110
  | 0x7C => 0x00063C85
  | 0x94 => 0x0003080F
  | 0x9C => 0x3E
  | 0xB0 => (if fn = 0 then 0x7FF else if pf then 0xFF else 0x3F) * 0x10000 + 0x11
  | 0xB4 => 0x4
  | 0xB8 => if pf then 0x8004 else 0x804
  | 0x100 => 0x14820001
  | 0x108 => 0x00400000
  | 0x10C => 0x00462030
  | 0x114 => 0x0000E000
  | 0x118 => 0xA0
  | 0x148 => if fn = 0 then 0x1601000E else 0x0001000E
  | 0x160 => if fn = 0 then 0x1A010010 else 0
  | 0x180 => if fn = 0 then 1 else 0
  | 0x184 | 0x18C | 0x194 => if fn = 0 then 0x4 else 0
  | 0x1A0 => if fn = 0 then 0x1B010003 else 0
  | 0x1B0 => if fn = 0 then 0x1C01001E else 0
  | 0x1B4 => if fn = 0 then 0x00A0001F else 0
  | 0x1C0 => if fn = 0 then 0x1E010019 else 0
  | 0x1E0 => if fn = 0 then 0x20010025 else 0
  | 0x1E4 => if fn = 0 then 0x80000001 else 0
  | 0x200 => if fn = 0 then 0x23010026 else 0
  | 0x230 => if fn = 0 then 0x26010027 else 0
  | 0x260 => if fn = 0 then 0x2A01002A else 0
  | 0x2A0 => if fn = 0 then 0x00010018 else 0
  | 0x174 => if fn = 0 then 0x00010004 else 0
  | 0x178 => if fn = 0 then 0x812C0000 else 0
  | 0x17C => if fn = 0 then 1 else 0
  | _ => 0

/-- The value of the register at offset `a` at reset.  A key carries the function's number above
bit 26 for the registers that exist once per function (R544); `PCIE_FUNC.FUNCNUM` there reads
that number (R473).  Keys from 0x3900000 hold a function's configuration space. -/
def regReset (a : Nat) : Word :=
  if a % 0x4000000 = Reg.PCIE_FUNC then BitVec.ofNat 32 (a / 0x4000000 % 256 + 0x4000)
  else if 0x3900000 ≤ a % 0x4000000 then BitVec.ofNat 32 (cfgReset (a / 0x4000000) (a % 0x4000000 - 0x3900000))
  else
  match regResets.find? fun r => regCovers r.base r.c1 r.s1 r.c2 r.s2 (a % 0x4000000) with
  | some r => BitVec.ofNat 32 r.value
  | none => 0

end Sys2Proof.Machine
end

