-- ==== Sys2Proof/Machine/State.lean ====
section
/-! DEFINITION. The state of the FR8128: its register file, its counter bank, and every piece of
state the spec gives a block beyond its registers.  Plain data. -/

namespace Sys2Proof.Machine

/-- Why a step stops: no command of the device stops it.  What goes wrong is an event, a register or a mode of
the device, and is a next state.  Safe. -/
inductive Fault where
  deriving DecidableEq, Repr

/-- Why a command is not run. -/
inductive Refusal where
  /-- Raised by an arm of `exec` whose command has no meaning yet.  Safe. -/
  | notModelled (mnemonic : String)
  deriving DecidableEq, Repr

/-- What a command answers. -/
abbrev Out (State : Type) : Type := Host.Outcome State Fault Refusal

/-- The package pins and rails that decide when the device runs (R557 to R560). -/
structure Power where
  /-- AUX_PG. -/
  aux : Bool := true
  /-- MAIN_PG. -/
  main : Bool := true
  /-- PERST_N is asserted (low). -/
  perst : Bool := false
  /-- BOOTSEL[1:0] as the board holds it. -/
  bootsel : BitVec 2 := 0
  /-- The cause code the next entry to Boot carries (R118): POWER_ON, PERST or DORMANT_EXIT. -/
  startCause : Nat := 0x01
  /-- WAKE_N is asserted (R121, R240). -/
  wake : Bool := false
  /-- Ports whose wake detector is armed (R121). -/
  armed : BitVec 12 := 0
  /-- The debounced CART_PRSNT_N and CART_LATCH_N (R477). -/
  present : Bool := false
  latchOpen : Bool := false
  /-- THERM_N is asserted (R552). -/
  therm : Bool := false
  deriving DecidableEq, Repr

/-- The fuses that enrolment burns (R85). -/
structure Fuses where
  ownerDigest : Option Nat := none
  exclusive : Bool := false
  deriving DecidableEq, Repr

/-- A mailbox command in progress (R107). -/
structure MbOp where
  cmd : Nat
  addr : Nat
  len : Nat
  /-- The buffer's transfer has ended well (R108). -/
  transferred : Bool := false
  enrol : Option EnrolRecord := none
  vppMv : Nat := 0
  nonce : BitVec 256 := 0
  deriving DecidableEq, Repr

/-- The boot chain (R100 to R110). -/
structure Boot where
  /-- The slot being tried: 0 slot A, 1 slot B, 2 host-fed. -/
  slot : Nat := 0
  /-- A binder runs, and whether host-fed boot supplied it. -/
  binder : Bool := false
  binderHostFed : Bool := false
  binderDigest : BitVec 512 := 0
  /-- DRAM capacity detected, in bytes; 0 before training. -/
  dramBytes : Nat := 0
  /-- The header of the slot being tried, and the slot's base in the flash (R100, R101). -/
  header : Option SlotHeader := none
  base : Nat := 0
  mb : Option MbOp := none
  /-- Full attestation reports signed since the last start (R116). -/
  attested : Nat := 0
  deriving DecidableEq, Repr

/-- A partial re-imposition in progress (R90, R91): the candidate image and the phase of each named
quire, as masks. -/
structure Reimp where
  image : Option Image := none
  named : BitVec 16 := 0
  migratingOut : BitVec 16 := 0
  loading : BitVec 16 := 0
  migratingBack : BitVec 16 := 0
  deriving DecidableEq, Repr

/-- The imposition (R70 to R96). -/
structure Imp where
  /-- The running image. -/
  image : Option Image := none
  /-- The image accepted and being imposed. -/
  pending : Option Image := none
  pendingSource : Nat := 0
  pendingOwner : Bool := false
  /-- Quires whose control stores and dispatch tables are write-locked (R112). -/
  locked : BitVec 16 := 0
  /-- The CODE records loaded in the folios of each quire (R91, R92). -/
  loaded : Table (List CodeRec) := []
  /-- 1 + the index of the bundle whose code each folio runs, as its roles name it (R78, R91); 0 for none. -/
  bundle : Table Nat := []
  reimp : Reimp := {}
  deriving DecidableEq, Repr

/-- Units, folios, quires and dies out of service (R37 to R46), and resets in progress (R126). -/
structure Units where
  engOut : BitVec 160 := 0
  spareUsed : BitVec 32 := 0
  folioOut : BitVec 32 := 0
  quireIso : BitVec 16 := 0
  dieLost : BitVec 4 := 0
  /-- Quires whose flows and queues their pair carries (R43, R91, R126). -/
  carried : BitVec 16 := 0
  /-- The engine in an engine reset (R127). -/
  ereset : Option Nat := none
  /-- Folios the CODE of an uncorrectable control-store error keeps out until the next Boot. -/
  csFault : BitVec 32 := 0
  deriving DecidableEq, Repr

/-- One spine credit book: one link, virtual channel and direction (R33, R61, R64). -/
structure Credit where
  held : Nat
  buffered : Nat := 0
  returning : Nat := 0
  deriving DecidableEq, Repr

/-- The packet buffer's book of cells (R61 to R63); the cells of a frame that no copy holds any more are
those whose release is in flight, which a ledger point counts as returning. -/
structure Cells where
  free : Nat := 131072
  allocated : Nat := 0
  /-- Cells of rows marked out, counted among the allocated (R512). -/
  markedOut : Nat := 0
  deriving DecidableEq, Repr

/-- A frame in the packet buffer: its cells, the copies that still hold them, and where it counts
toward flow control (R61 to R63, R235). -/
structure Frame where
  cells : Nat := 0
  copies : Nat := 0
  port : Option Nat := none
  prio : Nat := 0
  deriving DecidableEq, Repr

/-- The pace loops (R50 to R52): per die the commanded set point in mV and 1 + the uptime of the last
adjustment, per quire 1 + the uptime at which a pace-low condition began, and the lowest reading since the
last colophon. -/
structure Pace where
  railMv : Table Nat := []
  lastAdjust : Table Nat := []
  /-- The last 10 µs average of the die's rail, in units of 100 µV (R565). -/
  railRead : Table Nat := []
  lowSince : Table Nat := []
  colophonLow : Table Nat := []
  deriving DecidableEq, Repr

/-- A snapshot bank (R536, R538). -/
structure Snap where
  num : Nat := 0
  time : Nat := 0
  counters : Table Nat := []
  books : List Nat := []
  outOfBalance : BitVec 7 := 0
  deriving DecidableEq, Repr

/-- A trace record (R530, R531): type, length in bytes, sequence number, time status, uptime and
payload. -/
structure TraceRec where
  type : Nat
  len : Nat
  seq : Nat
  ts : Nat
  uptime : Nat
  payload : Nat
  deriving DecidableEq, Repr

/-- Trace and ledger (R529 to R539). -/
structure Obs where
  fifo : List TraceRec := []
  /-- Records sent since the trace was enabled (R530). -/
  seq : Nat := 0
  /-- Records discarded on the spine and at the FIFO since the previous LOST (R531). -/
  lostSpine : Nat := 0
  lostFifo : Nat := 0
  bank0 : Snap := {}
  bank1 : Snap := {}
  /-- The uptime at which the trace port has sent what it had begun (R529). -/
  busy : Nat := 0
  /-- The bank that holds the latest snapshot. -/
  latest : Bool := false
  /-- A hold: the bank held and the uptime at which it expires (R537). -/
  hold : Option (Bool × Nat) := none
  deriving DecidableEq, Repr

/-- The time base (R133 to R146): both counts, the rate in force, the slew and the pending steps. -/
structure TimeBase where
  /-- The uptime counter, in ns. -/
  uptime : Nat := 0
  /-- The time base, in units of 2^-32 ns. -/
  time : Nat := 0
  /-- The servo's or the host's rate adjustment, in units of 10^-12. -/
  rate : Int := 0
  /-- The rate the 10 MHz input measures (R139). -/
  rate10M : Int := 0
  /-- What a slew still has to absorb, in units of 2^-32 ns (R143). -/
  residual : Int := 0
  /-- The slew was authorised by TB_STEP_AUTH (R146). -/
  slewAuth : Bool := false
  /-- A step accepted and not yet applied, in units of 2^-32 ns (R141), and the part of it for which the
  realignment boundary has come. -/
  step : Option Int := none
  due : Option Int := none
  /-- A step that measurements still ask for was rejected (R146). -/
  rejected : Bool := false
  /-- Consecutive measurements inside and outside the lock bound (R137). -/
  inBound : Nat := 0
  outBound : Nat := 0
  /-- The working reference is lost (R138). -/
  refLost : Bool := false
  /-- The rate adjustments of the last 64 offset measurements, newest first (R139). -/
  rates : List Int := []
  /-- The uptime at which 1PPS_OUT falls, while it is high (R163). -/
  ppsOut : Option Nat := none
  /-- Uptimes of the last edges of 1PPS_IN, newest first (R164). -/
  ppsEdges : List Nat := []
  /-- The last whole second at which 1PPS_OUT rose. -/
  lastPps : Option Nat := none
  /-- Uptime of the last realignment of the fore-edge copies (R56). -/
  realigned : Nat := 0
  /-- The ticks passed, newest first: the uptime, the time base and the time status that each showed.  A stamp
  of an earlier instant is taken from them (R18, R152). -/
  past : List (Nat × Nat × Nat) := []
  /-- The rate and its history at the last complete epoch (R150). -/
  saved : Int × List Int := (0, [])
  deriving DecidableEq, Repr

/-- One PTP domain slot (R162, R169): what the servo keeps beyond the registers. -/
structure PtpDomain where
  inBound : Nat := 0
  outBound : Nat := 0
  /-- Uptime of the last usable Sync. -/
  lastSync : Nat := 0
  /-- Origin time and receive stamp of the last usable Sync, in 2^-16 ns. -/
  lastT1 : Int := 0
  lastT2 : Int := 0
  /-- The port in SLAVE state for the domain, and the uptime at which it became so. -/
  slavePort : Option Nat := none
  slaveSince : Nat := 0
  /-- Uptime of the last Announce of the selected grandmaster, and the UTC offset it gave with its validity
  (R135). -/
  heard : Nat := 0
  utc : Nat := 0
  utcValid : Bool := false
  /-- The data set of the selected grandmaster, as Announce messages order it. -/
  best : Option (List Nat) := none
  deriving DecidableEq, Repr

/-- A two-step Sync waiting for its Follow_Up: its port, domain and sequence number, its receive
stamp and its correction, in 2^-16 ns. -/
structure SyncWait where
  port : Nat
  domain : Nat
  seq : Nat
  rx : Full
  correction : Int
  deriving DecidableEq, Repr

/-- PTP (R159 to R162): the domain slots, the Syncs waiting for a Follow_Up, and the messages
discarded under R161. -/
structure Ptp where
  dom : Table PtpDomain := []
  waiting : List SyncWait := []
  discarded : Nat := 0
  /-- The device's own data set, as Announce messages order it (R160). -/
  own : List Nat := []
  deriving DecidableEq, Repr

/-- What the device drives out of the package or sends to the host, in order. -/
inductive Output where
  /-- A frame leaves the express MAC of a port, after 7 preamble bytes and the delimiter 0xD5: its bytes, padded
  and with its FCS (R221, R227). -/
  | frame (port : Nat) (bytes : List Byte) (stomped : Bool)
  /-- An mPacket leaves the preemptable MAC of a port, from its first preamble byte to the mCRC or FCS (R227). -/
  | mpacket (port : Nat) (bytes : List Byte)
  /-- A PLCA coordinator sends a BEACON with its node count (R238). -/
  | beacon (port count : Nat)
  /-- Bytes written to host memory. -/
  | hostWrite (addr : Nat) (bytes : List Byte)
  /-- The same, with the poison mark (R454). -/
  | hostWritePoisoned (addr : Nat) (bytes : List Byte)
  /-- A PTP message the device answers with or forwards: port, message type, domain, sequence
  number and the time it carries. -/
  | ptp (port msgType domain seq : Nat) (time : Full)
  /-- A PTP message of a domain the device does not track, forwarded between P0 and P1 (R161): port, message
  type, domain, sequence number, and the correction it leaves with (R156). -/
  | ptpForward (port msgType domain seq : Nat) (correction : Int)
  /-- A message of an interrupt vector of a function, MSI-X or MSI (R458). -/
  | message (func vector : Nat)
  /-- A PM_PME message (R463) and an LTR message (R464). -/
  | pme (func : Nat)
  | ltr (value : Nat)
  /-- Data that completes a read of the device, and its poison mark (R450, R454). -/
  | completion (func : Nat) (bytes : List Byte) (poisoned : Bool)
  /-- A request of this function completes with Unsupported Request (R450). -/
  | unsupported (func : Nat)
  /-- A frame copy sent over a lane of the pair link (R521). -/
  | pairCopy (lane : Nat) (bytes : List Byte)
  /-- A pair heartbeat: vote and serial (R515). -/
  | pairHeartbeat (vote serial : Nat)
  /-- A pair epoch of the ring master (R519). -/
  | pairEpoch (epoch : PairEpoch)
  /-- A trace record leaves the trace port (R529). -/
  | trace (bytes : List Byte)
  /-- What an SMBus read of the management target answers (R552). -/
  | smbus (bytes : List Byte)
  /-- Bytes the recorder writes to namespace 1 of the cartridge, from a byte offset (R480, R483). -/
  | cartWrite (offset : Nat) (bytes : List Byte)
  /-- A verify or respond mPacket (R226). -/
  | verify (port : Nat)
  | respond (port : Nat)
  deriving DecidableEq, Repr

/-- The state of the device.  `pending` is the queue of commands waiting, first in first out. -/
structure State where
  pending : List Instr := []
  /-- The register file, keyed by BAR0 offset, with the function's number above bit 26 for the
  registers that exist once per function (R544). -/
  regs : Table Word := []
  /-- Words of register groups staged by writes, and latched by reads (R10). -/
  stage : Table (Option Word) := []
  latch : Table (Option Word) := []
  /-- The 64-bit counter bank (R534). -/
  cnts : Table Nat := []
  /-- Events posted and not yet routed, oldest first (R404, R405). -/
  posted : List Event := []
  /-- The uptime of the last posting of each limited event, plus 1 (R243, R541). -/
  lastPost : Table Nat := []
  /-- The model's own: what the device has sent, oldest first. -/
  out : List Output := []
  /-- The model's own: how many free values have been drawn. -/
  free : Nat := 0
  pwr : Power := {}
  fuses : Fuses := {}
  boot : Boot := {}
  imp : Imp := {}
  units : Units := {}
  spine : Table Credit := []
  cells : Cells := {}
  frames : Table Frame := []
  /-- The model's own: the next frame handle. -/
  nextFrame : Nat := 1
  /-- Device DRAM, by offset, and its poison marks (R454). -/
  dram : Table Byte := []
  poison : Table Bool := []
  queues : Table Queue := []
  host : HostSide := {}
  ports : Table Port := []
  flows : Flows := {}
  /-- Work items on their way to their folio, oldest first (R254), and the dispatch sequence. -/
  items : List WorkItem := []
  itemSeq : Nat := 0
  pairLink : PairLink := {}
  /-- Recording copies on their way to the recorder (R264). -/
  recCopies : List RecCopy := []
  ring : Ring := {}
  engines : Engines := {}
  dma : Table DmaChan := []
  evt : Evt := {}
  cart : Cart := {}
  guard : Guard := {}
  pair : Pair := {}
  pace : Pace := {}
  obs : Obs := {}
  tb : TimeBase := {}
  ptp : Ptp := {}
  deriving DecidableEq, Repr

/-- The machine right after a power-on start with the strap at 00 (R97, R118): Boot, cause
POWER_ON, everything else at its reset value. -/
def State.reset : State :=
  { regs := [(Reg.GLB_MODE, 0x00000100)], posted := [⟨0x0001, (Config.freeValue 0).toNat⟩]
    free := 1 }

end Sys2Proof.Machine
end

