-- ==== Sys2Proof/Machine/Ops.lean ====
section
/-! DEFINITION. The named operations every meaning is built from: reading and writing registers,
fields and counters, posting events, drawing free values, the clocks, and the mode transitions of
R118. -/

/-! ### Times -/

namespace Sys2Proof

/-- The full form of a time in units of 2^-16 ns. -/
def Full.ofTicks (t : Nat) : Full :=
  { sec := t / (1000000000 * 65536) % 2 ^ 48, ns := t / 65536 % 1000000000, frac := t % 65536 }

/-- A full-form time in units of 2^-16 ns. -/
def Full.ticks (f : Full) : Nat := f.toNs * 65536 + f.frac

/-- R13: the short form of a full-form time. -/
def Full.short (f : Full) : Nat := f.toNs % 2 ^ 32

/-- A full-form time as the 96 bits of R11. -/
def Full.image (f : Full) : Nat := f.frac % 2 ^ 16 + f.ns % 2 ^ 32 * 2 ^ 16 + f.sec % 2 ^ 48 * 2 ^ 48

end Sys2Proof

namespace Sys2Proof.Machine

/-! ### Numbers -/

/-- Bits `lo` to `lo + width - 1` of `w`. -/
def bits (w lo width : Nat) : Nat := w / 2 ^ lo % 2 ^ width

/-- `w` with bits `lo` to `lo + width - 1` replaced by the low bits of `v`. -/
def putBits (w lo width v : Nat) : Nat :=
  w / 2 ^ (lo + width) * 2 ^ (lo + width) + (v % 2 ^ width) * 2 ^ lo + w % 2 ^ lo

/-- The signed number that the low `n` bits of `v` stand for in two's complement. -/
def signed (n v : Nat) : Int :=
  if v % 2 ^ n < 2 ^ (n - 1) then (v % 2 ^ n : Nat) else (v % 2 ^ n : Nat) - (2 ^ n : Nat)

/-- The low `n` bits of a signed number. -/
def unsigned (n : Nat) (v : Int) : Nat := (v % (2 ^ n : Nat)).toNat

/-- `v` held within `lo` to `hi`. -/
def clampInt (lo hi v : Int) : Int := if v < lo then lo else if hi < v then hi else v

/-- `v` saturated at `±max`, as `n` bits. -/
def saturated (n : Nat) (max : Int) (v : Int) : Nat := unsigned n (clampInt (-max) max v)

/-- R14: the signed difference of two short-form values. -/
def shortDiff (a b : Nat) : Int := signed 32 (a + 2 ^ 32 - b % 2 ^ 32)

/-- R15: a short-form target is due at `now`. -/
def shortDue (target now : Nat) : Bool := decide (shortDiff target now ≤ 0)

/-- The index of the lowest bit set among the first `n` bits of `w`. -/
def lowestBit (n w : Nat) : Option Nat := (List.range n).find? fun i => w.testBit i

/-- The number of bits set among the first `n` bits of `w`. -/
def popCount (n w : Nat) : Nat := ((List.range n).filter fun i => w.testBit i).length

/-- `w` with bit `i` set or cleared. -/
def setBit (w i : Nat) (b : Bool) : Nat := putBits w i 1 b.toNat

/-! ### Bytes -/

/-- `v` as `n` bytes, little-endian (R73, R114). -/
def leBytes : Nat → Nat → List Byte
  | 0, _ => []
  | n + 1, v => BitVec.ofNat 8 v :: leBytes n (v / 256)

/-- `v` as `n` bytes, big-endian. -/
def beBytes (n v : Nat) : List Byte := (leBytes n v).reverse

/-- The number little-endian bytes stand for. -/
def leNat : List Byte → Nat
  | [] => 0
  | b :: t => b.toNat + 256 * leNat t

/-- The number big-endian bytes stand for. -/
def beNat (l : List Byte) : Nat := leNat l.reverse

namespace State

/-! ### Registers -/

/-- The value of the register at key `a`. -/
def rd (s : State) (a : Nat) : Word := Table.get regReset s.regs a

/-- Set the register at key `a`. -/
def wr (s : State) (a : Nat) (v : Word) : State := { s with regs := Table.set regReset s.regs a v }

/-- Set the register at key `a` to the low 32 bits of `v`. -/
def wrN (s : State) (a v : Nat) : State := s.wr a (BitVec.ofNat 32 v)

/-- The value of a field. -/
def fld (s : State) (f : Field) : Nat := bits (s.rd f.reg).toNat f.lo f.width

/-- Set a field. -/
def setFld (s : State) (f : Field) (v : Nat) : State :=
  s.wrN f.reg (putBits (s.rd f.reg).toNat f.lo f.width v)

/-- A one-bit field as a truth value. -/
def flag (s : State) (f : Field) : Bool := !(Nat.beq (s.fld f) 0)

/-- Set a one-bit field. -/
def setFlag (s : State) (f : Field) (b : Bool) : State := s.setFld f b.toNat

/-- Bit `i` of a field. -/
def bit (s : State) (f : Field) (i : Nat) : Bool := (s.fld f).testBit i

/-- Set bit `i` of a field. -/
def putBit (s : State) (f : Field) (i : Nat) (b : Bool) : State :=
  s.setFld f (setBit (s.fld f) i b)

/-- A pair of registers `_LO`, `_HI` as one 64-bit value. -/
def rd64 (s : State) (lo : Nat) : Nat := (s.rd lo).toNat + (s.rd (lo + 4)).toNat * 2 ^ 32

/-- Set a pair of registers `_LO`, `_HI`. -/
def wr64 (s : State) (lo v : Nat) : State := (s.wrN lo v).wrN (lo + 4) (v / 2 ^ 32)

/-- A group `_LO`, `_MID`, `_HI` in the word order of TB_NOW (R168). -/
def rdFull (s : State) (lo : Nat) : Full :=
  { sec := (s.rd (lo + 4)).toNat + bits (s.rd (lo + 8)).toNat 0 16 * 2 ^ 32
    ns := (s.rd lo).toNat
    frac := bits (s.rd (lo + 8)).toNat 16 16 }

/-- Set a group `_LO`, `_MID`, `_HI` in the word order of TB_NOW. -/
def wrFull (s : State) (lo : Nat) (t : Full) : State :=
  ((s.wrN lo t.ns).wrN (lo + 4) t.sec).wrN (lo + 8) (t.sec / 2 ^ 32 % 2 ^ 16 + t.frac * 2 ^ 16)

/-- The word a commit takes for the register at key `a`: the one staged since the last commit, else the
value the register holds (R10). -/
def staged (s : State) (a : Nat) : Word := (Table.get (fun _ => none) s.stage a).getD (s.rd a)

def stageWord (s : State) (a : Nat) (v : Word) : State :=
  { s with stage := Table.set (fun _ => none) s.stage a (some v) }

/-- The word staged at `a` is no longer staged. -/
def unstage (s : State) (a : Nat) : State := { s with stage := Table.set (fun _ => none) s.stage a none }

/-- Commit what is staged for the `k` words from `a`. -/
def commitWords (s : State) (a : Nat) : Nat → State
  | 0 => s
  | k + 1 => ((s.wr a (s.staged a)).unstage a).commitWords (a + 4) k

/-- Drop what is staged for the `k` words from `a`. -/
def dropStaged (s : State) (a : Nat) : Nat → State
  | 0 => s
  | k + 1 => (s.unstage a).dropStaged (a + 4) k

/-! ### Counters, events, outputs, free values -/

/-- The value of counter `i` of the bank (R534). -/
def cnt (s : State) (i : Nat) : Nat := Table.get (fun _ => 0) s.cnts i

/-- Add `n` to counter `i`. -/
def countN (s : State) (i n : Nat) : State :=
  { s with cnts := Table.set (fun _ => 0) s.cnts i ((s.cnt i + n) % 2 ^ 64) }

/-- Count one happening in counter `i`. -/
def count (s : State) (i : Nat) : State := s.countN i 1

/-- Post an event (R28): it waits to be routed by EVENT_POST (R404). -/
def post (s : State) (code data : Nat) : State := { s with posted := s.posted ++ [⟨code, data⟩] }

/-- Post an event that is limited to once in any 1 ms of uptime (R243, R541). -/
def postLimited (s : State) (code data : Nat) : State :=
  let last := Table.get (fun _ => 0) s.lastPost code
  if last ≠ 0 ∧ s.tb.uptime < last - 1 + 1000000 then s
  else { s.post code data with
         lastPost := Table.set (fun _ => 0) s.lastPost code (s.tb.uptime + 1) }

/-- The next free value. -/
def freeVal (s : State) : BitVec 64 := Config.freeValue s.free

/-- Advance to the next free value. -/
def draw (s : State) : State := { s with free := s.free + 1 }

/-- Post an event whose DATA the spec does not define: a free value. -/
def postOpen (s : State) (code : Nat) : State := (s.post code s.freeVal.toNat).draw

/-- As `postOpen`, limited to once in any 1 ms. -/
def postOpenLimited (s : State) (code : Nat) : State := (s.postLimited code s.freeVal.toNat).draw

/-- Append to what the device has sent. -/
def emit (s : State) (o : Output) : State := { s with out := s.out ++ [o] }

/-! ### Clocks -/

/-- The time base in whole ns. -/
def nowNs (s : State) : Nat := s.tb.time / 2 ^ 32

/-- The time base in full form (R134). -/
def now (s : State) : Full := Full.ofTicks (s.tb.time / 2 ^ 16)

/-- The time base in short form (R136). -/
def nowShort (s : State) : Nat := s.nowNs % 2 ^ 32

/-- Uptime in µs, modulo 2^32. -/
def upUs (s : State) : Nat := s.tb.uptime / 1000 % 2 ^ 32

/-- The time status (R18). -/
def timeStatus (s : State) : Nat := s.fld Reg.TB_STATUS_STATUS

/-! ### Modes (R117, R118) -/

/-- The mode code of R117. -/
def mode (s : State) : Nat := s.fld Reg.GLB_MODE_MODE

/-- Some unit, quire or die is spared out or isolated (R117), or a quire is in a reset, during which DEGRADED
is 1 as well (R124). -/
def anyOut (s : State) : Bool :=
  decide (s.units.engOut ≠ 0) || decide (s.units.spareUsed ≠ 0) || decide (s.units.folioOut ≠ 0) ||
    decide (s.units.quireIso ≠ 0) || decide (s.units.dieLost ≠ 0) ||
    !(Nat.beq (s.fld Reg.GLB_RESET_STATUS_QUIRE_BUSY) 0)

/-- One of the modes in which the network runs: Running, Degraded, Reimposing and Quiet. -/
def operating (s : State) : Bool :=
  Nat.beq s.mode 2 || Nat.beq s.mode 3 || Nat.beq s.mode 4 || Nat.beq s.mode 5

/-- The LTR message of the mode `m` just entered (R464). -/
def sendLtr (s : State) (m : Nat) : State :=
  if s.host.ltrEnable = false then s
  else if m = 5 then s.emit (.ltr (s.rd Reg.PCIE_LTR_QUIET).toNat)
  else if m = 2 ∨ m = 3 ∨ m = 4 then s.emit (.ltr (s.rd Reg.PCIE_LTR_ACTIVE).toNat) else s

/-- A mode transition of R118: the mode, the cause, the GLB event and the LTR message. -/
def transition (s : State) (m cause : Nat) : State :=
  (((s.setFld Reg.GLB_MODE_MODE m).setFld Reg.GLB_MODE_CAUSE cause).postOpen cause).sendLtr m

/-- Set GLB_MODE.DEGRADED from what is out of service, with no transition (R117, R119). -/
def showDegraded (s : State) : State := s.setFlag Reg.GLB_MODE_DEGRADED s.anyOut

/-- Something has gone out of service: Running becomes Degraded with the cause given, and in every
mode DEGRADED is 1 (R117, R118, R119). -/
def degrade (s : State) (cause : Nat) : State :=
  let s := s.showDegraded
  if s.mode = 2 then s.transition 3 cause else s

/-- Something is back in service: Degraded becomes Running when nothing else is out (R118). -/
def restore (s : State) : State :=
  let s := s.showDegraded
  if s.mode = 3 ∧ s.anyOut = false then s.transition 2 0x10 else s

/-- The mode a return to Running or Degraded goes to (R118). -/
def workMode (s : State) : Nat := if s.anyOut then 3 else 2

end State

/-! ### Reading a register (R6, R10, R534) -/

namespace State

/-- The counter the register at offset `a` shows, and whether it shows the high word (R534,
R242). -/
def cntIndex? (a : Nat) : Option (Nat × Bool) :=
  let blk (base first n evb : Nat) : Option (Nat × Bool) :=
    if base + first ≤ a ∧ a < base + first + 4 * n ∧ a % 4 = 0 then
      some (evb * 256 + (a - base - first) / 4, false) else none
  let port : Option (Nat × Bool) :=
    if 0x100000 ≤ a ∧ a < 0x1C0000 then
      let n := (a - 0x100000) / 0x10000
      let o := a % 0x10000
      if 0x1000 ≤ o ∧ o < 0x1080 ∧ a % 4 = 0 then
        if o = 0x1008 ∨ o = 0x1034 then some ((0x0C + n) * 256 + (o - 0x1000) / 4 - 1, true)
        else some ((0x0C + n) * 256 + (o - 0x1000) / 4, false)
      else if 0x4200 ≤ o ∧ o < 0x4220 ∧ a % 4 = 0 then
        some ((0x0C + n) * 256 + 32 + (o - 0x4200) / 4, false)
      else none
    else none
  (blk 0x20000 0x100 11 2).or <| (blk 0x30000 0x100 14 3).or <| (blk 0x40000 0x100 4 4).or <|
  (blk 0x80000 0x300 11 5).or <| (blk 0x90000 0x100 10 6).or <| (blk 0xA0000 0x40 6 7).or <|
  (blk 0xC0000 0x10 5 8).or <| (blk 0xF0000 0x100 15 11).or <| (blk 0x200000 0x200 9 0x18).or <|
  (blk 0x300000 0x200 14 0x19).or <| (blk 0x400000 0x900 10 0x1A).or port

end State

end Sys2Proof.Machine
end

