-- ==== Sys2Proof/Machine/ImageCheck.lean ====
section
/-! DEFINITION. The order in which the binder checks an image (R86), with the conditions of each
sheet and the reason codes of R87. -/

namespace Sys2Proof

/-! ### Seals (R75, R83 to R86) -/

/-- The seal of a bundle or a tip-in is Akavaga's over the record (R84, R86). -/
def CodeRec.sealOk (c : CodeRec) : Bool :=
  c.sealed.verifies Config.rootDigest (Config.recordDigest { c with sealed := {}, tag := {} })

/-- The GCM tag of a tip-in verifies under the patch key (R86). -/
def CodeRec.tagOk (c : CodeRec) : Bool :=
  decide (c.tag = ⟨Config.patchKey, Config.recordDigest { c with sealed := {}, tag := {} }⟩)

/-- A code record verifies as R86 asks of its kind. -/
def CodeRec.verified (c : CodeRec) : Bool :=
  if c.kind = 1 then c.sealOk else if c.kind = 2 then c.sealOk && c.tagOk else true

/-- R83: SIG_R and SIG_S verify under PUBKEY over every byte before them. -/
def Image.sealOk (i : Image) : Bool :=
  decide (i.sealed = ⟨i.pubkeyDigest, Config.imageDigest { i with sealed := {} }⟩)

/-- A row of the compatibility matrix as its 24 bytes. -/
def MatrixRow.bytes (r : MatrixRow) : List Byte :=
  Machine.leBytes 4 (r.stepping % 256) ++ Machine.leBytes 4 r.endpaper ++ Machine.leBytes 4 r.binder ++ Machine.leBytes 4 r.bundleSet ++
    Machine.leBytes 4 r.tipinSet ++ Machine.leBytes 4 0

/-- What the matrix seal covers (R75): MATRIX_ROWS and all rows. -/
def matrixBytes (l : List MatrixRow) : List Byte := Machine.leBytes 4 l.length ++ l.flatMap MatrixRow.bytes

/-- R75: the matrix seal is Akavaga's over the rows. -/
def Image.matrixSealOk (i : Image) : Bool :=
  i.matrixSeal.verifies Config.rootDigest (Config.sha512 (matrixBytes i.matrix))

/-- The seal of an enrolment record is Akavaga's over what precedes it (R85). -/
def EnrolRecord.sealOk (r : EnrolRecord) : Bool := r.sealed.verifies Config.rootDigest r.body

end Sys2Proof

namespace Sys2Proof.Machine

/-- The sheets that start at offset `o` with type `t`, up to the end of the image (R72, R73): in the order of
their types, contiguous, each of SHEET_VER 1 and of a length that is a multiple of 8, with every padding byte and
reserved field zero. -/
def sheetsFrom (len : Nat) : Nat → Nat → List SheetHead → Bool
  | t, o, [] => Nat.beq t 11 && Nat.beq o len
  | t, o, h :: rest =>
    Nat.beq h.type t && Nat.beq h.version 1 && Nat.beq h.offset o && Nat.beq (h.length % 8) 0 &&
      Nat.ble 16 h.length && Nat.beq h.zeros 0 && sheetsFrom len (t + 1) (o + h.length) rest

/-- R72, R73: the sheet walk; HEADER is 0x28 bytes long and SEAL 0x140. -/
def walkOk (i : Image) : Bool :=
  sheetsFrom i.imageLen 1 0 i.sheets && Nat.beq ((i.sheets.head?.map (·.length)).getD 0) 0x28 &&
    Nat.beq ((i.sheets.getLast?.map (·.length)).getD 0) 0x140

/-- Step 1 of R86: HEADER and the sheet walk, of an image of which `supplied` bytes were read. -/
def checkHeader (i : Image) (supplied : Nat) : Nat :=
  if i.magic ≠ 0x46494D50 ∨ i.format ≠ 1 ∨ i.sheetCount ≠ 10 then 0x01
  else if 67108864 < i.imageLen then 0x02
  else if i.imageLen ≠ supplied ∨ walkOk i = false then 0x01
  else 0

/-- Step 2 of R86: the seals of CODE. -/
def checkSeals (i : Image) : Nat :=
  if (i.code.all fun c => !(Nat.beq c.kind 1) || c.verified) = false then 0x03
  else if (i.code.all fun c => !(Nat.beq c.kind 2) || c.verified) = false then 0x04
  else 0

/-- Step 3 of R86: the signer (R84), then the signature (R83). -/
def checkSigner (i : Image) (f : Fuses) : Nat :=
  let owner := decide (f.ownerDigest = some i.pubkeyDigest)
  let vendor := decide (i.pubkeyDigest = Config.rootDigest)
  if (owner || (vendor && !f.exclusive)) = false then 0x05
  else if i.sealOk = false then 0x06
  else 0

/-- The ids and versions CODE carries of one kind, in order (R77). -/
def codeList (i : Image) (kind : Nat) : List (Nat × Nat) :=
  (i.code.filter fun c => Nat.beq c.kind kind).map fun c => (c.id, c.version)

/-- Step 4 of R86: MANIFEST against the part and the lists (R4, R77). -/
def checkManifest (i : Image) (binder : Nat) : Nat :=
  if i.stepMask.getLsbD (Config.stepping / 16 * 8 + Config.stepping % 16) = false then 0x07
  else if Config.endpaperVer < i.endpaperMin then 0x08
  else if binder < i.binderMin ∨ i.binderMax < binder then 0x09
  else if codeList i 1 ≠ i.bundles ∨ codeList i 2 ≠ i.tipins then 0x0A
  else 0

/-- Step 5 of R86: the matrix seal (R75), then the row (R76). -/
def checkMatrix (i : Image) (binder : Nat) : Nat :=
  if i.matrixSealOk = false then 0x0B
  else if (i.matrix.any fun r => decide (r = ⟨Config.stepping, Config.endpaperVer, binder, i.bundleSet, i.tipinSet⟩)) = false
  then 0x0C else 0

/-- The role entry of physical engine `e`. -/
def roleOf (t : StructureSheet) (e : Nat) : RoleEntry := t.roles.getD e {}

/-- The roles of the four active slots of folio `f`. -/
def folioRoles (t : StructureSheet) (f : Nat) : List RoleEntry :=
  (List.range 4).map fun k => roleOf t (f * 5 + k)

/-- Whether two half-open ranges meet. -/
def overlap (b1 n1 b2 n2 : Nat) : Bool := Nat.blt b1 (b2 + n2) && Nat.blt b2 (b1 + n1)

/-- No two members of a list are in relation `r`. -/
def noPair {α : Type} (r : α → α → Bool) : List α → Bool
  | [] => true
  | a :: t => t.all (fun b => !r a b) && noPair r t

/-- The bundle of index `k` of the bundle list. -/
def bundleAt (i : Image) (k : Nat) : Option CodeRec := (i.code.filter fun c => Nat.beq c.kind 1)[k]?

/-- CLASS of the role of a role entry, as the entry's bundle defines it; 0 where it does not (R344). -/
def roleClassOf (i : Image) (r : RoleEntry) : Nat :=
  (((bundleAt i r.bundle).bind fun b => b.roleDir.find? fun x => Nat.beq x.1 r.role).map (·.2.1)).getD 0

/-- R78, R345 and R495: when STRUCTURE is accepted.  Of the role codes, TIME_SERVO is 0x10,
RING_MASTER 0x11, SCHEDULE_COMMIT 0x12, GUARD_LIAISON 0x13, IDLE 0x00 and SPARE 0x01. -/
def structureOk (i : Image) : Bool :=
  let t := i.struct
  let engines := List.range 160
  let privileged (r : Nat) : Bool := Nat.beq r 0x10 || Nat.beq r 0x11 || Nat.beq r 0x13
  let folios := List.range 32
  let runs (f role : Nat) : Bool := (folioRoles t f).any fun r => Nat.beq r.role role
  let ctrl (f : Nat) : Bool := Nat.beq f t.ctrlActive || Nat.beq f t.ctrlStandby
  Nat.beq t.roles.length 160 && Nat.beq t.pair.length 16 && Nat.beq t.pace.length 4 &&
  t.pace.all (fun p => Nat.ble 105 p && Nat.ble p 160) &&
  engines.all (fun e => Nat.beq (roleOf t e).role 1 == Nat.beq (e % 5) 4) &&
  engines.all (fun e => (roleOf t e).priv == privileged (roleOf t e).role) &&
  (List.range 16).all (fun q =>
    Nat.blt (t.pair.getD q 16) 16 && Nat.beq (t.pair.getD (t.pair.getD q 16) 16) q &&
      !(Nat.beq (t.pair.getD q 16 / 4) (q / 4))) &&
  Nat.blt t.ctrlActive 32 && Nat.blt t.ctrlStandby 32 &&
  !(Nat.beq (t.ctrlActive / 8) (t.ctrlStandby / 8)) &&
  [t.ctrlActive, t.ctrlStandby].all (fun f => runs f 0x10 && runs f 0x11 && runs f 0x12) &&
  [t.ctrlActive, t.ctrlStandby].all (fun f =>
    runs (f / 2 * 2) 0x13 || runs (f / 2 * 2 + 1) 0x13) &&
  Nat.ble t.totalVfs 60 && Nat.ble 1 t.qranges.length && Nat.ble t.qranges.length 256 &&
  t.qranges.all (fun r => Nat.beq (r.base % 16) 0 && Nat.beq (r.count % 16) 0 &&
    Nat.ble (r.base + r.count) 1048576 && Nat.blt r.homeQuire 16) &&
  noPair (fun a b => overlap a.base a.count b.base b.count) t.qranges &&
  t.qranges.all (fun r => Nat.blt r.func 4 || (Nat.ble 0x10 r.func && Nat.blt r.func (0x10 + t.totalVfs))) &&
  (List.range t.totalVfs).all (fun v => t.qranges.any fun r => Nat.beq r.func (0x10 + v)) &&
  t.qranges.all (fun r => (List.range 10).any fun k =>
    (roleClassOf i (roleOf t (r.homeQuire * 10 + k))).testBit 1) &&
  folios.all (fun f => (folioRoles t f).all fun r =>
    Nat.beq r.role 0 || (folioRoles t f).all fun r' => Nat.beq r'.role 0 || Nat.beq r.bundle r'.bundle) &&
  engines.all (fun e => Nat.ble (roleOf t e).role 1 ||
    (match bundleAt i (roleOf t e).bundle with
      | some b => b.roles.contains (roleOf t e).role
      | none => false)) &&
  folios.all (fun f => ctrl f ||
    (folioRoles t f).all (fun r => r.priv || Nat.beq r.role 0) ||
    (folioRoles t f).all (fun r => !r.priv))

/-- R82: when the directory of CODE is accepted.  A folio is active where it runs some role. -/
def codeOk (i : Image) : Bool :=
  ((List.range 32).all fun f => (folioRoles i.struct f).all (fun r => Nat.beq r.role 0) ||
    i.code.any fun c => Nat.beq c.kind 1 && c.folioMask.getLsbD f) &&
  noPair (fun a b => Nat.beq a.kind 3 && Nat.beq b.kind 3 && decide (a.folioMask &&& b.folioMask ≠ 0))
    i.code &&
  i.code.all (fun c => !(Nat.beq c.kind 3) ||
    (c.words.all (fun w => Nat.ble 0x3000 w.1 && Nat.blt w.1 0x4000) &&
      c.dispatch.all (fun d => Nat.ble 0xC0 d.1 && Nat.blt d.1 0x100) && c.privImages.isEmpty)) &&
  Nat.beq i.customerCount (codeList i 3).length && Nat.ble i.customerCount 32

/-- R79: the media, speed and FEC a port accepts. -/
def mediaOk (n : Nat) (p : PortRec) : Bool :=
  let is (m sp fec : Nat) : Bool := Nat.beq p.media m && Nat.beq p.speed sp && Nat.beq p.fec fec
  (Nat.beq p.media 0 && Nat.beq p.fec 0) ||
  (if n < 2 then is 1 6 0 || is 1 6 1 || is 1 6 2 || is 2 5 0 || is 3 2 0
   else if n < 6 then is 4 5 0 || is 4 4 0 || is 4 3 0 || is 4 2 0 || is 4 1 0
   else if n < 8 then is 5 2 0 || is 3 2 0
   else is 6 0 0)

/-- R79 and R175: when PORTS is accepted. -/
def portsOk (i : Image) : Bool :=
  Nat.beq i.ports.length 12 &&
  (List.range 12).all fun n =>
    let p := i.ports.getD n {}
    mediaOk n p && !(p.preempt && Nat.ble 8 n) && p.base.ok &&
    (p.gcl.isEmpty || (Nat.ble 1000 p.cycle && Nat.ble p.cycle 1000000000)) &&
    Nat.ble p.gcl.length 1024 && Nat.ble 1000 p.lead && Nat.ble p.lead 50000 &&
    p.gcl.all GateEntry.ok

/-- The size bounds and counts of the partition kinds (MEMORY). -/
def partSizeOk (p : Partition) : Bool :=
  let mib := 1048576
  match p.kind with
  | 1 => Nat.beq p.size (256 * mib)
  | 2 => Nat.beq p.size (64 * mib)
  | 3 => Nat.ble (64 * mib) p.size && Nat.ble p.size (2048 * mib)
  | 4 => Nat.ble p.size (8192 * mib)
  | 5 => Nat.ble (64 * mib) p.size && Nat.ble p.size (4096 * mib)
  | 6 => Nat.ble (2 * mib) p.size && Nat.ble p.size (64 * mib)
  | 7 => Nat.beq p.size 0 || Nat.beq p.size (64 * mib)
  | 8 => Nat.ble (2 * mib) p.size && Nat.ble p.size (4096 * mib)
  | _ => false

/-- R80, R81 and R245: when MEMORY is accepted with `dram` bytes detected. -/
def memoryOk (i : Image) (dram : Nat) : Bool :=
  let kinds (k : Nat) : Nat := (i.parts.filter fun p => Nat.beq p.kind k).length
  let usable := i.dramBytes * 7 / 8
  Nat.beq i.dramBytes dram && Nat.beq (i.dramBytes % 2147483648) 0 &&
  Nat.ble 4294967296 i.dramBytes && Nat.ble i.dramBytes 17179869184 &&
  Nat.ble 2 i.parts.length && Nat.ble i.parts.length 32 &&
  i.parts.all partSizeOk &&
  Nat.beq (kinds 1) 1 && Nat.beq (kinds 2) 1 && Nat.beq (kinds 3) 1 && Nat.ble (kinds 4) 1 &&
  Nat.ble (kinds 5) 1 && Nat.beq (kinds 6) 1 && Nat.ble (kinds 7) 1 && Nat.ble (kinds 8) 16 &&
  (Nat.beq (kinds 4) 0 || Nat.beq (kinds 5) 1) &&
  i.parts.all (fun p => Nat.beq (p.base % 2097152) 0 && Nat.ble (p.base + p.size) usable) &&
  noPair (fun a b => overlap a.base a.size b.base b.size) i.parts &&
  Nat.ble 1 i.flowParts.length && Nat.ble i.flowParts.length 64 &&
  i.flowParts.all (fun p => Nat.ble (p.base + p.count) 1048576 &&
    !(Nat.beq (p.keyMask % 128) 0) && !(Nat.beq (p.portMask % 16384) 0)) &&
  noPair (fun a b => overlap a.base a.count b.base b.count) i.flowParts &&
  (List.range 14).all fun b => Nat.ble (i.flowParts.filter fun p => p.portMask.testBit b).length 4

/-- The ranges of the TIME sheet. -/
def timeOk (t : TimeSheet) : Bool :=
  (!t.dual || !(Nat.beq t.second t.working)) && Nat.ble t.mon.length 2 &&
  Nat.ble t.working 127 && (!t.dual || Nat.ble t.second 127) && t.mon.all (fun d => Nat.ble d 127) &&
  Nat.ble 100 t.jump && Nat.ble t.jump 1000000000 &&
  Nat.ble 10 t.lockBound && Nat.ble t.lockBound 1000000 &&
  Nat.ble 1000 t.setupMargin && Nat.ble t.setupMargin 100000000 &&
  Nat.ble 1 t.slewPpb && Nat.ble t.slewPpb 10000

/-! ### The ring table (R296 to R298, R301) -/

/-- O(L) of R298. -/
def ringO (len : Nat) : Nat := (max len 64 + 20) * 8

/-- The gutter of a slot: its own, or the default where it holds 0. -/
def slotGutter (sh : RingSheet) (k : RingSlot) : Nat := if k.gutter = 0 then sh.gutter else k.gutter

/-- Q of R298, from the cycle start. -/
def slotReply (b : RingBank) (k : RingSlot) : Nat := k.offset + ringO (34 + k.reqLen) + b.dlim + b.turn

/-- E of R298, from the cycle start. -/
def slotEnd (sh : RingSheet) (b : RingBank) (k : RingSlot) : Nat :=
  if k.noReply then k.offset + ringO (34 + k.reqLen) + slotGutter sh k
  else slotReply b k + ringO (34 + k.replyLen) + slotGutter sh k

/-- The service window W of R298. -/
def ringWindow (sh : RingSheet) : Nat := 2 * 672 + sh.gutter

/-- The first index of a list whose member (with its successor) fails a test. -/
def firstBad {α : Type} (p : α → Option α → Bool) : Nat → List α → Option Nat
  | _, [] => none
  | k, a :: t => if p a t.head? then firstBad p (k + 1) t else some k

/-- R301: the first failure of a table bank as (ERROR, ENTRY); `none` where it is valid. -/
def ringTableError (sh : RingSheet) (b : RingBank) : Option (Nat × Nat) :=
  let at' (e : Nat) (r : Option Nat) : Option (Nat × Nat) := r.map fun k => (e, k)
  let count : Option (Nat × Nat) :=
    if sh.slotCap < b.slots.length ∨ 16 < b.marks.length then some (1, 0) else none
  let station := firstBad (fun k _ =>
    Nat.ble 1 k.station && Nat.ble k.station 254 && sh.stations.getLsbD k.station) 0 b.slots
  let length := firstBad (fun k _ => Nat.ble k.reqLen 1484 && Nat.ble k.replyLen 1484 &&
    Nat.beq (k.reqOff % 8) 0 && Nat.ble (k.reqOff + k.reqLen) 262144) 0 b.slots
  let gutter := firstBad (fun k _ => Nat.beq k.gutter 0 || (Nat.ble 200 k.gutter && Nat.ble k.gutter 65535))
    0 b.slots
  let first : Option Nat := match b.slots with
    | [] => none
    | k :: _ => if k.offset < ringWindow sh then some 0 else none
  let fit := firstBad (fun k next => Nat.ble (slotEnd sh b k) sh.cycle &&
    (match next with
      | some n => Nat.blt k.offset n.offset && Nat.ble (slotEnd sh b k) n.offset
      | none => true)) 0 b.slots
  let mark := firstBad (fun m _ => !m.send ||
    (Nat.ble (ringWindow sh) m.offset && Nat.ble (m.offset + 672) sh.cycle &&
      b.slots.all (fun k => !(overlap m.offset 672 k.offset (slotEnd sh b k - k.offset))))) 0 b.marks
  let param : Option (Nat × Nat) :=
    if b.dlim < 1000 ∨ 1000000 < b.dlim ∨ b.turn < 500 ∨ 100000 < b.turn then some (7, 0) else none
  count.or <| (at' 2 station).or <| (at' 3 length).or <| (at' 4 gutter).or <| (at' 5 first).or <|
    (at' 5 fit).or <| (at' 6 mark).or param

/-- The ranges of the RING sheet and R301 on its initial table. -/
def ringOk (r : RingSheet) : Bool :=
  Nat.ble 31000 r.cycle && Nat.ble r.cycle 100000000 && Nat.ble 1 r.missLimit && Nat.ble r.missLimit 15 &&
  Nat.ble 200 r.gutter && Nat.ble r.gutter 65535 && Nat.ble 1 r.slotCap && Nat.ble r.slotCap 4096 &&
  !(r.stations.getLsbD 0) && !(r.stations.getLsbD 255) &&
  (ringTableError r { slots := r.slots, marks := r.marks }).isNone

/-- R328: when an event-pin record is accepted. -/
def pinOk (p : PinRec) : Bool :=
  Nat.ble p.function 5 &&
  (Nat.ble p.polarity 1 || (Nat.beq p.polarity 2 && (Nat.beq p.function 1 || Nat.beq p.function 2))) &&
  Nat.ble p.initLevel 1 &&
  (Nat.beq p.align 0 || (Nat.ble p.align 2 && (Nat.beq p.function 2 || Nat.beq p.function 3))) &&
  Nat.ble p.alignPort 11 && Nat.ble p.filterNs 1000000

/-- Step 6 of R86, in the order of its rules. -/
def checkContent (i : Image) (dram : Nat) : Nat :=
  if structureOk i = false then 0x0D
  else if portsOk i = false then 0x12
  else if memoryOk i dram = false then 0x0E
  else if codeOk i = false then 0x0D
  else if timeOk i.time = false then 0x13
  else if ringOk i.ring = false then 0x14
  else if (Nat.beq i.pins.length 32 && i.pins.all pinOk) = false then 0x15
  else 0

/-- R86: the reason code of the first failing step, 0 where steps 1 to 6 pass; `supplied` bytes were read. -/
def imageReason (i : Image) (supplied dram binder : Nat) (f : Fuses) : Nat :=
  [checkHeader i supplied, checkSeals i, checkSigner i f, checkManifest i binder, checkMatrix i binder,
    checkContent i dram].find? (fun r => !(Nat.beq r 0)) |>.getD 0

end Sys2Proof.Machine
end

