-- ==== Sys2Proof/Machine/Boot.lean ====
section
/-! DEFINITION. Power, the fundamental reset, the boot chain and the PF3 mailbox (R97 to R116,
R118, R121, R129 to R132, R557 to R560, R567). -/

namespace Sys2Proof.Machine

namespace State

/-! ### Fundamental reset -/

/-- Out of reset with power good: the device runs. -/
def running (s : State) : Bool := s.pwr.aux && s.pwr.main && !s.pwr.perst

/-- The AER registers of a function's configuration space, which auxiliary power keeps (R466). -/
def aerKey (k : Nat) : Bool := Nat.ble 0x3900100 (k % 0x4000000) && Nat.blt (k % 0x4000000) 0x3900148

/-- R124, column "Fundamental": everything is cleared but the fuses, GLB_WAKE_CAUSE, the AER registers and
PME_Status and PME_En (R466), the pins, and the model's own queue, output log and count of free values. -/
def fundamental (s : State) : State :=
  { pending := s.pending, out := s.out, free := s.free, pwr := s.pwr, fuses := s.fuses
    host := { pmeEn := s.host.pmeEn, pmeStatus := s.host.pmeStatus }
    regs := s.regs.filter fun p => Nat.beq p.1 Reg.GLB_WAKE_CAUSE || aerKey p.1 }

/-- The fuses as IMP_RUN_KEY and RING_SERIAL show them (R95, R325). -/
def showFuses (s : State) : State :=
  ((s.setFlag Reg.IMP_RUN_KEY_OWNER_ENROLLED s.fuses.ownerDigest.isSome).setFlag
    Reg.IMP_RUN_KEY_EXCLUSIVE s.fuses.exclusive)

/-- R97, R105, R557: enter Boot with cause `cause`, sample the strap, and act as it says. -/
def enterBoot (s : State) (cause : Nat) : State :=
  let s := s.fundamental.showFuses.transition 0 cause
  let s := s.setFld Reg.IMP_BOOT_STRAPS_BOOTSEL s.pwr.bootsel.toNat
  if 2 ≤ s.pwr.bootsel.toNat then s.transition 7 0x0F
  else if s.pwr.bootsel.toNat = 1 then
    let s := s.setFld Reg.IMP_BOOT_STATUS_STAGE 6
    { s with boot := { s.boot with slot := 2 } }
  else s

/-- Boot starts where the rails are good and PERST_N is deasserted (R118, R560). -/
def startIfPowered (s : State) : State :=
  if s.running then
    let s := s.enterBoot s.pwr.startCause
    { s with pwr := { s.pwr with startCause := 0x02, armed := 0, wake := false } }
  else s

end State

/-- AUX_PG rises: auxiliary logic leaves reset and GLB_WAKE_CAUSE is reset (R558). -/
def execAuxPgRise (s : State) : Out State :=
  .next (if s.pwr.aux then s else
    let s := s.wr Reg.GLB_WAKE_CAUSE (regReset Reg.GLB_WAKE_CAUSE)
    { s with pwr := { s.pwr with aux := true } }.startIfPowered)

/-- AUX_PG falls: the device is fully reset and everything auxiliary is lost (R560). -/
def execAuxPgFall (s : State) : Out State :=
  .next
    { pending := s.pending, out := s.out, free := s.free, fuses := s.fuses
      pwr := { s.pwr with aux := false, startCause := 0x01, wake := false, armed := 0 } }

/-- MAIN_PG falls (R119, R560): in Dormant the rails are already expected down; otherwise it is a
power loss, and the next start is POWER_ON. -/
def execMainPgFall (s : State) : Out State :=
  .next (if s.mode = 6 then { s with pwr := { s.pwr with main := false } } else
    let s := s.fundamental
    { s with pwr := { s.pwr with main := false, startCause := 0x01 } })

/-- MAIN_PG rises (R560): where PERST_N is already deasserted Boot starts at this instant.  Main
rails that return to a Dormant device with no pattern match in this stay set GLB_WAKE_CAUSE.MAIN (R130). -/
def execMainPgRise (s : State) : Out State :=
  .next (
    let s := if s.mode = 6 ∧ s.pwr.wake = false ∧ s.pwr.main = false then
      s.setFlag Reg.GLB_WAKE_CAUSE_MAIN true else s
    if s.pwr.main then s else { s with pwr := { s.pwr with main := true } }.startIfPowered)

/-- PERST_N is asserted: a fundamental reset at once, from any mode but Dormant (R118, R129). -/
def execPerstAssert (s : State) : Out State :=
  .next (
    let s' := { s with pwr := { s.pwr with perst := true } }
    if s.running && !(Nat.beq s.mode 6) then
      let t := s'.fundamental.showFuses.transition 0 0x02
      { t with pwr := { t.pwr with startCause := 0x02 } }
    else s')

/-- PERST_N deasserts with the strap held at `bootsel`: with main power good the device enters
Boot; before MAIN_PG it stays in reset (R97, R557, R560). -/
def execPerstDeassert (bootsel : BitVec 2) (s : State) : Out State :=
  .next (if s.pwr.perst then
    { s with pwr := { s.pwr with perst := false, bootsel := bootsel } }.startIfPowered
  else s)

/-- The registers that live on the auxiliary rail in Dormant (R121): GLB_MODE, GLB_WAKE_CAUSE, and
the filter mode and the wake patterns of P6 to P11. -/
def auxRegister (a : Nat) : Bool :=
  Nat.beq a Reg.GLB_MODE || Nat.beq a Reg.GLB_WAKE_CAUSE ||
    (Nat.ble 0x160000 a && Nat.blt a 0x1C0000 &&
      (Nat.beq (a % 0x10000) 0x20 || (Nat.ble 0x200 (a % 0x10000) && Nat.blt (a % 0x10000) 0x300)))

/-- The ports from P6 to P11 that are in PATTERN mode (R121). -/
def patternPorts (s : State) : BitVec 12 :=
  BitVec.ofNat 12 (((List.range 12).filter fun n =>
    Nat.ble 6 n && s.flag (Reg.PORT_RX_FILTER_MODE n)).foldl (fun m n => m + 2 ^ n) 0)

/-- The link enters L2 and the main rails fall (R118, R121): from Quiet, with auxiliary power, the
device enters Dormant with the wake detectors of the PATTERN-mode ports armed.  Time is lost; AER,
PME_Status and PME_En stay (R463, R466). -/
def execL2Entry (s : State) : Out State :=
  .next (if s.mode = 5 ∧ s.pwr.aux then
    let armed := patternPorts s
    let t := s.transition 6 0x0D
    { pending := s.pending, out := t.out, free := t.free, fuses := s.fuses
      posted := t.posted
      host := { pmeEn := s.host.pmeEn, pmeStatus := s.host.pmeStatus }
      regs := t.regs.filter fun p => auxRegister p.1 || State.aerKey p.1
      pwr := { s.pwr with perst := true, main := false, startCause := 0x12, armed := armed, wake := false } }
  else s)

/-! ### The boot chain -/

namespace State

/-- The event of an imposition or boot reason code (R87, R106). -/
def postImp (s : State) (reason : Nat) : State := s.postOpen (0x0100 + reason)

/-- The mailbox command in progress ends (R108): DONE posts MB_DONE, ERROR posts the reason. -/
def mbEnd (s : State) (reason : Nat) : State :=
  match s.boot.mb with
  | none => s
  | some op =>
    let s := { s with boot := { s.boot with mb := none } }
    let s := (s.setFld Reg.IMP_MB_STATUS_STATE (if reason = 0 then 2 else 3)).setFld
      Reg.IMP_MB_STATUS_REASON reason
    let s := s.setFld Reg.IMP_MB_STATUS_LAST_CMD op.cmd
    s.postImp (if reason = 0 then 0x40 else reason)

/-- The mailbox runs a command that loads a binder or an image, and its transfer has ended. -/
def mbLoads (s : State) (cmd : Nat) : Bool :=
  match s.boot.mb with
  | some op => Nat.beq op.cmd cmd && op.transferred
  | none => false

/-- The binder no longer runs.  DESIGN CHOICE: an ENROL or an ATTEST that it was carrying out ends with
MB_STATE. -/
def dropBinder (s : State) : State :=
  let s := { (s.wr Reg.GLB_BINDER_VER 0) with
    boot := { s.boot with binder := false, binderHostFed := false, binderDigest := 0 } }
  match s.boot.mb with
  | some op => if 3 ≤ op.cmd then s.mbEnd 0x37 else s
  | none => s

/-- A host-fed source is refused with no LOAD command to end, as when the DRAM training of a binder whose
LOAD_BINDER is done fails: the event of the reason alone is posted (R106, R108). -/
def mbRefuse (s : State) (reason : Nat) : State :=
  match s.boot.mb with
  | some op => if op.cmd ≤ 2 then s.mbEnd reason else s.postImp reason
  | none => s.postImp reason

/-- A boot source is refused (R88, R109): slot A gives way to slot B, slot B to host-fed boot; a
refused host-fed command leaves STAGE 6, with the binder as `keepBinder` says. -/
def refuseSource (s : State) (reason : Nat) (keepBinder : Bool) : State :=
  let drop (s : State) : State := if keepBinder then s else s.dropBinder
  let s := { s with boot := { s.boot with header := none } }
  if s.boot.slot = 0 then
    let s := ((drop s).setFld Reg.IMP_BOOT_STATUS_REASON_A reason).setFld
      Reg.IMP_BOOT_STATUS_STAGE 0
    { s with boot := { s.boot with slot := 1 } }.postImp reason
  else if s.boot.slot = 1 then
    let s := ((drop s).setFld Reg.IMP_BOOT_STATUS_REASON_B reason).setFld
      Reg.IMP_BOOT_STATUS_STAGE 6
    { s with boot := { s.boot with slot := 2 } }.postImp reason
  else
    (((drop s).setFld Reg.IMP_BOOT_STATUS_REASON_HF reason).setFld
      Reg.IMP_BOOT_STATUS_STAGE 6).mbRefuse reason

/-- The boot stage (R131). -/
def bootStage (s : State) : Nat := s.fld Reg.IMP_BOOT_STATUS_STAGE

end State

/-- Where slot `slot` of a flash of 2^`density` bytes begins: A at byte 0, B at half the density (R100). -/
def slotBase (slot density : Nat) : Nat := if slot = 0 then 0 else 2 ^ density / 2

/-- R101: why a slot header is refused, 0 where it is not.  DESIGN CHOICE: a header with the MAGIC whose FORMAT,
or the multiple of 4,096 of an offset, is not as R101 states is refused with BINDER_FORMAT, for which R106 names
malformed lengths. -/
def headerReason (h : SlotHeader) : Nat :=
  if h.magic ≠ 0x46534C54 then 0x30
  else if h.format ≠ 1 ∨ h.binderOff % 4096 ≠ 0 ∨ h.imageOff % 4096 ≠ 0 then 0x32
  else 0

/-- The endpaper has read the SFDP table and the header of flash slot `slot` (R100, R101):
`density` is log2 of the flash density, `none` with no valid SFDP table; `hdr` is `none` where the
read failed. -/
def execBootSlotRead (slot : Fin 2) (density : Option Nat) (hdr : Option SlotHeader) (s : State) :
    Out State :=
  .next (if s.mode = 0 ∧ s.bootStage = 0 ∧ s.boot.slot = slot.val then
    match density with
    | none =>
      -- No flash: both slots are refused and host-fed boot is offered (R88, R100).
      if slot.val = 0 then (s.refuseSource 0x31 false).refuseSource 0x31 false
      else s.refuseSource 0x31 false
    | some d =>
      let s := s.setFld Reg.IMP_BOOT_STRAPS_FLASH_LOG2 d
      match hdr with
      | none => s.refuseSource 0x31 false
      | some h =>
        if headerReason h ≠ 0 then s.refuseSource (headerReason h) false
        else
          let s := { s with boot := { s.boot with header := some h, base := slotBase slot d } }
          s.setFld Reg.IMP_BOOT_STATUS_STAGE 1
  else s)

/-- R102, R103: why a binder firmware of which `len` bytes were read is refused, 0 where it is not.  DEDUCED: the
header and the lengths are judged before the key, and the key before the signature. -/
def binderReason (fw : BinderFw) (len : Nat) : Nat :=
  if fw.magic ≠ 0x46424E44 ∨ 2097152 < len ∨ len ≠ 16 + (fw.codeLen + 7) / 8 * 8 + 304 then 0x32
  else if fw.pubkeyDigest ≠ Config.rootDigest then 0x33
  else if fw.sigOk = false then 0x34
  else 0

/-- How many bytes are read of the image (`img`) or the binder of the source being tried: those that the slot
header names (R101), or IMP_MB_LEN of the mailbox command (R107). -/
def State.sourceLen (s : State) (img : Bool) : Nat :=
  if s.boot.slot = 2 then (s.boot.mb.map (·.len)).getD 0
  else (s.boot.header.map fun h => if img then h.imageLen else h.binderLen).getD 0

/-- A binder firmware has been read (R103): `none` is a read of the flash that failed.  It is
verified, and started, or the boot source is refused. -/
def execBinderLoaded (fw : Option BinderFw) (s : State) : Out State :=
  .next (
    let hostFed : Bool := s.mbLoads 1
    if s.mode = 0 ∧ s.bootStage = 1 ∧ (s.boot.slot ≠ 2 ∨ hostFed) then
      match fw with
      | none => s.refuseSource 0x31 false
      | some f =>
        let reason := binderReason f (s.sourceLen false)
        if reason ≠ 0 then s.refuseSource reason false
        else
          let s := (s.wrN Reg.GLB_BINDER_VER f.version).setFld Reg.IMP_BOOT_STATUS_STAGE 2
          let s := { s with boot := { s.boot with binder := true, binderHostFed := hostFed, binderDigest := f.digest } }
          if hostFed then s.mbEnd 0 else s
    else s)

/-- DRAM training and capacity detection end (R104): `bytes` is the capacity, `none` a failure
(DRAM_TRAIN).  A slot's binder goes on to its image; a host-fed binder waits for one. -/
def execDramTrainingDone (bytes : Option Nat) (s : State) : Out State :=
  .next (if s.mode = 0 ∧ s.bootStage = 2 ∧ s.boot.binder then
    match bytes with
    | none => s.refuseSource 0x35 false
    | some n =>
      let s := { s with boot := { s.boot with dramBytes := n } }
      s.setFld Reg.IMP_BOOT_STATUS_STAGE (if s.boot.binderHostFed then 6 else 3)
  else s)

/-- An image is in DRAM and the binder verifies it (R86): refused at the first failure (R87, R88,
R109), or accepted, entering Imposing (R118). -/
def execImageLoaded (img : Option Image) (s : State) : Out State :=
  .next (if s.mode = 0 ∧ s.bootStage = 3 ∧ s.boot.binder ∧ (s.boot.slot ≠ 2 ∨ s.mbLoads 2) then
    match img with
    | none => s.refuseSource 0x31 s.boot.binderHostFed
    | some i =>
      let reason := imageReason i (s.sourceLen true) s.boot.dramBytes (s.rd Reg.GLB_BINDER_VER).toNat s.fuses
      if reason ≠ 0 then s.refuseSource reason s.boot.binderHostFed
      else
        let owner := decide (s.fuses.ownerDigest = some i.pubkeyDigest)
        let s := { s with imp := { s.imp with pending := some i, pendingSource := s.boot.slot + 1, pendingOwner := owner } }
        let s := (s.setFld Reg.IMP_BOOT_STATUS_STAGE 4).transition 1 0x03
        if s.mbLoads 2 then s.mbEnd 0 else s
  else s)

/-! ### The mailbox -/

namespace State

/-- A mailbox command is written (R107, R132): refused with MB_STATE while another runs, with
MB_STATE where it is not allowed, with MB_LENGTH for a bad length; otherwise it starts.  DESIGN CHOICE: of a
command that is both not allowed and of a bad length the reason is MB_STATE; R107 gives no order. -/
def mbStart (s : State) (cmd : Nat) (allowed lengthOk : Bool) (op : MbOp) : State :=
  if s.boot.mb.isSome then s.postImp 0x37
  else
    let t := { s with boot := { s.boot with mb := some op } }
    if allowed = false then t.mbEnd 0x37
    else if lengthOk = false then t.mbEnd 0x36
    else ((t.setFld Reg.IMP_MB_STATUS_STATE 1).setFld Reg.IMP_MB_STATUS_LAST_CMD cmd).setFld
      Reg.IMP_MB_STATUS_REASON 0

/-- The operation that a mailbox command starts, with the committed address and length. -/
def mbOp (s : State) (cmd : Nat) : MbOp :=
  { cmd := cmd, addr := s.rd64 Reg.IMP_MB_ADDR_LO, len := (s.rd Reg.IMP_MB_LEN).toNat }

/-- A host-fed binder runs in Boot and no image has been accepted (R107): it waits at STAGE 6, or still trains
DRAM at STAGE 2. -/
def hostFedReady (s : State) : Bool :=
  Nat.beq s.mode 0 && (Nat.beq s.bootStage 6 || Nat.beq s.bootStage 2) && s.boot.binder && s.boot.binderHostFed

/-- A function-level reset of PF3 ends a mailbox command (R110): what it has read is discarded, and STATE returns
to IDLE.  A source whose buffer was being verified waits for host-fed boot again. -/
def mbReset (s : State) : State :=
  match s.boot.mb with
  | none => s
  | some op =>
    let s := { s with boot := { s.boot with mb := none } }.setFld Reg.IMP_MB_STATUS_STATE 0
    if op.transferred ∧ op.cmd ≤ 2 then s.setFld Reg.IMP_BOOT_STATUS_STAGE 6 else s

end State

/-- Mailbox command 0x01, LOAD_BINDER (R107). -/
def execLoadBinder (s : State) : Out State :=
  .next (s.mbStart 1 (Nat.beq s.mode 0 && Nat.beq s.bootStage 6)
    (Nat.ble (s.mbOp 1).len 2097152) (s.mbOp 1))

/-- Mailbox command 0x02, LOAD_IMAGE (R107). -/
def execLoadImage (s : State) : Out State :=
  .next (s.mbStart 2 s.hostFedReady (Nat.ble (s.mbOp 2).len 67108864) (s.mbOp 2))

/-- Mailbox command 0x03, ENROL (R85, R107): the buffer holds `record`; the binder measures
VPP_FUSE at `vppMv` (R567).  The record is judged when its transfer ends. -/
def execEnrol (record : EnrolRecord) (vppMv : Nat) (s : State) : Out State :=
  .next (s.mbStart 3 s.hostFedReady (Nat.beq (s.mbOp 3).len 336)
    { s.mbOp 3 with enrol := some record, vppMv := vppMv })

/-- Mailbox command 0x04, ATTEST (R107, R114): the buffer's first 32 bytes are `nonce`. -/
def execAttest (nonce : BitVec 256) (s : State) : Out State :=
  .next (s.mbStart 4
    ((Nat.beq s.mode 0 && s.boot.binder) || Nat.beq s.mode 1 || Nat.beq s.mode 2 ||
      Nat.beq s.mode 3 || Nat.beq s.mode 4)
    (Nat.ble 544 (s.mbOp 4).len) { s.mbOp 4 with nonce := nonce })

namespace State

/-- FUSE_FLAGS of R114. -/
def fuseFlags (s : State) : Nat :=
  s.fuses.ownerDigest.isSome.toNat + 2 * s.fuses.exclusive.toNat

/-- The image whose identity attestation reports: none in Boot (R114). -/
def attestImage (s : State) : Option Image := if s.mode = 0 then none else s.imp.image.or s.imp.pending

/-- The 544-byte attestation report (R114, R115); the signature is a free value. -/
def attestReport (s : State) (nonce : BitVec 256) : List Byte :=
  let img := s.attestImage
  let num (f : Image → Nat) : Nat := (img.map f).getD 0
  leBytes 4 0x46415454 ++ leBytes 2 1 ++ leBytes 2 544 ++ leBytes 1 Config.stepping ++
  leBytes 1 s.mode ++ leBytes 1 (s.fld Reg.GLB_MODE_DEGRADED) ++ leBytes 1 0 ++
  leBytes 4 s.fuseFlags ++ leBytes 32 nonce.toNat ++ leBytes 8 s.tb.uptime ++
  leBytes 4 Config.endpaperVer ++ leBytes 4 (s.rd Reg.GLB_BINDER_VER).toNat ++
  leBytes 8 (num fun i => i.serial.toNat) ++ leBytes 4 (num (·.bundleSet)) ++
  leBytes 4 (num (·.tipinSet)) ++ leBytes 64 s.boot.binderDigest.toNat ++
  leBytes 64 (num fun i => i.digest.toNat) ++ leBytes 64 (s.fuses.ownerDigest.getD 0) ++
  leBytes 133 Config.identityKey ++ leBytes 3 0 ++
  beBytes 66 (Config.freeNat (2 * s.free)) ++ beBytes 66 (Config.freeNat (2 * s.free + 1)) ++
  leBytes 4 0

/-- The 48-byte attestation short form (R116). -/
def attestShort (s : State) : List Byte :=
  let img := s.attestImage
  leBytes 16 ((img.map fun i => i.digest.toNat).getD 0) ++ leBytes 16 s.boot.binderDigest.toNat ++
  leBytes 8 ((img.map fun i => i.serial.toNat).getD 0) ++ leBytes 1 Config.stepping ++
  leBytes 1 s.mode ++ leBytes 2 s.fuseFlags ++ leBytes 4 s.boot.attested

/-- R85, R567: an enrolment record is judged, and the fuses are burnt where every condition holds.
The reason code of a refused record is a value the spec does not state. -/
def enrolEnd (s : State) (r : EnrolRecord) (vppMv : Nat) : State :=
  if vppMv < 1746 ∨ 1854 < vppMv then s.mbEnd 0x37
  else if r.deviceId = Config.identityId ∧ r.sealOk ∧ s.fuses.ownerDigest = none then
    { s with fuses := { ownerDigest := some r.ownerDigest, exclusive := r.exclusive } }.showFuses.mbEnd 0
  else
    let reason := s.freeVal.toNat % 255 + 1
    s.draw.mbEnd reason

end State

/-- The transfer of the mailbox buffer ends (R106, R108): `ok` is false for a failed transfer or
poisoned data, which ends the command with MB_BUS_ERROR and changes nothing else.  A good transfer
hands LOAD_BINDER's and LOAD_IMAGE's buffer to verification and completes ENROL and ATTEST. -/
def execMbTransferDone (ok : Bool) (s : State) : Out State :=
  .next (match s.boot.mb with
    | none => s
    | some op =>
      if op.transferred then s
      else if ok = false then
        let s := if op.cmd ≤ 2 then s.setFld Reg.IMP_BOOT_STATUS_REASON_HF 0x38 else s
        s.mbEnd 0x38
      else if op.cmd = 1 then
        let s := { s with boot := { s.boot with mb := some { op with transferred := true } } }
        s.setFld Reg.IMP_BOOT_STATUS_STAGE 1
      else if op.cmd = 2 then
        -- The image goes to DRAM, which is trained first (R104).
        if s.bootStage ≠ 6 then s else
        let s := { s with boot := { s.boot with mb := some { op with transferred := true } } }
        s.setFld Reg.IMP_BOOT_STATUS_STAGE 3
      else if op.cmd = 3 then
        match op.enrol with
        | some r => s.enrolEnd r op.vppMv
        | none => s.mbEnd 0x37
      else
        let s' := s.draw.emit (.hostWrite op.addr (s.attestReport op.nonce))
        { s' with boot := { s'.boot with attested := s'.boot.attested + 1 } }.mbEnd 0)

end Sys2Proof.Machine
end

