-- ==== Sys2Proof/Machine/FlowCtx.lean ====
section
/-! DEFINITION. The flow context as R256 to R258 lay it out: fields of the base context, the
counters of the statistics line, the history bits and the histogram, and the per-flow functions
that work on them alone (R257, R261, R263, R268 to R276). -/

namespace Sys2Proof.Machine

/-- A field of the base context: its lowest bit, counted from the first byte, and its width. -/
structure CtxField where
  lo : Nat
  width : Nat
  deriving DecidableEq, Repr

/-! ### Fields of the base context (R256) -/

def Ctx.fingerprint : CtxField := ⟨0, 64⟩
def Ctx.valid : CtxField := ⟨64, 1⟩
def Ctx.part : CtxField := ⟨65, 6⟩
def Ctx.polEn : CtxField := ⟨71, 1⟩
def Ctx.histEn : CtxField := ⟨72, 1⟩
def Ctx.gen : CtxField := ⟨73, 1⟩
def Ctx.rcv : CtxField := ⟨74, 1⟩
def Ctx.rtagAdd : CtxField := ⟨75, 1⟩
def Ctx.rtagStrip : CtxField := ⟨76, 1⟩
def Ctx.recEn : CtxField := ⟨77, 1⟩
def Ctx.extLayout : CtxField := ⟨78, 1⟩
def Ctx.classValid : CtxField := ⟨79, 1⟩
def Ctx.dest : CtxField := ⟨80, 2⟩
def Ctx.egPort : CtxField := ⟨82, 4⟩
def Ctx.egClass : CtxField := ⟨86, 3⟩
def Ctx.split : CtxField := ⟨89, 3⟩
def Ctx.rxq : CtxField := ⟨96, 20⟩
def Ctx.recStream : CtxField := ⟨116, 12⟩
def Ctx.polProf : CtxField := ⟨128, 12⟩
def Ctx.cLevel : CtxField := ⟨140, 24⟩
def Ctx.pLevel : CtxField := ⟨164, 24⟩
def Ctx.polTime : CtxField := ⟨192, 32⟩
def Ctx.passUs : CtxField := ⟨224, 32⟩
def Ctx.genSeq : CtxField := ⟨256, 16⟩
def Ctx.rcvSeq : CtxField := ⟨272, 16⟩
def Ctx.takeAny : CtxField := ⟨288, 1⟩
def Ctx.latent : CtxField := ⟨289, 1⟩
def Ctx.frerProf : CtxField := ⟨290, 8⟩
def Ctx.leTests : CtxField := ⟨298, 8⟩
def Ctx.folio : CtxField := ⟨306, 5⟩
def Ctx.opcode : CtxField := ⟨311, 8⟩
def Ctx.hist0 : CtxField := ⟨320, 64⟩
def Ctx.leAcc : CtxField := ⟨384, 32⟩
def Ctx.leTestUs : CtxField := ⟨416, 32⟩
def Ctx.dFrames : CtxField := ⟨448, 14⟩
def Ctx.dPassed : CtxField := ⟨462, 14⟩
def Ctx.dDiscarded : CtxField := ⟨476, 14⟩
def Ctx.dBytes : CtxField := ⟨490, 22⟩

/-! ### Counters of the statistics line, in word order (R257) -/

def Stat.frames : Nat := 0
def Stat.bytes : Nat := 1
def Stat.polYellow : Nat := 3
def Stat.polRed : Nat := 4
def Stat.dropped : Nat := 5
def Stat.passed : Nat := 6
def Stat.discarded : Nat := 7
def Stat.outOfOrder : Nat := 8
def Stat.rogue : Nat := 9
def Stat.lost : Nat := 10
def Stat.tagless : Nat := 11
def Stat.resets : Nat := 12
def Stat.latentErrors : Nat := 13
def Stat.latentResets : Nat := 14
def Stat.genRestarts : Nat := 15

namespace Flow

/-- The value of a context field, and setting one. -/
def get (f : Flow) (c : CtxField) : Nat := bits f.ctx c.lo c.width

def set (f : Flow) (c : CtxField) (v : Nat) : Flow := { f with ctx := putBits f.ctx c.lo c.width v }

def has (f : Flow) (c : CtxField) : Bool := f.ctx.testBit c.lo

/-- The value of counter `w` of the statistics line, and adding to it modulo 2^32. -/
def stat (f : Flow) (w : Nat) : Nat := bits f.stats (32 * w) 32

def addStat (f : Flow) (w n : Nat) : Flow :=
  { f with stats := putBits f.stats (32 * w) 32 (f.stat w + n) }

/-- Add to the 64-bit byte count BYTES_LO, BYTES_HI. -/
def addBytes (f : Flow) (n : Nat) : Flow :=
  { f with stats := putBits f.stats 32 64 (bits f.stats 32 64 + n) }

/-- R257: fold every delta into its counter. -/
def fold (f : Flow) : Flow :=
  let g := ((f.addStat Stat.frames (f.get Ctx.dFrames)).addStat Stat.passed (f.get Ctx.dPassed))
  let g := (g.addStat Stat.discarded (f.get Ctx.dDiscarded)).addBytes (f.get Ctx.dBytes)
  (((g.set Ctx.dFrames 0).set Ctx.dPassed 0).set Ctx.dDiscarded 0).set Ctx.dBytes 0

/-- Add to a delta field, folding first when the add would overflow it (R257). -/
def addDelta (f : Flow) (d : CtxField) (n : Nat) : Flow :=
  let f := if f.get d + n < 2 ^ d.width then f else f.fold
  f.set d (f.get d + n)

/-- Count one frame of `len` bytes that matched the flow. -/
def countFrame (f : Flow) (len : Nat) : Flow :=
  (f.addDelta Ctx.dFrames 1).addDelta Ctx.dBytes len

/-! ### History (R258, R273) -/

/-- History bit `i` (R258): bit 0 to 63 in HIST0, later bits in the extension. -/
def histBit (f : Flow) (i : Nat) : Bool :=
  if i < 64 then f.ctx.testBit (Ctx.hist0.lo + i)
  else if f.has Ctx.extLayout then f.ext.testBit (i - 64)
  else f.ext.testBit (512 + (i - 64))

/-- The history as one number. -/
def history (f : Flow) : Nat :=
  f.get Ctx.hist0 +
    (if f.has Ctx.extLayout then bits f.ext 0 1024 else bits f.ext 512 512) * 2 ^ 64

/-- Set the whole history. -/
def setHistory (f : Flow) (h : Nat) : Flow :=
  let g := f.set Ctx.hist0 h
  if f.has Ctx.extLayout then { g with ext := putBits g.ext 0 1024 (h / 2 ^ 64) }
  else { g with ext := putBits g.ext 512 512 (h / 2 ^ 64) }

/-- The extension after a change of EXT_LAYOUT (R258), of a flow whose context still has the old one: history bits
keep their place among the bits of the history, those from `hlen` up are zero, and a histogram starts empty.  The
spec does not say what becomes of the extension: DESIGN CHOICE. -/
def relayExt (f : Flow) (hlen : Nat) : Nat :=
  let h := f.history % 2 ^ hlen / 2 ^ 64
  if f.has Ctx.extLayout then h % 2 ^ 512 * 2 ^ 512 else h % 2 ^ 1024

/-- R271: a recovery reset. -/
def recoveryReset (f : Flow) : Flow := ((f.set Ctx.takeAny 1).setHistory 0).addStat Stat.resets 1

/-- Count a frame recovery passes, at `us` (R273, R275). -/
def pass (f : Flow) (us : Nat) : Flow := (f.set Ctx.passUs us).addDelta Ctx.dPassed 1

/-- R273, the vector algorithm: the flow after the frame, and whether the frame passes. -/
def vectorRecover (f : Flow) (hlen seq us : Nat) : Flow × Bool :=
  if f.has Ctx.takeAny then
    ((((f.set Ctx.rcvSeq seq).setHistory (2 ^ hlen - 1)).set Ctx.takeAny 0).pass us, true)
  else
    let d := signed 16 (seq + 2 ^ 16 - f.get Ctx.rcvSeq)
    if (hlen : Int) ≤ d ∨ d ≤ -(hlen : Int) then (f.addStat Stat.rogue 1, false)
    else if d ≤ 0 then
      if f.history.testBit d.natAbs then (f.addDelta Ctx.dDiscarded 1, false)
      else (((f.setHistory (setBit f.history d.natAbs true)).addStat Stat.outOfOrder 1).pass us, true)
    else
      let n := d.natAbs
      let kept := f.history % 2 ^ hlen
      let lost := n - popCount n (kept / 2 ^ (hlen - n))
      let g := (f.addStat Stat.lost lost).setHistory (kept * 2 ^ n % 2 ^ hlen + 1)
      let g := g.set Ctx.rcvSeq seq
      ((if n = 1 then g else g.addStat Stat.outOfOrder 1).pass us, true)

/-- R275, the match algorithm. -/
def matchRecover (f : Flow) (seq us : Nat) : Flow × Bool :=
  if f.has Ctx.takeAny then (((f.set Ctx.rcvSeq seq).set Ctx.takeAny 0).pass us, true)
  else if seq = f.get Ctx.rcvSeq then (f.addDelta Ctx.dDiscarded 1, false)
  else
    let g := if (seq + 2 ^ 16 - f.get Ctx.rcvSeq) % 2 ^ 16 = 1 then f else f.addStat Stat.outOfOrder 1
    ((g.set Ctx.rcvSeq seq).pass us, true)

/-! ### Latency histogram (R263) -/

/-- The bin of a latency in ns, for base `t`. -/
def histBin (t ns : Nat) : Nat :=
  if ns < t then 0 else ((List.range 14).find? fun k => Nat.blt ns (t * 2 ^ (k + 1))).elim 15 (· + 1)

/-- Count a latency: the bins exist under layout 0 and saturate. -/
def recordLatency (f : Flow) (t ns : Nat) : Flow :=
  if f.has Ctx.histEn && !f.has Ctx.extLayout then
    let b := histBin t ns
    let v := bits f.ext (32 * b) 32
    if v = 2 ^ 32 - 1 then f else { f with ext := putBits f.ext (32 * b) 32 (v + 1) }
  else f

end Flow

/-! ### Profiles (R267, R283) -/

namespace State

/-- A field of FRER profile `k`: word `j`, lowest bit, width. -/
def frer (s : State) (k j lo width : Nat) : Nat :=
  bits (s.rd (0x201000 + 16 * k + 4 * j)).toNat lo width

def frerHlen (s : State) (k : Nat) : Nat := s.frer k 0 0 11
def frerMatch (s : State) (k : Nat) : Bool := Nat.beq (s.frer k 0 11 1) 1
def frerIndividual (s : State) (k : Nat) : Bool := Nat.beq (s.frer k 0 12 1) 1
def frerTakeNoSeq (s : State) (k : Nat) : Bool := Nat.beq (s.frer k 0 13 1) 1
def frerLatentEn (s : State) (k : Nat) : Bool := Nat.beq (s.frer k 0 14 1) 1
def frerResetMs (s : State) (k : Nat) : Nat := s.frer k 0 16 16
def frerLeDiff (s : State) (k : Nat) : Nat := s.frer k 1 0 16
def frerPaths (s : State) (k : Nat) : Nat := s.frer k 1 16 3
def frerLePeriodMs (s : State) (k : Nat) : Nat := s.frer k 2 0 16
def frerLeResetTests (s : State) (k : Nat) : Nat := s.frer k 2 16 8

/-- A field of policer profile `k`. -/
def pol (s : State) (k j lo width : Nat) : Nat :=
  bits (s.rd (0x204000 + 16 * k + 4 * j)).toNat lo width

/-- Flow `i`, and setting it. -/
def flow (s : State) (i : Nat) : Flow := Table.get (fun _ => {}) s.flows.table i

def setFlow (s : State) (i : Nat) (f : Flow) : State :=
  { s with flows := { s.flows with table := Table.set (fun _ => {}) s.flows.table i f } }

/-- Add to a counter of flow `i`. -/
def flowStat (s : State) (i w n : Nat) : State := s.setFlow i ((s.flow i).addStat w n)

/-- A copy of a frame of flow `i` is not delivered (R257). -/
def flowDropped (s : State) (i : Option Nat) : State :=
  match i with
  | some i => s.flowStat i Stat.dropped 1
  | none => s

/-- A copy of a frame of flow `i`, received at uptime `rxUp`, is delivered at uptime `up` (R263). -/
def flowLatency (s : State) (i rxUp up : Nat) : State :=
  s.setFlow i ((s.flow i).recordLatency (s.fld Reg.FLOW_HIST_BASE_BASE_NS)
    ((up + 2 ^ 64 - rxUp) % 2 ^ 64))

end State

end Sys2Proof.Machine
end

