-- ==== Sys2Proof/Machine/Queue.lean ====
section
/-! DEFINITION. Queues as shared operations: functions and their copies of registers, interrupts,
positions, completions and their retirement, events and their routing (R379 to R417, R451, R458 to
R461). -/

namespace Sys2Proof.Machine

/-- The copy of a per-function register field that function `fn` reaches (R544). -/
def Field.of (f : Field) (fn : Nat) : Field := ⟨f.reg + fn * 0x4000000, f.lo, f.width⟩

/-! ### Positions (R382, R383) -/

/-- How far position `a` is ahead of `b` in a ring of `n` entries. -/
def ahead (a b n : Nat) : Nat := (a + 2 * n - b % (2 * n)) % (2 * n)

/-- The ownership mark of an entry at position `p` (R383). -/
def ownFor (p n : Nat) : Nat := 1 - p / n

namespace Queue

/-- Entries in the ring (R381). -/
def n (q : Queue) : Nat := 2 ^ q.log2

def isWork (q : Queue) : Bool := Nat.beq q.kind 1 || Nat.beq q.kind 2 || Nat.beq q.kind 5

/-- The position after `p`, `k` further. -/
def step (q : Queue) (p k : Nat) : Nat := (p + k) % (2 * q.n)

def occupancy (q : Queue) : Nat := ahead q.pi q.ci q.n

/-- Position `p` is below PI (R389): it lies among the entries not retired. -/
def below (q : Queue) (p : Nat) : Bool := Nat.blt (ahead p q.ci q.n) q.occupancy

/-- Bytes of one entry (R379). -/
def entryBytes (q : Queue) : Nat := if q.kind = 4 then 16 else 32

/-- The address of the entry at position `p`. -/
def entryAddr (q : Queue) (p : Nat) : Nat := q.ringAddr + p % q.n * q.entryBytes

/-- HELD (R416): what waits on chip for this ring. -/
def held (q : Queue) : Nat := if q.kind = 4 then q.events.length else q.waiting.length

end Queue

/-- The size in bytes of the ring of a queue of kind `k` with 2^`log2` entries. -/
def ringBytes (k log2 : Nat) : Nat := 2 ^ log2 * (if k = 4 then 16 else 32)

namespace Entry

/-- The TAG of an entry (R393, R398). -/
def tag (e : Entry) : Nat := bits e.q3 0 32

/-- Its ownership mark. -/
def own (e : Entry) : Nat := bits e.q3 63 1

/-- CKIND and ROLE of a command entry (R398). -/
def ckind (e : Entry) : Nat := bits e.q1 16 8

def role (e : Entry) : Nat := bits e.q1 32 16

end Entry

namespace State

/-! ### Functions (R380, R447, R451) -/

/-- The function a STRUCTURE FUNC code names: 0 to 3 the PFs, 0x10 + n virtual function n. -/
def funcOfCode (c : Nat) : Nat := if c < 0x10 then c else c - 0x10 + 4

def codeOfFunc (fn : Nat) : Nat := if fn < 4 then fn else fn - 4 + 0x10

/-- The STRUCTURE queue range that contains a queue ID (R380). -/
def qrangeOf (s : State) (qid : Nat) : Option QRange :=
  (s.imp.image.map (·.struct.qranges)).getD [] |>.find? fun r =>
    Nat.ble r.base qid && Nat.blt qid (r.base + r.count)

/-- The function a queue ID belongs to. -/
def ownerOf (s : State) (qid : Nat) : Option Nat := (s.qrangeOf qid).map fun r => funcOfCode r.func

/-- The quire that serves a queue ID. -/
def homeQuire (s : State) (qid : Nat) : Nat := ((s.qrangeOf qid).map (·.homeQuire)).getD 0

/-- The enabled functions: the PFs, and the virtual functions that VF Enable enables. -/
def enabledFuncs (s : State) : List Nat := List.range (4 + s.host.numVfs)

/-- Function `fn` may issue requests (R451), outside Quiet, Dormant and Held (R117, R415). -/
def canRequest (s : State) (fn : Nat) : Bool :=
  s.flag (Reg.PCIE_FUNC_BME.of fn) && Nat.beq (s.fld (Reg.PCIE_FUNC_DSTATE.of fn)) 0 &&
    Nat.blt s.mode 5

/-! ### Device DRAM -/

def dramByte (s : State) (a : Nat) : Byte := Table.get (fun _ => 0) s.dram a

/-- Store bytes in DRAM, with their poison mark (R454). -/
def dramWrite (s : State) (a : Nat) (bytes : List Byte) (poisoned : Bool) : State :=
  match bytes with
  | [] => s
  | b :: rest =>
    State.dramWrite { s with dram := Table.set (fun _ => 0) s.dram a b
                             poison := Table.set (fun _ => false) s.poison a poisoned }
      (a + 1) rest poisoned

/-- The `n` bytes of DRAM from `a`, and whether any is poisoned. -/
def dramRead (s : State) (a n : Nat) : List Byte × Bool :=
  let l := (List.range n).map (a + ·)
  (l.map s.dramByte, l.any fun k => Table.get (fun _ => false) s.poison k)

/-! ### Interrupts (R458 to R461) -/

def vectorCount (fn : Nat) : Nat := if fn = 0 then 2048 else if fn < 4 then 256 else 64

def vec (s : State) (fn v : Nat) : Vector := Table.get (fun _ => {}) s.host.vectors (fn * 2048 + v)

def setVec (s : State) (fn v : Nat) (x : Vector) : State :=
  { s with host := { s.host with
      vectors := Table.set (fun _ => {}) s.host.vectors (fn * 2048 + v) x } }

/-- The message of vector `v` of function `fn` in the mode in force (R458): MSI-X, MSI, or a bit of
PCIE_INTX_PEND. -/
def deliver (s : State) (fn v : Nat) : State :=
  if s.fld (Reg.PCIE_FUNC_IRQ_MODE.of fn) = 3 then s.emit (.message fn v)
  else if s.fld (Reg.PCIE_FUNC_IRQ_MODE.of fn) = 2 then
    s.emit (.message fn (v % max 1 (Table.get (fun _ => 1) s.host.msiMessages fn)))
  else
    let k := Reg.PCIE_INTX_PEND + fn * 0x4000000
    s.wrN k (setBit (s.rd k).toNat (v % 32) true)

/-- A vector's mask, in the mode in force (R461). -/
def vecMasked (s : State) (fn v : Nat) : Bool :=
  if s.fld (Reg.PCIE_FUNC_IRQ_MODE.of fn) = 3 then
    !(s.vec fn v).unmasked || s.host.fnMask.getLsbD fn
  else if s.fld (Reg.PCIE_FUNC_IRQ_MODE.of fn) = 2 then (s.vec fn v).msiMasked
  else false

/-- A message falls due (R460, R461): the count and timer restart; masked, it stays pending. -/
def sendVector (s : State) (fn v : Nat) : State :=
  let x := s.vec fn v
  if s.vecMasked fn v then s.setVec fn v { x with requests := 0, first := 0, pendingBit := true }
  else (s.setVec fn v { x with requests := 0, first := 0, pendingBit := false }).deliver fn v

/-- An interrupt request reaches vector `v` (R460). -/
def requestVector (s : State) (fn v : Nat) (immediate : Bool) : State :=
  let x := s.vec fn v
  let count := max 1 (s.fld ((Reg.PCIE_VEC_COUNT v).of fn))
  let timeUs := s.fld ((Reg.PCIE_VEC_TIME_US v).of fn)
  let s := s.setVec fn v { x with
    requests := x.requests + 1, first := if x.requests = 0 then s.tb.uptime else x.first }
  if immediate || Nat.beq timeUs 0 || Nat.ble count (x.requests + 1) then s.sendVector fn v else s

/-- The vector of an interrupt request of queue `qid` (R459): the lowest valid PCIE_IMAP entry that
names it, else vector 0. -/
def vectorFor (s : State) (fn qid : Nat) : Nat :=
  let base := Reg.PCIE_IMAP_LO 0 + fn * 0x4000000
  match s.regs.find? fun p => Nat.ble base p.1 && Nat.blt p.1 (base + 0x8000) &&
      Nat.beq ((p.1 - base) % 8) 0 && p.2.getLsbD 31 && Nat.beq (bits p.2.toNat 0 20) qid with
  | some p => bits (s.rd (p.1 + 4)).toNat 0 11
  | none => 0

/-- Queue `qid` requests its interrupt (R388). -/
def requestIrq (s : State) (fn qid : Nat) (immediate : Bool) : State :=
  s.requestVector fn (s.vectorFor fn qid) immediate

/-! ### Queues -/

def q (s : State) (qid : Nat) : Queue := Table.get (fun _ => {}) s.queues qid

def setQ (s : State) (qid : Nat) (x : Queue) : State :=
  { s with queues := Table.set (fun _ => {}) s.queues qid x }

/-- Set the state of every queue linked to CQ `cq` that is in state `a` to `b` (R408). -/
def pauseLinked (s : State) (cq a b : Nat) : State :=
  { s with queues := Table.mapVals (fun _ => {}) (fun x =>
      if x.isWork && Nat.beq x.link cq && Nat.beq x.state a then { x with state := b } else x) s.queues }

/-- The ring of queue `x` takes an entry now: ENABLED, not full, and its memory reachable (R404,
R408, R415). -/
def ringOpen (s : State) (x : Queue) : Bool :=
  Nat.beq x.state 2 && Nat.blt x.occupancy x.n && (x.loc || s.canRequest x.func)

/-- Write an entry at a ring's PI: its bytes with OWN, PI advanced, and the interrupt of an armed
queue (R383, R388). -/
def ringWrite (s : State) (qid : Nat) (image : Nat) : State :=
  let x := s.q qid
  let width := x.entryBytes
  let bytes := leBytes width (putBits image (8 * width - 1) 1 (ownFor x.pi x.n))
  let s := if x.loc then s.dramWrite (x.entryAddr x.pi) bytes false
    else s.emit (.hostWrite (x.entryAddr x.pi) bytes)
  let s := s.setQ qid { x with pi := x.step x.pi 1, armed := false }
  if x.armed then s.requestIrq x.func qid false else s

/-! ### Events (R403 to R405) -/

/-- Write the events that wait for EQ `eq` while its ring takes them; `k` bounds the number. -/
def drainEvents (s : State) (eq : Nat) : Nat → State
  | 0 => s
  | k + 1 =>
    let x := s.q eq
    match x.events with
    | [] => s
    | (code, data, seq) :: rest =>
      if s.ringOpen x then
        ((s.setQ eq { x with events := rest }).ringWrite eq
          (data % 2 ^ 64 + code % 2 ^ 16 * 2 ^ 64 + seq % 2 ^ 16 * 2 ^ 80)).drainEvents eq k
      else s

/-- An event for EQ `eq` (R404, R405): written, waiting among sixteen, or dropped; SEQ advances. -/
def eventTo (s : State) (eq code data : Nat) : State :=
  let x := s.q eq
  if x.state = 2 ∧ x.kind = 4 then
    let y := { x with seq := (x.seq + 1) % 65536 }
    if x.events = [] ∧ s.ringOpen x then
      (s.setQ eq y).ringWrite eq (data % 2 ^ 64 + code % 2 ^ 16 * 2 ^ 64 + x.seq % 2 ^ 16 * 2 ^ 80)
    else if x.events.length < 16 then s.setQ eq { y with events := x.events ++ [(code, data, x.seq)] }
    else (s.setQ eq y).count Cnt.QM_EQ_DROPPED
  else s.count Cnt.QM_EVT_UNROUTED

/-- The EQ an event goes to (R404): queue events follow their queue, every other event the route of
its block. -/
def eventRoute (s : State) (e : Event) : Option Nat :=
  if 0x1901 ≤ e.code ∧ e.code ≤ 0x1904 then
    let x := s.q (e.data % 2 ^ 20)
    let cq := if x.kind = 3 then x else s.q x.link
    if cq.kind = 3 ∧ cq.linkEn then some cq.link else none
  else
    let b := e.code / 256
    if s.flag (Reg.QM_EVT_ROUTE_EN b) then some (s.fld (Reg.QM_EVT_ROUTE_EQ b)) else none

/-! ### Completions (R391, R399 to R402, R408) -/

end State

/-- The 256 bits of a completion, OWN left 0 (R399). -/
def Cpl.image (c : Cpl) : Nat :=
  let q0 := c.status % 256 + c.kind % 16 * 2 ^ 8 + c.ts % 4 * 2 ^ 12 + c.stampValid.toNat * 2 ^ 14 +
    c.detail % 256 * 2 ^ 16 + c.x8 % 256 * 2 ^ 24 + c.qid % 2 ^ 20 * 2 ^ 32 + c.x12 % 2 ^ 12 * 2 ^ 52
  let stamp := if c.stampValid then c.stamp.image else 0
  q0 + c.body % 2 ^ 64 * 2 ^ 64 + stamp % 2 ^ 96 * 2 ^ 128 + c.x24 % 2 ^ 24 * 2 ^ 224

namespace State

/-- Retire `k` entries of work queue `qid` (R384, R391). -/
def retire (s : State) (qid k : Nat) : State :=
  let x := s.q qid
  s.setQ qid { x with
    ci := x.step x.ci k, done := (x.done + k) % 2 ^ 32, entries := x.entries.drop k }

/-- Write one completion to CQ `cq`: it retires its entries and records its latency (R263). -/
def writeCpl (s : State) (cq : Nat) (c : Cpl) : State :=
  let s := s.ringWrite cq c.image
  let s := if c.retires = 0 then s else s.retire c.qid c.retires
  match c.hist with
  | some (flow, rxUp) => s.flowLatency flow rxUp s.tb.uptime
  | none => s

/-- The CQ's overflow ends when nothing waits (R408). -/
def resume (s : State) (cq : Nat) : State :=
  let x := s.q cq
  if x.overflow && x.waiting.isEmpty then
    ((s.setQ cq { x with overflow := false }).pauseLinked cq 3 2).post 0x1903 (cq % 2 ^ 20)
  else s

/-- Write what waits at CQ `cq` while its ring takes it, oldest first; `k` bounds the number. -/
def drainCq (s : State) (cq : Nat) : Nat → State
  | 0 => s.resume cq
  | k + 1 =>
    let x := s.q cq
    match x.waiting with
    | [] => s.resume cq
    | c :: rest =>
      if s.ringOpen x then ((s.setQ cq { x with waiting := rest }).writeCpl cq c).drainCq cq k else s

/-- One completion of CQ `cq` moves: the oldest waiting or ready one is written, or, where the ring
takes nothing, joins the eight that wait; the eighth pauses the linked queues (R408). -/
def moveCpl (s : State) (cq : Nat) : State :=
  let x := s.q cq
  if s.ringOpen x then
    match x.waiting, x.ready with
    | c :: rest, _ => ((s.setQ cq { x with waiting := rest }).writeCpl cq c).resume cq
    | [], c :: rest => (s.setQ cq { x with ready := rest }).writeCpl cq c
    | [], [] => s.resume cq
  else if x.waiting.length < 8 then
    match x.ready with
    | [] => s
    | c :: rest =>
      let s := s.setQ cq { x with ready := rest, waiting := x.waiting ++ [c] }
      if x.waiting.length + 1 = 8 then
        let s := (s.setQ cq { s.q cq with overflow := true }).pauseLinked cq 2 3
        (s.count Cnt.QM_CQ_OVERFLOW).post 0x1902 (cq % 2 ^ 20)
      else s
  else s

/-- The results at the head of a list of entries, in order, and the list with them handed over. -/
def offerHead : List Entry → List Cpl × List Entry
  | [] => ([], [])
  | e :: rest =>
    if e.offered then let (c, r) := offerHead rest; (c, e :: r)
    else match e.result with
      | some c => let (cs, r) := offerHead rest; (c :: cs, { e with offered := true } :: r)
      | none => ([], e :: rest)

/-- Hand the completions of work queue `qid` that are ready and in order to its CQ (R391). -/
def offer (s : State) (qid : Nat) : State :=
  let x := s.q qid
  let (cs, es) := offerHead x.entries
  let s := s.setQ qid { x with entries := es }
  let cq := s.q x.link
  s.setQ x.link { cq with ready := cq.ready ++ cs }

/-- Count a completion status where a QM counter names it (R416). -/
def countStatus (s : State) (status : Nat) : State :=
  if status = 0x03 then s.count Cnt.QM_ABORTED
  else if status = 0x06 then s.count Cnt.QM_LOOP_SUSPECT
  else if status = 0x07 then s.count Cnt.QM_FETCH_ERROR
  else if status = 0x08 then s.count Cnt.QM_LEN_ERROR
  else s

/-- The completion KIND of a work queue (R399). -/
def cplKind (kind : Nat) : Nat := if kind = 1 then 0 else if kind = 2 then 1 else 2

/-- The completion of entry `e` of queue `qid` with a status and DETAIL (R399, R400). -/
def entryCpl (s : State) (qid : Nat) (e : Entry) (status detail : Nat) : Cpl :=
  let x := s.q qid
  let index := e.pos % x.n
  { qid := qid, status := status, kind := cplKind x.kind, detail := detail, retires := 1
    body := if x.kind = 2 then index + 1 * 2 ^ 16 else index + e.tag * 2 ^ 32 }

/-- Change the entry of queue `qid` at position `pos`. -/
def mapEntry (s : State) (qid pos : Nat) (f : Entry → Entry) : State :=
  let x := s.q qid
  s.setQ qid { x with entries := x.entries.map fun e => if e.pos = pos then f e else e }

/-- The entry of queue `qid` taken at position `pos`. -/
def entryAt (s : State) (qid pos : Nat) : Option Entry := (s.q qid).entries.find? fun e => e.pos == pos

/-- Entry `pos` of queue `qid` has its outcome (R391). -/
def complete (s : State) (qid pos status detail : Nat) : State :=
  match s.entryAt qid pos with
  | none => s
  | some e => if e.phase = .done then s else
    let c := s.entryCpl qid e status detail
    let c := match e.stamp with
      | some (t, ts) => { c with stampValid := true, stamp := t, ts := ts }
      | none => c
    ((s.mapEntry qid pos fun e => { e with phase := .done, result := some c }).countStatus
      status).offer qid

/-- A queue halts on an entry's error (R413). -/
def halt (s : State) (qid pos status detail : Nat) : State :=
  let s := s.complete qid pos status detail
  let x := s.q qid
  if x.state = 2 ∨ x.state = 3 then
    let s := s.setQ qid { x with state := 4, haltStatus := status, haltIndex := pos % x.n }
    s.post 0x1901 (qid % 2 ^ 20 + status * 2 ^ 24 + pos % x.n * 2 ^ 32)
  else s

/-! ### Cells and copies of frames (R61 to R63, R235) -/

def frame (s : State) (h : Nat) : Frame := Table.get (fun _ => {}) s.frames h

def setFrame (s : State) (h : Nat) (f : Frame) : State :=
  { s with frames := Table.set (fun _ => {}) s.frames h f }

/-- Cells of 256 bytes that `len` bytes take. -/
def cellsFor (len : Nat) : Nat := (len + 255) / 256

/-- Allocate the cells of a new frame with no copies yet: its handle is `s.nextFrame`. -/
def allocFrame (s : State) (len : Nat) (port : Option Nat) (prio : Nat) : State :=
  let k := cellsFor len
  let s := s.setFrame s.nextFrame { cells := k, port := port, prio := prio }
  { s with nextFrame := s.nextFrame + 1
           cells := { s.cells with free := s.cells.free - k, allocated := s.cells.allocated + k } }

/-- Add to the copies that hold a frame. -/
def holdCopy (s : State) (h n : Nat) : State :=
  let f := s.frame h
  s.setFrame h { f with copies := f.copies + n }

/-- One copy of a frame is done with its cells: their release is on its way to the hub (R63). -/
def dropCopy (s : State) (h : Nat) : State :=
  let f := s.frame h
  s.setFrame h { f with copies := f.copies - 1 }

/-! ### PME (R120, R463) -/

/-- Something is owed to a host queue of function `fn` (R120, R463). -/
def owed (s : State) (fn : Nat) : Bool :=
  s.queues.any fun p => Nat.beq p.2.func fn && !p.2.loc &&
    (!p.2.ready.isEmpty || !p.2.waiting.isEmpty || !p.2.events.isEmpty || !p.2.rxWait.isEmpty)

/-- R463: a function in D3hot with PME enabled, to whose queues something is owed, signals PME. -/
def signalPme (s : State) (fn : Nat) : State :=
  if s.host.pmeEn.getLsbD fn && !s.host.pmeStatus.getLsbD fn && s.flag Reg.PCIE_LINK_UP &&
      Nat.beq (s.fld (Reg.PCIE_FUNC_DSTATE.of fn)) 3 && s.owed fn then
    { s with host := { s.host with pmeStatus := s.host.pmeStatus ||| 1#64 <<< fn } }.emit (.pme fn)
  else s

def signalPmes (s : State) : State := s.enabledFuncs.foldl (fun s fn => s.signalPme fn) s

/-! ### Quiet (R118) -/

/-- Every enabled function is in D3hot. -/
def allD3hot (s : State) : Bool :=
  s.enabledFuncs.all fun fn => Nat.beq (s.fld (Reg.PCIE_FUNC_DSTATE.of fn)) 3

/-- R118: D3HOT_ALL enters Quiet, and D0_RETURN leaves it. -/
def settleQuiet (s : State) : State :=
  if (s.mode = 2 ∨ s.mode = 3) ∧ s.allD3hot then s.transition 5 0x0B
  else if s.mode = 5 ∧ s.allD3hot = false then s.transition s.workMode 0x0C
  else s

end State

end Sys2Proof.Machine
end

