-- ==== Sys2Proof/Machine/Spine.lean ====
section
/-! DEFINITION. The spine's credit books and the work items on it (R20, R33 to R36, R42, R44, R61, R64,
R65). -/

namespace Sys2Proof.Machine

/-- The folio of physical engine `e`, and the quire of folio `f` (R20). -/
def folioOf (e : Nat) : Nat := e / 5

def quireOf (f : Nat) : Nat := f / 2

/-- Quires of one die. -/
def dieOf (q : Nat) : Nat := q / 4

/-- The flits of 64 bytes that a work item takes: its 32-byte header and its frame bytes (R33, R357). -/
def itemFlits (it : WorkItem) : Nat := (32 + it.bytes.length + 63) / 64

/-- Credits granted on virtual channel `v`: 0 request, 1 response, 2 state-copy, 3 trace (R33). -/
def spineGrant (v : Nat) : Nat := [512, 512, 128, 64].getD v 0

/-- The key of the book of link `d`, channel `v`, direction `r` (0 to the die, 1 to the hub). -/
def spineKey (d v r : Nat) : Nat := 8 * d + 2 * v + r

namespace State

/-- The folio of the paired quire that takes over from folio `f` (R42). -/
def pairedFolio (s : State) (f : Nat) : Nat :=
  let pair := (s.imp.image.map fun i => i.struct.pair.getD (quireOf f) 16).getD 16
  2 * pair + f % 2

/-- Where items bound for folio `f` go: the paired quire carries the work of a quire that is out of
service (R43, R91). -/
def servingFolio (s : State) (f : Nat) : Nat :=
  if s.units.carried.getLsbD (quireOf f) then s.pairedFolio f else f

def spineDefault (k : Nat) : Credit := { held := spineGrant (k % 8 / 2) }

def credit (s : State) (k : Nat) : Credit := Table.get spineDefault s.spine k

/-- Change the book of key `k`, which is frozen while its die is lost (R65). -/
def mapCredit (s : State) (k : Nat) (f : Credit → Credit) : State :=
  if s.units.dieLost.getLsbD (k / 8) then s
  else { s with spine := Table.set spineDefault s.spine k (f (s.credit k)) }

/-- `n` flits leave their sender. -/
def spineSend (s : State) (k n : Nat) : State :=
  s.mapCredit k fun c => { c with held := c.held - n, buffered := c.buffered + n }

/-- The receiver frees the buffer of `n` flits (R64). -/
def spineFree (s : State) (k n : Nat) : State :=
  s.mapCredit k fun c => { c with buffered := c.buffered - n, returning := c.returning + n }

/-- `n` returned credits are added back (R64). -/
def spineBack (s : State) (k n : Nat) : State :=
  s.mapCredit k fun c => { c with returning := c.returning - n, held := c.held + n }

/-- `n` flits, or as many as there is credit for, cross and are taken from the buffer within one happening: their
credits are on the way back (R33, R64). -/
def spineCross (s : State) (k n : Nat) : State :=
  s.mapCredit k fun c => { c with held := c.held - n, returning := c.returning + min n c.held }

/-- The sender of book `k` holds credit for `n` flits (R36). -/
def spineHolds (s : State) (k n : Nat) : Bool := Nat.ble n (s.credit k).held

/-! ### The flow table in DRAM (R244, R255) -/

/-- Where the FLOW_TABLE partition starts. -/
def flowTableBase (s : State) : Nat :=
  (((s.imp.image.map (·.parts)).getD []).find? fun p => Nat.beq p.kind 1).elim 0 (·.base)

/-- The first byte of the bucket of flow `i`. -/
def flowBucket (s : State) (i : Nat) : Nat := s.flowTableBase + i / 4 * 1024

/-- The base context of flow `i` is written to DRAM. -/
def storeContext (s : State) (i : Nat) : State :=
  s.dramWrite (s.flowBucket i + 64 * (i % 4)) (leBytes 64 (s.flow i).ctx) false

/-- Flow `i` is written to DRAM: its base context, its statistics line and its extension (R244). -/
def storeFlow (s : State) (i : Nat) : State :=
  let s := s.storeContext i
  let s := s.dramWrite (s.flowBucket i + 256 + 64 * (i % 4)) (leBytes 64 (s.flow i).stats) false
  s.dramWrite (s.flowBucket i + 512 + 128 * (i % 4)) (leBytes 128 (s.flow i).ext) false

/-! ### Lending (R254, R255) -/

/-- A quire of die `d` writes a flow's 256 bytes to the hub: four request flits, and the acknowledgement. -/
def flowCrosses (s : State) (d : Nat) : State := (s.spineCross (spineKey d 0 1) 4).spineCross (spineKey d 1 0) 1

/-- Die `d` holds the credit to write a flow to the hub (R36). -/
def flowMayCross (s : State) (d : Nat) : Bool :=
  s.spineHolds (spineKey d 0 1) 4 && s.spineHolds (spineKey d 1 0) 1

/-- R255: a checkpoint of a flow, to the hub and to DRAM. -/
def checkpoint (s : State) (i : Nat) : State :=
  let f := (s.flow i).fold
  (s.setFlow i { f with saved := (f.ctx, f.stats, f.ext), since := 0 }).storeFlow i

/-- A lent flow is returned with its final state (R255). -/
def returnFlow (s : State) (i : Nat) : State :=
  match (s.flow i).lent with
  | none => s
  | some q =>
    let s := (s.flowCrosses (dieOf q)).checkpoint i
    (s.setFlow i { s.flow i with lent := none }).count Cnt.FLOW_RETURN

/-- The flows lent to quire `q`. -/
def lentTo (s : State) (q : Nat) : List Nat :=
  (s.flows.table.filter fun p => p.2.lent == some q).map (·.1)

/-- Of the flows in `l`, the one whose last work item is oldest. -/
def oldestLent (s : State) : List Nat → Option Nat
  | [] => none
  | i :: t =>
    match oldestLent s t with
    | none => some i
    | some j => if (s.flow j).lastItem < (s.flow i).lastItem then some j else some i

/-- R254: a work item of flow `i` is dispatched to quire `q`; on its first the flow is lent to it, and where the
quire holds 8,192 flows the least recently used one is returned. -/
def lend (s : State) (i q : Nat) : State :=
  let s := if (s.flow i).lent = some q then s else
    let s := s.returnFlow i
    let held := s.lentTo q
    let s := if 8192 ≤ held.length then
      (match s.oldestLent held with
        | some j => s.returnFlow j
        | none => s) else s
    let s := s.checkpoint i
    (s.setFlow i { s.flow i with lent := some q }).count Cnt.FLOW_LEND
  s.setFlow i { s.flow i with lastItem := s.tb.uptime, since := (s.flow i).since + 1 }

/-! ### Work items on the spine (R31 to R36, R43) -/

/-- The flits that an item takes to quire `q`, the flow lent with it included (R33, R254). -/
def sendFlits (s : State) (q : Nat) (it : WorkItem) : Nat :=
  itemFlits it + if it.flow.any fun i => !((s.flow i).lent == some q) then 4 else 0

/-- Items of flow `i` have been sent to another quire than `q` and have not finished there (R282): `l` are the
items that have been sent. -/
def busyElsewhere (s : State) (l : List WorkItem) (q i : Nat) : Bool :=
  let mine (it : WorkItem) : Bool := it.flow == some i
  (l.any fun it => mine it && it.link.isSome && !(Nat.beq (quireOf (s.servingFolio it.folio)) q)) ||
    (s.engines.queue.any fun p => !(Nat.beq (quireOf p.1) q) && p.2.any mine) ||
    s.engines.eng.any fun p => !(Nat.beq (quireOf (folioOf p.1)) q) && p.2.item.any mine

/-- The hub may send item `it`, where `l` are the items before it: its quire serves, the credit is held, no
earlier item waits for credit on the same link or stands for the same flow, and the flow has no item left in
another quire (R34, R36, R254, R282). -/
def maySend (s : State) (l : List WorkItem) (it : WorkItem) : Bool :=
  let q := quireOf (s.servingFolio it.folio)
  let stays (x : WorkItem) : Bool :=
    let p := quireOf (s.servingFolio x.folio)
    x.link.isNone && ((x.flow.isSome && x.flow == it.flow) || (Nat.beq (dieOf p) (dieOf q) &&
      !s.spineHolds (spineKey (dieOf p) 0 0) (s.sendFlits p x)))
  !s.units.dieLost.getLsbD (dieOf q) && !s.units.carried.getLsbD q &&
    s.spineHolds (spineKey (dieOf q) 0 0) (s.sendFlits q it) && !(l.any stays) &&
    !(it.flow.any fun i => s.busyElsewhere (l ++ s.items) q i)

/-- Item `it` leaves for the quire that serves it, with its flow where that is not lent there. -/
def sendItem (s : State) (it : WorkItem) : State × WorkItem :=
  let q := quireOf (s.servingFolio it.folio)
  let n := s.sendFlits q it
  let s := s.spineSend (spineKey (dieOf q) 0 0) n
  (match it.flow with
    | some i => s.lend i q
    | none => s, { it with link := some (dieOf q), flits := n })

/-- Send the work items that may go, in order. -/
def sendItems (s : State) : State :=
  let r := s.items.foldl (fun (x : State × List WorkItem) it =>
    if it.link.isNone && x.1.maySend x.2 it then
      let y := x.1.sendItem it
      (y.1, x.2 ++ [y.2])
    else (x.1, x.2 ++ [it])) (s, [])
  { r.1 with items := r.2 }

/-- A work item leaves the buffer of its link. -/
def leaveSpine (s : State) (it : WorkItem) : State :=
  match it.link with
  | some d => s.spineFree (spineKey d 0 0) it.flits
  | none => s

/-- Items that quire `q` has not committed return to the hub, over the response channel of their link (R43). -/
def returnItems (s : State) (q : Nat) (l : List WorkItem) : State :=
  let s := l.foldl (fun s it => s.spineCross (spineKey (dieOf q) 1 1) (itemFlits it)) s
  { s with items := l.map (fun it => { it with link := none }) ++ s.items }

/-- The spine stop returns to the hub the items bound for quire `q`, which has changed hands, and the hub
sends them on (R43). -/
def recallItems (s : State) (q : Nat) : State :=
  let mine (it : WorkItem) : Bool := it.link.isSome && Nat.beq (quireOf it.folio) q
  let s := (s.items.filter mine).foldl (fun s it => s.leaveSpine it) s
  { s with items := s.items.map fun it => if mine it then { it with link := none } else it }.sendItems

end State

/-! ### Meanings -/

/-- A credit return of `n` credits arrives on link `link`, for the channel and direction it names: the sender
adds them back, at most 16 in one return (R64). -/
def execCreditReturn (link vc : Fin 4) (dir : Fin 2) (n : Fin 17) (s : State) : Out State :=
  let k := spineKey link vc dir
  .next (s.spineBack k (min n (s.credit k).returning)).sendItems

end Sys2Proof.Machine
end

