-- ==== Sys2Proof/Machine/Time.lean ====
section
/-! DEFINITION. The time base and network time: the tick, the time status, steps, slews, the
domains and the external timing signals (R56, R133 to R169). -/

namespace Sys2Proof.Machine

namespace State

/-- The TIME sheet of the running image. -/
def timeSheet (s : State) : TimeSheet := ((s.imp.image.or s.imp.pending).map (·.time)).getD {}

/-- The time-base span: 2^48 seconds in units of 2^-32 ns. -/
def timeSpan : Nat := 2 ^ 48 * 1000000000 * 2 ^ 32

/-! ### Earlier instants and the fore-edge copies (R18, R56, R152) -/

/-- The time base, in units of 2^-32 ns, and the time status as they stood `age` ns ago (R18, R152). -/
def pastAt (s : State) (age : Nat) : Nat × Nat :=
  if age = 0 then (s.tb.time, s.timeStatus)
  else match s.tb.past.find? fun e => Nat.ble (e.1 + age) s.tb.uptime with
    | some (u, t, st) => (t + (s.tb.uptime - age - u) * 2 ^ 32, st)
    | none => (s.tb.time - age * 2 ^ 32, s.timeStatus)

/-- The time status in force `age` ns ago (R18). -/
def statusAt (s : State) (age : Nat) : Nat := (s.pastAt age).2

/-- How far the local copy of the fore-edge of port `n` stood from the time base at uptime `up`, in 2^-16 ns
(R56): within ±2 ns, and nothing at the instant of a realignment.  The value within the bound is free. -/
def copyOffset (s : State) (n up : Nat) : Int :=
  if up = s.tb.realigned then 0 else (Config.copyDrift n up % 262145 : Nat) - (131072 : Int)

/-- The fore-edge copy of port `n` as it stood `age` ns ago, in 2^-16 ns (R56, R152). -/
def portTicksAt (s : State) (n age : Nat) : Nat :=
  (((s.pastAt age).1 / 2 ^ 16 : Nat) + s.copyOffset n (s.tb.uptime - age)).toNat

/-- The fore-edge copy of port `n` now, in 2^-16 ns (R56). -/
def portTicks (s : State) (n : Nat) : Nat := s.portTicksAt n 0

/-! ### The count -/

/-- The average rate adjustment of the last 64 offset measurements (R139), rounded down.  DESIGN CHOICE: of
fewer measurements it is the average of those there are, and with none the present rate. -/
def avgRate (s : State) : Int :=
  if s.tb.rates = [] then s.tb.rate else s.tb.rates.sum / (s.tb.rates.length : Int)

/-- The servo's part of the rate adjustment, in units of 10^-12: in HOLDOVER that of R139. -/
def baseRate (s : State) : Int :=
  if s.timeStatus = 3 then
    if s.flag Reg.TB_STATUS_REF10M_USED then s.tb.rate10M else s.avgRate
  else s.tb.rate

/-- What a slew absorbs in one 2 ns tick at SLEW_PPB, in units of 2^-32 ns (R143). -/
def slewPerTick (s : State) : Nat := 2 * 2 ^ 32 * s.fld Reg.TB_SLEW_PPB_SLEW_PPB / 1000000000

/-- The rate adjustment applied, in units of 10^-12: the servo's, and SLEW_PPB toward the residual, within the
limits of R134 (R143, R168). -/
def appliedRate (s : State) : Int :=
  clampInt (-500000000) 500000000
    (s.baseRate + 1000 * (s.fld Reg.TB_SLEW_PPB_SLEW_PPB : Int) * s.tb.residual.sign)

/-- The last tick has brought the time base past a multiple of `p` ns counted from `base`, in 2^-32 ns; a step
brings it past none (R163, R429). -/
def crossed (s : State) (p : Nat) (base : Int) : Bool :=
  match s.tb.past with
  | [] => false
  | (_, t, _) :: _ =>
    !(Nat.beq p 0) && Nat.ble t s.tb.time && Nat.blt s.tb.time (t + 3 * 2 ^ 32) &&
      decide (((s.tb.time : Int) - base) / ((p * 2 ^ 32 : Nat) : Int) ≠
        ((t : Int) - base) / ((p * 2 ^ 32 : Nat) : Int))

/-- One tick of both counts (R133, R134, R143): uptime advances by 2; the time base advances by
2 ns plus the rate adjustment, and a slew moves its residual toward zero. -/
def advance (s : State) : State :=
  if s.pwr.aux && s.pwr.main && !s.pwr.perst then
    let limit : Int := 2 * 2 ^ 32 * 500 / 1000000
    let base : Int := (2 * 2 ^ 32 * clampInt (-500000000) 500000000 s.baseRate).tdiv 1000000000000
    let slew : Int := clampInt (-(s.slewPerTick : Int)) s.slewPerTick s.tb.residual
    let adjust : Int := clampInt (-limit) limit (base + slew)
    { s with tb := { s.tb with
        past := (s.tb.uptime, s.tb.time, s.timeStatus) :: s.tb.past
        uptime := (s.tb.uptime + 2) % 2 ^ 64
        time := ((s.tb.time + 2 * 2 ^ 32 + adjust) % (timeSpan : Int)).toNat
        residual := s.tb.residual - (adjust - base) } }
  else s

/-! ### Time status (R137 to R140) -/

/-- 1PPS_OUT may be driven high (R163). -/
def ppsAllowed (s : State) : Bool :=
  s.operating && s.flag Reg.TB_PPS_CTRL_OUT_EN &&
    (if s.flag Reg.TB_PPS_CTRL_OUT_ANY then !(Nat.beq s.timeStatus 0)
     else Nat.beq s.timeStatus 2 || Nat.beq s.timeStatus 3)

/-- Where it may not be driven high any more, 1PPS_OUT falls (R163). -/
def ppsDrive (s : State) : State :=
  if s.ppsAllowed then s else { s with tb := { s.tb with ppsOut := none } }

/-- A change of the time status: it posts 0x0901, restarts the measurement counts, takes the HOLDOVER rate
from the 10 MHz input where that is accepted and locked (R139), and 1PPS_OUT follows R163. -/
def setStatus (s : State) (v : Nat) : State :=
  if v = s.timeStatus then s else
    let s := (s.setFld Reg.TB_STATUS_STATUS v).postOpen 0x0901
    let s := s.setFlag Reg.TB_STATUS_REF10M_USED
      (Nat.beq v 3 && s.timeSheet.flags.testBit 3 && s.flag Reg.TB_REF_STATUS_REF10M_LOCKED)
    { s with tb := { s.tb with inBound := 0, outBound := 0 } }.ppsDrive

/-- Judge one offset measurement of the working reference, in ns (R137). -/
def judge (s : State) (offsetNs : Int) : State :=
  let inside := decide (offsetNs.natAbs ≤ s.fld Reg.TB_LOCK_BOUND_BOUND_NS)
  let s := { s with tb := { s.tb with
    refLost := false
    inBound := if inside then s.tb.inBound + 1 else 0
    outBound := if inside then 0 else s.tb.outBound + 1 } }
  if s.timeStatus = 1 ∧ 8 ≤ s.tb.inBound then s.setStatus 2
  else if s.timeStatus = 2 ∧ 4 ≤ s.tb.outBound then s.setStatus 1
  else if s.timeStatus = 3 ∧ 8 ≤ s.tb.inBound then s.setStatus 2
  else if s.timeStatus = 3 ∧ 4 ≤ s.tb.outBound then s.setStatus 1
  else s

/-- The working reference is lost (R138): there is none, LOCKED becomes HOLDOVER, and the first measurement
after the loss is the first that counts (R137).  With the host stack the device judges nothing (R140). -/
def loseReference (s : State) : State :=
  if s.flag Reg.PTP_CTRL_STACK then s else
    let s := (s.setFld Reg.TB_STATUS_REF 0)
    let s := { s with tb := { s.tb with refLost := true, inBound := 0, outBound := 0 } }
    if s.timeStatus = 2 then s.setStatus 3 else s

/-- The TIME_SERVO role runs: a control-folio takeover is not in progress (R150). -/
def servoRuns (s : State) : Bool := !(Nat.beq (s.fld Reg.GUARD_STATUS_STATE) 2) || s.guard.resumed

/-! ### Steps and slews (R141 to R149) -/

/-- A step that is accepted waits for the next 1 µs boundary (R141); `d` in units of 2^-32 ns. -/
def acceptStep (s : State) (d : Int) : State :=
  { s with tb := { s.tb with step := some (s.tb.step.getD 0 + d) } }

/-- A refused step (R144): pending, shown, and posted once. -/
def refuseStep (s : State) (ns : Int) : State :=
  ((s.setFlag Reg.TB_STATUS_STEP_PENDING true).wr64 Reg.TB_PENDING_LO (unsigned 64 ns)).postOpen 0x0903

/-- STEP_PENDING and TB_PENDING clear (R146). -/
def clearPending (s : State) : State :=
  (s.setFlag Reg.TB_STATUS_STEP_PENDING false).wr64 Reg.TB_PENDING_LO 0

/-- The pending step, in ns. -/
def pendingNs (s : State) : Int := signed 64 (s.rd64 Reg.TB_PENDING_LO)

/-- A step asked for in single-domain mode: applied while the status is UNKNOWN (R145), accepted up
to the jump threshold, refused beyond it (R144).  DESIGN CHOICE: a refused step is pending in whole ns,
rounded down, so that APPLY and SLEW take it so. -/
def requestStep (s : State) (d : Int) : State :=
  if s.timeStatus = 0 ∨ d.natAbs ≤ s.fld Reg.TB_JUMP_JUMP_NS * 2 ^ 32 then s.acceptStep d
  else s.refuseStep (d / 2 ^ 32)

/-- Put an offset on the slew (R143): the residual in units of 2^-32 ns.  A slew that runs ends with 0x0907
also where the new residual is zero. -/
def slewTo (s : State) (residual : Int) (authorised : Bool) : State :=
  { s.setFlag Reg.TB_STATUS_SLEWING (decide (residual ≠ 0) || s.flag Reg.TB_STATUS_SLEWING) with
    tb := { s.tb with residual := residual, slewAuth := authorised } }

/-- A rate the servo sets: the control law is the TIME_SERVO role's, so the value is free within
the limits of R134. -/
def servoRate (s : State) : State :=
  let r := clampInt (-500000000) 500000000 (signed 32 s.freeVal.toNat)
  { s.draw with tb := { s.tb with rate := r } }

/-- The rate adjustment at one offset measurement joins the history of R139. -/
def noteRate (s : State) : State :=
  { s with tb := { s.tb with rates := (s.tb.rate :: s.tb.rates).take 64 } }

/-- The working servo acts on one offset measurement, in units of 2^-32 ns (R144 to R147). -/
def steer (s : State) (offset : Int) : State :=
  if s.timeStatus = 0 then s.acceptStep offset
  else if s.flag Reg.TB_STATUS_DUAL then (s.slewTo offset false).servoRate
  else
    let rem := if s.tb.slewAuth then offset - s.tb.residual else offset
    if rem.natAbs ≤ s.fld Reg.TB_JUMP_JUMP_NS * 2 ^ 32 then
      let s := if s.flag Reg.TB_STATUS_STEP_PENDING then s.clearPending else s
      { s with tb := { s.tb with rejected := false } }.servoRate
    else if s.flag Reg.TB_STATUS_STEP_PENDING then
      s.wr64 Reg.TB_PENDING_LO (unsigned 64 (rem / 2 ^ 32))
    else if s.tb.rejected then s
    else s.refuseStep (rem / 2 ^ 32)

/-! ### Domains -/

/-- The state of domain slot `i` beyond its registers. -/
def dom (s : State) (i : Nat) : PtpDomain := Table.get (fun _ => {}) s.ptp.dom i

def setDom (s : State) (i : Nat) (d : PtpDomain) : State :=
  { s with ptp := { s.ptp with dom := Table.set (fun _ => {}) s.ptp.dom i d } }

/-- The slot that tracks a domain number, if any (R162, R169). -/
def domSlot? (s : State) (domain : Nat) : Option Nat :=
  (List.range 4).find? fun i =>
    !(Nat.beq (s.fld (Reg.PTP_DOM_CFG_ROLE i)) 0) && Nat.beq (s.fld (Reg.PTP_DOM_CFG_DOMAIN i)) domain

/-- A PTP message that uses an unsupported feature is discarded and counted (R161). -/
def ptpDiscard (s : State) : State := { s with ptp := { s.ptp with discarded := s.ptp.discarded + 1 } }

/-- PTP runs on the port with the device stack (R159, R160). -/
def ptpPort (s : State) (p : Nat) : Bool :=
  s.flag Reg.PTP_CTRL_ENABLE && !s.flag Reg.PTP_CTRL_STACK && Nat.blt p 6 &&
    s.bit Reg.PTP_CTRL_PORT_EN p

/-- A tracked domain's own lock, by the counts of R137 (R148, R166). -/
def judgeDomain (s : State) (i : Nat) (offsetNs : Int) : State :=
  let d := s.dom i
  let inside := decide (offsetNs.natAbs ≤ s.fld Reg.TB_LOCK_BOUND_BOUND_NS)
  let d := { d with
    inBound := if inside then d.inBound + 1 else 0, outBound := if inside then 0 else d.outBound + 1 }
  let s := s.setDom i d
  let st := s.fld (Reg.PTP_DOM_CFG_STATE i)
  if st ≠ 2 ∧ 8 ≤ d.inBound then (s.setFld (Reg.PTP_DOM_CFG_STATE i) 2).postOpen 0x0A01
  else if st = 2 ∧ 4 ≤ d.outBound then s.setFld (Reg.PTP_DOM_CFG_STATE i) 1
  else if st ≠ 2 then s.setFld (Reg.PTP_DOM_CFG_STATE i) 1
  else s

/-- One offset measurement of domain slot `i`, in 2^-16 ns (R137, R162). -/
def measure (s : State) (i : Nat) (offset : Int) : State :=
  let ns := offset / 65536
  let s := s.wrN (Reg.PTP_DOM_OFFSET i) (saturated 32 2147483647 ns)
  let s := s.judgeDomain i ns
  if i = 0 then (((s.setFld Reg.TB_STATUS_REF 1).judge ns).steer (offset * 65536)).noteRate else s

/-- The port is in SLAVE state for the domain of slot `i`, with a grandmaster selected (R137).  The state that
a port register shows is that for the working domain. -/
def slaveOn (s : State) (i p : Nat) : Bool :=
  s.ptpPort p && decide ((s.dom i).slavePort = some p) && (s.dom i).best.isSome &&
    (!(Nat.beq i 0) || Nat.beq (s.fld (Reg.PTP_PORT_CFG_STATE p)) 3)

/-- A usable Sync gives an offset measurement: the domain's time at the receive stamp less the
stamp, with the mean delay of the port (R137, R161).  A takeover in progress measures nothing (R150). -/
def usableSync (s : State) (p domain : Nat) (origin : Full) (correction : Int) (rx : Full) : State :=
  match s.domSlot? domain with
  | none => s
  | some i =>
    let d := s.dom i
    if s.slaveOn i p ∧ s.servoRuns then
      let t1 : Int := origin.ticks + correction
      let delay : Int := (s.rd (Reg.PTP_PORT_MLD p)).toNat * 4096
      let s := s.setDom i { d with lastSync := s.tb.uptime, lastT1 := t1, lastT2 := rx.ticks }
      s.measure i (t1 + delay - rx.ticks)
    else s

/-- A PTP port's state changes (R166). -/
def setPortState (s : State) (p v : Nat) : State :=
  if s.fld (Reg.PTP_PORT_CFG_STATE p) = v then s
  else (s.setFld (Reg.PTP_PORT_CFG_STATE p) v).postOpen 0x0A05

/-- The ports show their states for the working domain: SLAVE on its slave port, MASTER on the others. -/
def showPorts (s : State) : State :=
  (List.range 6).foldl (fun s p =>
    if s.ptpPort p then s.setPortState p (if (s.dom 0).slavePort = some p then 3 else 2) else s) s

/-- TB_UTC_OFFSET shows the UTC offset of the working domain's grandmaster (R135). -/
def showUtc (s : State) : State :=
  (s.setFld Reg.TB_UTC_OFFSET_UTC_OFFSET (s.dom 0).utc).setFlag Reg.TB_UTC_OFFSET_VALID (s.dom 0).utcValid

/-- R148: the working and second domains swap at one tick, and the second domain's offset becomes
the slew residual.  The working reference is then the other domain's (R135, R138). -/
def switchWorking (s : State) : State :=
  let swap (s : State) (f : Nat → Field) : State :=
    (s.setFld (f 0) (s.fld (f 1))).setFld (f 1) (s.fld (f 0))
  let swapW (s : State) (f : Nat → Nat) : State := (s.wr (f 0) (s.rd (f 1))).wr (f 1) (s.rd (f 0))
  let off : Int := signed 32 (s.rd (Reg.PTP_DOM_OFFSET 1)).toNat
  let d0 := s.dom 0
  let d1 := s.dom 1
  let s := swap (swap s Reg.PTP_DOM_CFG_DOMAIN) Reg.PTP_DOM_CFG_STATE
  let s := swapW (swapW (swapW s Reg.PTP_DOM_OFFSET) Reg.PTP_DOM_GM_LO) Reg.PTP_DOM_GM_HI
  let s := (s.setDom 0 d1).setDom 1 d0
  let s := s.setFld Reg.TB_STATUS_WORKING (s.fld (Reg.PTP_DOM_CFG_DOMAIN 0))
  let s := { s.setFld Reg.TB_STATUS_REF 1 with tb := { s.tb with refLost := false } }
  (s.slewTo (off * 2 ^ 32) false).showPorts.showUtc.postOpen 0x0A03

/-- Whether the second domain can take over (R148). -/
def secondLocked (s : State) : Bool :=
  s.flag Reg.TB_STATUS_DUAL && Nat.beq (s.fld (Reg.PTP_DOM_CFG_STATE 1)) 2

/-- The device switches by itself where AUTO_SWITCH is 1, the working reference is lost and the second domain
is LOCKED (R148). -/
def autoSwitch (s : State) : State :=
  if s.flag Reg.PTP_CTRL_AUTO_SWITCH && s.tb.refLost && s.secondLocked && s.servoRuns then s.switchWorking
  else s

/-- The domain of slot `i` loses its reference (R138, R166); with slot 0 the working reference is lost, unless
1PPS_IN is that. -/
def loseDomain (s : State) (i : Nat) : State :=
  let st := s.fld (Reg.PTP_DOM_CFG_STATE i)
  if st = 1 ∨ st = 2 then
    let s := s.setDom i { s.dom i with inBound := 0, outBound := 0 }
    let s := (s.setFld (Reg.PTP_DOM_CFG_STATE i) 3).postOpen 0x0A02
    if i = 0 ∧ s.fld Reg.TB_STATUS_REF ≠ 2 then
      if s.flag Reg.PTP_CTRL_AUTO_SWITCH && s.secondLocked then s.switchWorking else s.loseReference
    else s
  else s

/-- The slave port of slot `i` is a PTP port no more: the domain has no grandmaster and no reference. -/
def dropMaster (s : State) (i : Nat) : State :=
  match (s.dom i).slavePort with
  | none => s
  | some p =>
    if s.ptpPort p then s else (s.setDom i { s.dom i with best := none, slavePort := none }).loseDomain i

/-- announceReceiptTimeout × 2^logAnnounceInterval of port `p`, in ns (R138). -/
def announceTimeout (s : State) (p : Nat) : Nat :=
  s.fld (Reg.PTP_PORT_CFG_ANN_TIMEOUT p) * 1000000000 *
    2 ^ (signed 4 (s.fld (Reg.PTP_PORT_CFG_LOG_ANNOUNCE p)) + 8).toNat / 256

/-- R138 holds of the domain of slot `i`: no usable Sync on its slave port for the time stated, or, with
`noMaster`, no Announce of its grandmaster for that time. -/
def referenceDue (s : State) (i : Nat) (noMaster : Bool) : Bool :=
  let d := s.dom i
  match d.slavePort with
  | none => true
  | some p =>
    Nat.ble ((if noMaster then d.heard else max d.lastSync d.slaveSince) + s.announceTimeout p) s.tb.uptime

/-- An event message of a domain the device does not track goes on between P0 and P1 (R161), with its
residence time in the correction (R156).  The time it spends is free. -/
def ptpForward (s : State) (p msgType domain seq : Nat) (correction : Int) (event : Bool) : State :=
  if p < 2 ∧ s.ptpPort 0 ∧ s.ptpPort 1 then
    (s.draw).emit (.ptpForward (1 - p) msgType domain seq
      (if event then correction + (s.freeVal.toNat : Int) else correction))
  else s

/-! ### What the device stack sends (R160) -/

/-- 2^log s in ns, for log of −7 to +8 held in four bits. -/
def ptpInterval (log : Nat) : Nat := 1000000000 * 2 ^ (signed 4 log + 8).toNat / 256

/-- A message with this interval is due at this tick.  DESIGN CHOICE: messages leave at whole multiples of their
interval on the uptime counter, numbered by that multiple. -/
def ptpDue (s : State) (log : Nat) : Bool := Nat.blt (s.tb.uptime % ptpInterval log) 2

/-- Send a PTP message on port `p` for the domain of slot `i`. -/
def ptpSend (s : State) (p i msgType log : Nat) : State :=
  s.emit (.ptp p msgType (s.fld (Reg.PTP_DOM_CFG_DOMAIN i)) (s.tb.uptime / ptpInterval log % 65536) s.now)

/-- The device is master on port `p` for the working or the second domain. -/
def masterOn (s : State) (i p : Nat) : Bool :=
  if i = 0 then Nat.beq (s.fld (Reg.PTP_PORT_CFG_STATE p)) 2
  else s.flag Reg.TB_STATUS_DUAL && (s.dom 1).best.isSome && decide ((s.dom 1).slavePort ≠ some p)

/-- What port `p` sends at this tick: as master Sync, with Follow_Up where stamping is two-step, and Announce;
as slave Delay_Req; and Pdelay_Req with the peer delay mechanism (R160, R161). -/
def ptpPortTick (s : State) (p : Nat) : State :=
  if s.ptpPort p = false then s else
    let sync := s.fld (Reg.PTP_PORT_CFG_LOG_SYNC p)
    let ann := s.fld (Reg.PTP_PORT_CFG_LOG_ANNOUNCE p)
    let s := [0, 1].foldl (fun s i =>
      if s.masterOn i p = false then s else
        let s := if s.ptpDue sync then
            let s := s.ptpSend p i 0 sync
            if s.flag Reg.PTP_CTRL_ONE_STEP then s else s.ptpSend p i 8 sync
          else s
        if s.ptpDue ann then s.ptpSend p i 11 ann else s) s
    if s.flag Reg.PTP_CTRL_PEER_DELAY then
      let pd := s.fld (Reg.PTP_PORT_CFG_LOG_PDELAY p)
      if s.ptpDue pd then s.ptpSend p 0 2 pd else s
    else (List.range 4).foldl (fun s i =>
      if s.slaveOn i p && s.ptpDue sync then s.ptpSend p i 1 sync else s) s

/-- What the device stack sends at this tick. -/
def ptpTick (s : State) : State :=
  if s.flag Reg.PTP_CTRL_ENABLE && s.operating && s.servoRuns then
    (List.range 6).foldl (fun s p => s.ptpPortTick p) s
  else s

end State

/-- Every 1 µs each fore-edge realigns its local copy to the time base (R56); an accepted step is due at that
boundary (R141). -/
def execForeEdgeRealign (s : State) : Out State :=
  .next (if s.tb.realigned + 1000 ≤ s.tb.uptime then
    { s with tb := { s.tb with
        realigned := s.tb.uptime, step := none
        due := match s.tb.step with
          | none => s.tb.due
          | some d => some (s.tb.due.getD 0 + d) } }
  else s)

/-- The residual of a slew has reached zero (R143). -/
def execSlewDone (s : State) : Out State :=
  .next (if s.flag Reg.TB_STATUS_SLEWING ∧ s.tb.residual = 0 then
    let s := (s.setFlag Reg.TB_STATUS_SLEWING false).postOpen 0x0907
    { s with tb := { s.tb with slewAuth := false } }
  else s)

/-- A commit of TB_SET (R145, R147, R167): a step of (value − now), or SET_REFUSED. -/
def execTbSet (value : Full) (s : State) : Out State :=
  .next (
    let allowed := Nat.beq s.timeStatus 0 ||
      (s.flag Reg.PTP_CTRL_STACK && !s.flag Reg.TB_STATUS_DUAL)
    if value.ok && allowed then
      (s.wrFull Reg.TB_SET_LO value).requestStep ((value.ticks : Int) * 65536 - s.tb.time)
    else s.postOpen 0x0906)

/-- A commit of TB_STEP (R144, R147, R167): a signed step in ns under the host stack in
single-domain mode, or SET_REFUSED.  DESIGN CHOICE: in dual-domain mode, which has no host stack, R167 refuses
it also while the status is UNKNOWN, where R147 alone would take it. -/
def execTbStep (value : BitVec 64) (s : State) : Out State :=
  .next (if s.flag Reg.PTP_CTRL_STACK && !s.flag Reg.TB_STATUS_DUAL then
    (s.wr64 Reg.TB_STEP_LO value.toNat).requestStep (value.toInt * 2 ^ 32)
  else s.postOpen 0x0906)

/-- A write of TB_RATE (R134, R167): taken under the host stack in single-domain mode, clamped to
±500 ppm. -/
def execTbRate (value : BitVec 32) (s : State) : Out State :=
  .next (if s.flag Reg.PTP_CTRL_STACK && !s.flag Reg.TB_STATUS_DUAL then
    let r := clampInt (-500000000) 500000000 value.toInt
    { s.wrN Reg.TB_RATE (unsigned 32 r) with tb := { s.tb with rate := r } }
  else s)

/-- TB_STEP_AUTH ACTION 1: the pending step is applied under R141. -/
def execApply (s : State) : Out State :=
  .next (if s.flag Reg.TB_STATUS_STEP_PENDING then
    (s.acceptStep (s.pendingNs * 2 ^ 32)).clearPending else s)

/-- TB_STEP_AUTH ACTION 2: the pending step is added to the slew residual (R143, R146). -/
def execSlew (s : State) : Out State :=
  .next (if s.flag Reg.TB_STATUS_STEP_PENDING then
    (s.slewTo (s.tb.residual + s.pendingNs * 2 ^ 32) true).clearPending else s)

/-- TB_STEP_AUTH ACTION 3: the pending step is dropped (R146). -/
def execReject (s : State) : Out State :=
  .next (if s.flag Reg.TB_STATUS_STEP_PENDING then
    { s.clearPending with tb := { s.tb with rejected := true } } else s)

/-- Whether R137 allows host software to move the status from `a` to `b` (R140). -/
def hostStatusAllowed (a b : Nat) : Bool :=
  (Nat.beq a 1 && Nat.beq b 2) || (Nat.beq a 2 && (Nat.beq b 1 || Nat.beq b 3)) ||
    (Nat.beq a 3 && (Nat.beq b 2 || Nat.beq b 1))

/-- A write of TB_HOST_STATUS (R140). -/
def execTbHostStatusWrite (value : BitVec 2) (s : State) : Out State :=
  .next (if s.flag Reg.PTP_CTRL_STACK && hostStatusAllowed s.timeStatus value.toNat then
    (s.setFld Reg.TB_HOST_STATUS_STATUS value.toNat).setStatus value.toNat
  else s)

/-- A write of PTP_CTRL (R160, R169): STACK changes only where ENABLE was already 0, and never in
dual-domain mode. -/
def execPtpCtrlWrite (value : Word) (s : State) : Out State :=
  .next (
    let v := value.toNat
    let stack := if s.flag Reg.TB_STATUS_DUAL then s.fld Reg.PTP_CTRL_STACK else bits v 1 1
    if s.flag Reg.PTP_CTRL_ENABLE ∧ stack ≠ s.fld Reg.PTP_CTRL_STACK then s
    else
      let s := (s.setFld Reg.PTP_CTRL_ENABLE (bits v 0 1)).setFld Reg.PTP_CTRL_STACK stack
      let s := (s.setFld Reg.PTP_CTRL_AUTO_SWITCH (bits v 4 1)).setFld Reg.PTP_CTRL_PORT_EN (bits v 8 6)
      let s := s.setFld Reg.TB_STATUS_HOST_STACK stack
      let s := if stack = 1 then s.setFld Reg.TB_STATUS_REF 3
        else if s.fld Reg.TB_STATUS_REF = 3 then s.setFld Reg.TB_STATUS_REF 0 else s
      let s := (List.range 6).foldl (fun s p =>
        if s.ptpPort p then
          if s.fld (Reg.PTP_PORT_CFG_STATE p) = 0 then s.setPortState p 1 else s
        else s.setPortState p 0) s
      ([3, 2, 1, 0].foldl (fun s i => s.dropMaster i) s).autoSwitch)

/-- A write of PTP_SWITCH.GO (R148). -/
def execPtpSwitchGo (s : State) : Out State :=
  .next (if s.secondLocked then s.switchWorking else s.postOpen 0x0A06)

/-- A Sync (R137, R160): one-step, it gives an offset measurement; two-step, it waits for its
Follow_Up. -/
def execSync (port : Fin 12) (domain seq : Nat) (twoStep : Bool) (origin : Full)
    (correction : Int) (rx : Full) (s : State) : Out State :=
  .next (if 127 < domain then s.ptpDiscard
  else if s.domSlot? domain = none then s.ptpForward port.val 0 domain seq correction true
  else if twoStep then
    if s.ptpPort port.val then
      { s with ptp := { s.ptp with waiting :=
          ⟨port.val, domain, seq, rx, correction⟩ :: s.ptp.waiting.filter fun w =>
            !(Nat.beq w.port port.val && Nat.beq w.domain domain) } }
    else s
  else (s.usableSync port.val domain origin correction rx).autoSwitch)

/-- A Follow_Up completes the two-step Sync with its sequence number (R160). -/
def execFollowUp (port : Fin 12) (domain seq : Nat) (origin : Full) (correction : Int) (s : State) :
    Out State :=
  .next (if 127 < domain then s.ptpDiscard
  else if s.domSlot? domain = none then s.ptpForward port.val 8 domain seq correction false
  else
    match s.ptp.waiting.find? fun w =>
      Nat.beq w.port port.val && Nat.beq w.domain domain && Nat.beq w.seq seq with
    | none => s
    | some w =>
      let s := { s with ptp := { s.ptp with waiting := s.ptp.waiting.filter fun x => decide (x ≠ w) } }
      (s.usableSync port.val domain origin (w.correction + correction) w.rx).autoSwitch)

/-- Whether one Announce data set is better than another, in the order of its members. -/
def dataSetBetter : List Nat → List Nat → Bool
  | a :: t, b :: u => Nat.blt a b || (Nat.beq a b && dataSetBetter t u)
  | _, _ => false

/-- The grandmaster of an Announce is selected for the domain of slot `i`, and the port that heard it becomes
the slave port (R160, R166). -/
def State.selectMaster (s : State) (i p : Nat) (gm : Nat) (dataSet : List Nat) : State :=
  let d := s.dom i
  let old := s.rd64 (Reg.PTP_DOM_GM_LO i)
  let s := s.setDom i { d with
    best := some dataSet, slavePort := some p
    slaveSince := if d.slavePort = some p then d.slaveSince else s.tb.uptime }
  let s := s.wr64 (Reg.PTP_DOM_GM_LO i) gm
  let s := if old ≠ gm ∨ d.best = none then s.postOpen 0x0A04 else s
  let s := if s.fld (Reg.PTP_DOM_CFG_STATE i) = 2 then s else s.setFld (Reg.PTP_DOM_CFG_STATE i) 1
  if i = 0 ∧ (d.slavePort ≠ some p ∨ s.fld (Reg.PTP_PORT_CFG_STATE p) ≠ 3) then s.showPorts else s

/-- An Announce of the selected grandmaster on the slave port: it was heard, and its UTC offset is taken
(R135). -/
def State.heardMaster (s : State) (i utc : Nat) (valid : Bool) : State :=
  let s := s.setDom i { s.dom i with heard := s.tb.uptime, utc := utc, utcValid := valid }
  if i = 0 then s.showUtc else s

/-- An Announce (R135, R160, R166).  A data set better than the device's own, for the working and the second
domain, and than that of the grandmaster selected, selects its grandmaster; a further Announce of that
grandmaster on its port renews it; the same grandmaster heard on another port makes that port PASSIVE, and
any other master there leaves it MASTER.  PRESUMED: the data sets compare member by member, as IEEE 1588
orders them. -/
def execAnnounce (port : Fin 12) (domain : Nat) (gm : BitVec 64) (dataSet : List Nat)
    (utc : BitVec 16) (utcValid : Bool) (s : State) : Out State :=
  .next (if 127 < domain then s.ptpDiscard
  else
    match s.domSlot? domain with
    | none => s.ptpForward port.val 11 domain 0 0 false
    | some i =>
      if s.ptpPort port.val ∧ s.servoRuns then
        let d := s.dom i
        let p := port.val
        let selected := d.best.isSome && Nat.beq (s.rd64 (Reg.PTP_DOM_GM_LO i)) gm.toNat
        if i < 2 ∧ dataSetBetter s.ptp.own dataSet ∧ ¬(selected ∧ d.slavePort = some p) then
          if i = 0 ∧ d.slavePort ≠ some p then s.setPortState p 2 else s
        else if (selected ∧ d.slavePort = some p) ∨ d.best.all (dataSetBetter dataSet) then
          (s.selectMaster i p gm.toNat dataSet).heardMaster i utc.toNat utcValid
        else if i = 0 ∧ d.slavePort ≠ some p then s.setPortState p (if selected then 4 else 2)
        else s
      else s)

/-- A Delay_Req is answered with a Delay_Resp that carries its receive stamp, where the device is
the master of the domain on the port (R160). -/
def execDelayReq (port : Fin 12) (domain seq : Nat) (rx : Full) (s : State) : Out State :=
  .next (if 127 < domain then s.ptpDiscard
  else match s.domSlot? domain with
    | none => s.ptpForward port.val 1 domain seq 0 true
    | some i =>
      if s.ptpPort port.val ∧ s.masterOn i port.val ∧ i < 2 ∧ s.flag Reg.PTP_CTRL_PEER_DELAY = false ∧
          s.servoRuns then
        s.emit (.ptp port.val 9 domain seq rx)
      else s)

/-- A Delay_Resp completes an end-to-end measurement (R160): `t3` is the transmit stamp of the
device's Delay_Req, `t4` the time the master received it. -/
def execDelayResp (port : Fin 12) (domain : Nat) (t3 t4 : Full) (s : State) : Out State :=
  .next (
    match s.domSlot? domain with
    | none => s
    | some i =>
      let d := s.dom i
      if s.slaveOn i port.val ∧ s.flag Reg.PTP_CTRL_PEER_DELAY = false ∧ s.servoRuns then
        let delay : Int := ((d.lastT2 - d.lastT1) + ((t4.ticks : Int) - t3.ticks)) / 2
        s.wrN (Reg.PTP_PORT_MLD port.val) (unsigned 32 (delay / 4096))
      else s)

/-- A Pdelay_Req is answered with a Pdelay_Resp that carries its receive stamp (R160). -/
def execPdelayReq (port : Fin 12) (seq : Nat) (rx : Full) (s : State) : Out State :=
  .next (if s.ptpPort port.val ∧ s.flag Reg.PTP_CTRL_PEER_DELAY ∧ s.servoRuns then
    s.emit (.ptp port.val 3 0 seq rx) else s)

/-- A Pdelay_Resp, or its follow-up, completes a mean link delay measurement from its four stamps
(R160). -/
def execPdelayResp (port : Fin 12) (t1 t2 t3 t4 : Full) (s : State) : Out State :=
  .next (if s.ptpPort port.val ∧ s.flag Reg.PTP_CTRL_PEER_DELAY ∧ s.servoRuns then
    let delay : Int := (((t4.ticks : Int) - t1.ticks) - ((t3.ticks : Int) - t2.ticks)) / 2
    s.wrN (Reg.PTP_PORT_MLD port.val) (unsigned 32 (delay / 4096))
  else s)

/-- A PTP message that uses an unsupported feature is discarded and counted (R161). -/
def execPtpUnsupportedMessage (_port : Fin 12) (s : State) : Out State :=
  .next s.ptpDiscard

/-- A tracked domain's reference is lost (R138, R148), once the time of R138 has passed: `noMaster` where its
grandmaster is lost and no other was selected, which leaves the ports of the working domain MASTER.  With the
host stack, and in a takeover, the device judges nothing (R140, R150). -/
def execDomainLost (slot : Fin 4) (noMaster : Bool) (s : State) : Out State :=
  .next (
    let i := slot.val
    let st := s.fld (Reg.PTP_DOM_CFG_STATE i)
    if (st = 1 ∨ st = 2) ∧ s.referenceDue i noMaster ∧ s.flag Reg.PTP_CTRL_STACK = false ∧ s.servoRuns then
      let s := if noMaster then
          let s := s.setDom i { s.dom i with best := none, slavePort := none }
          if i = 0 then s.showPorts else s
        else s
      s.loseDomain i
    else s)

/-- An edge of 1PPS_IN (R164): stamped where its polarity is the one selected.  An edge within 100 ms of a whole
second is not missed; where no PTP domain is the working reference and TIME allows it, 1PPS_IN is that, and
such an edge is an offset measurement. -/
def execPpsInEdge (falling : Bool) (stamp : Full) (s : State) : Out State :=
  .next (if falling = s.flag Reg.TB_PPS_CTRL_IN_EDGE then
    let phase : Int := if stamp.ns < 500000000 then stamp.ns else (stamp.ns : Int) - 1000000000
    let s := s.wrFull Reg.TB_PPS_IN_TS_LO stamp
    let s := s.setFld Reg.TB_REF_STATUS_PPS_PHASE (saturated 16 32767 phase)
    if 100000000 < phase.natAbs then s
    else
      let s := { s with tb := { s.tb with ppsEdges := (s.tb.uptime :: s.tb.ppsEdges).take 3 } }
      if s.timeSheet.flags.testBit 2 ∧ s.fld Reg.TB_STATUS_REF ≠ 1 ∧ s.flag Reg.PTP_CTRL_STACK = false ∧
          s.servoRuns then
        let s := s.setFld Reg.TB_STATUS_REF 2
        if s.timeStatus ≠ 0 then ((s.judge (-phase)).steer (-phase * 2 ^ 32)).noteRate else s
      else s
  else s)

/-- An edge of 1PPS_IN was seen in each of the last 3 seconds (R168).  DESIGN CHOICE: edges up to 1.2 s apart
count so, as R164 accepts an edge up to 100 ms from its second. -/
def State.ppsPresent (s : State) : Bool :=
  match s.tb.ppsEdges with
  | [a, b, c] => Nat.ble s.tb.uptime (a + 1200000000) && Nat.ble a (b + 1200000000) && Nat.ble b (c + 1200000000)
  | _ => false

/-- 1PPS_IN has missed 3 consecutive seconds (R138, R166). -/
def execPpsInLost (s : State) : Out State :=
  .next (match s.tb.ppsEdges with
    | [] => s
    | e :: _ =>
      if e + 3000000000 ≤ s.tb.uptime then
        let s := { s with tb := { s.tb with ppsEdges := [] } }.postOpen 0x0904
        if s.fld Reg.TB_STATUS_REF = 2 ∧ s.servoRuns then s.loseReference.autoSwitch else s
      else s)

/-- The time base has just crossed a whole second (R163). -/
def State.atSecond (s : State) : Bool := s.crossed 1000000000 0

/-- The time base crosses a whole second: 1PPS_OUT rises where R163 allows it, once for each
second. -/
def execPpsOutRise (s : State) : Out State :=
  .next (if s.ppsAllowed && s.atSecond && s.tb.ppsOut.isNone && decide (s.tb.lastPps ≠ some s.now.sec) then
    { s with tb := { s.tb with
        ppsOut := some (s.tb.uptime + s.fld Reg.TB_PPS_CTRL_WIDTH_US * 1000)
        lastPps := some s.now.sec } }
  else s)

/-- 1PPS_OUT falls after WIDTH_US (R163). -/
def execPpsOutFall (s : State) : Out State :=
  .next (match s.tb.ppsOut with
    | some t => if t ≤ s.tb.uptime then { s with tb := { s.tb with ppsOut := none } } else s
    | none => s)

/-- The 10 MHz input is lost (R165): while it holds a HOLDOVER rate, 0x0905 is posted and the rate
falls back to the servo average. -/
def execRef10mLost (s : State) : Out State :=
  .next (
    let s := (s.setFlag Reg.TB_REF_STATUS_REF10M_PRESENT false).setFlag
      Reg.TB_REF_STATUS_REF10M_LOCKED false
    if s.flag Reg.TB_STATUS_REF10M_USED then
      (s.setFlag Reg.TB_STATUS_REF10M_USED false).postOpen 0x0905
    else s)

/-- The 10 MHz input is present, and its measurement settles where `rate` gives it, in units of 10^-12 (R139,
R165). -/
def execRef10mLocked (rate : Option Int) (s : State) : Out State :=
  .next (if s.timeSheet.flags.testBit 3 then
    let s := s.setFlag Reg.TB_REF_STATUS_REF10M_PRESENT true
    match rate with
    | none => s
    | some r =>
      let s := s.setFlag Reg.TB_REF_STATUS_REF10M_LOCKED true
      let s := { s with tb := { s.tb with rate10M := clampInt (-500000000) 500000000 r } }
      if s.timeStatus = 3 then s.setFlag Reg.TB_STATUS_REF10M_USED true else s
  else s)

end Sys2Proof.Machine
end

