-- ==== Sys2Proof/Machine/Gate.lean ====
section
/-! DEFINITION. What scheduled transmission is computed from: rates and occupancy, the gate lists
and what they give at an instant, the headband, shaper credit, and the end of a port copy of a
frame (R173 to R209, R264). -/

namespace Sys2Proof.Machine

/-! ### Rates (R79, R197) -/

/-- The port rate in kb/s of a SPEED code. -/
def rateKbps (speed : Nat) : Nat :=
  match speed with
  | 0 => 10000
  | 1 => 100000
  | 2 => 1000000
  | 3 => 2500000
  | 4 => 5000000
  | 5 => 10000000
  | _ => 25000000

/-- The start granularity G in hundredths of a nanosecond, of a MEDIA and SPEED code (R197). -/
def granularity (media speed : Nat) : Nat :=
  if media = 1 then 256
  else if media = 2 then 640
  else if media = 3 ∨ media = 5 then 800
  else if media = 4 then
    (if speed = 5 then 640 else if speed = 4 then 1280 else if speed = 3 then 2560
      else if speed = 2 then 6400 else 64000)
  else 40000

/-- HOLD_ADVANCE at Imposing (R209): the time of 143 bytes, rounded up to a whole nanosecond. -/
def holdAdvance (speed : Nat) : Nat := (143 * 8 * 1000000 + rateKbps speed - 1) / rateKbps speed

/-! ### Gate lists (R174, R181, R182) -/

/-- A gate list in force: entries in order, with their index, and the cycle, in 2^-16 ns. -/
structure GateList where
  entries : List GateEntry
  base : Nat
  cycle : Nat
  deriving DecidableEq, Repr

/-- A stretch of a cycle: from its start, to its end, the gates, the operation and the entry. -/
structure GateSeg where
  lo : Nat
  hi : Nat
  gates : Nat
  op : Nat
  index : Nat
  deriving DecidableEq, Repr

/-- R181: the stretches of one cycle.  The last entry is held to the end of a cycle the intervals do
not fill; what would run beyond the end is cut. -/
def gateSegs (cycle : Nat) : Nat → Nat → List GateEntry → List GateSeg
  | _, _, [] => []
  | i, t, [e] => if t < cycle then [⟨t, cycle, e.gates.toNat, e.op, i⟩] else []
  | i, t, e :: rest =>
    if t < cycle then
      ⟨t, min cycle (t + e.interval * 65536), e.gates.toNat, e.op, i⟩ ::
        gateSegs cycle (i + 1) (t + e.interval * 65536) rest
    else []

namespace GateList

def segs (g : GateList) : List GateSeg := gateSegs g.cycle 0 0 g.entries

/-- The place of instant `t` in the cycle. -/
def phase (g : GateList) (t : Nat) : Nat := (((t : Int) - g.base) % (g.cycle : Int)).toNat

/-- The stretch in force at a place of the cycle. -/
def segAt (g : GateList) (phase : Nat) : Option GateSeg :=
  g.segs.find? fun x => Nat.ble x.lo phase && Nat.blt phase x.hi

/-- The gate of class `c` is open at some instant from `a` to `b`. -/
def opensWithin (g : GateList) (c a b : Nat) : Bool :=
  let p := g.phase a
  g.segs.any fun x => x.gates.testBit c &&
    (Nat.ble g.cycle (b - a) || (Nat.ble x.lo (p + (b - a)) && Nat.blt p x.hi) ||
      Nat.ble (x.lo + g.cycle) (p + (b - a)))

/-- The first place at or after `from` in the cycle at which the gate of class `c` is closed. -/
def firstClosed (g : GateList) (c start : Nat) : Option Nat :=
  (g.segs.find? fun x => Nat.blt start x.hi && !x.gates.testBit c).map fun x => max start x.lo

/-- The longest stretch without a break in which the gate of class `c` is open, over cycles that
follow each other; `none` when it never closes (R187, R191). -/
def longestOpen (g : GateList) (c : Nat) : Option Nat :=
  if g.segs.all fun x => x.gates.testBit c then none
  else some (((g.segs ++ g.segs).foldl
    (fun (a : Nat × Nat) x =>
      if x.gates.testBit c then (a.1 + (x.hi - x.lo), max a.2 (a.1 + (x.hi - x.lo))) else (0, a.2))
    (0, 0)).2)

end GateList

namespace State

/-! ### Ports -/

def port (s : State) (n : Nat) : Port := Table.get (fun _ => {}) s.ports n

def setPort (s : State) (n : Nat) (p : Port) : State :=
  { s with ports := Table.set (fun _ => {}) s.ports n p }

/-- The rate of port `n` in kb/s. -/
def rate (s : State) (n : Nat) : Nat := rateKbps (s.fld (Reg.PORT_MEDIA_SPEED n))

/-- The time base now, in 2^-16 ns. -/
def nowTicks (s : State) : Nat := s.tb.time / 2 ^ 16

/-- The port sends: its link is up, TX_EN is 1 and the network runs (R98, R218, R242). -/
def sends (s : State) (n : Nat) : Bool :=
  s.operating && s.flag (Reg.PORT_LINK_STATUS_UP n) && s.flag (Reg.PORT_MAC_CTRL_TX_EN n)

/-- The conditions of R225 but the link: holds run by them also while the link is down (R218). -/
def preemptReady (s : State) (n : Nat) : Bool :=
  s.flag (Reg.PORT_MEDIA_PREEMPT_CAP n) && s.flag (Reg.PORT_MM_CTRL_ENABLE n) &&
    (Nat.beq (s.fld (Reg.PORT_MM_STATUS_VSTATE n)) 3 || s.flag (Reg.PORT_MM_CTRL_VERIFY_DIS n))

/-- Preemption is active on port `n` (R225). -/
def preemptActive (s : State) (n : Nat) : Bool := s.preemptReady n && s.flag (Reg.PORT_LINK_STATUS_UP n)

/-- A port event (R213, R243): its low byte, its port. -/
def postPort (s : State) (n low : Nat) : State := s.postOpen ((0x0C + n) * 256 + low)

def postPortLimited (s : State) (n low : Nat) : State := s.postOpenLimited ((0x0C + n) * 256 + low)

/-! ### Gates in force -/

/-- Entry `k` of a bank whose first word is at `lo` (R174). -/
def gateEntryAt (s : State) (lo k : Nat) : GateEntry :=
  let v := s.rd64 (lo + 8 * k)
  ⟨BitVec.ofNat 8 v, bits v 8 24, bits v 32 4, bits v 36 28⟩

/-- The operational list of port `n`; none while gating is off (R183). -/
def operList (s : State) (n : Nat) : Option GateList :=
  let len := s.fld (Reg.PORT_OPER_LEN_LEN n)
  if len = 0 then none else
    some { entries := (List.range len).map (s.gateEntryAt (Reg.PORT_OPER_GCL_LO n 0))
           base := (s.rdFull (Reg.PORT_OPER_BASE_LO n)).ticks
           cycle := s.fld (Reg.PORT_OPER_CYCLE_CYCLE_NS n) * 65536 }

/-- The list in the admin bank of port `n`. -/
def adminList (s : State) (n : Nat) : Option GateList :=
  let len := s.fld (Reg.PORT_ADMIN_LEN_LEN n)
  if len = 0 then none else
    some { entries := (List.range len).map (s.gateEntryAt (Reg.PORT_ADMIN_GCL_LO n 0))
           base := (s.rdFull (Reg.PORT_ADMIN_BASE_LO n)).ticks
           cycle := s.fld (Reg.PORT_ADMIN_CYCLE_CYCLE_NS n) * 65536 }

/-- The change time of a pending change, in 2^-16 ns (R177). -/
def pendingChange (s : State) (n : Nat) : Option Nat :=
  if s.fld (Reg.PORT_GATE_STATUS_STATE n) = 2 ∧ (s.port n).copying = false then
    some (s.rdFull (Reg.PORT_CHANGE_TIME_LO n)).ticks
  else none

/-- R182: at instant `t` the old list has not begun its cycle, because the change time follows
within the cycle extension.  A cycle that had begun when the change was accepted runs. -/
def extended (s : State) (n : Nat) (g : GateList) (t : Nat) : Bool :=
  match s.pendingChange n with
  | none => false
  | some c =>
    let start := t - g.phase t
    Nat.ble (s.port n).pendedAt start && Nat.blt start c && Nat.blt t c &&
      Nat.blt (c - start) (s.fld (Reg.PORT_OPER_CYCLE_EXT_EXT_NS n) * 65536)

/-- The stretch in force on port `n` at instant `t`: every gate open while gating is off, closed
while the initial list is awaited (R183, R184). -/
def gateSegNow (s : State) (n t : Nat) : GateSeg :=
  match s.operList n with
  | none => ⟨0, 0, if (s.port n).awaiting then 0 else 255, 0, 0⟩
  | some g =>
    let p := if s.extended n g t then g.cycle - 1 else g.phase t
    (g.segAt p).getD ⟨0, 0, 0, 0, 0⟩

/-- The last edge of the clock of port `n`, on the fore-edge copy, in 2^-16 ns: gates change at such edges
(R185).  DESIGN CHOICE: edges fall at whole multiples of the period on the uptime counter. -/
def edgeTicks (s : State) (n : Nat) : Nat :=
  let period := granularity (s.fld (Reg.PORT_MEDIA_MEDIA n)) (s.fld (Reg.PORT_MEDIA_SPEED n))
  s.portTicks n - s.tb.uptime * 100 % period * 65536 / 100

/-- The gates in force on port `n` now. -/
def gatesNow (s : State) (n : Nat) : Nat := (s.gateSegNow n (s.edgeTicks n)).gates

/-- The stretch in force on port `n` at instant `t` ahead: from its change time on, by a pending list (R207). -/
def gateSegAhead (s : State) (n t : Nat) : GateSeg :=
  match s.pendingChange n with
  | none => s.gateSegNow n t
  | some ct =>
    if t < ct then s.gateSegNow n t
    else match s.adminList n with
      | none => ⟨0, 0, 255, 0, 0⟩
      | some g => (g.segAt (g.phase t)).getD ⟨0, 0, 0, 0, 0⟩

/-- The gate of class `c` is open at some instant from `a` to `b`, as far as the lists known now say. -/
def opensWithin (s : State) (n c a b : Nat) : Bool :=
  let own (a b : Nat) : Bool :=
    match s.operList n with
    | none => !(s.port n).awaiting
    | some g => if s.extended n g a then (s.gateSegNow n a).gates.testBit c else g.opensWithin c a b
  match s.pendingChange n with
  | none => own a b
  | some ct =>
    (Nat.blt a ct && own a (min b ct)) ||
      (Nat.ble ct b && (match s.adminList n with
        | none => true
        | some g => g.opensWithin c (max a ct) b))

/-- The instant at which the gate of class `c`, open at `t`, next closes, in 2^-16 ns: by the
operational list, and from its change time by a pending list (R187).  `none`: never. -/
def closesAt (s : State) (n c t : Nat) : Option Nat :=
  let after : Option Nat :=
    match s.pendingChange n with
    | none => none
    | some ct =>
      match s.adminList n with
      | none => none
      | some g => (g.firstClosed c 0).map (ct + ·)
  let own : Option Nat :=
    match s.operList n with
    | none => none
    | some g =>
      if s.extended n g t then none else
        let start := t - g.phase t
        match g.firstClosed c (g.phase t) with
        | some x => some (start + x)
        | none =>
          if s.extended n g (start + g.cycle) then none
          else (g.firstClosed c 0).map (start + g.cycle + ·)
  match s.pendingChange n, own with
  | some ct, some x => if x < ct then some x else after
  | some _, none => after
  | none, o => o

/-! ### Occupancy and the headband (R186 to R191) -/

/-- O(L) times the rate: bits (R186). -/
def occupancyBits (len : Nat) : Nat := (max len 64 + 20) * 8

/-- `bits` sent at `rate` kb/s, started at `t`, and `extraNs` more, end at or before `close` (all
instants in 2^-16 ns). -/
def fitsBefore (rate nbits extraNs t close : Nat) : Bool :=
  Nat.ble ((t + extraNs * 65536) * rate + nbits * 1000000 * 65536) (close * rate)

def extraNs (s : State) (n : Nat) : Nat := s.fld (Reg.PORT_HEADBAND_EXTRA_EXTRA_NS n)

/-- A frame of class `c` uses the preemptable MAC of port `n` (R157, R205, R225). -/
def preemptable (s : State) (n c : Nat) (oneStep : Bool) : Bool :=
  s.preemptActive n && (s.port n).preempt.testBit c && !oneStep

/-- The headband test of R187: the frame ends before its gate closes. -/
def fitsWhole (s : State) (n c len t : Nat) : Bool :=
  match s.closesAt n c t with
  | none => true
  | some close => fitsBefore (s.rate n) (occupancyBits len) (s.extraNs n) t close

/-- The headband test of a frame of `len` bytes of class `c` started at `t` (R187, R188). -/
def headband (s : State) (n c len : Nat) (oneStep : Bool) (t : Nat) : Bool :=
  s.fitsWhole n c len t ||
    (s.preemptable n c oneStep && Nat.ble 124 len &&
      (match s.closesAt n c t with
        | none => true
        | some close => fitsBefore (s.rate n) (84 * 8) (s.extraNs n) t close))

/-- A list has a window in which the frame passes the headband (R191). -/
def fitsList (s : State) (n c len : Nat) (oneStep : Bool) (g : Option GateList) : Bool :=
  match g with
  | none => true
  | some g =>
    match g.longestOpen c with
    | none => true
    | some w =>
      fitsBefore (s.rate n) (occupancyBits len) (s.extraNs n) 0 w ||
        (s.preemptable n c oneStep && Nat.ble 124 len &&
          fitsBefore (s.rate n) (84 * 8) (s.extraNs n) 0 w)

/-- R191: the frame can pass the headband in some window of its class, by the operational cycle or
by the pending one. -/
def everFits (s : State) (n c len : Nat) (oneStep : Bool) : Bool :=
  (!(s.port n).awaiting && s.fitsList n c len oneStep (s.operList n)) ||
    ((s.pendingChange n).isSome && s.fitsList n c len oneStep (s.adminList n))

/-! ### Shaper credit (R202 to R204) -/

/-- LO_CREDIT of a slope, in 10^-6 bit (R203). -/
def loCredit (rate slope maxFrame : Nat) : Int :=
  -(((maxFrame + 20) * 8 * 1000000 * (rate - slope) / rate : Nat) : Int)

/-- Credit of class `c`, within its limits. -/
def clampCredit (s : State) (n c : Nat) (v : Int) : Int :=
  let slope := Table.get (fun _ => 0) (s.port n).slope c
  let lo := loCredit (s.rate n) slope (s.fld (Reg.PORT_MAC_CTRL_MAX_FRAME n))
  let hi : Int := s.fld (Reg.PORT_CBS_HI_HI_CREDIT n c) * 1000000
  if v < lo then lo else if hi < v then hi else v

/-- Class `c` is stopped by a received flow-control frame (R237). -/
def stopped (s : State) (n c : Nat) : Bool :=
  Nat.blt s.tb.uptime (Table.get (fun _ => 0) (s.port n).stop c)

/-- A frame of class `c` is on the medium of port `n`. -/
def onMedium (s : State) (n c : Nat) : Bool :=
  (s.port n).cur.any fun m => Nat.beq m.tx.cls c && m.control.isNone

/-- The credit of class `c` rises or is set to zero, rather than frozen (R203, R218, R237): the gate
is open, the class neither held nor stopped, the link up, and no frame of it on the medium. -/
def creditRuns (s : State) (n c : Nat) : Bool :=
  s.sends n && (s.gatesNow n).testBit c && !s.stopped n c &&
    !(s.flag (Reg.PORT_GATE_STATUS_HOLD n) && s.preemptActive n && (s.port n).preempt.testBit c) &&
    !s.onMedium n c

/-- Class `c` of port `n` holds frames: at the fore-edge, or one that was preempted. -/
def classHolds (s : State) (n c : Nat) : Bool :=
  ((s.port n).fe.any fun f => Nat.beq f.cls c) || (s.port n).susp.any fun x => Nat.beq x.tx.cls c

/-- The credit of class `c`, brought up to the present (R203), in 10^-6 bit: as the class stood since the last
settlement.  What a frame on the medium takes is charged when it leaves. -/
def creditNow (s : State) (n c : Nat) : Int :=
  let p := s.port n
  let slope := Table.get (fun _ => 0) p.slope c
  let v := Table.get (fun _ => 0) p.credit c
  let dt := s.tb.uptime - p.settled
  if slope = 0 then 0
  else if p.runs.testBit c then
    if p.holds.testBit c then s.clampCredit n c (v + slope * dt)
    else if v < 0 then s.clampCredit n c (min 0 (v + slope * dt)) else 0
  else v

/-- The classes below 8 of which `f` holds, as a mask. -/
def classMask (f : Nat → Bool) : Nat := (List.range 8).foldl (fun a c => setBit a c (f c)) 0

/-- Settle the credit of every class of port `n` at the present, and note how each stands from now on.  Every
change of how a class stands ends with this. -/
def settle (s : State) (n : Nat) : State :=
  let p := s.port n
  let credit := (List.range 8).foldl
    (fun t c => Table.set (fun _ => 0) t c (s.creditNow n c)) p.credit
  s.setPort n { p with
    credit := credit, settled := s.tb.uptime
    runs := classMask (s.creditRuns n), holds := classMask (s.classHolds n) }

/-- Bytes of the frame on the medium from the start of its present fragment to its end (R221). -/
def restBytes (m : OnMedium) : Nat := (if m.sent = 0 then max 64 m.tx.len else m.tx.len) - m.sent

/-- The credit that CBS_CREDIT shows: with what the frame on the medium has taken so far (R203, R212). -/
def creditShown (s : State) (n c : Nat) : Int :=
  let v := s.creditNow n c
  let slope := Table.get (fun _ => 0) (s.port n).slope c
  match (s.port n).cur with
  | some m =>
    if s.onMedium n c && !(Nat.beq slope 0) then
      let total := (restBytes m + 20) * 8 * 1000000 * (s.rate n - slope) / s.rate n
      s.clampCredit n c (v - (min total ((s.tb.uptime - m.startUp) * (s.rate n - slope)) : Nat))
    else v
  | none => v

/-- Charge class `c` for `nbits` bits sent (R203): the credit falls at the send slope. -/
def charge (s : State) (n c nbits : Nat) : State :=
  let p := s.port n
  let slope := Table.get (fun _ => 0) p.slope c
  if slope = 0 then s else
    let fall : Int := (nbits * 1000000 * (s.rate n - slope) / s.rate n : Nat)
    let v := Table.get (fun _ => 0) p.credit c
    s.setPort n { p with credit := Table.set (fun _ => 0) p.credit c (s.clampCredit n c (v - fall)) }

/-! ### The end of a port copy (R25, R264) -/

/-- A "Not done" code (R23). -/
def notDone (status : Nat) : Bool :=
  Nat.beq status 2 || Nat.beq status 3 || (Nat.ble 6 status && Nat.ble status 14)

/-- R25: the code and DETAIL that stand when two conditions meet. -/
def worse (a b : Nat × Nat) : Nat × Nat :=
  let rank (x : Nat × Nat) : Nat := if notDone x.1 then 0 else if x.1 = 0 then 2 else 1
  if rank a < rank b then a else if rank b < rank a then b
  else if a.1 < b.1 then a else if b.1 < a.1 then b
  else if a.2 ≤ b.2 then a else b

/-- A port copy of a frame ends with a status and DETAIL: its cells' hold is dropped, its flow counts
a copy not delivered, and with the last copy its work entry completes, the conditions that its status does not
report counted (R25, R257, R264). -/
def copyEnds (s : State) (f : TxFrame) (status detail : Nat) : State :=
  let s := s.dropCopy f.frame
  let s := if notDone status then s.flowDropped f.flow else s
  match f.owner with
  | none => s
  | some (qid, pos) =>
    let stamp := if f.ts2 && !notDone status then some (f.stamp, f.ts) else none
    let s := s.mapEntry qid pos fun e =>
      { e with copies := e.copies - 1, outcomes := e.outcomes ++ [(status, detail)]
               stamp := e.stamp.or stamp }
    match s.entryAt qid pos with
    | none => s
    | some e =>
      if e.copies = 0 then
        let r := e.outcomes.foldl worse (0, 0)
        let hidden := ((e.outcomes.map (·.1)).eraseDups).filter fun c => !(Nat.beq c r.1)
        (hidden.foldl (fun s c => s.countStatus c) s).complete qid pos r.1 r.2
      else s

/-- Take frame `f` away from the fore-edge of port `n`. -/
def unqueue (s : State) (n : Nat) (f : TxFrame) : State :=
  let p := s.port n
  (s.setPort n { p with fe := p.fe.erase f }).settle n

/-! ### Heads (R173, R191, R198) -/

/-- The frame is due on port `n` (R15, R196). -/
def due (s : State) (n : Nat) (f : TxFrame) : Bool :=
  match f.launch with
  | some l => Nat.ble (l * 65536) (s.portTicks n)
  | none => false

/-- The head of class `c` (R173, R201): the due launch-time frame with the earliest launch, else the
oldest frame without a launch time. -/
def head (s : State) (n c : Nat) : Option TxFrame :=
  let l := (s.port n).fe.filter fun f => Nat.beq f.cls c
  let best := (l.filter (s.due n)).foldl (fun (b : Option TxFrame) f =>
    match b with
    | none => some f
    | some g => if f.launch.getD 0 < g.launch.getD 0 then some f else some g) none
  best.or (l.find? fun f => f.launch.isNone)

/-- How late a start now would be, in 2^-16 ns (R198). -/
def lateness (s : State) (n : Nat) (f : TxFrame) : Nat := s.portTicks n - f.launch.getD 0 * 65536

/-- G of port `n` in 2^-16 ns, times 100, with the wait for a PLCA opportunity (R197). -/
def granTicks (s : State) (n plcaWaitNs : Nat) : Nat :=
  (granularity (s.fld (Reg.PORT_MEDIA_MEDIA n)) (s.fld (Reg.PORT_MEDIA_SPEED n)) +
    plcaWaitNs * 100) * 65536

/-- How long frame `f` must wait for the frame on the medium of port `n`, in 2^-16 ns: not for one that it
preempts (R206). -/
def mediumWait (s : State) (n : Nat) (f : TxFrame) : Nat :=
  match (s.port n).cur with
  | some m =>
    if m.preemptable && !s.preemptable n f.cls f.oneStep then 0
    else (restBytes m + 20) * 8 * 1000000 * 65536 / s.rate n - (s.tb.uptime - m.startUp) * 65536
  | none => ((s.port n).gapEnd - s.tb.uptime) * 65536

/-- How long the credit of class `c` keeps it from starting, in 2^-16 ns (R203). -/
def creditWait (s : State) (n c : Nat) : Nat :=
  let slope := Table.get (fun _ => 0) (s.port n).slope c
  if slope = 0 then 0 else (-(s.creditNow n c)).toNat * 65536 / slope

/-- The lateness of a launch-time frame is certain to exceed both G and its tolerance (R198): the earliest
start that the medium and the credit allow is too late, or until the last timely instant the gate stays
closed, by lists that no change accepted from now on can replace before. -/
def tooLate (s : State) (n plcaWaitNs : Nat) (f : TxFrame) : Bool :=
  match f.launch with
  | none => false
  | some l =>
    let launch := l * 65536
    let start := max launch (s.portTicks n + max (s.mediumWait n f) (s.creditWait n f.cls))
    let last := launch + max (f.lateTol * 65536) (s.granTicks n plcaWaitNs / 100)
    (Nat.blt (f.lateTol * 65536) (start - launch) && Nat.blt (s.granTicks n plcaWaitNs) ((start - launch) * 100)) ||
      (Nat.blt last (s.portTicks n + s.fld Reg.TB_SETUP_MARGIN_MARGIN_NS * 65536) &&
        !s.opensWithin n f.cls start last)

/-- A launch-time frame completes LATE_DROPPED (R198, R213). -/
def dropLate (s : State) (n : Nat) (f : TxFrame) : State :=
  ((((s.unqueue n f).count (Cnt.PORT_LATE_DROPPED n)).copyEnds f 0x02 0)).postPortLimited n 0x05

/-- Drop every launch-time frame of port `n` that is too late. -/
def dropAllLate (s : State) (n plcaWaitNs : Nat) : State :=
  ((s.port n).fe.filter (s.tooLate n plcaWaitNs)).foldl (fun s f => s.dropLate n f) s

/-- A frame completes GATE_NEVER_OPENS (R191, R286). -/
def neverOpens (s : State) (n : Nat) (f : TxFrame) : State :=
  ((s.count (Cnt.PORT_NEVER_OPENS n)).copyEnds f 0x09 0).postPortLimited n 0x04

/-- R191, R210: test the head of class `c` of port `n`, and what becomes head after it; a launch-time
frame that fits no window is certain to be late, and completes LATE_DROPPED.  `k` bounds the
number of frames. -/
def testHead (s : State) (n c : Nat) : Nat → State
  | 0 => s
  | k + 1 =>
    match s.head n c with
    | none => s
    | some f =>
      if s.everFits n c f.len f.oneStep then s
      else if f.launch.isSome then
        ((s.count (Cnt.PORT_NEVER_OPENS n)).dropLate n f).testHead n c k
      else ((s.unqueue n f).neverOpens n f).testHead n c k

/-- Test the heads of every class of port `n`. -/
def testHeads (s : State) (n : Nat) : State :=
  (List.range 8).foldl (fun s c => s.testHead n c ((s.port n).fe.length)) s

/-! ### The hub's class queues (R172) -/

/-- A frame joins the hub's queue of its port and class. -/
def toHub (s : State) (n : Nat) (f : TxFrame) : State :=
  let p := s.port n
  s.setPort n { p with hub := p.hub ++ [{ f with since := s.portTicks n }] }

end State

end Sys2Proof.Machine
end

