-- ==== Sys2Proof/Machine/Classify.lean ====
section
/-! DEFINITION. Classification: the fields of a frame, the key record, SipHash-2-4, the candidate
buckets and the match (R246 to R253, R579). -/

namespace Sys2Proof.Machine

/-! ### Fields of a frame -/

/-- `n` bytes of `b` from `off`; zeros when any of them is missing or lies beyond byte 127 (R247). -/
def headBytes (b : List Byte) (off n : Nat) : List Byte :=
  let l := ((b.take 128).drop off).take n
  if l.length = n then l else List.replicate n 0

/-- The 16-bit number at `off`, in network byte order, of the whole frame. -/
def wire16 (b : List Byte) (off : Nat) : Nat := beNat ((b.drop off).take 2)

/-- As `wire16`, in the first 128 bytes alone. -/
def head16 (b : List Byte) (off : Nat) : Nat := beNat (headBytes b off 2)

/-- R579: the frame carries an outer VLAN tag. -/
def tagged (b : List Byte) : Bool := Nat.beq (wire16 b 12) 0x8100 || Nat.beq (wire16 b 12) 0x88A8

/-- The PCP of the outer VLAN tag; an untagged frame counts as PCP 0 (R171). -/
def pcp (b : List Byte) : Nat := if tagged b then wire16 b 14 / 8192 else 0

/-- Where the EtherType, or an R-TAG, stands after the outer VLAN tag (R265). -/
def typeOff (b : List Byte) : Nat := if tagged b then 16 else 12

/-- R265: the frame carries an R-TAG. -/
def hasRtag (b : List Byte) : Bool := Nat.beq (wire16 b (typeOff b)) 0xF1C1

/-- The sequence number of its R-TAG. -/
def rtagSeq (b : List Byte) : Nat := wire16 b (typeOff b + 4)

/-- The frame without its R-TAG. -/
def stripRtag (b : List Byte) : List Byte :=
  if hasRtag b then b.take (typeOff b) ++ b.drop (typeOff b + 6) else b

/-- The frame with an R-TAG that carries `seq`: inserted, or its number replaced (R265). -/
def putRtag (b : List Byte) (seq : Nat) : List Byte :=
  let o := typeOff b
  if hasRtag b then b.take (o + 4) ++ beBytes 2 seq ++ b.drop (o + 6)
  else b.take o ++ beBytes 2 0xF1C1 ++ [0, 0] ++ beBytes 2 seq ++ b.drop o

/-- The frame with DEI set in its outer VLAN tag (R262). -/
def setDei (b : List Byte) : List Byte :=
  if tagged b then b.take 14 ++ ((b.getD 14 0) ||| 0x10#8) :: b.drop 15 else b

/-- A PTP frame (R160): EtherType 0x88F7, or a UDP datagram to port 319 or 320. -/
def ptpFrame (b : List Byte) : Bool :=
  let eo := typeOff b + if hasRtag b then 6 else 0
  let ip := eo + 2
  let v4 := Nat.beq (head16 b eo) 0x0800 && headBytes b (ip + 9) 1 == [17#8] &&
    Nat.beq (head16 b (ip + 6) % 8192) 0
  let v6 := Nat.beq (head16 b eo) 0x86DD && headBytes b (ip + 6) 1 == [17#8]
  let l4 := if v4 then ip + 4 * (((headBytes b ip 1).headD 0).toNat % 16) else ip + 40
  let port := head16 b (l4 + 2)
  Nat.beq (head16 b eo) 0x88F7 || ((v4 || v6) && (Nat.beq port 319 || Nat.beq port 320))

/-! ### The FCS (R221) -/

/-- One bit of the CRC-32 of IEEE 802.3, least significant bit first. -/
def crc32Bit (c : Nat) : Nat := if c.testBit 0 then (c >>> 1) ^^^ 0xEDB88320 else c >>> 1

def crc32Byte (c : Nat) (b : Byte) : Nat :=
  let x := c ^^^ b.toNat
  crc32Bit (crc32Bit (crc32Bit (crc32Bit (crc32Bit (crc32Bit (crc32Bit (crc32Bit x)))))))

/-- The FCS of the bytes `b`, as the number whose least significant byte leaves first.  PRESUMED: the CRC-32 of
IEEE 802.3 clause 3.2.9, which R221 names. -/
def crc32 (b : List Byte) : Nat := (b.foldl crc32Byte 0xFFFFFFFF) ^^^ 0xFFFFFFFF

/-- R221: the bytes of a frame padded to 60. -/
def padFrame (b : List Byte) : List Byte := b ++ List.replicate (60 - b.length) 0

/-- R221, R223: the frame as it leaves a MAC, padded and with its FCS, stomped where it is poisoned. -/
def withFcs (b : List Byte) (stomped : Bool) : List Byte :=
  padFrame b ++ leBytes 4 (if stomped then crc32 (padFrame b) ^^^ 0xFFFFFFFF else crc32 (padFrame b))

/-! ### The delimiters of preemption (R227) -/

/-- SMD-S0 to SMD-S3, which the fragment counts 0 to 3 share, and SMD-C0 to SMD-C3. -/
def startCodes : List Nat := [0xE6, 0x4C, 0x7F, 0xB3]
def contCodes : List Nat := [0x61, 0x52, 0x9E, 0x2A]

/-- The 8 bytes that open an mPacket of a preemptable frame: of its start, or of a continuation. -/
def mpacketHead (seq : Nat) (frag : Option Nat) : List Byte :=
  match frag with
  | none => List.replicate 7 0x55#8 ++ [BitVec.ofNat 8 (startCodes.getD seq 0)]
  | some k => List.replicate 6 0x55#8 ++
      [BitVec.ofNat 8 (contCodes.getD seq 0), BitVec.ofNat 8 (startCodes.getD k 0)]

/-! ### The key record (R246) -/

/-- The key record of a frame of `source` in partition `part` under `mask`. -/
def keyRecord (part mask source stream : Nat) (b : List Byte) : List Byte :=
  let on (i : Nat) (l : List Byte) : List Byte :=
    if mask.testBit i then l else List.replicate l.length 0
  let eo := typeOff b + if hasRtag b then 6 else 0
  let ethertype := head16 b eo
  let ip := eo + 2
  let v := (headBytes b ip 1).headD 0 >>> 4
  let v4 := Nat.beq ethertype 0x0800 && v == 4#8
  let v6 := Nat.beq ethertype 0x86DD && v == 6#8
  let proto := if v4 then headBytes b (ip + 9) 1 else if v6 then headBytes b (ip + 6) 1 else [0]
  let l4 := if v4 then ip + 4 * (((headBytes b ip 1).headD 0).toNat % 16) else ip + 40
  let ports := (v4 || v6) && (proto == [6#8] || proto == [17#8]) &&
    !(v4 && !Nat.beq (head16 b (ip + 6) % 8192) 0)
  let vlan := if tagged b then
    beBytes 2 (0x8000 + head16 b 14 % 4096) else [0, 0]
  [BitVec.ofNat 8 part] ++ on 0 [BitVec.ofNat 8 source] ++ on 1 vlan ++
  on 4 (headBytes b eo 2) ++ on 5 (beBytes 2 stream) ++
  on 2 (headBytes b 0 6) ++ on 3 (headBytes b 6 6) ++
  on 6 [if v4 then 4 else if v6 then 6 else 0] ++ on 6 proto ++
  on 6 (if ports then headBytes b l4 2 else [0, 0]) ++
  on 6 (if ports then headBytes b (l4 + 2) 2 else [0, 0]) ++
  List.replicate 6 0 ++
  on 6 (if v4 then headBytes b (ip + 12) 4 ++ List.replicate 12 0
    else if v6 then headBytes b (ip + 8) 16 else List.replicate 16 0) ++
  on 6 (if v4 then headBytes b (ip + 16) 4 ++ List.replicate 12 0
    else if v6 then headBytes b (ip + 24) 16 else List.replicate 16 0)

/-! ### SipHash-2-4 (R248) -/

structure Sip where
  v0 : BitVec 64
  v1 : BitVec 64
  v2 : BitVec 64
  v3 : BitVec 64
  deriving DecidableEq, Repr

def sipRound (x : Sip) : Sip :=
  let v0 := x.v0 + x.v1
  let v1 := x.v1.rotateLeft 13 ^^^ v0
  let v0 := v0.rotateLeft 32
  let v2 := x.v2 + x.v3
  let v3 := x.v3.rotateLeft 16 ^^^ v2
  let v0 := v0 + v3
  let v3 := v3.rotateLeft 21 ^^^ v0
  let v2 := v2 + v1
  let v1 := v1.rotateLeft 17 ^^^ v2
  let v2 := v2.rotateLeft 32
  ⟨v0, v1, v2, v3⟩

/-- One message word. -/
def sipWord (x : Sip) (m : BitVec 64) : Sip :=
  let y := sipRound (sipRound { x with v3 := x.v3 ^^^ m })
  { y with v0 := y.v0 ^^^ m }

/-- The message words of `b`, the last carrying the length. -/
def sipWords (b : List Byte) : List (BitVec 64) :=
  (List.range (b.length / 8)).map (fun i => BitVec.ofNat 64 (leNat ((b.drop (8 * i)).take 8))) ++
    [BitVec.ofNat 64 (leNat (b.drop (b.length / 8 * 8)) + b.length % 256 * 2 ^ 56)]

/-- SipHash-2-4 of `b` under a 128-bit key. -/
def sipHash (key : BitVec 128) (b : List Byte) : BitVec 64 :=
  let k0 := key.setWidth 64
  let k1 := (key >>> 64).setWidth 64
  let x : Sip := ⟨k0 ^^^ 0x736f6d6570736575#64, k1 ^^^ 0x646f72616e646f6d#64,
    k0 ^^^ 0x6c7967656e657261#64, k1 ^^^ 0x7465646279746573#64⟩
  let x := (sipWords b).foldl sipWord x
  let x := sipRound (sipRound (sipRound (sipRound { x with v2 := x.v2 ^^^ 0xff#64 })))
  x.v0 ^^^ x.v1 ^^^ x.v2 ^^^ x.v3

/-! ### Buckets (R249) -/

/-- The candidate buckets of a fingerprint in a partition of `count` flows. -/
def candidates (h count : Nat) : Nat × Nat :=
  let bp := count / 4
  let a := h % 2 ^ 32 * bp / 2 ^ 32
  let b := h / 2 ^ 32 % 2 ^ 32 * bp / 2 ^ 32
  (a, if a = b ∧ 1 < bp then (a + 1) % bp else b)

namespace State

/-- The flow partitions of the running image, in MEMORY order. -/
def flowParts (s : State) : List FlowPart := (s.imp.image.map (·.flowParts)).getD []

def flowPart? (s : State) (p : Nat) : Option FlowPart := s.flowParts[p]?

/-- The PORT_MASK bit of a source (R245). -/
def sourceBit (source : Nat) : Nat := if 16 ≤ source then 13 else source

/-- The partitions that name a source, with their index. -/
def partsFor (s : State) (source : Nat) : List (Nat × FlowPart) :=
  ((List.range s.flowParts.length).zip s.flowParts).filter fun p =>
    p.2.portMask.testBit (sourceBit source)

/-- The fingerprint of a key record (R248). -/
def fingerprint (s : State) (key : List Byte) : Nat :=
  (sipHash (Config.hashKey s.flows.keyDraw) key).toNat

/-- The flows of bucket `b` of a partition that are valid and hold fingerprint `h` (R250). -/
def inBucket (s : State) (part : Nat) (p : FlowPart) (b h : Nat) : Option Nat :=
  ((List.range 4).map fun w => p.base + 4 * b + w).find? fun i =>
    let f := s.flow i
    f.has Ctx.valid && Nat.beq (f.get Ctx.part) part && Nat.beq (f.get Ctx.fingerprint) h

/-- The flow a fingerprint names in a partition, and whether the CAM gave it (R250, R251). -/
def lookupIn (s : State) (part : Nat) (p : FlowPart) (h : Nat) : Option (Nat × Bool) :=
  let (a, b) := candidates h p.count
  let near := if p.count / 4 = 0 then none else (s.inBucket part p a h).or (s.inBucket part p b h)
  match near with
  | some i => some (i, false)
  | none =>
    (s.flows.cam.find? fun e => Nat.beq e.part part && Nat.beq e.print h).map fun e => (e.flow, true)

/-- The bucket groups a lookup of fingerprint `h` needs (R253). -/
def groupsOf (part : Nat) (p : FlowPart) (h : Nat) : List (Nat × Nat) :=
  if p.count / 4 = 0 then [] else
    let (a, b) := candidates h p.count
    if a = b then [(part, a)] else [(part, a), (part, b)]

/-- The lookups of a frame: each partition that names its source, with the fingerprint. -/
def lookups (s : State) (r : RxFrame) : List (Nat × FlowPart × Nat) :=
  (s.partsFor r.source).map fun p =>
    (p.1, p.2, s.fingerprint (keyRecord p.1 p.2.keyMask r.source r.stream r.bytes))

/-- The bucket groups a frame's lookups need. -/
def neededGroups (s : State) (r : RxFrame) : List (Nat × Nat) :=
  (s.lookups r).flatMap fun x => groupsOf x.1 x.2.1 x.2.2

/-- Every group of a frame's lookups is in the cache (R253). -/
def cached (s : State) (r : RxFrame) : Bool :=
  (s.neededGroups r).all fun g => s.flows.cache.contains g

/-- Mark groups as most recently used. -/
def touch (s : State) (gs : List (Nat × Nat)) : State :=
  { s with flows := { s.flows with cache := gs ++ s.flows.cache.filter fun g => !gs.contains g } }

/-- A DELETE of the flow waits for its work items (R279). -/
def isDeleting (s : State) (i : Nat) : Bool := s.flows.deletes.any fun d => Nat.beq d.flow i

/-- The flow a frame matches: the lowest-numbered partition wins (R250). -/
def classify (s : State) (r : RxFrame) : Option (Nat × Bool) :=
  (s.lookups r).findSome? fun x => (s.lookupIn x.1 x.2.1 x.2.2).filter fun y => !s.isDeleting y.1

end State

end Sys2Proof.Machine
end

