-- ==== Sys2Proof/Machine/FlowRun.lean ====
section
/-! DEFINITION. What a flow does to a frame (R252, R254, R260 to R276, R521, R581): policing,
recovery, sequence generation and delivery. -/

namespace Sys2Proof.Machine

namespace State

/-! ### Policer (R261, R262) -/

/-- R261: the buckets brought up to the present, limited to their bursts. -/
def refill (s : State) (f : Flow) : Flow :=
  let k := f.get Ctx.polProf
  let cir := s.pol k 0 0 25
  let pir := s.pol k 1 0 25
  let cbs := s.pol k 2 0 24
  let pbs := s.pol k 3 0 24
  let now := s.tb.uptime % 2 ^ 32
  let elapsed := (now + 2 ^ 32 - f.get Ctx.polTime) % 2 ^ 32
  let earned := if pir = 0 then 0 else elapsed * pir / 8000000
  let committed := if pir = 0 then 0 else earned * cir / pir
  let spent := if pir = 0 then 0 else earned * 8000000 / pir
  ((f.set Ctx.pLevel (min pbs (f.get Ctx.pLevel + earned))).set Ctx.cLevel
    (min cbs (f.get Ctx.cLevel + committed))).set Ctx.polTime
    (if pir = 0 then now else (f.get Ctx.polTime + spent) % 2 ^ 32)

/-- R261 and R262: the flow after a frame of `len` bytes is policed, whether the frame is dropped, and
whether DEI is set in its port copies. -/
def police (s : State) (f : Flow) (len : Nat) : Flow × Bool × Bool :=
  if f.has Ctx.polEn then
    let f := s.refill f
    let action := s.pol (f.get Ctx.polProf) 3 24 2
    if f.get Ctx.pLevel < len then (f.addStat Stat.polRed 1, true, false)
    else if f.get Ctx.cLevel < len then
      let f := f.set Ctx.pLevel (f.get Ctx.pLevel - len)
      if action = 2 then (f.addStat Stat.polRed 1, true, false)
      else (f.addStat Stat.polYellow 1, false, Nat.beq action 1)
    else
      ((f.set Ctx.pLevel (f.get Ctx.pLevel - len)).set Ctx.cLevel (f.get Ctx.cLevel - len), false, false)
  else (f, false, false)

/-! ### Recovery (R269 to R276) -/

/-- The latent accumulator after adding `d`, saturated (R276). -/
def addLatent (f : Flow) (d : Int) : Flow :=
  f.set Ctx.leAcc (saturated 32 2147483647 (signed 32 (f.get Ctx.leAcc) + d))

/-- R276: a latent test that is due runs; the answer says whether LATENT_ERROR is posted. -/
def latentTest (s : State) (f : Flow) : Flow × Bool :=
  let k := f.get Ctx.frerProf
  let now := s.upUs
  if s.frerLatentEn k && decide (shortDiff now (f.get Ctx.leTestUs) ≥ s.frerLePeriodMs k * 1000) then
    let bad := decide ((s.frerLeDiff k : Int) < (signed 32 (f.get Ctx.leAcc)).natAbs)
    let f := if bad then (f.addStat Stat.latentErrors 1).set Ctx.latent 1 else f
    let f := (f.set Ctx.leTestUs now).set Ctx.leTests (f.get Ctx.leTests + 1)
    let f := if s.frerLeResetTests k ≤ f.get Ctx.leTests then
      (((f.set Ctx.leAcc 0).set Ctx.latent 0).set Ctx.leTests 0).addStat Stat.latentResets 1 else f
    (f, bad)
  else (f, false)

/-- The recovery timeout has passed at `us` (R270, R272): not while TAKE_ANY is already 1. -/
def recoveryTimeout (s : State) (f : Flow) (us : Nat) : Bool :=
  !f.has Ctx.takeAny &&
    decide (shortDiff us (f.get Ctx.passUs) > s.frerResetMs (f.get Ctx.frerProf) * 1000)

/-- A limited FLOW event (R284): its DATA is the flow index. -/
def postFlow (s : State) (low i : Nat) : State := s.postLimited (0x1800 + low) (i % 2 ^ 20)

/-- The recovery function of flow `i` judges a frame that arrived at uptime `rxUp` with the bytes
`b` (R269 to R276): whether it passes. -/
def recover (s : State) (i : Nat) (b : List Byte) (rxUp : Nat) : State × Bool :=
  let f := s.flow i
  let k := f.get Ctx.frerProf
  if hasRtag b then
    let us := rxUp / 1000 % 2 ^ 32
    let timeout := s.recoveryTimeout f us
    let f := if timeout then f.recoveryReset else f
    let s := if timeout then s.postFlow 0x03 i else s
    let dup := f.get Ctx.dDiscarded + f.stat Stat.discarded
    let (f, pass) := if s.frerMatch k then f.matchRecover (rtagSeq b) us
      else f.vectorRecover (s.frerHlen k) (rtagSeq b) us
    let duplicate := decide (f.get Ctx.dDiscarded + f.stat Stat.discarded ≠ dup)
    let f := if s.frerLatentEn k then
      (if pass then addLatent f (s.frerPaths k) else if duplicate then addLatent f (-1) else f) else f
    let (f, bad) := s.latentTest f
    let s := s.setFlow i f
    (if bad then s.postFlow 0x02 i else s, pass)
  else
    let (f, bad) := s.latentTest (f.addStat Stat.tagless 1)
    let s := s.setFlow i f
    let s := if bad then s.postFlow 0x02 i else s
    if s.frerTakeNoSeq k then (s, true) else (s.flowStat i Stat.dropped 1, false)

/-! ### Delivery (R264, R265, R521, R581) -/

/-- R581: a frame bound for queue `qid` may be delivered. -/
def rxqTakes (s : State) (qid : Nat) : Bool :=
  let x := s.q qid
  Nat.beq x.kind 2 && (Nat.beq x.state 2 || Nat.beq x.state 3)

/-- A copy waits for delivery to receive queue `qid` (R406). -/
def toRxq (s : State) (qid : Nat) (c : RxCopy) : State :=
  let x := s.q qid
  (s.setQ qid { x with rxWait := x.rxWait ++ [c] }).holdCopy c.frame 1

/-- The class of a forwarded frame on port `n` (R171): PORTn_TC_MAP of the PCP. -/
def mapClass (s : State) (n : Nat) (b : List Byte) : Nat :=
  bits (s.rd (Reg.PORT_TC_MAP n)).toNat (3 * pcp b) 3

/-- The pair link carries frame copies (R521). -/
def pairOpen (s : State) : Bool :=
  decide (s.pairLink.lanes ≠ 0) && s.flag Reg.GUARD_PAIR_CTRL_ENABLE

/-- The lane a copy of a flow takes (R521). -/
def pairLane (s : State) (flow : Option Nat) : Nat :=
  if s.pairLink.lanes = 3 then
    (match flow with
      | some i => (s.flow i).get Ctx.fingerprint % 2
      | none => 0)
  else if s.pairLink.lanes.getLsbD 0 then 0 else 1

/-- Send the waiting pair-link copies that the credits held allow, oldest first (R521); `k` bounds
the number. -/
def sendPairCopies (s : State) : Nat → State
  | 0 => s
  | k + 1 =>
    match s.pairLink.copies with
    | [] => s
    | c :: rest =>
      let n := cellsFor (c.bytes.length + 4)
      if n ≤ s.pairLink.credits then
        let s := s.emit (.pairCopy (s.pairLane c.flow) c.bytes)
        let s := { s with pairLink := { s.pairLink with
          copies := rest, credits := s.pairLink.credits - n } }
        (s.dropCopy c.frame).sendPairCopies k
      else s

/-- A pair-link copy (R264, R521): dropped at once while the link is down or disabled. -/
def toPair (s : State) (c : PairCopy) : State :=
  if s.pairOpen then
    let s := s.holdCopy c.frame 1
    { s with pairLink := { s.pairLink with copies := s.pairLink.copies ++ [c] } }.sendPairCopies
      (s.pairLink.copies.length + 1)
  else s.flowDropped c.flow

/-- A port copy of a frame (R264, R265): one that its R-TAG makes longer than MAX_FRAME is dropped
with LEN_ERROR. -/
def toPort (s : State) (n : Nat) (f : TxFrame) (grown : Bool) : State :=
  let s := s.holdCopy f.frame 1
  if grown && Nat.blt (s.fld (Reg.PORT_MAC_CTRL_MAX_FRAME n)) f.len then s.copyEnds f 0x08 0x01
  else s.toHub n f

/-- The work item of a frame goes on its way to its flow's folio (R254, R357). -/
def dispatchItem (s : State) (r : RxFrame) (i : Nat) : State :=
  let f := s.flow i
  let item : WorkItem :=
    { folio := f.get Ctx.folio, opcode := f.get Ctx.opcode, kind := if r.hostTx then 1 else 0
      source := r.source
      flags := r.poisoned.toNat + (Nat.blt 128 r.bytes.length).toNat * 4
      key := i, length := r.bytes.length, stampStatus := r.ts, frame := r.frame
      stamp := r.stamp.short, arrivalUs := r.rxUp / 1000 % 2 ^ 32, seq := s.itemSeq
      bytes := r.bytes.take 128, flow := some i, entry := r.owner
      full := r.bytes, poisoned := r.poisoned, rxStamp := r.stamp, rxUp := r.rxUp }
  let s := s.holdCopy r.frame 1
  { s with items := s.items ++ [item], itemSeq := (s.itemSeq + 1) % 2 ^ 32 }.sendItems

/-- A frame that goes no further: a host-transmit entry completes, the frame's hold is dropped. -/
def discard (s : State) (r : RxFrame) (status detail : Nat) : State :=
  let s := match r.owner with
    | some (qid, pos) => s.complete qid pos status detail
    | none => s
  s.dropCopy r.frame

/-- The transmit frame that a work entry asks for, on port `n`. -/
def txOfEntry (s : State) (qid pos frame : Nat) (b : List Byte) (poisoned : Bool) : TxFrame :=
  let x := s.q qid
  let e := (s.entryAt qid pos).getD { pos := pos }
  { frame := frame, cls := x.cls, len := b.length + 4, bytes := b
    launch := if e.q1.testBit 24 then some (bits e.q1 32 32) else none
    lateTol := x.lateTol, owner := some (qid, pos)
    ts2 := e.q1.testBit 25, oneStep := e.q1.testBit 26
    ptpOff := bits e.q2 16 16, udpOff := bits e.q2 32 16, poisoned := poisoned }

/-- The work items of frame `h` still owe its delivery (R257). -/
def oweFrame (s : State) (h : Nat) : State :=
  { s with items := s.items.map fun it => if Nat.beq it.frame h then { it with owed := true } else it }

/-- The port and the transmit frame that a host-transmit frame, which leaves as `wire`, was meant for. -/
def txIntent (s : State) (r : RxFrame) (wire : List Byte) : Option (Nat × TxFrame) :=
  match r.owner with
  | some (qid, pos) => some ((s.q qid).port, s.txOfEntry qid pos r.frame wire r.poisoned)
  | none => r.orphan.map fun x => (x.1, { x.2 with bytes := wire, len := wire.length + 4 })

/-- R260 steps 4 to 7 of flow `i` on a frame that passed: R-TAG removal, sequence generation and
delivery to every destination. -/
def deliverFlow (s : State) (r : RxFrame) (i : Nat) (dei : Bool) : State :=
  let f := s.flow i
  let gen := f.has Ctx.gen
  let number := if gen then some (f.get Ctx.genSeq) else if hasRtag r.bytes then some (rtagSeq r.bytes)
    else none
  let s := if gen then s.setFlow i (f.set Ctx.genSeq (f.get Ctx.genSeq + 1)) else s
  let s := if !r.hostTx && Nat.blt r.source 12 then
      { s with flows := { s.flows with raised := s.flows.raised ++ [r.source] } } else s
  let plain := if f.has Ctx.rtagStrip then stripRtag r.bytes else r.bytes
  let marked := if dei then setDei plain else plain
  let wire := match f.has Ctx.rtagAdd, number with
    | true, some q => putRtag marked q
    | _, _ => marked
  let grown := Nat.blt r.bytes.length wire.length
  let dest := f.get Ctx.dest
  let split := f.get Ctx.split
  let hist := f.has Ctx.histEn && !r.hostTx
  let toPorts := r.hostTx || Nat.beq dest 2 || Nat.beq dest 3
  let intent := s.txIntent r wire
  let own := intent.map (·.1)
  let splitPorts := ([0, 1].filter fun n => split.testBit n).filter fun n => own != some n
  let ports : List Nat := if toPorts then
    (match own with
      | some n => n :: splitPorts
      | none => if split = 0 then [f.get Ctx.egPort] else splitPorts) else []
  let s := match r.owner with
    | some (qid, pos) => s.mapEntry qid pos fun e => { e with copies := ports.length, phase := .started }
    | none => s
  let s := if !r.hostTx && (Nat.beq dest 1 || Nat.beq dest 3) then
    (if s.rxqTakes (f.get Ctx.rxq) then
      s.toRxq (f.get Ctx.rxq)
        { frame := r.frame, bytes := plain, poisoned := r.poisoned, stamp := r.stamp, ts := r.ts
          source := r.source, flow := some i, hist := hist, rxUp := r.rxUp }
    else s.flowDropped (some i)) else s
  let s := ports.foldl (fun s n =>
    let base : TxFrame := match intent with
      | some (_, t) =>
        if own = some n then t
        else { t with ts2 := false, cls := if f.has Ctx.classValid then f.get Ctx.egClass else t.cls }
      | none => { frame := r.frame, len := wire.length + 4, bytes := wire, poisoned := r.poisoned
                  cls := if f.has Ctx.classValid then f.get Ctx.egClass else s.mapClass n wire }
    s.toPort n { base with flow := some i, hist := hist, rxUp := r.rxUp } grown) s
  let s := if toPorts && split.testBit 2 then
    s.toPair { frame := r.frame, bytes := wire, flow := some i, since := s.tb.uptime } else s
  let s := if !toPorts && Nat.beq dest 0 && !f.has Ctx.recEn then s.oweFrame r.frame else s
  if f.has Ctx.recEn then
    let s := s.holdCopy r.frame 1
    { s with recCopies := s.recCopies ++
      [{ frame := r.frame, stream := f.get Ctx.recStream, bytes := plain, source := r.source
         poisoned := r.poisoned, ts := r.ts, stamp := r.stamp, rxUp := r.rxUp }] }
  else s

/-- The frame goes where flow `j` says, and its hold ends. -/
def finishFlow (s : State) (r : RxFrame) (j : Nat) (dei : Bool) : State :=
  (s.deliverFlow r j dei).dropCopy r.frame

/-- The recovery function of flow `j` decides whether the frame goes where the flow says. -/
def recoverFinish (s : State) (r : RxFrame) (j : Nat) (dei : Bool) : State :=
  let (s, pass) := s.recover j r.bytes r.rxUp
  if pass then s.finishFlow r j dei else s.discard r 0x03 0x04

/-- Flow `i` recovers individually and its frame passed: the stream's own flow `j` takes it (R260). -/
def individualFinish (s : State) (r : RxFrame) (i j : Nat) (dei : Bool) : State :=
  let g := s.flow j
  if !g.has Ctx.valid || (g.has Ctx.rcv && s.frerIndividual (g.get Ctx.frerProf)) then
    (s.flowStat i Stat.dropped 1).discard r 0x03 0x04
  else if g.has Ctx.rcv then s.recoverFinish r j dei
  else s.finishFlow r j dei

/-- The frame of flow `i` passed its policer (R260). -/
def policedFinish (s : State) (r : RxFrame) (f : Flow) (i : Nat) (dei : Bool) : State :=
  if f.has Ctx.rcv && s.frerIndividual (f.get Ctx.frerProf) then
    let (s, pass) := s.recover i r.bytes r.rxUp
    if pass then s.individualFinish r i (f.get Ctx.rxq) dei else s.discard r 0x03 0x04
  else if f.has Ctx.rcv then s.recoverFinish r i dei
  else s.finishFlow r i dei

/-- What follows the policer of flow `i`: its context, whether the frame is red, and whether DEI is set. -/
def afterPolice (s : State) (r : RxFrame) (i : Nat) (x : Flow × Bool × Bool) : State :=
  let s := (s.setFlow i x.1).dispatchItem r i
  if x.2.1 then s.discard r 0x0B 0 else s.policedFinish r x.1 i x.2.2

/-- R260: flow `i` acts on a frame that matched it. -/
def runFlow (s : State) (r : RxFrame) (i : Nat) : State :=
  s.afterPolice r i (s.police ((s.flow i).countFrame r.len) r.len)

/-- R252: a frame that matches no flow. -/
def missed (s : State) (r : RxFrame) : State :=
  let s := (s.count Cnt.FLOW_LOOKUP_MISS).postFlow 0x06 (s.freeVal.toNat)
  let s := s.draw
  if r.hostTx then s.discard r 0x0A 0
  else
    let qid := s.fld (Reg.FLOW_MISS_RXQ r.source)
    let s := if s.flag (Reg.FLOW_MISS_TO_RXQ r.source) && s.rxqTakes qid then
      s.toRxq qid { frame := r.frame, bytes := r.bytes, poisoned := r.poisoned, stamp := r.stamp
                    ts := r.ts, source := r.source, unmatched := true, rxUp := r.rxUp }
      else s
    s.dropCopy r.frame

/-- A frame whose lookups are all in the cache is classified and handled (R250, R252). -/
def handle (s : State) (r : RxFrame) : State :=
  let s := s.touch (s.neededGroups r)
  match s.classify r with
  | some (i, byCam) =>
    let s := s.count Cnt.FLOW_LOOKUP_HIT
    (if byCam then s.count Cnt.FLOW_CAM_HIT else s).runFlow r i
  | none => s.missed r

/-- The keys that a frame is looked up by: partition and fingerprint. -/
def keysOf (s : State) (r : RxFrame) : List (Nat × Nat) := (s.lookups r).map fun x => (x.1, x.2.2)

/-- A frame may be classified now: its groups are in the cache, and no frame in `l`, which came before it and waits,
may belong to the same flow (R253, R254). -/
def mayClassify (s : State) (l : List RxFrame) (r : RxFrame) : Bool :=
  s.cached r && !(l.any fun x => (s.keysOf x).any (s.keysOf r).contains)

/-- A frame reaches the classifier (R253): where a group is absent, it waits for the fetch. -/
def classifyOrWait (s : State) (r : RxFrame) : State :=
  if s.mayClassify s.flows.wait r then s.handle r
  else { s with flows := { s.flows with wait := s.flows.wait ++ [r] } }

/-- The waiting frames that may be classified go on, oldest first. -/
def proceed (s : State) : State :=
  let r := s.flows.wait.foldl (fun (x : State × List RxFrame) r =>
    if x.1.mayClassify x.2 r then (x.1.handle r, x.2) else (x.1, x.2 ++ [r])) (s, [])
  { r.1 with flows := { r.1.flows with wait := r.2 } }

end State

end Sys2Proof.Machine
end

