-- ==== Sys2Proof/Machine/EngCore.lean ====
section
/-! DEFINITION. Engines and folios as shared operations: roles, stores, dispatch and the taking,
returning and retiring of work items; interrupts (R254, R344 to R347, R357 to R360, R369, R370). -/

namespace Sys2Proof.Machine

/-! ### Dispatch table entries (R358) -/

def entryAddr (v : Nat) : Nat := bits v 0 15
def entryValid (v : Nat) : Bool := v.testBit 15
def entryResume (v : Nat) : Nat := bits v 16 15
def entryHandler (v : Nat) : Bool := v.testBit 31
def entryBound (v : Nat) : Nat := bits v 32 16
def entryRole (v : Nat) : Nat := bits v 48 16

/-- A fault-free answer of a flow command: its result, the FLOW_IDX written back, and READ's image;
`later`: a DELETE that waits for its flow's work items. -/
structure FlowAnswer where
  result : Nat
  index : Nat
  image : List Byte := []
  later : Bool := false
  deriving DecidableEq, Repr

namespace State

/-! ### Engines -/

def eng (s : State) (e : Nat) : Engine := Table.get (fun _ => {}) s.engines.eng e

def setEng (s : State) (e : Nat) (g : Engine) : State :=
  { s with engines := { s.engines with eng := Table.set (fun _ => {}) s.engines.eng e g } }

/-- The role code engine `e` runs, and its STATE (R377). -/
def engRole (s : State) (e : Nat) : Nat := s.fld (Reg.ENG_ROLE_ROLE e)

def engState (s : State) (e : Nat) : Nat := s.fld (Reg.ENG_ROLE_STATE e)

def setEngState (s : State) (e v : Nat) : State := s.setFld (Reg.ENG_ROLE_STATE e) v

/-- Engine `e` runs an active role: it is no spare, not marked out and not in test. -/
def engActive (s : State) (e : Nat) : Bool :=
  !(Nat.beq (s.engState e) 3) && !(Nat.beq (s.engState e) 4) && !(Nat.beq (s.engState e) 6)

/-- The engines of folio `f`. -/
def folioEngines (f : Nat) : List Nat := (List.range 5).map fun k => 5 * f + k

/-- Engine `e` runs a privileged role (R367). -/
def engPriv (s : State) (e : Nat) : Bool := s.flag (Reg.ENG_ROLE_PRIV e)

/-! ### Stores (R344 to R347) -/

/-- The CODE records loaded in folio `f`. -/
def loadedIn (s : State) (f : Nat) : List CodeRec := Table.get (fun _ => []) s.imp.loaded (quireOf f)

/-- The bundle whose code folio `f` runs. -/
def bundleOf (s : State) (f : Nat) : Option CodeRec :=
  match Table.get (fun _ => 0) s.imp.bundle f with
  | 0 => none
  | k + 1 => ((s.loadedIn f).filter fun c => Nat.beq c.kind 1)[k]?

/-- The customer record of folio `f`. -/
def customerOf (s : State) (f : Nat) : Option CodeRec :=
  (s.loadedIn f).find? fun c => Nat.beq c.kind 3 && c.folioMask.getLsbD f

/-- The directory entry of a role in folio `f`: CLASS and private image (R344). -/
def roleEntry (s : State) (f role : Nat) : Option (Nat × Nat) :=
  ((s.bundleOf f).bind fun b => b.roleDir.find? fun x => Nat.beq x.1 role).map (·.2)

/-- CLASS of a role in folio `f`: bit 0 serves flows, bit 1 serves queues. -/
def roleClass (s : State) (f role : Nat) : Nat := ((s.roleEntry f role).map (·.1)).getD 0

/-- The word a list of stored words holds at an address; unlisted words are zero. -/
def wordAt (l : List (Nat × Nat)) (a : Nat) : Nat := ((l.find? fun x => Nat.beq x.1 a).map (·.2)).getD 0

/-- `v`, or what the last tip-in of folio `f` whose list `part` names `a` puts in its place (R86, R91): a tip-in
replaces the words and dispatch entries that it names. -/
def patched (s : State) (f : Nat) (part : CodeRec → List (Nat × Nat)) (a v : Nat) : Nat :=
  let l := (s.loadedIn f).filter fun c => Nat.beq c.kind 2 && c.folioMask.getLsbD f
  (l.reverse.findSome? fun c => ((part c).find? fun x => Nat.beq x.1 a).map (·.2)).getD v

/-- R346: the word engine `e` fetches at microaddress `a`; none from 0x5000 up. -/
def fetchWord (s : State) (e a : Nat) : Option Nat :=
  let f := folioOf e
  if a < 0x3000 then
    some (s.patched f (·.words) a (((s.bundleOf f).map fun b => wordAt b.words a).getD 0))
  else if a < 0x4000 then some (((s.customerOf f).map fun c => wordAt c.words a).getD 0)
  else if a < 0x5000 then
    some (match s.bundleOf f, s.roleEntry f (s.engRole e) with
      | some b, some r => s.patched f (·.privImages.getD r.2 []) (a - 0x4000)
          (wordAt (b.privImages.getD r.2 []) (a - 0x4000))
      | _, _ => 0)
  else none

/-- The dispatch table entry of opcode `op` in folio `f` (R358, R360). -/
def dispatchEntry (s : State) (f op : Nat) : Nat :=
  if 0xC0 ≤ op then ((s.customerOf f).map fun c => wordAt c.dispatch op).getD 0
  else s.patched f (·.dispatch) op (((s.bundleOf f).map fun c => wordAt c.dispatch op).getD 0)

/-- An active engine of folio `f` runs `role`; 0xFFFF means any active engine (R358). -/
def folioRuns (s : State) (f role : Nat) : Bool :=
  (folioEngines f).any fun e => s.engActive e && (Nat.beq role 0xFFFF || Nat.beq (s.engRole e) role)

/-- An active engine of folio `f` runs a role that serves flows (R259). -/
def folioServesFlows (s : State) (f : Nat) : Bool :=
  (folioEngines f).any fun e => s.engActive e && (s.roleClass f (s.engRole e)).testBit 0

/-! ### The end of a flow command (R278 to R283) -/

/-- FLOW_CAM_STATUS shows the CAM (R283). -/
def showCam (s : State) : State :=
  let n := s.flows.cam.length
  let s := s.setFld Reg.FLOW_CAM_STATUS_USED n
  if s.fld Reg.FLOW_CAM_STATUS_HIGH_WATER < n then s.setFld Reg.FLOW_CAM_STATUS_HIGH_WATER n else s

/-- A change of the number of valid flows of a partition. -/
def partCount (s : State) (p : Nat) (v : Nat) : State := s.setFld (Reg.FLOW_PART_COUNT_VALID_FLOWS p) v

/-- A work item of flow `i` has not finished: it is on its way, queued or held by an engine. -/
def inFlight (s : State) (i : Nat) : Bool :=
  (s.items.any fun it => it.flow == some i) ||
    (s.engines.queue.any fun p => p.2.any fun it => it.flow == some i) ||
    s.engines.eng.any fun p => p.2.item.any fun it => it.flow == some i

/-- Flow `i` is cleared and its way or CAM entry free (R279). -/
def removeFlow (s : State) (i : Nat) : State :=
  let part := (s.flow i).get Ctx.part
  let s := s.returnFlow i
  let s := s.setFlow i ((s.flow i).set Ctx.valid 0)
  let s := { s.storeFlow i with
    flows := { s.flows with cam := s.flows.cam.filter fun e => !(Nat.beq e.flow i) } }.showCam
  s.partCount part (s.fld (Reg.FLOW_PART_COUNT_VALID_FLOWS part) - 1)

/-- The mailbox waits for the block of its command (R283). -/
def mailboxReads (s : State) : Bool :=
  Nat.beq (s.fld Reg.FLOW_CMD_STATUS_STATE) 1 && !(s.flows.deletes.any fun d => d.src == .mailbox)

/-- The read of the mailbox's command block fails: BUS_ERROR (R283, R284). -/
def flowCmdFails (s : State) : State :=
  let s := { s with flows := { s.flows with cmdFunc := none } }
  ((s.setFld Reg.FLOW_CMD_STATUS_STATE 3).post 0x1801 (s.freeVal.toNat % 2 ^ 20)).draw

/-- The function a flow command came from may issue requests (R283, R451). -/
def cmdMayRequest (s : State) : CmdSrc → Bool
  | .mailbox => s.flows.cmdFunc.any fun fn => s.canRequest fn
  | .queue qid _ => s.canRequest (s.q qid).func

/-- RESULT, FLOW_IDX and READ's image are written to the command block. -/
def writeBack (s : State) (addr : Nat) (r : FlowAnswer) : State :=
  let s := (s.emit (.hostWrite (addr + 1) (leBytes 1 r.result))).emit
    (.hostWrite (addr + 4) (leBytes 4 r.index))
  if r.image.isEmpty then s else s.emit (.hostWrite (addr + 0x50) r.image)

/-- The results of a flow command are written back, and its mailbox or entry ends (R278, R283, R398). -/
def flowAnswer (s : State) (src : CmdSrc) (addr op : Nat) (r : FlowAnswer) (wbOk : Bool) : State :=
  let s := if wbOk then s.writeBack addr r else s
  match src with
  | .mailbox =>
    let s := (s.setFld Reg.FLOW_CMD_STATUS_RESULT r.result).setFld Reg.FLOW_CMD_STATUS_OP op
    let s := { s with flows := { s.flows with cmdFunc := none } }
    (s.setFld Reg.FLOW_CMD_STATUS_STATE (if wbOk then 2 else 3)).post 0x1801 (r.index % 2 ^ 20)
  | .queue qid pos => s.complete qid pos 0x00 r.result

/-- A work item of a flow has ended: a DELETE that waits for the last one is done (R279), once its results may be
written back (R451). -/
def settleDelete (s : State) (flow : Option Nat) : State :=
  match s.flows.deletes.find? fun d => flow == some d.flow with
  | none => s
  | some d =>
    if s.inFlight d.flow || (d.wbOk && !s.cmdMayRequest d.src) then s
    else
      let s := { s with flows := { s.flows with deletes := s.flows.deletes.erase d } }
      (s.removeFlow d.flow).flowAnswer d.src d.addr 3 { result := 0, index := d.flow } d.wbOk

/-! ### Aborts and the end of items (R370) -/

/-- A frame of a flow that nothing has delivered, policed or discarded is counted in DROPPED (R257). -/
def settleOwed (s : State) (it : WorkItem) : State := if it.owed then s.flowDropped it.flow else s

/-- A work item is retired by an abort. -/
def retireItem (s : State) (it : WorkItem) (detail : Nat) : State :=
  let s := match it.entry with
    | some (qid, pos) => s.complete qid pos 0x03 detail
    | none => s
  ((s.settleOwed it).dropCopy it.frame).settleDelete it.flow

/-- The response channel of engine `e` carries `n` flits to the hub (R33, R63). -/
def respondHub (s : State) (e n : Nat) : State := s.spineCross (spineKey (dieOf (quireOf (folioOf e))) 1 1) n

/-- That channel holds credit for them (R36). -/
def mayRespond (s : State) (e n : Nat) : Bool := s.spineHolds (spineKey (dieOf (quireOf (folioOf e))) 1 1) n

/-- R370, R377: an abort is counted, recorded in ENG_ABORT and posted. -/
def recordAbort (s : State) (e addr opcode cause : Nat) : State :=
  let s := s.count Cnt.ENG_ROUTINE_ABORT
  let s := if cause = 7 then s.count Cnt.ENG_DISPATCH_INVALID else s
  let s := ((s.setFld Reg.ENG_ABORT_LO_ADDR addr).setFld Reg.ENG_ABORT_LO_OPCODE opcode).setFld
    Reg.ENG_ABORT_LO_ENGINE e
  (s.setFld Reg.ENG_ABORT_HI_CAUSE cause).postLimited 0x1A03 (e % 256)

/-! ### Dispatch (R357 to R360) -/

def folioQueue (s : State) (f : Nat) : List WorkItem := Table.get (fun _ => []) s.engines.queue f

/-- Set a folio's dispatch queue and the depth it shows (R377). -/
def setFolioQueue (s : State) (f : Nat) (l : List WorkItem) : State :=
  let s := { s with engines := { s.engines with queue := Table.set (fun _ => []) s.engines.queue f l } }
  let s := s.setFld (Reg.ENG_FOLIO_DEPTH f) l.length
  if s.fld (Reg.ENG_FOLIO_HIGH_WATER f) < l.length then s.setFld (Reg.ENG_FOLIO_HIGH_WATER f) l.length
  else s

/-- R360: the folio has no valid entry for the item. -/
def dispatchInvalid (s : State) (f : Nat) (it : WorkItem) : Bool :=
  let v := s.dispatchEntry f it.opcode
  Nat.beq it.opcode 0 || !entryValid v || entryHandler v || !s.folioRuns f (entryRole v)

/-- No other engine of its folio holds an item with the same KEY (R359). -/
def keyFree (s : State) (e : Nat) (it : WorkItem) : Bool :=
  (folioEngines (folioOf e)).all fun k => Nat.beq k e ||
    (match (s.eng k).item with
      | some x => !(Nat.beq x.key it.key)
      | none => true)

/-- R359: engine `e` may take the item. -/
def mayTake (s : State) (e : Nat) (it : WorkItem) : Bool :=
  let role := entryRole (s.dispatchEntry (folioOf e) it.opcode)
  (Nat.beq role 0xFFFF || Nat.beq role (s.engRole e)) && s.keyFree e it

/-- R350, R359: engine `e` starts an item: bank 0 is zero but X29, and the routine begins at ENTRY or
RESUME. -/
def startItem (s : State) (e : Nat) (it : WorkItem) : State :=
  let v := s.dispatchEntry (folioOf e) it.opcode
  let resumed := !(Nat.beq it.progress 0)
  let it := { it with flags := setBit it.flags 1 resumed }
  let g := s.eng e
  let g := { g with
    bank0 := if resumed then [(29, BitVec.ofNat 64 it.progress)] else []
    stack := [], loc := [], item := some it, pc := if resumed then entryResume v else entryAddr v
    bound := entryBound v, words := 0, shadow := [], hub := [], ran := 0, results := [], flags := none
    parked := none, gate := false, stop := false, safe := false, replyOk := false }
  (s.setEng e g).setEngState e 1

/-- Engine `e` is idle: an active engine with no item and no handler, in a mode in which engines run (R48). -/
def engIdle (s : State) (e : Nat) : Bool :=
  s.operating && s.engActive e && !(Nat.beq (s.engState e) 5) && (s.eng e).item.isNone && !(s.eng e).handler

/-- R359: an idle engine takes the oldest item it may take; with a migration or an interrupt pending it
waits for its safe point (R366). -/
def takeItem (s : State) (e : Nat) : State :=
  let g := s.eng e
  if s.engIdle e && !g.migrate && decide (g.ints = 0) then
    let f := folioOf e
    let l := s.folioQueue f
    match l.find? (s.mayTake e) with
    | none => s
    | some it => (s.setFolioQueue f (l.erase it)).startItem e it
  else s

/-- Every idle engine of folio `f` takes what it may. -/
def takeAll (s : State) (f : Nat) : State := (folioEngines f).foldl (fun s e => s.takeItem e) s

/-- A work item reaches folio `f` (R254, R359): retired where the folio has no entry for it (R360). -/
def arriveAt (s : State) (f : Nat) (it : WorkItem) : State :=
  if s.dispatchInvalid f it then
    let s := s.retireItem it 0x01
    let addr := s.freeVal.toNat % 2 ^ 15
    let s := s.draw
    let e := s.freeVal.toNat % 160
    s.draw.recordAbort e addr it.opcode 7
  else (s.setFolioQueue f (s.folioQueue f ++ [it])).takeAll f

/-- The engine's item ends: its hold on the frame is released over the response channel (R63) and what was not
committed is lost. -/
def endItem (s : State) (e : Nat) : State :=
  let g := s.eng e
  let s := match g.item with
    | some it => ((s.settleOwed it).respondHub e 1).dropCopy it.frame
    | none => s
  (s.setEng e { g with
    item := none, shadow := [], hub := [], ran := 0, results := [], flags := none, parked := none
    handler := false, hShadow := [], hHub := [], hParked := none }).setEngState e 0
    |>.settleDelete (g.item.bind (·.flow))

/-- R370: the routine of engine `e` aborts. -/
def abort (s : State) (e cause : Nat) : State :=
  let g := s.eng e
  let opcode := (g.item.map (·.opcode)).getD 0
  let s := s.recordAbort e (g.pc % 2 ^ 15) opcode cause
  let s := match g.item with
    | some it => (s.retireItem it 0x01).setEng e { g with item := some { it with frame := 0, owed := false } }
    | none => s
  ((s.endItem e).setEng e { (s.endItem e).eng e with safe := true }).takeItem e

/-! ### Returning items (R43, R91, R375) -/

/-- The item engine `e` holds, as it returns: with its last committed progress word. -/
def heldItem (s : State) (e : Nat) : Option WorkItem :=
  (s.eng e).item.map fun it => { it with flags := setBit it.flags 1 false }

/-- Engine `e` stops and drops its item and its shadow; its interrupts stay raised. -/
def clearEngine (s : State) (e : Nat) : State :=
  s.setEng e { s.eng e with
    item := none, shadow := [], hub := [], ran := 0, results := [], flags := none, parked := none
    handler := false, hShadow := [], hHub := [], hParked := none, safe := true }

/-- Every item held or queued in folio `f` returns to the hub (counted), in order (R43). -/
def drainFolio (s : State) (f : Nat) : State :=
  let held := (folioEngines f).filterMap s.heldItem
  let items := held ++ s.folioQueue f
  let s := (folioEngines f).foldl (fun s e =>
    if s.engActive e then (s.clearEngine e).setEngState e 0 else s) s
  ((s.setFolioQueue f []).countN Cnt.ENG_ITEMS_RETURNED items.length).returnItems (quireOf f) items

/-- The flows lent to quire `q` come back to the hub with their state (R43, R255). -/
def returnLent (s : State) (q : Nat) : State := (s.lentTo q).foldl (fun s i => s.returnFlow i) s

/-- R43: the flows and work of quire `q` migrate to its paired quire: what it had not committed returns to the hub,
which sends it on. -/
def migrateOut (s : State) (q : Nat) : State :=
  let s := { s with units := { s.units with carried := s.units.carried ||| 1#16 <<< q } }
  (((s.returnLent q).drainFolio (2 * q)).drainFolio (2 * q + 1)).recallItems q

/-- The work of quire `q` migrates back from its paired quire (R91, R126): its flows are returned, and its items
that the paired quire has queued go by way of the hub. -/
def migrateBack (s : State) (q : Nat) : State :=
  let pair := (s.imp.image.map fun i => i.struct.pair.getD q 16).getD 16
  let s := { s with units := { s.units with carried := s.units.carried &&& ~~~(1#16 <<< q) } }
  let mine (it : WorkItem) : Bool := Nat.beq (quireOf it.folio) q
  let back := [2 * pair, 2 * pair + 1].flatMap fun f =>
    (s.folioQueue f).filter mine
  let s := (s.lentTo pair).foldl (fun s i =>
    if quireOf ((s.flow i).get Ctx.folio) = q then s.returnFlow i else s) s
  let s := [2 * pair, 2 * pair + 1].foldl (fun s f =>
    s.setFolioQueue f ((s.folioQueue f).filter fun it => !mine it)) s
  (s.returnItems pair back).recallItems q

/-! ### Interrupts (R369) -/

/-- Raise an interrupt, by its opcode, on engine `e`. -/
def raiseInt (s : State) (e op : Nat) : State :=
  let g := s.eng e
  s.setEng e { g with ints := g.ints ||| 1#16 <<< op }

/-- Raise an interrupt on every active engine of folio `f` that runs one of `roles`. -/
def raiseRoles (s : State) (f op : Nat) (roles : List Nat) : State :=
  (folioEngines f).foldl (fun s e =>
    if s.engActive e && roles.contains (s.engRole e) then s.raiseInt e op else s) s

/-- R366, R369: the engine takes its highest pending interrupt, or discards and counts it where the
folio has no valid handler entry. -/
def takeInt (s : State) (e : Nat) : State :=
  let g := s.eng e
  match lowestBit 16 g.ints.toNat with
  | none => s
  | some op =>
    let v := s.dispatchEntry (folioOf e) op
    let g := { g with ints := g.ints &&& ~~~(1#16 <<< op) }
    if entryValid v && entryHandler v then
      let g := { g with
        handler := true, hret := g.pc, pc := entryAddr v, hShadow := [], hHub := [], hSafe := g.safe
        safe := false, hParked := none, ran := 0, results := [] }
      ((s.setEng e g).setEngState e 1).count Cnt.ENG_HANDLERS
    else (s.setEng e g).count Cnt.ENG_HANDLER_DISCARDED

end State

/-- The item that comes next off the link of folio `f`'s die, those apart that their spine stops hold because
their folio's queue is full (R34, R359). -/
def State.nextOnLink (s : State) (f : Nat) : Option WorkItem :=
  s.items.find? fun it => it.link == some (dieOf (quireOf f)) &&
    Nat.blt (s.folioQueue (s.servingFolio it.folio)).length 256

/-- A work item sent over the spine reaches its folio's dispatch queue (R254, R359), in the order in which the
items of its link were sent; while that queue is full, the spine stop holds it. -/
def execWorkItemArrival (folio : Fin 32) (s : State) : Out State :=
  .next (match s.nextOnLink folio with
    | none => s
    | some it =>
      if s.servingFolio it.folio = folio.val then
        ({ s with items := s.items.erase it }.leaveSpine it).arriveAt folio { it with link := none }
      else s)

end Sys2Proof.Machine
end

