-- ==== Sys2Proof/Machine/FlowCmd.lean ====
section
/-! DEFINITION. The flow table's own happenings: cache fills, checkpoints, returns and sweeps, the flow
commands and their results, profile commits and the pair link's frame copies (R253 to R259, R272,
R278 to R284, R398, R521). -/

namespace Sys2Proof.Machine

/-- The fields INSERT and MODIFY take from CONTEXT (R279): 0x08 but VALID and PART, POL_PROF, FRER_PROF,
FOLIO and OPCODE. -/
def Flow.takeFields (f : Flow) (context : Nat) : Flow :=
  let c : Flow := { ctx := context }
  let g := { f with ctx := putBits f.ctx 71 57 (bits context 71 57) }
  let g := { g with ctx := putBits g.ctx 92 4 0 }
  (((g.set Ctx.polProf (c.get Ctx.polProf)).set Ctx.frerProf (c.get Ctx.frerProf)).set Ctx.folio
    (c.get Ctx.folio)).set Ctx.opcode (c.get Ctx.opcode)

/-- R280: fields of the key record that KEY_MASK leaves out are zero, with the reserved bytes. -/
def keyFieldsOk (mask : Nat) (key : List Byte) : Bool :=
  let zero (off n : Nat) : Bool := ((key.drop off).take n).all fun b => b == 0#8
  let field (bit off n : Nat) : Bool := mask.testBit bit || zero off n
  field 0 1 1 && field 1 2 2 && field 4 4 2 && field 5 6 2 && field 2 8 6 && field 3 14 6 &&
    field 6 20 6 && zero 26 6 && field 6 32 32

/-- R280: the SOURCE of a key is one its partition's PORT_MASK names. -/
def keySourceOk (p : FlowPart) (key : List Byte) : Bool :=
  let source := (key.getD 1 0).toNat
  !p.keyMask.testBit 0 ||
    ((Nat.ble source 12 || (Nat.ble 16 source && Nat.ble source 27)) &&
      p.portMask.testBit (State.sourceBit source))

namespace State

/-! ### Validity of a flow (R259) -/

/-- OPCODE names an entry of its folio that a flow may use. -/
def flowEntryOk (s : State) (folio opcode : Nat) : Bool :=
  let v := s.dispatchEntry folio opcode
  Nat.ble 0x10 opcode && entryValid v && !entryHandler v &&
    ((Nat.beq (entryRole v) 0xFFFF && s.folioServesFlows folio) ||
      (!(Nat.beq (entryRole v) 0xFFFF) && (s.roleClass folio (entryRole v)).testBit 0))

/-- R259: 0 where the context is valid, else the result that refuses it. -/
def contextResult (s : State) (context : Nat) : Nat :=
  let c : Flow := { ctx := context }
  let hlen := s.frerHlen (c.get Ctx.frerProf)
  let rcv := c.has Ctx.rcv
  let long := c.has Ctx.extLayout
  if 11 < c.get Ctx.egPort then 6
  else if s.folioServesFlows (c.get Ctx.folio) = false then 6
  else if s.flowEntryOk (c.get Ctx.folio) (c.get Ctx.opcode) = false then 6
  else if rcv && !(Nat.ble 2 hlen && Nat.ble hlen 1024) then 6
  else if c.has Ctx.histEn && (long || Nat.blt 576 hlen) then 7
  else if rcv && !long && Nat.blt 576 hlen then 7
  else if c.has Ctx.rtagAdd && !c.has Ctx.gen && !rcv then 6
  else if c.get Ctx.split ≠ 0 ∧ c.get Ctx.dest < 2 then 6
  else 0

/-! ### Slots (R249, R251, R279) -/

/-- The free flows of bucket `b` of a partition. -/
def freeWays (s : State) (p : FlowPart) (b : Nat) : List Nat :=
  ((List.range 4).map fun w => p.base + 4 * b + w).filter fun i => !(s.flow i).has Ctx.valid

/-- The lowest member of a list. -/
def lowest : List Nat → Option Nat
  | [] => none
  | a :: t => some (t.foldl min a)

/-- R279: where a flow of fingerprint `h` goes, and whether it takes a CAM entry. -/
def slotFor (s : State) (p : FlowPart) (h : Nat) : Option (Nat × Bool) :=
  let bp := p.count / 4
  let (a, b) := candidates h p.count
  let wa := if bp = 0 then [] else s.freeWays p a
  let wb := if bp = 0 then [] else s.freeWays p b
  let best := if wa.length < wb.length then wb else wa
  match lowest best with
  | some i => some (i, false)
  | none =>
    if 4096 ≤ s.flows.cam.length then none else
      let beyond := ((List.range (p.count % 4)).map fun k => p.base + 4 * bp + k).filter
        fun i => !(s.flow i).has Ctx.valid
      let near := if bp = 0 then [] else
        (List.range 64).flatMap fun k => s.freeWays p ((a + 1 + k) % bp)
      ((lowest beyond).or (lowest near)).map fun i => (i, true)

/-- The CAM takes an entry. -/
def addCam (s : State) (e : CamEntry) : State := { s with flows := { s.flows with cam := s.flows.cam ++ [e] } }

/-! ### The commands (R279) -/

/-- INSERT: a key that passed its tests goes in. -/
def insertFlow (s : State) (part : Nat) (p : FlowPart) (key : List Byte) (context : Nat) :
    State × FlowAnswer :=
  let h := s.fingerprint key
  match s.lookupIn part p h with
  | some (i, _) => (s, { result := if s.isDeleting i then 8 else 1, index := i })
  | none =>
    let bad := s.contextResult context
    let none_ := s.freeVal.toNat % 2 ^ 32
    if bad ≠ 0 then (s.draw, { result := bad, index := none_ })
    else match s.slotFor p h with
      | none => (s.draw.post 0x1804 (none_ % 2 ^ 20), { result := 2, index := none_ })
      | some (i, byCam) =>
        let f := ((({} : Flow).takeFields context).set Ctx.fingerprint h).set Ctx.valid 1
        let f := (f.set Ctx.part part).set Ctx.takeAny 1
        let k := f.get Ctx.polProf
        let f := ((f.set Ctx.cLevel (s.pol k 2 0 24)).set Ctx.pLevel (s.pol k 3 0 24)).set Ctx.polTime
          (s.tb.uptime % 2 ^ 32)
        -- What a new flow's recovery and latent clocks hold is not stated: free values.
        let f := (f.set Ctx.passUs s.freeVal.toNat).set Ctx.leTestUs (s.freeVal.toNat / 2 ^ 32)
        let s := s.draw
        let f := f.set Ctx.rcvSeq s.freeVal.toNat
        let s := (s.draw.setFlow i f).storeFlow i
        let s := if byCam then (s.addCam ⟨part, h, i⟩).showCam else s
        (s.partCount part (s.fld (Reg.FLOW_PART_COUNT_VALID_FLOWS part) + 1), { result := 0, index := i })

/-- What a command has made of flow `i` stands in its checkpoint, where it is lent, and in DRAM (R255). -/
def keepFlow (s : State) (i : Nat) : State :=
  if (s.flow i).lent.isSome then s.checkpoint i else s.storeFlow i

/-- MODIFY of flow `i`; one that moves it to another folio has it returned, once its items there have finished
(R282). -/
def modifyFlow (s : State) (i context : Nat) (resetState : Bool) : State × FlowAnswer :=
  let bad := s.contextResult context
  if bad ≠ 0 then (s, { result := bad, index := i })
  else
    let f := s.flow i
    let g := f.takeFields context
    let a := f.get Ctx.frerProf
    let b := g.get Ctx.frerProf
    let reset := resetState ||
      (!(Nat.beq a b) && (!(Nat.beq (s.frerHlen a) (s.frerHlen b)) || s.frerMatch a != s.frerMatch b))
    let moved := !(Nat.beq (f.get Ctx.folio) (g.get Ctx.folio)) && !s.inFlight i
    let g := if f.has Ctx.extLayout == g.has Ctx.extLayout then g
      else { g with ext := f.relayExt (s.frerHlen b) }
    let s := (s.setFlow i (if reset then g.recoveryReset else g)).keepFlow i
    (if moved then s.returnFlow i else s, { result := 0, index := i })

/-- DELETE of flow `i`: at once where no work item of it is in flight, else when the last has finished. -/
def deleteFlow (s : State) (i : Nat) : State × FlowAnswer :=
  if s.inFlight i then (s, { result := 0, index := i, later := true })
  else (s.removeFlow i, { result := 0, index := i })

/-- READ of flow `i`: the three parts in one image, and with CLEAR the statistics and histogram
zeroed. -/
def readFlow (s : State) (i : Nat) (clear : Bool) : State × FlowAnswer :=
  let f := (s.flow i).fold
  let g := if clear then
    { f with stats := 0, ext := if f.has Ctx.extLayout then f.ext else putBits f.ext 0 512 0 } else f
  ((s.setFlow i g).keepFlow i,
    { result := 0, index := i, image := leBytes 64 f.ctx ++ leBytes 64 f.stats ++ leBytes 128 f.ext })

/-- GEN_RESET of flow `i`. -/
def genReset (s : State) (i : Nat) : State × FlowAnswer :=
  ((s.setFlow i (((s.flow i).set Ctx.genSeq 0).addStat Stat.genRestarts 1)).keepFlow i,
    { result := 0, index := i })

/-- The command of a block, run at one instant (R279 to R281). -/
def runFlowCmd (s : State) (b : FlowBlock) : State × FlowAnswer :=
  let open_ := s.freeVal.toNat % 2 ^ 32
  let part := b.part.toNat
  let byIndex := b.flags.getLsbD 0 && !(Nat.beq b.op.toNat 1)
  let key := leBytes 64 b.key.toNat
  if b.op.toNat = 0 ∨ 6 < b.op.toNat then (s.draw, { result := 9, index := open_ })
  else match s.flowPart? part with
    | none => (s.draw, { result := 4, index := if byIndex then b.flowIdx.toNat else open_ })
    | some p =>
      if !byIndex && !(keyFieldsOk p.keyMask key && keySourceOk p key &&
          Nat.beq (key.getD 0 0).toNat part) then (s.draw, { result := 5, index := open_ })
      else if b.op = 1 then s.insertFlow part p key b.context.toNat
      else
        let found := if byIndex then
          (let f := s.flow b.flowIdx.toNat
           if f.has Ctx.valid && Nat.beq (f.get Ctx.part) part then some b.flowIdx.toNat else none)
          else (s.lookupIn part p (s.fingerprint key)).map (·.1)
        match found with
        | none => (s.draw, { result := 3, index := if byIndex then b.flowIdx.toNat else open_ })
        | some i =>
          if s.isDeleting i then (s, { result := 8, index := i })
          else if b.op = 2 then s.modifyFlow i b.context.toNat (b.flags.getLsbD 2)
          else if b.op = 3 then s.deleteFlow i
          else if b.op = 4 then s.readFlow i (b.flags.getLsbD 1)
          else if b.op = 5 then
            ((s.setFlow i (s.flow i).recoveryReset).keepFlow i, { result := 0, index := i })
          else s.genReset i

/-! ### Where commands come from (R281, R283, R398) -/

/-- Entry `pos` of a command queue is the next whose block read may end: it awaits its block and no
earlier entry does (R281). -/
def cmdEntry (s : State) (qid pos : Nat) : Option Entry :=
  if (s.q qid).kind = 5 then
    (match (s.q qid).entries.find? fun e => e.phase == .body with
      | some e => if e.pos = pos then some e else none
      | none => none)
  else none

/-- The mailbox or the entry waits for the block of a flow command, and its function may issue requests (R451). -/
def awaits (s : State) (src : CmdSrc) : Bool :=
  s.cmdMayRequest src && match src with
    | .mailbox => s.mailboxReads
    | .queue qid pos => (s.cmdEntry qid pos).any fun e => Nat.beq e.ckind 1

/-- The address of the command block. -/
def blockAddr (s : State) : CmdSrc → Nat
  | .mailbox => s.rd64 Reg.FLOW_CMD_ADDR_LO
  | .queue qid pos => ((s.entryAt qid pos).map (·.q0)).getD 0

/-- A flow command runs: counted, its results written back, its mailbox or entry ended (R278, R283,
R398).  `wbOk` is whether the write-back succeeds. -/
def runBlock (s : State) (src : CmdSrc) (b : FlowBlock) (wbOk : Bool) : State :=
  if s.awaits src then
    let addr := s.blockAddr src
    let (s, r) := (s.count Cnt.FLOW_COMMANDS).runFlowCmd b
    if r.later then
      let s := { s with flows := { s.flows with deletes := s.flows.deletes ++ [⟨r.index, src, addr, wbOk⟩] } }
      (match src with
        | .mailbox => s
        | .queue qid pos => s.mapEntry qid pos fun e => { e with phase := .started })
    else s.flowAnswer src addr b.op.toNat r wbOk
  else s

/-- The quire that serves queue `qid` now: its home quire, or the pair that carries its work (R43). -/
def servingQuire (s : State) (qid : Nat) : Nat :=
  quireOf (s.servingFolio (2 * s.homeQuire qid))

/-- A role command is offered to the engines that run its role in the home quire (R398). -/
def offerRole (s : State) (qid pos : Nat) (role : Nat) : State :=
  let q := s.servingQuire qid
  if s.folioRuns (2 * q) role || s.folioRuns (2 * q + 1) role then
    ((s.mapEntry qid pos fun e => { e with phase := .started }).raiseRoles (2 * q) 4 [role]).raiseRoles
      (2 * q + 1) 4 [role]
  else s.complete qid pos 0x03 0x03

/-- The read of a command block ends (R390, R398, R283): the function may have none while it must not issue
requests (R451). -/
def cmdBlockRead (s : State) (src : CmdSrc) (fin : ReadEnd) (b : FlowBlock) (wbOk : Bool) : State :=
  match src with
  | .mailbox =>
    if s.awaits src = false then s
    else if fin = .good then s.runBlock src b wbOk
    else s.flowCmdFails
  | .queue qid pos =>
    match s.cmdEntry qid pos with
    | none => s
    | some e =>
      if s.cmdMayRequest src = false then s
      else if fin = .refused then s.halt qid pos 0x07 0x03
      else if fin = .poisoned then s.halt qid pos 0x07 0x04
      else if e.ckind = 1 then s.runBlock src b true
      else s.offerRole qid pos e.role

/-! ### The cache and lent flows (R253, R255, R272) -/

/-- The base contexts of a group that leaves the cache are written to DRAM, where they differ from what stands
there. -/
def evict (s : State) (g : Nat × Nat) : State :=
  let first := ((s.flowPart? g.1).elim 0 (·.base)) + 4 * g.2
  ((List.range 4).map (first + ·)).foldl (fun s i =>
    let addr := s.flowBucket i + 64 * (i % 4)
    if (s.dramRead addr 64).1 = leBytes 64 (s.flow i).ctx then s else s.storeContext i) s

/-- A bucket group that a waiting frame needs arrives in the flow cache; the least recently used group beyond 65,536
leaves. -/
def cacheFill (s : State) (part bucket : Nat) : State :=
  if s.flows.cache.contains (part, bucket) ∨
      (s.flows.wait.any fun r => (s.neededGroups r).contains (part, bucket)) = false then s else
    let s := (s.flows.cache.drop 65535).foldl (fun s g => s.evict g) s
    ({ s with flows := { s.flows with
        cache := (part, bucket) :: s.flows.cache.take 65535 } }.count Cnt.FLOW_CACHE_FILL).proceed

/-- The work item of a sweep of flow `i`, as its context `f` names it (R272). -/
def sweepItem (s : State) (i : Nat) (f : Flow) : State :=
  let item : WorkItem :=
    { folio := f.get Ctx.folio, opcode := f.get Ctx.opcode, kind := 3, key := i, seq := s.itemSeq
      arrivalUs := s.upUs, flow := some i }
  { s with items := s.items ++ [item], itemSeq := (s.itemSeq + 1) % 2 ^ 32 }.sendItems

/-- R272: a sweep visits valid flow `i`: recovery timeout, policer refill, latent test.  It waits for the frames that
arrived before it and whose lookups may find the flow. -/
def sweepFlow (s : State) (i : Nat) : State :=
  let f := s.flow i
  let key := (f.get Ctx.part, f.get Ctx.fingerprint)
  if f.has Ctx.valid = false ∨ (s.flows.wait.any fun r => (s.keysOf r).contains key) then s else
    let timeout := f.has Ctx.rcv && s.recoveryTimeout f s.upUs
    let g := s.refill (if timeout then f.recoveryReset else f)
    let x := if g.has Ctx.rcv then s.latentTest g else (g, false)
    let s := s.setFlow i x.1
    let s := if timeout then s.postFlow 0x03 i else s
    (if x.2 then s.postFlow 0x02 i else s).sweepItem i x.1

/-! ### Profiles (R282, R283) -/

/-- A field of staged word `a`. -/
def stagedBits (s : State) (a lo width : Nat) : Nat := bits (s.staged a).toNat lo width

/-- R283: the staged FRER profile is in range. -/
def frerStagedOk (s : State) (k : Nat) : Bool :=
  let w := Reg.FLOW_FRER_PROF_W0 k
  let hlen := s.stagedBits w 0 11
  Nat.beq hlen 0 ||
    (Nat.ble 2 hlen && Nat.ble hlen 1024 && Nat.ble 1 (s.stagedBits w 16 16) &&
      (Nat.beq (s.stagedBits w 14 1) 0 ||
        (Nat.ble 1 (s.stagedBits (w + 4) 16 3) && Nat.ble 1 (s.stagedBits (w + 8) 0 16) &&
          Nat.ble 1 (s.stagedBits (w + 8) 16 8))))

/-- A valid flow uses FRER profile `k`. -/
def frerInUse (s : State) (k : Nat) : Bool :=
  s.flows.table.any fun p => p.2.has Ctx.valid && p.2.has Ctx.rcv && Nat.beq (p.2.get Ctx.frerProf) k

/-- A commit of FRER profile `k` (R282, R283). -/
def commitFrer (s : State) (k : Nat) : State :=
  let w := Reg.FLOW_FRER_PROF_W0 k
  let changes := !(Nat.beq (s.stagedBits w 0 13) (bits (s.rd w).toNat 0 13))
  if s.frerStagedOk k = false then s.dropStaged w 4
  else if changes && s.frerInUse k then
    ((s.dropStaged w 4).count Cnt.FLOW_PROF_REFUSED).post 0x1807 (k % 256)
  else s.commitWords w 4

/-- A commit of policer profile `k` (R283). -/
def commitPolicer (s : State) (k : Nat) : State :=
  let w := Reg.FLOW_POL_PROF_W0 k
  let cir := s.stagedBits w 0 25
  let pir := s.stagedBits (w + 4) 0 25
  if Nat.ble cir pir && Nat.ble pir 25000000 && Nat.ble 1522 (s.stagedBits (w + 8) 0 24) &&
      Nat.ble 1522 (s.stagedBits (w + 12) 0 24) && !(Nat.beq (s.stagedBits (w + 12) 24 2) 3)
  then s.commitWords w 4
  else s.dropStaged w 4

/-! ### The pair link's frame copies (R521) -/

/-- A frame copy arrives over a lane: stamped at the pair link's receive MII, classified as source 12. -/
def pairReceive (s : State) (lane : Nat) (b : List Byte) (ageNs : Nat) : State :=
  if s.operating && s.pairLink.lanes.getLsbD lane && s.flag Reg.GUARD_PAIR_CTRL_ENABLE &&
      Nat.ble (cellsFor (b.length + 4)) s.cells.free then
    let h := s.nextFrame
    let s := (s.allocFrame (b.length + 4) none 0).holdCopy h 1
    s.classifyOrWait
      { frame := h, source := 12, bytes := b, len := b.length + 4, ts := s.statusAt ageNs
        stamp := Full.ofTicks ((s.pastAt ageNs).1 / 2 ^ 16), rxUp := s.tb.uptime - ageNs }
  else s

/-- The copies that have waited 20 µs without credit are dropped. -/
def pairTimeout (s : State) : State :=
  let late (c : PairCopy) : Bool := Nat.ble (c.since + 20000) s.tb.uptime
  let gone := s.pairLink.copies.filter late
  let s := { s with pairLink := { s.pairLink with copies := s.pairLink.copies.filter fun c => !late c } }
  gone.foldl (fun s c => (s.flowDropped c.flow).dropCopy c.frame) s

end State

/-- A fetched bucket group arrives in the flow cache (R253). -/
def execFlowCacheFill (part : BitVec 6) (bucket : BitVec 18) (s : State) : Out State :=
  .next (s.cacheFill part.toNat bucket.toNat)

/-- A lent flow is checkpointed (R255): its quire holds the credit to write it to the hub. -/
def execFlowCheckpoint (flow : BitVec 20) (s : State) : Out State :=
  .next (match (s.flow flow.toNat).lent with
    | some q => if s.flowMayCross (dieOf q) then (s.flowCrosses (dieOf q)).checkpoint flow.toNat else s
    | none => s)

/-- A lent flow idle for IDLE_US is returned (R255): its quire holds the credit to write it to the hub. -/
def execFlowIdleReturn (flow : BitVec 20) (s : State) : Out State :=
  .next (if (s.flow flow.toNat).lent.any (fun q => s.flowMayCross (dieOf q)) &&
      Nat.ble ((s.flow flow.toNat).lastItem + s.fld Reg.FLOW_LEND_IDLE_US * 1000) s.tb.uptime
    then s.returnFlow flow.toNat else s)

/-- A sweep visits a flow (R272). -/
def execFlowSweep (flow : BitVec 20) (s : State) : Out State := .next (s.sweepFlow flow.toNat)

/-- The read of a command block completes or fails (R398, R283). -/
def execCmdBlockRead (src : CmdSrc) (fin : ReadEnd) (block : FlowBlock) (wbOk : Bool) (s : State) :
    Out State :=
  .next (s.cmdBlockRead src fin block wbOk)

/-- Flow command INSERT, from `src` (R279). -/
def execInsert (src : CmdSrc) (part : BitVec 8) (key context : BitVec 512) (s : State) : Out State :=
  .next (s.runBlock src { op := 1, part := part, key := key, context := context } true)

/-- Flow command MODIFY. -/
def execFlowModify (src : CmdSrc) (part flags : BitVec 8) (flowIdx : BitVec 32)
    (key context : BitVec 512) (s : State) : Out State :=
  .next (s.runBlock src
    { op := 2, part := part, flags := flags, flowIdx := flowIdx, key := key, context := context } true)

/-- Flow command DELETE. -/
def execDelete (src : CmdSrc) (part flags : BitVec 8) (flowIdx : BitVec 32) (key : BitVec 512)
    (s : State) : Out State :=
  .next (s.runBlock src { op := 3, part := part, flags := flags, flowIdx := flowIdx, key := key } true)

/-- Flow command READ. -/
def execRead (src : CmdSrc) (part flags : BitVec 8) (flowIdx : BitVec 32) (key : BitVec 512)
    (s : State) : Out State :=
  .next (s.runBlock src { op := 4, part := part, flags := flags, flowIdx := flowIdx, key := key } true)

/-- Flow command RECOVERY_RESET. -/
def execFlowRecoveryReset (src : CmdSrc) (part flags : BitVec 8) (flowIdx : BitVec 32)
    (key : BitVec 512) (s : State) : Out State :=
  .next (s.runBlock src { op := 5, part := part, flags := flags, flowIdx := flowIdx, key := key } true)

/-- Flow command GEN_RESET. -/
def execGenReset (src : CmdSrc) (part flags : BitVec 8) (flowIdx : BitVec 32) (key : BitVec 512)
    (s : State) : Out State :=
  .next (s.runBlock src { op := 6, part := part, flags := flags, flowIdx := flowIdx, key := key } true)

/-- A write of a FRER profile's W3 (R282, R283). -/
def execFrerProfileCommit (profile : BitVec 8) (s : State) : Out State :=
  .next (s.commitFrer profile.toNat)

/-- A write of a policer profile's W3 (R283). -/
def execPolicerProfileCommit (profile : BitVec 12) (s : State) : Out State :=
  .next (s.commitPolicer profile.toNat)

/-- A frame copy arrives over the pair link, its delimiter `ageNs` ago (R521). -/
def execPairLinkFrameReceive (lane : Fin 2) (bytes : List Byte) (ageNs : Nat) (s : State) : Out State :=
  .next (s.pairReceive lane bytes ageNs)

/-- Pair-link copies have waited 20 µs for credit (R521). -/
def execPairCopyTimeout (s : State) : Out State := .next s.pairTimeout

/-- A write of FLOW_CMD_CTRL.GO by PF0 or PF3 (R283): ignored while BUSY. -/
def execFlowCmdGo (pf3 : Bool) (s : State) : Out State :=
  .next (if s.fld Reg.FLOW_CMD_STATUS_STATE = 1 then s else
    { s.setFld Reg.FLOW_CMD_STATUS_STATE 1 with
      flows := { s.flows with cmdFunc := some (if pf3 then 3 else 0) } })

end Sys2Proof.Machine
end

