-- ==== Sys2Proof/Machine/Sched.lean ====
section
/-! DEFINITION. Scheduled transmission (R170 to R213): headers, launches, the start and end of a
frame, gate entries, shaper slopes, holds and the change of a gate list. -/

namespace Sys2Proof.Machine

/-! ### One-step insertion (R156) -/

/-- `b` with `v` written from `off`; bytes beyond the frame are not written. -/
def overwrite (b : List Byte) (off : Nat) (v : List Byte) : List Byte :=
  (b.take off ++ v.take (b.length - off) ++ b.drop (off + v.length)).take b.length

/-- The ones' complement sum of the 16-bit words of `b` (network order). -/
def onesSum : List Byte → Nat
  | a :: b :: t => (a.toNat * 256 + b.toNat + onesSum t) % 65535
  | [a] => a.toNat * 256
  | [] => 0

/-- The frame with originTimestamp and correctionField of the PTP header at `ptp`, and the two bytes
at `udp` (0: none) that keep the UDP checksum correct. -/
def oneStepFrame (b : List Byte) (ptp udp : Nat) (stamp : Full) : List Byte :=
  let corr := leNat ((b.drop (ptp + 8)).take 8).reverse
  let c := overwrite b (ptp + 8) (beBytes 8 (corr + stamp.frac))
  let c := overwrite c (ptp + 34) (beBytes 6 stamp.sec ++ beBytes 4 stamp.ns)
  if udp = 0 then c else
    let z := overwrite c udp [0, 0]
    let old := onesSum b
    let v := (old + 65535 - onesSum z) % 65535
    overwrite z udp (beBytes 2 v)

namespace State

/-- Copy the registers from `src` to `dst`, `len` bytes of them, both reading 0 where unlisted. -/
def copyRegs (s : State) (src dst len : Nat) : State :=
  let moved := s.regs.filter fun p => Nat.ble src p.1 && Nat.blt p.1 (src + len)
  let kept := s.regs.filter fun p => !(Nat.ble dst p.1 && Nat.blt p.1 (dst + len))
  { s with regs := moved.foldl (fun t p => Table.set regReset t (p.1 - src + dst) p.2) kept }

/-! ### Frames at the fore-edge -/

/-- The ring holds P6 and P7 for its own frames (R286). -/
def ringHolds (s : State) (n : Nat) : Bool :=
  (Nat.beq n 6 || Nat.beq n 7) &&
    (s.flag Reg.RING_CTRL_ENABLE || !(Nat.beq (s.fld Reg.RING_STATUS_STATE) 0))

/-- The queue a frame in the hub came from; forwarded frames count as one queue after all others. -/
def hubSource (f : TxFrame) : Nat := (f.owner.map (·.1)).getD (2 ^ 20)

/-- The frame the hub delivers next for class `c` of port `n`: round robin over the queues, one frame
a turn (R172). -/
def nextHeader (s : State) (n c : Nat) : Option TxFrame :=
  let p := s.port n
  let l := p.hub.filter fun f => Nat.beq f.cls c
  let last := Table.get (fun _ => 0) p.served c
  let ids := l.map hubSource
  let least (ids : List Nat) : Option Nat := ids.foldl
    (fun (b : Option Nat) i => match b with | none => some i | some j => some (min i j)) none
  match (least (ids.filter fun i => Nat.blt last i)).or (least ids) with
  | none => none
  | some i => l.find? fun f => Nat.beq (hubSource f) i

/-- The fore-edge has room for a frame (R172). -/
def feRoom (s : State) (n : Nat) (f : TxFrame) : Bool :=
  let fe := (s.port n).fe
  if f.launch.isSome then Nat.blt (fe.filter fun g => g.launch.isSome).length 512
  else Nat.blt (fe.filter fun g => g.launch.isNone && Nat.beq g.cls f.cls).length 32

/-- Count a lead miss (R193, R213). -/
def leadMiss (s : State) (n : Nat) : State := (s.count (Cnt.PORT_LEAD_MISS n)).postPortLimited n 0x03

/-- The fore-edge copy of port `n` in whole ns, and in short form (R196). -/
def portNs (s : State) (n : Nat) : Nat := s.portTicks n / 65536

def portShort (s : State) (n : Nat) : Nat := s.portNs n % 2 ^ 32

/-- The full-form instant, in ns, of a short-form launch time read now at the fore-edge of port `n` (R196). -/
def launchInstant (s : State) (n l : Nat) : Nat := ((s.portNs n : Int) + shortDiff l (s.portShort n)).toNat

/-- A header reaches the fore-edge (R172, R193, R196, R286). -/
def headerArrival (s : State) (n c : Nat) : State :=
  match s.nextHeader n c with
  | none => s
  | some f =>
    let p := s.port n
    let taken := { p with hub := p.hub.erase f
                          served := Table.set (fun _ => 0) p.served c (hubSource f) }
    if s.ringHolds n then (s.setPort n taken).neverOpens n f
    else if s.feRoom n f then
      let p := taken
      let s := match f.launch with
        | some l =>
          if shortDiff l (s.portShort n) < s.fld (Reg.PORT_LEAD_LEAD_NS n) then s.leadMiss n else s
        | none => s
      let s := (s.setPort n { p with
        fe := p.fe ++ [{ f with launch := f.launch.map (s.launchInstant n) }] }).settle n
      s.testHead n c (p.fe.length + 1)
    else s

/-! ### Selection (R173, R188, R206, R236) -/

/-- What the fore-edge sends next. -/
inductive Choice where
  | nothing
  | frame (f : TxFrame)
  | continuation
  | control (f : FlowControl)
  deriving DecidableEq, Repr

/-- The hold keeps the preemptable MAC quiet (R207, R229). -/
def held (s : State) (n : Nat) : Bool := s.flag (Reg.PORT_GATE_STATUS_HOLD n)

/-- The head of class `c` may start now (R173), the headband aside. -/
def eligible (s : State) (n c : Nat) (f : TxFrame) : Bool :=
  (s.gatesNow n).testBit c && !s.stopped n c &&
    (Nat.beq (Table.get (fun _ => 0) (s.port n).slope c) 0 || decide (0 ≤ s.creditNow n c)) &&
    !(s.preemptable n c f.oneStep && (s.held n || (s.port n).susp.isSome))

/-- Count a head that fails the headband, once per window (R190). -/
def deferHead (s : State) (n : Nat) (f : TxFrame) : State :=
  if f.deferred then s else
    let p := s.port n
    (s.setPort n { p with fe := p.fe.map fun g => if g = f then { g with deferred := true } else g }).count
      (Cnt.PORT_HEADBAND_DEFER n)

/-- What class `c` offers. -/
def offerOf (s : State) (n c : Nat) : State × Choice :=
  let p := s.port n
  let fc := if Nat.beq (s.fld (Reg.PORT_FC_CTRL_FC_CLASS n)) c && (s.gatesNow n).testBit c &&
      s.headband n c 64 true (s.portTicks n) then p.fcWait.head? else none
  match fc with
  | some f => (s, .control f)
  | none =>
    let cont := match p.susp with
      | some x => Nat.beq x.tx.cls c && (s.gatesNow n).testBit c && !s.held n
      | none => false
    if cont then (s, .continuation) else
      match s.head n c with
      | none => (s, .nothing)
      | some f =>
        if s.eligible n c f then
          (if s.headband n c f.len f.oneStep (s.portTicks n) then (s, .frame f) else (s.deferHead n f, .nothing))
        else (s, .nothing)

/-- The choice of the highest class that offers one, among the classes listed (R170). -/
def choose (s : State) (n : Nat) : List Nat → State × Choice
  | [] => (s, .nothing)
  | c :: rest =>
    match s.offerOf n c with
    | (s, .nothing) => s.choose n rest
    | r => r

/-- Start frame `f` on the medium of port `n`: its stamp and lateness (R152, R198). -/
def startFrame (s : State) (n plcaWaitNs : Nat) (f : TxFrame) : State :=
  let lat := signed 32 (s.rd (Reg.TB_LAT_TX n)).toNat
  let stamp := Full.ofTicks (((s.portTicks n : Int) + lat).toNat)
  let late := f.launch.isSome && Nat.blt (s.granTicks n plcaWaitNs) (s.lateness n f * 100)
  let g := { f with
    stamp := stamp, ts := s.timeStatus, late := late, txUp := s.tb.uptime }
  let s := if late then s.count (Cnt.PORT_LATE_SENT n) else s
  let s := s.unqueue n f
  let p := s.port n
  let pre := s.preemptable n f.cls f.oneStep
  s.setPort n { p with
    cur := some { tx := g, startUp := s.tb.uptime, preemptable := pre, seq := p.startSeq
                  whole := s.fitsWhole n f.cls f.len (s.portTicks n) }
    startSeq := if pre then (p.startSeq + 1) % 4 else p.startSeq }

/-- Bytes of the frame on the medium sent in its present fragment, at the last edge of the port clock (R228):
the first 8 bytes are the preamble and the delimiter. -/
def fragmentBytes (s : State) (n : Nat) (m : OnMedium) : Nat :=
  let period := granularity (s.fld (Reg.PORT_MEDIA_MEDIA n)) (s.fld (Reg.PORT_MEDIA_SPEED n))
  (s.tb.uptime - m.startUp) * 100 / period * (period * s.rate n / 100000000) / 8 - 8

/-- The preemptable frame on the medium may be split now (R228). -/
def splittable (s : State) (n : Nat) (m : OnMedium) : Bool :=
  m.preemptable && Nat.ble 60 (s.fragmentBytes n m) &&
    Nat.ble (m.sent + s.fragmentBytes n m + 64) m.tx.len

/-- The bytes of the frame on the medium as it leaves, with what one-step insertion writes into it, padding and
FCS (R156, R221, R223). -/
def leaving (m : OnMedium) : List Byte :=
  withFcs (if m.tx.oneStep then oneStepFrame m.tx.bytes m.tx.ptpOff m.tx.udpOff m.tx.stamp else m.tx.bytes)
    m.tx.poisoned

/-- A non-final fragment of `k` bytes: it ends in the mCRC, the CRC of the bytes sent so far with its low half
inverted (R227). -/
def fragmentOut (m : OnMedium) (k : Nat) : List Byte :=
  let b := leaving m
  mpacketHead m.seq m.frag ++ (b.drop m.sent).take k ++ leBytes 4 (crc32 (b.take (m.sent + k)) ^^^ 0xFFFF)

/-- Split the frame on the medium (R203, R206, R227, R228). -/
def splitFrame (s : State) (n : Nat) (m : OnMedium) : State :=
  let k := s.fragmentBytes n m
  let s := ((s.settle n).charge n m.tx.cls ((k + 20) * 8)).count (Cnt.PORT_MM_FRAG_TX n)
  let s := s.emit (.mpacket n (fragmentOut m k))
  let p := s.port n
  (s.setPort n { p with
    cur := none, gapEnd := s.tb.uptime + (16 * 8000000 + s.rate n - 1) / s.rate n
    susp := some { tx := m.tx, sent := m.sent + k, seq := m.seq
                   fragments := (m.frag.map fun j => (j + 1) % 4).getD 0 } }).settle n

/-- An express frame, or a flow-control frame, could start now (R206). -/
def expressWaits (s : State) (n : Nat) : Bool :=
  match (s.choose n [7, 6, 5, 4, 3, 2, 1, 0]).2 with
  | .control _ => true
  | .frame f => !s.preemptable n f.cls f.oneStep
  | _ => false

/-- A flow-control frame of port `n` without its FCS (R234): PAUSE, or PFC of one priority. -/
def controlFrame (s : State) (n : Nat) (f : FlowControl) : List Byte :=
  [0x01, 0x80, 0xC2, 0x00, 0x00, 0x01] ++ leBytes 4 (s.rd (Reg.PORT_MAC_ADDR_LO n)).toNat ++
    leBytes 2 (s.rd (Reg.PORT_MAC_ADDR_HI n)).toNat ++ beBytes 2 0x8808 ++
    (if f.pfc then beBytes 2 0x0101 ++ beBytes 2 (2 ^ f.prio) ++
      (List.range 8).flatMap fun p => beBytes 2 (if p = f.prio then f.quanta else 0)
    else beBytes 2 1 ++ beBytes 2 f.quanta)

/-- What was chosen for port `n` starts: a frame, the rest of the preempted one, or a control frame. -/
def startChoice (s : State) (n plcaWaitNs : Nat) (c : Choice) : State :=
  match c with
  | .nothing => s
  | .frame f => s.startFrame n plcaWaitNs f
  | .continuation =>
    (match (s.port n).susp with
    | none => s
    | some x => s.setPort n { s.port n with
        susp := none
        cur := some { tx := x.tx, startUp := s.tb.uptime, sent := x.sent
                      preemptable := true, seq := x.seq, frag := some x.fragments } })
  | .control f => s.setPort n { s.port n with
      fcWait := (s.port n).fcWait.erase f
      cur := some { tx := { frame := 0, cls := s.fld (Reg.PORT_FC_CTRL_FC_CLASS n), len := 64
                            bytes := s.controlFrame n f }
                    startUp := s.tb.uptime, control := some f } }

/-- PLCA runs on port `n` (R238): its node ID turns it on, and BEACONs are sent or seen (R239). -/
def plcaRuns (s : State) (n : Nat) : Bool :=
  Nat.ble 8 n && !(Nat.beq (bits (s.port n).plcaCtrl 0 8) 255) && s.flag (Reg.PORT_PLCA_STATUS_ACTIVE n)

/-- Bit times of 10BASE-T1S since the last frame of port `n` ended. -/
def idleBits (s : State) (n : Nat) : Nat := (s.tb.uptime - (s.port n).lastEnd) / 100

/-- The next frame of port `n` would belong to the transmit opportunity of the last one: it follows within
BURST_TIMER, and MAX_BURST allows it (R238). -/
def inBurst (s : State) (n : Nat) : Bool :=
  Nat.ble (s.idleBits n) (bits (s.port n).plcaBurst 0 8) &&
    Nat.blt (s.port n).burst (bits (s.port n).plcaCtrl 24 8)

/-- Port `n` may have a transmit opportunity (R189, R238).  PRESUMED, from clause 148: after its opportunity has
ended a node has none before a BEACON of 20 bit times and one TO_TIMER for each other node have passed. -/
def hasTurn (s : State) (n : Nat) : Bool :=
  !s.plcaRuns n || Nat.beq (s.port n).lastEnd 0 || s.inBurst n ||
    Nat.ble (20 + (bits (s.port n).plcaCtrl 8 8 - 1) * bits (s.port n).plcaCtrl 16 8) (s.idleBits n)

/-- R173, R189, R206: a transmission opportunity of port `n`. -/
def transmitStart (s : State) (n plcaWaitNs : Nat) : State :=
  if s.sends n then
    match (s.port n).cur with
    | some m =>
      if s.splittable n m && (m.split || s.expressWaits n) then s.splitFrame n m else s
    | none =>
      if s.tb.uptime < (s.port n).gapEnd ∨ s.hasTurn n = false then s else
        let s := s.dropAllLate n plcaWaitNs
        let s := if (s.port n).susp.isNone then
          s.setPort n { s.port n with preempt := s.fld (Reg.PORT_PREEMPT_CLASS_PREEMPTABLE n) } else s
        let s := s.testHeads n
        let s := s.setPort n { s.port n with burst := if s.inBurst n then (s.port n).burst + 1 else 0 }
        let r := s.choose n [7, 6, 5, 4, 3, 2, 1, 0]
        (r.1.startChoice n plcaWaitNs r.2).settle n
  else s

/-- The slope written for class `c` comes into force at a frame boundary of the class, and its credit keeps to
the new limits (R204). -/
def applySlope (s : State) (n c : Nat) : State :=
  let s := s.settle n
  let p := s.port n
  let slope := s.fld (Reg.PORT_CBS_SLOPE_IDLE_SLOPE n c)
  let s := s.setPort n { p with slope := Table.set (fun _ => 0) p.slope c slope }
  let p := s.port n
  let v := if slope = 0 then 0 else s.clampCredit n c (Table.get (fun _ => 0) p.credit c)
  s.setPort n { p with credit := Table.set (fun _ => 0) p.credit c v }

/-- The last byte of what is on the medium of port `n` has left. -/
def mediumDone (s : State) (n : Nat) (m : OnMedium) : Bool :=
  Nat.ble ((8 + restBytes m) * 8000000) ((s.tb.uptime - m.startUp) * s.rate n)

/-- The medium of port `n` is free of `m`, the gap aside. -/
def freeMedium (s : State) (n : Nat) (m : OnMedium) : State :=
  s.setPort n { s.port n with
    cur := none, lastEnd := s.tb.uptime
    gapEnd := m.startUp + ((restBytes m + 20) * 8000000 + s.rate n - 1) / s.rate n }

/-- What leaves port `n` with the end of `m`: a frame of the express MAC, or the last mPacket of a preemptable
one (R227). -/
def lastOut (n : Nat) (m : OnMedium) : Output :=
  if m.preemptable then .mpacket n (mpacketHead m.seq m.frag ++ (leaving m).drop m.sent)
  else .frame n (leaving m) m.tx.poisoned

/-- The frame on the medium of port `n` has left whole, with what one-step insertion wrote into it (R60,
R156, R203, R221, R223, R227, R263, R264). -/
def transmitEnd (s : State) (n : Nat) : State :=
  match (s.port n).cur with
  | none => s
  | some m =>
    if s.mediumDone n m = false then s else
    let s := s.freeMedium n m
    match m.control with
    | some f =>
      let s := s.setPort n { s.port n with fcSent := Table.set (fun _ => 0) (s.port n).fcSent f.prio s.tb.uptime }
      (((s.count (Cnt.PORT_TX_PAUSE n)).putBit (Reg.PORT_FC_STATUS_XOFF_SENT n) f.prio
        (decide (f.quanta ≠ 0))).emit (lastOut n m)).settle n
    | none =>
      let s := s.charge n m.tx.cls ((restBytes m + 20) * 8)
      let s := s.applySlope n m.tx.cls
      let s := if m.tx.poisoned then s.count (Cnt.PORT_TX_STOMPED n) else s.count (Cnt.PORT_TX_OK n)
      let s := (s.countN (Cnt.PORT_TX_BYTES n) (max 64 m.tx.len)).emit (lastOut n m)
      let s := match m.tx.flow with
        | some i => if m.tx.hist then s.flowLatency i m.tx.rxUp m.tx.txUp else s
        | none => s
      let s := s.copyEnds m.tx (if m.tx.late then 0x01 else if m.tx.poisoned then 0x05 else 0) 0
      s.testHeads n

/-! ### Gates (R181, R185, R192, R193) -/

/-- The frame on the medium meets the close of its gate: one that started under the second case of R188 is
split at the next point, any other is finished and counted (R188, R192). -/
def meetClose (s : State) (n gates : Nat) : State :=
  match (s.port n).cur with
  | none => s
  | some m =>
    if gates.testBit m.tx.cls then s
    else if m.preemptable && !m.whole then
      (if s.splittable n m then s.splitFrame n m
       else s.setPort n { s.port n with cur := some { m with split := true } })
    else if m.overrun then s
    else
      let s := s.setPort n { s.port n with cur := some { m with overrun := true } }
      (s.count (Cnt.PORT_TX_OVERRUN n)).postPortLimited n 0x06

/-- A window of class `c` opens on port `n`: the lead miss of a frame the hub has held for the lead, where
the fore-edge holds none of the class (R193). -/
def windowOpens (s : State) (n c : Nat) : State :=
  let p := s.port n
  let lead := s.fld (Reg.PORT_LEAD_LEAD_NS n) * 65536
  if s.classHolds n c || s.onMedium n c then s
  else if (p.hub.any fun f => Nat.beq f.cls c && Nat.ble (f.since + lead) (s.edgeTicks n)) then s.leadMiss n
  else s

/-- The gates of port `n` are brought up to the present (R181, R185): what closes and what opens. -/
def gateRefresh (s : State) (n : Nat) : State :=
  let old := s.fld (Reg.PORT_GATE_STATUS_GATES n)
  let seg := s.gateSegNow n (s.edgeTicks n)
  let s := (s.setFld (Reg.PORT_GATE_STATUS_GATES n) seg.gates).setFld
    (Reg.PORT_GATE_STATUS_OPER_ENTRY n) seg.index
  let p := s.port n
  let fe := p.fe.map fun f => if seg.gates.testBit f.cls then f else { f with deferred := false }
  let s := s.setPort n { p with fe := fe }
  let s := (s.meetClose n seg.gates).settle n
  (List.range 8).foldl (fun s c =>
    if seg.gates.testBit c && !old.testBit c then s.windowOpens n c else s) s

/-! ### The hold (R207, R208) -/

/-- A SetAndHoldMAC entry is in force, or starts within HOLD_ADVANCE (R207). -/
def holdDue (s : State) (n : Nat) : Bool :=
  Nat.beq (s.gateSegAhead n (s.edgeTicks n + s.fld (Reg.PORT_HOLD_ADVANCE_HOLD_NS n) * 65536)).op 1

/-- A SetAndReleaseMAC entry of the list in force has run for RELEASE_ADVANCE (R207). -/
def releaseDue (s : State) (n : Nat) : Bool :=
  let t := s.edgeTicks n - s.fld (Reg.PORT_RELEASE_ADVANCE_RELEASE_NS n) * 65536
  Nat.beq (s.gateSegNow n t).op 2 &&
    ((s.pendingChange n).isSome || Nat.ble (s.rdFull (Reg.PORT_CHANGE_TIME_LO n)).ticks t)

/-- The hold is asserted where an entry asks for it (R207, R208); it runs also while the link is down (R218). -/
def assertHold (s : State) (n : Nat) : State :=
  if s.preemptReady n && s.holdDue n && !s.held n then
    let s := ((s.setFlag (Reg.PORT_GATE_STATUS_HOLD n) true).settle n).count (Cnt.PORT_MM_HOLD n)
    match (s.port n).cur with
    | some m =>
      if s.splittable n m then s.splitFrame n m
      else if m.preemptable then s.setPort n { s.port n with cur := some { m with split := true } }
      else s
    | none => s
  else s

/-- The hold is released where an entry asks for it (R207, R208). -/
def releaseHold (s : State) (n : Nat) : State :=
  if s.preemptReady n && s.releaseDue n && s.held n then
    (s.setFlag (Reg.PORT_GATE_STATUS_HOLD n) false).settle n
  else s

/-! ### Changing the gate list (R176 to R184) -/

/-- The change time: the smallest BASE + k CYCLE at or after `earliest` (R177), in 2^-16 ns. -/
def changeTime (base cycle earliest : Nat) : Nat :=
  if earliest ≤ base then base else base + (earliest - base + cycle - 1) / cycle * cycle

/-- R178: the first failure of the admin parameters: its ERROR and the entry it names. -/
def adminError (s : State) (n : Nat) : Option (Nat × Nat) :=
  let len := s.fld (Reg.PORT_ADMIN_LEN_LEN n)
  let cycle := s.fld (Reg.PORT_ADMIN_CYCLE_CYCLE_NS n)
  if 1024 < len then some (1, 0)
  else match (List.range len).find? fun k => !(s.gateEntryAt (Reg.PORT_ADMIN_GCL_LO n 0) k).ok with
    | some k => some (2, k)
    | none =>
      if cycle < 1000 ∨ 1000000000 < cycle then some (3, 0)
      else if (s.rdFull (Reg.PORT_ADMIN_BASE_LO n)).ok = false then some (4, 0)
      else if cycle < s.fld (Reg.PORT_ADMIN_CYCLE_EXT_EXT_NS n) then some (5, 0)
      else none

/-- Refuse a change (R178). -/
def refuseGcl (s : State) (n error : Nat) : State :=
  (s.setFld (Reg.PORT_GATE_STATUS_ERROR n) error).postPort n 0x02

/-- A change of port `n` pends from now, the setup margin ahead (R177, R184). -/
def pendGcl (s : State) (n : Nat) : State :=
  let earliest := s.nowTicks + s.fld Reg.TB_SETUP_MARGIN_MARGIN_NS * 65536
  let t := changeTime (s.rdFull (Reg.PORT_ADMIN_BASE_LO n)).ticks
    (s.fld (Reg.PORT_ADMIN_CYCLE_CYCLE_NS n) * 65536) earliest
  let s := s.setPort n { s.port n with pendedAt := s.portTicks n }
  (s.wrFull (Reg.PORT_CHANGE_TIME_LO n) (Full.ofTicks t)).setFld (Reg.PORT_GATE_STATUS_STATE n) 2

/-- R180, R183: the pending change of port `n` takes effect. -/
def gclChange (s : State) (n : Nat) : State :=
  let s := s.copyRegs (Reg.PORT_ADMIN_GCL_LO n 0) (Reg.PORT_OPER_GCL_LO n 0) 0x2000
  let s := s.wrFull (Reg.PORT_OPER_BASE_LO n) (s.rdFull (Reg.PORT_ADMIN_BASE_LO n))
  let s := (s.wr (Reg.PORT_OPER_CYCLE n) (s.rd (Reg.PORT_ADMIN_CYCLE n))).wr
    (Reg.PORT_OPER_CYCLE_EXT n) (s.rd (Reg.PORT_ADMIN_CYCLE_EXT n))
  let len := s.fld (Reg.PORT_ADMIN_LEN_LEN n)
  let s := (s.setFld (Reg.PORT_OPER_LEN_LEN n) len).setFlag (Reg.PORT_GATE_STATUS_ACTIVE n)
    (decide (len ≠ 0))
  let s := s.setPort n { s.port n with awaiting := false, copying := true }
  let s := if len = 0 then s.setFlag (Reg.PORT_GATE_STATUS_HOLD n) false else s
  ((s.postPort n 0x01).gateRefresh n).testHeads n

end State

/-! ### Meanings -/

/-- R196: a frame header reaches the fore-edge of a port. -/
def execHeaderArrival (port : Fin 12) (cls : Fin 8) (s : State) : Out State :=
  .next (s.headerArrival port cls)

/-- R197: a launch time becomes due, so its frame may be the head of its class. -/
def execLaunchTimeDue (port : Fin 12) (s : State) : Out State := .next (s.testHeads port)

/-- R198: launch-time frames certain to exceed their tolerance are dropped. -/
def execLateDropped (port : Fin 12) (plcaWaitNs : Nat) (s : State) : Out State :=
  .next ((s.dropAllLate port plcaWaitNs).testHeads port)

/-- R173: a transmission opportunity. -/
def execFrameTransmitStart (port : Fin 12) (plcaWaitNs : Nat) (s : State) : Out State :=
  .next (s.transmitStart port plcaWaitNs)

/-- R60: the last byte of a frame has left. -/
def execFrameTransmitEnd (port : Fin 12) (s : State) : Out State := .next (s.transmitEnd port)

/-- R181: a gate entry begins. -/
def execGateEntryStart (port : Fin 12) (s : State) : Out State := .next (s.gateRefresh port)

/-- R203: the credit of a class has returned to zero; all of it is brought up to the present. -/
def execCbsCreditRecovered (port : Fin 12) (s : State) : Out State := .next (s.settle port)

/-- R204: a write of IDLE_SLOPE. -/
def execCbsSlopeWrite (port : Fin 12) (cls : Fin 8) (value : BitVec 25) (s : State) : Out State :=
  .next (
    let n := port.val
    let c := cls.val
    let others := ((List.range 8).filter fun k => !Nat.beq k c).foldl
      (fun a k => a + s.fld (Reg.PORT_CBS_SLOPE_IDLE_SLOPE n k)) 0
    if s.rate n * 3 < (others + value.toNat) * 4 then s.count (Cnt.PORT_SLOPE_REFUSED n)
    else
      let s := s.setFld (Reg.PORT_CBS_SLOPE_IDLE_SLOPE n c) value.toNat
      let lo := if value = 0 then 0 else
        State.loCredit (s.rate n) value.toNat (s.fld (Reg.PORT_MAC_CTRL_MAX_FRAME n))
      let s := s.wrN (Reg.PORT_CBS_LO n c) (unsigned 32 (-((-lo) / 1000000)))
      if s.onMedium n c || (s.port n).susp.any (fun x => Nat.beq x.tx.cls c) then s else s.applySlope n c)

/-- R207: the instant HOLD_ADVANCE before a SetAndHoldMAC entry. -/
def execHoldAssert (port : Fin 12) (s : State) : Out State := .next (s.assertHold port)

/-- R207: the instant RELEASE_ADVANCE after the start of a SetAndReleaseMAC entry. -/
def execHoldRelease (port : Fin 12) (s : State) : Out State := .next (s.releaseHold port)

/-- R177 to R179: a write of PORTn_CONFIG_CHANGE.GO. -/
def execGclGo (port : Fin 12) (s : State) : Out State :=
  .next (if s.fld (Reg.PORT_GATE_STATUS_STATE port) = 0 then
    s.setFld (Reg.PORT_GATE_STATUS_STATE port) 1
  else s.refuseGcl port 6)

/-- R179: a write of PORTn_CONFIG_CHANGE.CANCEL.  DESIGN CHOICE: CHANGE_TIME keeps the change time that was
dropped, which R212 does not state. -/
def execGclCancel (port : Fin 12) (s : State) : Out State :=
  .next (
    let n := port.val
    if s.fld (Reg.PORT_GATE_STATUS_STATE n) = 1 then s.setFld (Reg.PORT_GATE_STATUS_STATE n) 0
    else match s.pendingChange n with
      | some t => if s.portTicks n < t then s.setFld (Reg.PORT_GATE_STATUS_STATE n) 0 else s
      | none => s)

/-- R178: validation of the admin list ends. -/
def execGclValidated (port : Fin 12) (s : State) : Out State :=
  .next (
    let n := port.val
    if s.fld (Reg.PORT_GATE_STATUS_STATE n) = 1 then
      match s.adminError n with
      | some (e, k) =>
        let s := if e = 2 then s.setFld (Reg.PORT_GATE_ERROR_ENTRY n) k else s
        (s.setFld (Reg.PORT_GATE_STATUS_STATE n) 0).refuseGcl n e
      | none => s.pendGcl n
    else s)

/-- R180: the copy of the operational list into the admin bank is complete. -/
def execAdminCopyDone (port : Fin 12) (s : State) : Out State :=
  .next (
    let n := port.val
    if (s.port n).copying then
      let s := s.copyRegs (Reg.PORT_OPER_GCL_LO n 0) (Reg.PORT_ADMIN_GCL_LO n 0) 0x2000
      let s := s.setPort n { s.port n with copying := false }
      s.setFld (Reg.PORT_GATE_STATUS_STATE n) 0
    else s)

end Sys2Proof.Machine
end

