-- ==== Sys2Proof/Machine/EvtCore.lean ====
section
/-! DEFINITION. Event pins as shared operations: records and their FIFO, levels, and the ends of schedules
(R329, R332, R338, R341). -/

namespace Sys2Proof.Machine

namespace State

def pin (s : State) (n : Nat) : EvtPin := Table.get (fun _ => {}) s.evt.pins n

/-- Set a pin and what its STATUS shows of it (R342). -/
def setPin (s : State) (n : Nat) (p : EvtPin) : State :=
  let s := { s with evt := { s.evt with pins := Table.set (fun _ => {}) s.evt.pins n p } }
  (s.setFld (Reg.EVT_PIN_STATUS_FIFO n) p.fifo.length).setFlag (Reg.EVT_PIN_STATUS_RUNNING n) p.sched.isSome

def pinFunction (s : State) (n : Nat) : Nat := s.fld (Reg.EVT_PIN_CFG_FUNCTION n)

/-- The level EVT_LEVEL_IN shows of a pin (R340). -/
def pinLevel (s : State) (n : Nat) : Bool := (s.rd Reg.EVT_LEVEL_IN).toNat.testBit n

def setPinLevel (s : State) (n : Nat) (b : Bool) : State :=
  s.wrN Reg.EVT_LEVEL_IN (setBit (s.rd Reg.EVT_LEVEL_IN).toNat n b)

/-- The queue that receives records is an enabled EQ of PF1 (R342). -/
def evtQueueOk (s : State) : Bool :=
  let x := s.q (s.fld Reg.EVT_CTRL_EQ)
  Nat.beq x.state 2 && Nat.beq x.kind 4 && Nat.beq x.func 1

/-- A record enters the FIFO of pin `n`, or is lost (R332). -/
def evtRecord (s : State) (n code data : Nat) : State :=
  let s := if s.evtQueueOk then { s with evt := { s.evt with dropping := false } } else s
  let p := s.pin n
  if s.evt.dropping || Nat.ble 64 p.fifo.length then s.count Cnt.EVT_CAPTURE_LOST
  else s.setPin n { p with fifo := p.fifo ++ [(code, data)] }

/-- Post the run of skipped targets of pin `n`, if there is one (R338). -/
def evtFlush (s : State) (n : Nat) : State :=
  let p := s.pin n
  match p.sched with
  | none => s
  | some c =>
    match c.run with
    | none => s
    | some (first, k) =>
      let s := (s.setPin n { p with sched := some { c with run := none } }).count Cnt.EVT_SKIPPED
      s.evtRecord n 0x0804 ((first / 65536).toNat % 2 ^ 32 + min k 65535 * 2 ^ 32 + n * 2 ^ 48 +
        s.timeStatus * 2 ^ 54)

/-- The schedule of pin `n` ends. -/
def evtEnd (s : State) (n : Nat) : State :=
  let s := s.evtFlush n
  s.setPin n { s.pin n with sched := none }

/-- R339: a refusal is shown and posted. -/
def evtRefuse (s : State) (n error : Nat) : State :=
  (s.setFld (Reg.EVT_PIN_STATUS_ERROR n) error).evtRecord n 0x0806 (n * 2 ^ 48 + error * 2 ^ 56)

/-- R341: the ring has left the states that run cycles. -/
def evtRingStop (s : State) : State :=
  (List.range 32).foldl (fun s n =>
    match (s.pin n).sched with
    | some c => if c.align = 2 then (s.evtEnd n).evtRefuse n 5 else s
    | none => s) s

end State

end Sys2Proof.Machine
end

