-- ==== Sys2Proof/Machine/RingCore.lean ====
section
/-! DEFINITION. The ring as shared operations: frames, ring time, the table window, the state, a break
and its end, cycles, replies (R285 to R327). -/

namespace Sys2Proof.Machine

/-! ### Frames (R288 to R291) -/

namespace RingHdr

/-- The 128-bit header. -/
def image (h : RingHdr) : Nat :=
  h.version % 16 * 2 ^ 124 + h.type % 16 * 2 ^ 120 + h.cycle % 2 ^ 16 * 2 ^ 104 +
    h.slot % 2 ^ 12 * 2 ^ 92 + h.station % 256 * 2 ^ 84 + h.flags % 256 * 2 ^ 76 +
    h.rtime % 2 ^ 32 * 2 ^ 44 + h.plen % 2 ^ 16 * 2 ^ 28

/-- The header that 16 bytes carry. -/
def ofImage (v : Nat) : RingHdr :=
  { version := bits v 124 4, type := bits v 120 4, cycle := bits v 104 16, slot := bits v 92 12
    station := bits v 84 8, flags := bits v 76 8, rtime := bits v 44 32, plen := bits v 28 16 }

def ret (h : RingHdr) : Bool := h.flags.testBit 7
def line (h : RingHdr) : Bool := h.flags.testBit 6

end RingHdr

/-- The destination of every ring frame. -/
def ringDest : List Byte := [0x03, 0xDA, 0x52, 0x00, 0x00, 0x01]

/-- A ring frame without its FCS, padded to 60 bytes. -/
def ringFrame (src : List Byte) (ethertype : Nat) (h : RingHdr) (payload : List Byte) : List Byte :=
  let b := ringDest ++ src ++ beBytes 2 ethertype ++ beBytes 16 { h with plen := payload.length }.image ++
    payload
  b ++ List.replicate (60 - b.length) 0

/-- The header of a received ring frame. -/
def ringHdrOf (b : List Byte) : RingHdr := RingHdr.ofImage (beNat ((b.drop 14).take 16))

/-- Its payload. -/
def ringPayloadOf (b : List Byte) : List Byte := ((b.drop 30).take (ringHdrOf b).plen)

/-- The payload of a DELAY frame (R308). -/
def delayPayload (phase side seq value : Nat) : List Byte :=
  [BitVec.ofNat 8 phase, BitVec.ofNat 8 side] ++ beBytes 2 seq ++ beBytes 4 value

namespace State

/-! ### Ring time (R293 to R295) -/

/-- The ring count (R293), in ns, `age` ns ago. -/
def rcAt (s : State) (age : Nat) : Int := ((s.tb.time : Int) - s.ring.bridge) / 2 ^ 32 - age

def rc (s : State) : Int := s.rcAt 0

/-- The time-base instant, in ns, of a ring count. -/
def tbOfRc (s : State) (c : Int) : Int := c + s.ring.bridge / 2 ^ 32

/-- RING_BRIDGE shows BRIDGE (R325). -/
def setBridge (s : State) (b : Int) : State :=
  { s with ring := { s.ring with bridge := b } }.wr64 Reg.RING_BRIDGE_LO (unsigned 64 (b / 2 ^ 32))

/-- The launch instant of a frame with a nominal instant (R295): within G after it, where G is 8 ns on
P6 and P7 (R197). -/
def launchAt (s : State) (nominal : Int) : State × Int :=
  (s.draw, nominal + ((s.freeVal.toNat % 9 : Nat) : Int))

/-! ### The table window (R326) -/

def ringWord (s : State) (off : Nat) : Nat := (s.rd (0x800000 + off)).toNat

def ringSlotAt (s : State) (base k : Nat) : RingSlot :=
  let w (j : Nat) : Nat := s.ringWord (base + 32 * k + 4 * j)
  { offset := w 0, station := bits (w 1) 0 8, enabled := (w 1).testBit 8, noReply := (w 1).testBit 9
    reqLen := bits (w 1) 16 16, reqOff := w 2, replyLen := bits (w 3) 0 16, gutter := bits (w 3) 16 16
    rxq := bits (w 4) 0 20, txq := bits (w 5) 0 20, useTxq := (w 5).testBit 31 }

def ringMarkAt (s : State) (base m : Nat) : RingMark :=
  let f := s.ringWord (base + 8 * m + 4)
  { offset := s.ringWord (base + 8 * m), enabled := f.testBit 0, event := f.testBit 1, irq := f.testBit 2
    gate := f.testBit 3, send := f.testBit 4 }

/-- A bank of the table: the admin bank or the operational one. -/
def ringBank (s : State) (oper : Bool) : RingBank :=
  let hdr := if oper then 0x40180 else 0x40080
  let slots := if oper then 0x20000 else 0
  let marks := if oper then 0x40100 else 0x40000
  { slots := (List.range (bits (s.ringWord hdr) 0 16)).map (s.ringSlotAt slots)
    marks := (List.range (bits (s.ringWord hdr) 16 8)).map (s.ringMarkAt marks)
    dlim := s.ringWord (hdr + 4), turn := s.ringWord (hdr + 8) }

/-- Bytes of the payload area of a bank. -/
def ringStatic (s : State) (oper : Bool) (off len : Nat) : List Byte :=
  (List.range len).map fun i =>
    let a := off + i
    BitVec.ofNat 8 (s.ringWord ((if oper then 0xC0000 else 0x80000) + a / 4 * 4) / 2 ^ (8 * (a % 4)))

/-- The words of a slot entry and of a mark entry, and loading a bank (R296, R297). -/
def loadRingSlot (s : State) (base k : Nat) (x : RingSlot) : State :=
  let a := 0x800000 + base + 32 * k
  (((((s.wrN a x.offset).wrN (a + 4) (x.station % 256 + x.enabled.toNat * 2 ^ 8 + x.noReply.toNat * 2 ^ 9 +
    x.reqLen % 2 ^ 16 * 2 ^ 16)).wrN (a + 8) x.reqOff).wrN (a + 12)
    (x.replyLen % 2 ^ 16 + x.gutter % 2 ^ 16 * 2 ^ 16)).wrN (a + 16) x.rxq).wrN (a + 20)
    (x.txq % 2 ^ 20 + x.useTxq.toNat * 2 ^ 31)

def loadRingMark (s : State) (base m : Nat) (x : RingMark) : State :=
  let a := 0x800000 + base + 8 * m
  (s.wrN a x.offset).wrN (a + 4) (x.enabled.toNat + x.event.toNat * 2 + x.irq.toNat * 4 +
    x.gate.toNat * 8 + x.send.toNat * 16)

/-- Load a bank from the RING sheet (R326), with DLIM and TURN at their reset values. -/
def loadRingBank (s : State) (oper : Bool) (sh : RingSheet) : State :=
  let hdr := 0x800000 + if oper then 0x40180 else 0x40080
  let slots := if oper then 0x20000 else 0
  let marks := if oper then 0x40100 else 0x40000
  let pay := 0x800000 + if oper then 0xC0000 else 0x80000
  let s := ((List.range sh.slots.length).zip sh.slots).foldl (fun s p => s.loadRingSlot slots p.1 p.2) s
  let s := ((List.range sh.marks.length).zip sh.marks).foldl (fun s p => s.loadRingMark marks p.1 p.2) s
  let s := ((s.wrN hdr (sh.slots.length % 2 ^ 16 + sh.marks.length % 256 * 2 ^ 16)).wrN (hdr + 4)
    20000).wrN (hdr + 8) 2000
  (List.range ((sh.payload.length + 3) / 4)).foldl
    (fun s i => s.wrN (pay + 4 * i) (leNat ((sh.payload.drop (4 * i)).take 4))) s

/-- The RING sheet of the running image. -/
def ringSheet (s : State) : RingSheet := (s.imp.image.map (·.ring)).getD {}

/-- Copy the admin bank into the operational bank (R301). -/
def copyRingBank (s : State) : State :=
  ((s.copyRegs 0x800000 0x820000 0x20000).copyRegs 0x840000 0x840100 0x90).copyRegs 0x880000 0x8C0000
    0x40000

/-! ### Stations -/

/-- Bit `a` of RING_EXCLUDED or RING_DRIFT, given the first of its registers. -/
def stationBit (s : State) (r a : Nat) : Bool := (s.rd (r + 4 * (a / 32))).toNat.testBit (a % 32)

def setStationBit (s : State) (r a : Nat) (b : Bool) : State :=
  let k := r + 4 * (a / 32)
  s.wrN k (setBit (s.rd k).toNat (a % 32) b)

def excluded (s : State) (a : Nat) : Bool := s.stationBit (Reg.RING_EXCLUDED 0) a

/-- A field of the record of station `a` (R326). -/
def stationRec (s : State) (a word lo width : Nat) : Nat := bits (s.ringWord (0x48000 + 16 * a + 4 * word)) lo width

def setStationRec (s : State) (a word lo width v : Nat) : State :=
  let k := 0x848000 + 16 * a + 4 * word
  s.wrN k (putBits (s.rd k).toNat lo width v)

/-! ### State (R325) -/

def ringState (s : State) : Nat := s.fld Reg.RING_STATUS_STATE

/-- The states that run cycles. -/
def ringRuns (s : State) : Bool := Nat.ble 4 s.ringState && Nat.ble s.ringState 6

def ringLine (s : State) : Bool := s.flag Reg.RING_STATUS_LINE

def ringGrace (s : State) : Bool := s.flag Reg.RING_STATUS_GRACE

/-- The WAITs on marks that are parked end with the ring (R371), and the ring-aligned schedules of event
pins end (R341). -/
def ringStops (s : State) : State :=
  let waits (p : Option Nat) : Bool := match p with
    | some c => Nat.ble 16 c
    | none => false
  let eng := s.engines.eng.map fun (p : Nat × Engine) =>
    if (waits p.2.parked || waits p.2.hParked) = true then (p.1, { p.2 with stop := true }) else p
  { s with engines := { s.engines with eng := eng } }.evtRingStop

/-- RING_STATUS.STATE changes (R317, R327, R371). -/
def setRing (s : State) (v : Nat) : State :=
  if v = s.ringState then s else
    let ran := s.ringRuns
    let s := (s.setFld Reg.RING_STATUS_STATE v).postOpen 0x0B01
    let s := { s with ring := { s.ring with since := s.tb.uptime } }
    if ran && !s.ringRuns then s.ringStops else s

/-- The bodies that polls which never left had taken, in the order in which they were taken. -/
def unsentBodies (s : State) : List RingBody :=
  (s.ring.unsent ++ s.ring.built.flatMap fun b => b.polls).filterMap fun p =>
    p.owner.map fun o => ⟨o.1, o.2, p.payload, p.poisoned⟩

/-- A new start of the ring's cycles: nothing of earlier cycles, measurements or breaks stays, and an entry
whose poll never left waits again. -/
def freshRing (s : State) : State :=
  let s := (s.setFlag Reg.RING_STATUS_LINE false).setFlag Reg.RING_STATUS_GRACE false
  { s with ring :=
      { ethertype := s.fld Reg.RING_ETHERTYPE_ETHERTYPE, bridge := s.ring.bridge
        bodies := s.unsentBodies ++ s.ring.bodies, raised := s.ring.raised
        tableDue := s.ring.tableDue } }

/-- The device is system active, or not part of a pair (R318). -/
def systemActive (s : State) : Bool :=
  !s.flag Reg.GUARD_PAIR_CTRL_ENABLE || Nat.beq (s.fld Reg.GUARD_PAIR_STATUS_ROLE) 1

/-! ### Sending -/

/-- PORTn_MAC_ADDR, first byte on the wire first. -/
def macAddr (s : State) (n : Nat) : List Byte :=
  leBytes 4 (s.rd (Reg.PORT_MAC_ADDR_LO n)).toNat ++ leBytes 2 (s.rd (Reg.PORT_MAC_ADDR_HI n)).toNat

/-- A ring frame leaves port `n`, where it sends (R218). -/
def sendRingBytes (s : State) (n : Nat) (b : List Byte) : State :=
  if s.sends n then
    ((s.count (Cnt.PORT_TX_OK n)).countN (Cnt.PORT_TX_BYTES n) (b.length + 4)).emit (.frame n b false)
  else s

/-- Send a ring frame from each of the ports, with its own source address. -/
def sendRing (s : State) (ports : List Nat) (h : RingHdr) (payload : List Byte) : State :=
  ports.foldl (fun s n => s.sendRingBytes n (ringFrame (s.macAddr n) s.ring.ethertype h payload)) s

/-- The ports the master sends from (R287). -/
def ringPorts (s : State) : List Nat := if s.ringLine then [6, 7] else [6]

/-! ### Breaks (R313 to R315) -/

/-- The master declares a break. -/
def declareBreak (s : State) : State :=
  if s.ringRuns && !s.ringLine && s.ring.lineAt.isNone then
    let s := (((s.count Cnt.RING_TOPOLOGY).postOpen 0x0B02).setFlag Reg.RING_STATUS_GRACE true)
    { s with ring := { s.ring with
        measure := none, graceEnd := none, looped := 0, peers := []
        lineAt := some (s.rc + s.fld (Reg.PORT_LEAD_LEAD_NS 6) + 10000) } }
  else s

/-- Both ring links are up. -/
def ringLinksUp (s : State) : Bool :=
  s.flag (Reg.PORT_LINK_STATUS_UP 6) && s.flag (Reg.PORT_LINK_STATUS_UP 7)

/-! ### Cycles (R294, R299 to R302) -/

def ringCycleNs (s : State) : Nat := s.fld Reg.RING_CYCLE_CYCLE_NS

/-- C(n) on the ring count. -/
def cycleStartRc (s : State) (n : Nat) : Int := s.ring.c0.getD 0 + (n * s.ringCycleNs : Nat)

/-- The pending table is in force from cycle `n` on. -/
def tableDueAt (s : State) (n : Nat) : Bool :=
  Nat.beq (s.fld Reg.RING_TABLE_STATUS_STATE) 2 && decide ((s.ring.tableDue : Int) ≤ s.tbOfRc (s.cycleStartRc n))

/-- A measurement starts in cycle `n` (R308): OUT from each side whose port sends. -/
def startMeasure (s : State) (n : Nat) : State :=
  let line := s.ringLine
  let (s, t) := s.launchAt (s.cycleStartRc n + 672)
  let seq := (s.ring.seq + 1) % 65536
  let sides := (if line then [0, 1] else [0]).filter fun i => s.sends (6 + i)
  let s := { s with ring := { s.ring with
    measureReq := false, seq := seq
    measure := some { seq := seq, cycle := n, line := line, t1 := sides.map fun i => (i, t) } } }
  sides.foldl (fun s i => s.sendRing [6 + i]
    { type := 4, cycle := n, rtime := unsigned 32 t } (delayPayload 1 i seq 0)) s

/-- The DELAY frame of cycle `n` (R308): the ASSIGN of a measurement of which a T3 is known, or the OUT of
a new one.  DESIGN CHOICE: in line mode a side whose OUT has not returned by the next cycle gets no ASSIGN, and
the other side's ASSIGN ends the measurement; with none returned the measurement is made again. -/
def measureCycle (s : State) (n : Nat) : State :=
  match s.ring.measure with
  | some m =>
    if m.value ≠ [] ∨ m.t1 = [] then
      let (s, t) := s.launchAt (s.cycleStartRc n + 672)
      let s := m.value.foldl (fun s v => s.sendRing [6 + v.1]
        { type := 4, cycle := n, rtime := unsigned 32 t } (delayPayload 3 v.1 m.seq (unsigned 32 v.2))) s
      let ends := if s.ringGrace && s.ring.graceEnd.isNone then some (max (n + 1) (s.ring.first + 10))
        else s.ring.graceEnd
      { s with ring := { s.ring with
          measure := none, graceEnd := ends, testFrom := s.ring.testFrom.or (some (n + 1)) } }.postOpen 0x0B04
    else s.startMeasure n
  | none => if s.ring.measureReq then s.startMeasure n else s

/-- Launch the POLL of a built slot of cycle `n` (R298 to R300). -/
def launchPoll (s : State) (n : Nat) (bank : RingBank) (b : BuiltPoll) : State :=
  match bank.slots[b.slot]? with
  | none => s
  | some k =>
    if s.excluded k.station then
      (match b.owner with
        | some (qid, pos) =>
          { s with ring := { s.ring with bodies := ⟨qid, pos, b.payload, b.poisoned⟩ :: s.ring.bodies } }
        | none => s)
    else
      let (s, _) := s.launchAt (s.cycleStartRc n + k.offset)
      let q := s.cycleStartRc n + (slotReply bank k : Nat)
      let resync := s.ring.resync.getLsbD k.station
      let poll : RingPoll :=
        { cycle := n, slot := b.slot, station := k.station, ports := if s.ringLine then [6, 7] else [7]
          q := q, gutter := slotGutter s.ringSheet k, dlim := bank.dlim, replyLen := k.replyLen
          noReply := k.noReply, rxq := k.rxq }
      let s := { s with ring := { s.ring with
        polls := s.ring.polls ++ [poll]
        resync := s.ring.resync &&& ~~~(1#256 <<< k.station)
        last := Table.insert s.ring.last b.slot b.payload } }
      let s := (s.count Cnt.RING_POLLS).sendRing s.ringPorts
        { type := 2, cycle := n, slot := b.slot, station := k.station, flags := resync.toNat * 32
          rtime := unsigned 32 q } b.payload
      match b.owner with
      | some (qid, pos) => s.complete qid pos (if b.poisoned then 0x05 else 0) 0
      | none => s

/-- The polls of the present cycle whose S has come, C(n) + S on the ring count, and the rest (R299). -/
def pollsDue (s : State) (n : Nat) (bank : RingBank) : List BuiltPoll × List BuiltPoll :=
  s.ring.unsent.partition fun b => match bank.slots[b.slot]? with
    | some k => decide (s.cycleStartRc n + k.offset ≤ s.rc)
    | none => true

/-- What leaves within the present cycle at this tick: its DELAY frame at C(n) + 672 ns, and its polls (R299,
R308). -/
def ringTick (s : State) : State :=
  if s.ring.delaying = false ∧ s.ring.unsent = [] then s
  else
    let n := s.ring.n - 1
    let s := if s.ring.delaying ∧ s.cycleStartRc n + 672 ≤ s.rc then
        ({ s with ring := { s.ring with delaying := false } }).measureCycle n
      else s
    let bank := s.ringBank true
    let (now, later) := s.pollsDue n bank
    now.foldl (fun s b => s.launchPoll n bank b) { s with ring := { s.ring with unsent := later } }

/-- GRACE ends with the cycle that R315 names. -/
def cycleGrace (s : State) (n : Nat) : State :=
  match s.ring.graceEnd with
  | some g => if g ≤ n then
      { s.setFlag Reg.RING_STATUS_GRACE false with ring := { s.ring with graceEnd := none } } else s
  | none => s

/-- The states that follow the first cycles (R305, R317). -/
def cycleState (s : State) (n : Nat) : State :=
  if s.ringState = 4 ∧ s.ring.first + 2 ≤ n then s.setRing 5
  else if s.ringState = 5 ∧ s.ring.first + 10 ≤ n then s.setRing 6 else s

/-- Line mode begins where a break pends, and ends where a heal is due (R313, R314). -/
def cycleMode (s : State) (n : Nat) : State :=
  match s.ring.lineAt with
  | some t =>
    if t ≤ s.cycleStartRc n then
      { s.setFlag Reg.RING_STATUS_LINE true with ring := { s.ring with
          lineAt := none, measure := none, measureReq := true } }
    else s
  | none =>
    if s.ringLine && s.ring.healReq && s.ringLinksUp then
      let s := ((s.setFlag Reg.RING_STATUS_LINE false).setFlag Reg.RING_STATUS_GRACE true).wr
        Reg.RING_LAMBDA_B 0
      { s with ring := { s.ring with
          healReq := false, measureReq := true, graceEnd := none, testFrom := none
          measure := none } }.postOpen 0x0B03
    else s

/-- A pending table takes effect with the cycle at which it is due (R301). -/
def cycleTable (s : State) (n : Nat) : State :=
  if s.tableDueAt n then
    ((s.copyRingBank.setFld Reg.RING_TABLE_STATUS_STATE 0).setFld Reg.RING_TABLE_CHANGE_CYCLE n).postOpen 0x0B09
  else s

/-- What changes at the start of cycle `n`: the states, GRACE, the mode and the table (R301, R305,
R313, R314, R324). -/
def enterCycle (s : State) (n : Nat) : State :=
  let s := s.setFld Reg.RING_STATUS_CYCLE n
  let s := { s with ring := { s.ring with ethertype := s.fld Reg.RING_ETHERTYPE_ETHERTYPE } }
  let s := (s.cycleGrace n).cycleState n
  let s := if s.ringLinksUp then s else s.declareBreak
  (s.cycleMode n).cycleTable n

/-- The payload of a CYCLE or HOLD (R290). -/
def cyclePayload (s : State) : List Byte := beBytes 4 s.ringCycleNs ++ [0, 0, 0, 0]

/-- The ring stops (R324): state DISABLED, and nothing of it stays. -/
def stopRing (s : State) : State := (s.setRing 0).freshRing

/-- The claim of R317 begins, at its hold-off. -/
def startClaim (s : State) : State := s.freshRing.setRing 2

/-- The device becomes a standby master (R317, R319). -/
def standBy (s : State) : State :=
  let s := s.setRing 3
  { s with ring := { s.ring with claiming := false } }

/-- The master stops and becomes a standby master (R518). -/
def yieldRing (s : State) : State := s.freshRing.setRing 3

/-- Cycle `n` starts: with the CYCLE of a built cycle, whose DELAY and POLL frames follow within it, or with a
HOLD (R299, R302). -/
def runCycle (s : State) (n : Nat) : State :=
  let built := s.ring.built.find? fun b => Nat.beq b.cycle n
  let (s, t) := s.launchAt (s.cycleStartRc n)
  let flags := s.ringLine.toNat * 64
  let s := { s with ring := { s.ring with
    n := n + 1, hold := built.isNone, returned := false, delaying := built.isSome, marked := 0
    raised := s.ring.raised ++ [24]
    unsent := (built.map BuiltCycle.polls).getD []
    built := s.ring.built.filter fun b => Nat.blt n b.cycle
    polls := s.ring.polls.filter fun p => Nat.blt n (p.cycle + 65536) } }
  match built with
  | none =>
    ((s.sendRing s.ringPorts { type := 6, cycle := n, flags := flags, rtime := unsigned 32 t }
      s.cyclePayload).count Cnt.RING_HOLD_SENT).postOpenLimited 0x0B08
  | some _ =>
    (s.sendRing s.ringPorts { type := 1, cycle := n, flags := flags, rtime := unsigned 32 t }
      s.cyclePayload).count Cnt.RING_CYCLES

/-- C(n) of the next cycle has come on the ring count. -/
def cycleDue (s : State) : Bool :=
  s.ringRuns && s.ring.c0.isSome && decide (s.cycleStartRc s.ring.n ≤ s.rc)

/-- R299: the instant C(n). -/
def startCycle (s : State) : State :=
  if s.ring.stopReq || !s.operating then s.stopRing
  else if s.ring.yieldReq then s.yieldRing
  else if s.ring.foreign then s.startClaim
  else
    let n := s.ring.n
    (s.enterCycle n).runCycle n

/-- The body of the oldest entry of payload queue `qid`, and the rest (R300). -/
def takeBody (qid : Nat) : List RingBody → Option (RingBody × List RingBody)
  | [] => none
  | b :: rest =>
    if b.qid = qid then some (b, rest) else (takeBody qid rest).map fun r => (r.1, b :: r.2)

/-- The payload of slot `k`, index `i`, of the cycle being built (R300). -/
def buildPoll (s : State) (oper : Bool) (i : Nat) (k : RingSlot) : State × BuiltPoll :=
  let static := s.ringStatic oper k.reqOff k.reqLen
  let repeated := match s.ring.last.find? fun p => Nat.beq p.1 i with
    | some p => p.2
    | none => static
  if k.useTxq then
    match takeBody k.txq s.ring.bodies with
    | some (b, rest) =>
      let s := { s with ring := { s.ring with bodies := rest } }
      if k.reqLen < b.bytes.length then
        ((s.complete b.qid b.pos 0x08 0x07).count Cnt.RING_STALE, { slot := i, payload := repeated })
      else (s, { slot := i, payload := b.bytes, owner := some (b.qid, b.pos), poisoned := b.poisoned })
    | none => (s.count Cnt.RING_STALE, { slot := i, payload := repeated })
  else (s, { slot := i, payload := static })

/-- R302: the build of cycle `c` (modulo 65,536) reaches the fore-edges; one that comes at its start or later is
discarded, and takes no entry. -/
def buildCycle (s : State) (c : Nat) : State :=
  let k := (c + 65536 - s.ring.n % 65536) % 65536
  let n := s.ring.n + k
  if s.ringRuns && Nat.blt k 32768 && !(s.ring.built.any fun b => Nat.beq b.cycle n) &&
      decide (s.rc < s.cycleStartRc n) then
    let oper := !s.tableDueAt n
    let bank := s.ringBank oper
    let live := ((List.range bank.slots.length).zip bank.slots).filter fun p =>
      p.2.enabled && !s.excluded p.2.station
    let (s, polls) := live.foldl (fun (a : State × List BuiltPoll) p =>
      let (s, b) := a.1.buildPoll oper p.1 p.2
      (s, a.2 ++ [b])) (s, [])
    let late := decide (s.cycleStartRc n - s.fld (Reg.PORT_LEAD_LEAD_NS 6) < s.rc)
    let s := if late then s.count Cnt.RING_LEAD_MISS else s
    { s with ring := { s.ring with built := s.ring.built ++ [⟨n, polls⟩] } }
  else s

/-! ### Replies (R303 to R307) -/

/-- Change the newest poll of a cycle (modulo 65,536) and slot. -/
def mapPoll (s : State) (c slot : Nat) (f : RingPoll → RingPoll) : State :=
  let l := s.ring.polls.map fun p =>
    if Nat.beq (p.cycle % 65536) c && Nat.beq p.slot slot then f p else p
  { s with ring := { s.ring with polls := l } }

/-- The deadline of a slot on the ring count (R304). -/
def pollDeadline (s : State) (p : RingPoll) : Int :=
  p.q + (max (s.rd Reg.RING_LAMBDA_A).toNat (s.rd Reg.RING_LAMBDA_B).toNat : Nat) + p.gutter

/-- The loop delay of the half on which a frame of port `n` arrives (R303). -/
def lambdaOf (s : State) (n : Nat) : Nat :=
  (s.rd (if s.ringLine && Nat.beq n 7 then Reg.RING_LAMBDA_B else Reg.RING_LAMBDA_A)).toNat

/-- R311: a station whose d is above DLIM. -/
def checkDelay (s : State) (a d dlim : Nat) : State :=
  let was := s.ring.overLimit
  if dlim < d then
    let s := { s with ring := { s.ring with overLimit := was ||| (1#256 <<< a) } }
    if was.getLsbD a then s else s.postOpen 0x0B0E
  else { s with ring := { s.ring with overLimit := was &&& ~~~(1#256 <<< a) } }

/-- A REPLY arrives (R303 to R307, R315). -/
def replyReceive (s : State) (port : Nat) (h : RingHdr) (payload : List Byte) (ageNs : Nat) : State :=
  match s.ring.polls.reverse.find? fun p =>
      Nat.beq (p.cycle % 65536) h.cycle && Nat.beq p.slot h.slot with
  | none => s.count Cnt.RING_BAD_FRAME
  | some p =>
    if !p.ports.contains port || !Nat.beq h.station p.station || (h.ret && !s.ringLine) ||
        Nat.blt p.replyLen h.plen then s.count Cnt.RING_BAD_FRAME
    else if p.closed || p.noReply || decide (s.pollDeadline p < s.rcAt ageNs) then s
    else
      let d := h.rtime
      let e := s.rcAt ageNs - (p.q + s.lambdaOf port - d)
      let s := s.checkDelay p.station d p.dlim
      let grace := s.ringGrace
      let accepted := grace || decide (e.natAbs ≤ p.gutter)
      let drift := !grace && accepted && decide (p.gutter < 2 * e.natAbs)
      let s := if drift then
          let s := ((s.setStationBit (Reg.RING_DRIFT 0) p.station true).count Cnt.RING_DRIFT).postOpenLimited
            0x0B05
          { s with ring := { s.ring with resync := s.ring.resync ||| (1#256 <<< p.station) } }
        else s
      let lat := signed 32 (s.rd (Reg.TB_LAT_RX port)).toNat
      let r : RingReply :=
        { accepted := accepted, payload := payload, flags := h.flags, e := if grace then 0 else e, d := d
          port := port, stamp := Full.ofTicks (((s.portTicksAt port ageNs : Int) - lat).toNat)
          ts := s.statusAt ageNs, rxUp := s.tb.uptime - ageNs }
      s.mapPoll h.cycle h.slot fun x => if x.cycle = p.cycle then { x with replies := x.replies ++ [r] } else x

/-- Station `a` reported PEER_UP, or not, in polled cycle `n` (R314). -/
def notePeer (s : State) (a n : Nat) (good : Bool) : State :=
  let p := Table.get (fun _ => {}) s.ring.peers a
  let p := if p.cycle = n then p
    else { cycle := n, run := if p.good then p.run else 0, good := false }
  let p := if good && !p.good then { p with run := p.run + 1, good := true } else p
  { s with ring := { s.ring with peers := Table.set (fun _ => {}) s.ring.peers a p } }

/-- R314: every station that reported LOOPED has reported PEER_UP in 16 consecutive polled cycles. -/
def healsItself (s : State) : Bool :=
  decide (s.ring.looped ≠ 0) && (List.range 256).all fun a =>
    !s.ring.looped.getLsbD a || Nat.ble 16 (Table.get (fun _ => {}) s.ring.peers a).run

/-- An accepted reply is delivered (R307, R400). -/
def deliverReply (s : State) (p : RingPoll) (r : RingReply) : State :=
  let a := p.station
  let s := (s.count Cnt.RING_REPLIES_OK).setStationRec a 0 0 32 r.d
  let s := { s with ring := { s.ring with raised := s.ring.raised ++ [25] } }
  let s := s.setStationRec a 1 0 32 (unsigned 32 r.e)
  let f := 1 + (r.flags.testBit 1).toNat * 8 + (r.flags.testBit 0).toNat * 16 +
    (r.flags.testBit 3).toNat * 32 + (r.flags.testBit 2).toNat * 64 +
    (Nat.beq r.port 7 && Nat.beq p.ports.length 2).toNat * 128
  let s := (s.setStationRec a 2 0 8 f).setStationRec a 2 8 24 (p.cycle % 65536 * 256)
  let s := if r.flags.testBit 1 then
    { s with ring := { s.ring with looped := s.ring.looped ||| (1#256 <<< a) } } else s
  let s := s.notePeer a p.cycle (r.flags.testBit 0)
  let s := if s.ringLine && s.healsItself then { s with ring := { s.ring with healReq := true } } else s
  if s.rxqTakes p.rxq then
    let c : Cpl :=
      { qid := p.rxq, kind := 3, ts := r.ts, stampValid := true, stamp := r.stamp, x8 := r.flags
        x12 := p.slot, body := r.payload.length % 65536 * 2 ^ 16 + p.cycle % 65536 * 2 ^ 32 + a * 2 ^ 48
        x24 := unsigned 24 r.e, retires := 1 }
    let h := s.nextFrame
    let s := s.allocFrame (r.payload.length + 34) (some r.port) 0
    s.toRxq p.rxq { frame := h, bytes := r.payload, stamp := r.stamp, ts := r.ts, rxUp := r.rxUp
                    reply := some c }
  else s

/-- A slot is missed (R305). -/
def missSlot (s : State) (p : RingPoll) : State :=
  let a := p.station
  let s := s.notePeer a p.cycle false
  if s.ringGrace then s.count Cnt.RING_GRACE_MISSED
  else
    let s := s.count Cnt.RING_MISSED
    let m := min 255 (s.stationRec a 2 8 8 + 1)
    let s := s.setStationRec a 2 8 8 m
    if s.fld Reg.RING_MISS_LIMIT_LIMIT ≤ m ∧ s.excluded a = false then
      ((s.setStationBit (Reg.RING_EXCLUDED 0) a true).count Cnt.RING_EXCLUSIONS).postOpen 0x0B06
    else s

/-- R304, R306, R307: the deadline of a slot, once it has come.  DEDUCED: a reply whose delimiter came by the
deadline and which is still arriving is awaited: the happening comes when it has ended. -/
def slotDeadline (s : State) (c slot : Nat) : State :=
  match s.ring.polls.find? fun p =>
      Nat.beq (p.cycle % 65536) c && Nat.beq p.slot slot && !p.closed && decide (s.pollDeadline p ≤ s.rc) with
  | none => s
  | some p =>
    let s := s.mapPoll c slot fun x => if x.cycle = p.cycle then { x with closed := true } else x
    if p.noReply then s
    else match p.replies with
      | [r] => if r.accepted then s.deliverReply p r else s.missSlot p
      | [] => s.missSlot p
      | _ => ((s.count Cnt.RING_DUP_ADDR).postOpenLimited 0x0B07).missSlot p

/-! ### Delay frames at the master (R308) -/

/-- A DELAY OUT returns. -/
def delayOut (s : State) (port seq side : Nat) (ret : Bool) (ageNs : Nat) : State :=
  match s.ring.measure with
  | none => s
  | some m =>
    match m.t1.find? fun p => Nat.beq p.1 side with
    | none => s
    | some (_, t1) =>
      if m.seq ≠ seq then s
      else if m.line then
        if ret ∧ port = 6 + side ∧ (m.value.any fun v => Nat.beq v.1 side) = false then
          let v := s.rcAt ageNs - t1
          let s := s.wrN (if side = 0 then Reg.RING_LAMBDA_A else Reg.RING_LAMBDA_B) (unsigned 32 v)
          { s with ring := { s.ring with measure := some { m with value := m.value ++ [(side, v)] } } }
        else s
      else if port = 7 ∧ ret = false then
        let s := (s.wrN Reg.RING_LAMBDA_A (unsigned 32 (s.rcAt ageNs - t1))).wr Reg.RING_LAMBDA_B 0
        s.sendRing [7] { type := 4, cycle := m.cycle, rtime := unsigned 32 s.rc } (delayPayload 2 side seq 0)
      else s

/-- A DELAY BACK arrives (ring mode). -/
def delayBack (s : State) (port seq side : Nat) (ageNs : Nat) : State :=
  match s.ring.measure with
  | none => s
  | some m =>
    match m.t1.find? fun p => Nat.beq p.1 side with
    | none => s
    | some (_, t1) =>
      if m.seq = seq ∧ m.line = false ∧ port = 6 ∧ m.value = [] then
        { s with ring := { s.ring with measure := some { m with value := [(side, s.rcAt ageNs - t1)] } } }
      else s

/-- A frame the master sent returns (R313). -/
def ringReturn (s : State) (port type cycle : Nat) (ret : Bool) : State :=
  if s.ringRuns && !s.ringLine then
    if port = 6 ∧ ret then s.declareBreak
    else if port = 7 ∧ type = 1 ∧ cycle = s.fld Reg.RING_STATUS_CYCLE then
      { s with ring := { s.ring with returned := true } }
    else s
  else s

/-! ### Mastership (R317 to R321) -/

def ringMayMaster (s : State) : Bool := s.ringSheet.mayMaster

/-- A CYCLE or HOLD of another master is heard. -/
def foreignMaster (s : State) : State :=
  if s.ringState = 2 ∨ (s.ringState = 1 ∧ s.ringMayMaster) then s.standBy
  else if s.ringRuns then
    let s := (s.count Cnt.RING_FOREIGN).postOpen 0x0B0D
    { s with ring := { s.ring with foreign := true } }
  else s

/-- A CLAIM goes out from P6 and P7. -/
def sendClaim (s : State) (yields : Bool) : State :=
  let (s, t) := s.launchAt s.rc
  (s.sendRing [6, 7] { type := 5, station := 0, flags := yields.toNat * 16, rtime := unsigned 32 t }
    (beBytes 1 (s.fld Reg.RING_PRIORITY_PRIORITY) ++ List.replicate 7 0 ++ beBytes 8 Config.serial.toNat)).count
    Cnt.RING_CLAIMS

/-- The hold-off of SERIAL[9:0] µs, in ns (R317). -/
def holdoffNs : Nat := Config.serial.toNat % 1024 * 1000

/-- The tuple of a received CLAIM is lower than the device's own. -/
def lowerClaim (s : State) (prio serial : Nat) : Bool :=
  let p := s.fld Reg.RING_PRIORITY_PRIORITY
  Nat.blt prio p || (Nat.beq prio p && Nat.blt serial Config.serial.toNat)

def claimReceive (s : State) (prio serial : Nat) : State :=
  if s.ringState = 2 ∧ s.lowerClaim prio serial then ((s.sendClaim true).standBy).postOpen 0x0B0C else s

/-- MEASURE is entered with cycle `n` starting at ring count `c`. -/
def enterMeasure (s : State) (n : Nat) (c : Int) : State :=
  let s := (s.setRing 4).setFlag Reg.RING_STATUS_GRACE true
  { s with ring := { s.ring with
      c0 := some (c - (n * s.ringCycleNs : Nat)), n := n, first := n, graceEnd := some (n + 10)
      measureReq := true, claiming := false, hold := true } }

/-- R317 step 5, R294: the claim is won. -/
def winClaim (s : State) : State :=
  let cyc := max 1 s.ringCycleNs
  let at' := s.rc + 1000000
  let s := (s.enterMeasure 0 ((at' + (cyc : Int) - 1) / cyc * cyc)).postOpen 0x0B0B
  if s.ringLinksUp then s else s.declareBreak

/-- R321: a standby master that the vote makes system active takes mastership, in line mode. -/
def takeMastership (s : State) : State :=
  if s.ringState = 3 ∧ s.ringMayMaster then
    let n := s.ring.n
    let c := match s.ring.c0 with
      | some c0 => c0 + (n * s.ringCycleNs : Nat)
      | none =>
        let cyc := max 1 s.ringCycleNs
        (s.rc + 1000000 + (cyc : Int) - 1) / cyc * cyc
    (s.enterMeasure n c).setFlag Reg.RING_STATUS_LINE true
  else s

/-- R518, R318: the device stops being system active. -/
def losesActive (s : State) : State :=
  if s.ringState = 2 then s.standBy
  else if s.ringRuns then { s with ring := { s.ring with yieldReq := true } } else s

/-! ### Standby (R319) -/

/-- A standby master aligns its ring count to a CYCLE or HOLD with RET clear on the port it aligns by (R310), and
learns the cycle number and the next cycle start.  DESIGN CHOICE: every error is corrected at once, where R310 has
a station correct the later ones without steps at a rate it does not give. -/
def alignStandby (s : State) (h : RingHdr) (ageNs : Nat) : State :=
  let t := s.rcAt ageNs
  let error := shortDiff (unsigned 32 (h.rtime + s.ring.delay)) (unsigned 32 t)
  let s := s.setBridge (s.ring.bridge - error * 2 ^ 32)
  let start := t + error - s.ring.delay
  let s := s.setFld Reg.RING_STATUS_CYCLE h.cycle
  let k := (h.cycle + 65536 - s.ring.n % 65536) % 65536
  let n := if s.ring.c0 = none then h.cycle else if k < 32768 then s.ring.n + k else s.ring.n + k - 65536
  { s with ring := { s.ring with
      n := n + 1, c0 := some (start - (n * s.ringCycleNs : Nat))
      ethertype := s.fld Reg.RING_ETHERTYPE_ETHERTYPE } }

/-- A standby master measures its path delay (R309), with P = 13,000 ns. -/
def standbyDelay (s : State) (port : Nat) (h : RingHdr) (b : List Byte) (ageNs : Nat) : State :=
  let p := ringPayloadOf b
  let phase := (p.getD 0 0).toNat
  let side := (p.getD 1 0).toNat
  let seq := beNat ((p.drop 2).take 2)
  let value := beNat ((p.drop 4).take 4)
  let t := s.rcAt ageNs
  if phase = 1 ∧ h.ret = false then
    { s with ring := { s.ring with standT1 := some (seq, side, t), standT2 := none } }
  else if phase = 2 ∨ phase = 1 then
    { s with ring := { s.ring with standT2 := some (seq, side, t) } }
  else
    match s.ring.standT1, s.ring.standT2 with
    | some (q1, d1, t1), some (q2, d2, t2) =>
      if q1 = seq ∧ d1 = side ∧ q2 = seq ∧ d2 = side then
        { s with ring := { s.ring with
            delay := ((value : Int) - (t2 - t1) - 13000) / 2, alignPort := some port } }
      else s
    | _, _ => s

/-- A standby master receives a ring frame on port `n` (R319): it goes on to the other ring port,
13,000 ns after it arrived. -/
def standbyForward (s : State) (n : Nat) (b : List Byte) (ageNs : Nat) : State :=
  if s.ringState = 3 then
    let h := ringHdrOf b
    let s := { s with ring := { s.ring with
      relay := s.ring.relay ++ [⟨13 - n, b, s.tb.uptime - ageNs + 13000⟩] } }
    if h.version ≠ 1 then s
    else if (h.type = 1 ∨ h.type = 6) ∧ h.ret = false then
      (if s.ring.alignPort.getD n = n then
        { s.alignStandby h ageNs with ring := { (s.alignStandby h ageNs).ring with alignPort := some n } }
      else s)
    else if h.type = 4 then s.standbyDelay n h b ageNs
    else s
  else s

/-- The oldest frame of the relay leaves when it is due. -/
def relayLaunch (s : State) : State :=
  match s.ring.relay with
  | [] => s
  | r :: rest =>
    if r.due ≤ s.tb.uptime then { s with ring := { s.ring with relay := rest } }.sendRingBytes r.port r.bytes
    else s

/-! ### Any ring frame -/

/-- A ring frame is received on P6 or P7 while the ring is enabled (R292, R306, R308, R313, R317,
R319). -/
def ringReceive (s : State) (port : Nat) (b : List Byte) (ageNs : Nat) : State :=
  if s.ringState = 3 then s.standbyForward port b ageNs
  else
    let h := ringHdrOf b
    if h.version ≠ 1 ∨ h.type = 0 ∨ 7 < h.type ∨ b.length < 30 then s.count Cnt.RING_BAD_FRAME
    else
      let s := if s.ringRuns && !s.ringLine && Nat.beq port 6 && h.ret then s.declareBreak else s
      let p := ringPayloadOf b
      let own := decide ((b.drop 6).take 6 = s.macAddr 6) || decide ((b.drop 6).take 6 = s.macAddr 7)
      if h.type = 3 then (if s.ringRuns then s.replyReceive port h p ageNs else s)
      else if h.type = 5 then s.claimReceive (p.getD 0 0).toNat (beNat ((p.drop 8).take 8))
      else if h.type = 1 ∨ h.type = 6 then
        (if own && s.ringRuns then s.ringReturn port h.type h.cycle h.ret else s.foreignMaster)
      else if h.type = 4 then
        let side := (p.getD 1 0).toNat
        let seq := beNat ((p.drop 2).take 2)
        if p.getD 0 0 = 1 then s.delayOut port seq side h.ret ageNs
        else if p.getD 0 0 = 2 then s.delayBack port seq side ageNs else s
      else s

end State

end Sys2Proof.Machine
end

