-- ==== Sys2Proof/Machine/Ring.lean ====
section
/-! DEFINITION. The commands of the ring (R285 to R327).  A ring port is named by its side: 0 is P6,
1 is P7. -/

namespace Sys2Proof.Machine

/-- A built cycle reaches the fore-edges (R302): `cycle` is its number modulo 65,536. -/
def execRingCycleBuild (cycle : BitVec 16) (s : State) : Out State := .next (s.buildCycle cycle.toNat)

/-- A REPLY arrives, its delimiter `ageNs` ago (R303 to R307). -/
def execReply (side : Fin 2) (cycle : BitVec 16) (slot : BitVec 12) (station flags : BitVec 8)
    (d : BitVec 32) (payload : List Byte) (ageNs : Nat) (s : State) : Out State :=
  .next (if s.ringRuns then
    let h : RingHdr := { type := 3, cycle := cycle.toNat, slot := slot.toNat, station := station.toNat
                         flags := flags.toNat, rtime := d.toNat, plen := payload.length }
    let s := if !s.ringLine && Nat.beq side 0 && h.ret then s.declareBreak else s
    s.replyReceive (6 + side) h payload ageNs
  else s)

/-- The deadline of a slot passes (R304, R307). -/
def execRingSlotDeadline (cycle : BitVec 16) (slot : BitVec 12) (s : State) : Out State :=
  .next (s.slotDeadline cycle.toNat slot.toNat)

/-- A DELAY OUT returns on a side (R308); `of` is the SIDE it carries. -/
def execDelayOutReceive (side : Fin 2) (seq : BitVec 16) (of : Fin 2) (ret : Bool) (ageNs : Nat)
    (s : State) : Out State :=
  .next (s.delayOut (6 + side) seq.toNat of ret ageNs)

/-- A DELAY BACK arrives (R308). -/
def execDelayBackReceive (side : Fin 2) (seq : BitVec 16) (of : Fin 2) (ageNs : Nat) (s : State) :
    Out State :=
  .next (s.delayBack (6 + side) seq.toNat of ageNs)

/-- A frame the master sent returns (R313). -/
def execRingReturnFrame (side : Fin 2) (type : BitVec 4) (cycle : BitVec 16) (ret : Bool) (s : State) :
    Out State :=
  .next (s.ringReturn (6 + side) type.toNat cycle.toNat ret)

/-- The CYCLE has not arrived on P7 by C(n) + Λ + 2 gutters (R313). -/
def execRingCycleReturnTimeout (s : State) : Out State :=
  .next (
    let tested := match s.ring.testFrom with
      | some k => Nat.ble (k + 1) s.ring.n
      | none => false
    let limit := s.cycleStartRc (s.ring.n - 1) + (s.rd Reg.RING_LAMBDA_A).toNat +
      2 * (s.fld Reg.RING_GUTTER_GUTTER_NS : Int)
    if s.ringRuns && !s.ringLine && tested && !s.ring.hold && !s.ring.returned && decide (limit ≤ s.rc) then
      s.declareBreak else s)

/-- A write of RING_CTRL.HEAL (R314). -/
def execHeal (s : State) : Out State :=
  .next (if s.ringLine then { s with ring := { s.ring with healReq := true } } else s)

/-- A write of RING_CTRL.MEASURE (R308). -/
def execMeasure (s : State) : Out State :=
  .next (if s.ringRuns then { s with ring := { s.ring with measureReq := true } } else s)

/-- A write of RING_CTRL.ENABLE (R293, R317, R324): 0 to 1 starts at LISTEN with BRIDGE 0; 0 stops the
ring at the next cycle start, or at once while it runs no cycles. -/
def execRingEnableWrite (enable : Bool) (s : State) : Out State :=
  .next (
    let was := s.flag Reg.RING_CTRL_ENABLE
    let s := s.setFlag Reg.RING_CTRL_ENABLE enable
    if enable && !was then ((s.freshRing).setBridge 0).setRing 1
    else if was && !enable then
      (if s.ringRuns then { s with ring := { s.ring with stopReq := true } } else s.stopRing)
    else s)

/-- A write of RING_ETHERTYPE (R324, R325): below 0x0600 ignored; in force at the next cycle start, or
at once in DISABLED, LISTEN or CLAIM. -/
def execRingEthertypeWrite (value : BitVec 16) (s : State) : Out State :=
  .next (if value.toNat < 0x600 then s else
    let s := s.setFld Reg.RING_ETHERTYPE_ETHERTYPE value.toNat
    if s.ringState ≤ 2 then { s with ring := { s.ring with ethertype := value.toNat } } else s)

/-- A write of RING_READMIT.GO (R305). -/
def execRingReadmit (station : BitVec 8) (s : State) : Out State :=
  .next ((s.setStationBit (Reg.RING_EXCLUDED 0) station.toNat false).setStationRec station.toNat 2 8 8 0)

/-- Refuse a table change (R301). -/
def State.refuseTable (s : State) (error entry : Nat) : State :=
  ((s.setFld Reg.RING_TABLE_STATUS_ERROR error).setFld Reg.RING_TABLE_STATUS_ENTRY entry).postOpen 0x0B0A

/-- A write of RING_TABLE_COMMIT.GO (R301). -/
def execRingTableGo (s : State) : Out State :=
  .next (if s.fld Reg.RING_TABLE_STATUS_STATE = 0 then s.setFld Reg.RING_TABLE_STATUS_STATE 1
    else s.refuseTable 8 0)

/-- A write of RING_TABLE_COMMIT.CANCEL (R301). -/
def execRingTableCancel (s : State) : Out State := .next (s.setFld Reg.RING_TABLE_STATUS_STATE 0)

/-- Validation of the admin bank ends (R301). -/
def execRingTableValidated (s : State) : Out State :=
  .next (if s.fld Reg.RING_TABLE_STATUS_STATE = 1 then
    match ringTableError s.ringSheet (s.ringBank false) with
    | some (e, k) => (s.setFld Reg.RING_TABLE_STATUS_STATE 0).refuseTable e k
    | none =>
      let due := s.nowNs + s.fld Reg.TB_SETUP_MARGIN_MARGIN_NS
      let s := { s.setFld Reg.RING_TABLE_STATUS_STATE 2 with ring := { s.ring with tableDue := due } }
      if s.ringRuns then
        let cyc : Int := (max 1 s.ringCycleNs : Nat)
        let first := ((due : Int) - s.tbOfRc (s.cycleStartRc 0) + cyc - 1) / cyc
        s.setFld Reg.RING_TABLE_CHANGE_CYCLE (max s.ring.n first.toNat)
      else s
  else s)

/-- The 10 ms of LISTEN end (R317, R318). -/
def execRingListenEnd (s : State) : Out State :=
  .next (if s.ringState = 1 ∧ s.ring.since + 10000000 ≤ s.tb.uptime then
    (if s.ringMayMaster && s.systemActive then s.startClaim else s.standBy)
  else s)

/-- The hold-off of SERIAL[9:0] µs ends (R317). -/
def execRingHoldoffEnd (s : State) : Out State :=
  .next (if s.ringState = 2 ∧ s.ring.claiming = false ∧ s.ring.since + State.holdoffNs ≤ s.tb.uptime then
    { s with ring := { s.ring with claiming := true, claims := 0, since := s.tb.uptime } } else s)

/-- Every 100 µs of the claim (R317). -/
def execClaimSend (s : State) : Out State :=
  .next (if s.ringState = 2 ∧ s.ring.claiming ∧ s.ring.since + 100000 * s.ring.claims ≤ s.tb.uptime ∧
      s.ring.claims < 20 then
    { s.sendClaim false with ring := { (s.sendClaim false).ring with claims := s.ring.claims + 1 } } else s)

/-- A CLAIM is received (R317): its PRIORITY and SERIAL. -/
def execClaimReceive (priority : BitVec 8) (serial : BitVec 64) (s : State) : Out State :=
  .next (s.claimReceive priority.toNat serial.toNat)

/-- The 2 ms of the claim end (R317). -/
def execClaimWon (s : State) : Out State :=
  .next (if s.ringState = 2 ∧ s.ring.claiming ∧ s.ring.since + 2000000 ≤ s.tb.uptime then s.winClaim else s)

/-- A CYCLE or HOLD of another master is received (R317, R320). -/
def execForeignMaster (s : State) : Out State := .next s.foreignMaster

/-- A standby master receives a ring frame (R319). -/
def execStandbyForward (side : Fin 2) (bytes : List Byte) (ageNs : Nat) (s : State) : Out State :=
  .next (s.standbyForward (6 + side) bytes ageNs)

/-- 13,000 ns after its arrival a frame leaves on the other ring port (R319). -/
def execStandbyRelayLaunch (s : State) : Out State := .next s.relayLaunch

end Sys2Proof.Machine
end

