-- ==== Sys2Proof/Machine/Ports.lean ====
section
/-! DEFINITION. Ports and MACs (R214 to R243): links, received frames, preemption's verify, flow
control, PLCA and the wake detectors. -/

namespace Sys2Proof.Machine

/-! ### CRC-16 of the wake patterns (R232) -/

/-- One bit of the CRC-16 with polynomial 0x1021, most significant bit first. -/
def crc16Bit (c : BitVec 16) : BitVec 16 :=
  if c.getLsbD 15 then (c <<< 1) ^^^ 0x1021#16 else c <<< 1

def crc16Byte (c : BitVec 16) (b : Byte) : BitVec 16 :=
  let x := c ^^^ (b.setWidth 16 <<< 8)
  crc16Bit (crc16Bit (crc16Bit (crc16Bit (crc16Bit (crc16Bit (crc16Bit (crc16Bit x)))))))

def crc16 (b : List Byte) : BitVec 16 := b.foldl crc16Byte 0xFFFF#16

namespace State

/-! ### Links (R216 to R219) -/

/-- PLCA is on, on port `n` (R238). -/
def plcaOn (s : State) (n : Nat) : Bool := Nat.ble 8 n && !(Nat.beq (bits (s.port n).plcaCtrl 0 8) 255)

/-- BEACONs are seen or sent where PLCA is on (R217). -/
def beaconsSeen (s : State) (n : Nat) : Bool := !s.plcaOn n || s.flag (Reg.PORT_PLCA_STATUS_ACTIVE n)

/-- Lock, or what stands for it, and the in-band status of port `n` hold: their loss takes the link down
(R217). -/
def linkLocked (s : State) (n : Nat) : Bool := (s.port n).locked && s.beaconsSeen n

/-- The condition under which port `n`'s link may be up (R216, R217). -/
def linkReady (s : State) (n : Nat) : Bool :=
  (s.port n).condition && !s.flag (Reg.PORT_LINK_STATUS_SPEED_MISMATCH n) && s.beaconsSeen n

/-- The conditions of port `n` have changed from those of `old`: the time they have held runs from now
(R217). -/
def noteLink (s old : State) (n : Nat) : State :=
  let p := s.port n
  s.setPort n { p with
    lockSince := if s.linkLocked n = old.linkLocked n then p.lockSince else s.tb.uptime
    readySince := if s.linkReady n = old.linkReady n then p.readySince else s.tb.uptime }

/-! ### What filtered earlier frames (R222, R233) -/

/-- The registers of the receive filter of port `n` lie from `filterBase n` on, below `filterBase n + 0x2E0`. -/
def filterBase (n : Nat) : Nat := 0x100020 + n * 0x10000

def filterWords (s : State) (n : Nat) : Table Word :=
  s.regs.filter fun p => Nat.ble (filterBase n) p.1 && Nat.blt p.1 (filterBase n + 0x2E0)

/-- What filters the frames of port `n` changes now: what has filtered them is kept. -/
def logRx (s : State) (n : Nat) : State :=
  let p := s.port n
  s.setPort n { p with rxLog :=
    ⟨s.tb.uptime, s.flag (Reg.PORT_LINK_STATUS_UP n), s.filterWords n⟩ :: p.rxLog }

/-- The state as the receive filter of port `n` saw it `age` ns ago (R222, R233). -/
def rxView (s : State) (n age : Nat) : State :=
  match ((s.port n).rxLog.filter fun e => Nat.blt s.tb.uptime (e.endUp + age)).getLast? with
  | none => s
  | some e =>
    let kept := s.regs.filter fun p => !(Nat.ble (filterBase n) p.1 && Nat.blt p.1 (filterBase n + 0x2E0))
    { s with regs := e.filter.foldl (fun t (p : Nat × Word) => Table.set regReset t p.1 p.2) kept }.setFlag
      (Reg.PORT_LINK_STATUS_UP n) e.up

/-- The frames on the medium of port `n` go back to the head of their class (R219). -/
def takeBack (s : State) (n : Nat) : State :=
  let p := s.port n
  let s := match p.cur with
    | none => s
    | some m =>
      let s := s.count (Cnt.PORT_TX_LINK_RESEND n)
      let q := s.port n
      match m.control with
      | some f => s.setPort n { q with cur := none, fcWait := f :: q.fcWait }
      | none => s.setPort n { q with cur := none, fe := { m.tx with late := false } :: q.fe }
  match p.susp with
  | none => s
  | some x =>
    let s := s.count (Cnt.PORT_TX_LINK_RESEND n)
    let q := s.port n
    s.setPort n { q with susp := none, fe := { x.tx with late := false } :: q.fe }

/-- The device declares the link of port `n` down (R217, R219, R313). -/
def declareDown (s : State) (n : Nat) : State :=
  if s.flag (Reg.PORT_LINK_STATUS_UP n) then
    let s := ((s.logRx n).setFlag (Reg.PORT_LINK_STATUS_UP n) false).count (Cnt.PORT_LINK_DOWN n)
    let s := ((s.postPort n 0x11).takeBack n).settle n
    if n = 6 ∨ n = 7 then s.declareBreak else s
  else s

/-- A verify mPacket leaves, and the wait for its respond begins (R226). -/
def sendVerify (s : State) (n : Nat) : State :=
  (s.setPort n { s.port n with verifyAt := s.tb.uptime }).emit (.verify n)

/-- The verify protocol starts (R226). -/
def startVerify (s : State) (n : Nat) : State :=
  if s.flag (Reg.PORT_MEDIA_PREEMPT_CAP n) && s.flag (Reg.PORT_MM_CTRL_ENABLE n) &&
      !s.flag (Reg.PORT_MM_CTRL_VERIFY_DIS n) && s.flag (Reg.PORT_LINK_STATUS_UP n) then
    ((s.setFld (Reg.PORT_MM_STATUS_VSTATE n) 2).setFld (Reg.PORT_MM_STATUS_ATTEMPTS n) 1).sendVerify n
  else s

/-- The device declares the link of port `n` up once its condition has held for UP_HOLD_MS (R217, R226). -/
def declareUp (s : State) (n : Nat) : State :=
  if !s.flag (Reg.PORT_LINK_STATUS_UP n) && s.linkReady n && s.operating &&
      !s.flag (Reg.PORT_LINK_CTRL_ADMIN_DOWN n) &&
      Nat.ble ((s.port n).readySince + s.fld (Reg.PORT_LINK_CTRL_UP_HOLD_MS n) * 1000000) s.tb.uptime then
    ((((s.logRx n).setFlag (Reg.PORT_LINK_STATUS_UP n) true).postPort n 0x10).startVerify n).settle n
  else s

/-- A loss of the link's condition has lasted DOWN_HOLD_US (R217). -/
def linkLoss (s : State) (n : Nat) : State :=
  if !s.linkLocked n &&
      Nat.ble ((s.port n).lockSince + s.fld (Reg.PORT_LINK_CTRL_DOWN_HOLD_US n) * 1000) s.tb.uptime then
    s.declareDown n
  else s

/-- R216: the speed an in-band word carries is compared with the imposed one. -/
def inBand (s : State) (n : Nat) : Bool :=
  Nat.beq (s.fld (Reg.PORT_MEDIA_MEDIA n)) 4 || Nat.beq (s.fld (Reg.PORT_MEDIA_MEDIA n)) 5

/-- What the PCS and the PHY report of port `n` changes (R216, R217). -/
def pcsReport (s : State) (n : Nat) (r : PcsReport) : State :=
  let before := s
  let fec := !(Nat.beq (s.fld (Reg.PORT_MEDIA_FEC n)) 0)
  let mismatch := s.inBand n && r.anDone && !(Nat.beq r.speed.toNat (s.fld (Reg.PORT_MEDIA_SPEED n)))
  let was := s.flag (Reg.PORT_LINK_STATUS_SPEED_MISMATCH n)
  let s := (s.setFlag (Reg.PORT_LINK_STATUS_PCS_LOCK n) r.lock).setFlag
    (Reg.PORT_LINK_STATUS_FEC_LOCK n) (fec && r.fecLock)
  let s := (s.setFlag (Reg.PORT_LINK_STATUS_AN_DONE n) r.anDone).setFlag
    (Reg.PORT_LINK_STATUS_REMOTE_FAULT n) r.remoteFault
  let s := (s.setFld (Reg.PORT_LINK_STATUS_PHY_SPEED n) (if s.inBand n then r.speed.toNat else 0)).setFlag
    (Reg.PORT_LINK_STATUS_SPEED_MISMATCH n) mismatch
  let locked := r.lock && (!s.inBand n || (r.anDone && r.up))
  let duplex := !(Nat.beq (s.fld (Reg.PORT_MEDIA_MEDIA n)) 3) || (r.anDone && r.fullDuplex)
  let s := s.setPort n { s.port n with
    locked := locked, condition := locked && (!fec || r.fecLock) && duplex }
  let s := s.noteLink before n
  let s := if mismatch && !was then s.postPort n 0x12 else s
  if mismatch || !duplex then s.declareDown n else s

/-! ### Flow control (R234 to R237) -/

/-- A flow-control frame waits to be sent, in place of an older one of its priority. -/
def queueFlowControl (s : State) (n prio quanta : Nat) : State :=
  let p := s.port n
  let l := p.fcWait.filter fun f => !(Nat.beq f.prio prio)
  s.setPort n { p with fcWait := l ++ [⟨prio, quanta, Nat.beq (s.fld (Reg.PORT_FC_CTRL_MODE n)) 2⟩] }

/-- Cells that count toward the watermark of priority `prio` (R235). -/
def fcLevel (s : State) (n prio : Nat) : Nat :=
  let occ (k : Nat) : Nat := Table.get (fun _ => 0) (s.port n).occupancy k
  if s.fld (Reg.PORT_FC_CTRL_MODE n) = 1 then (List.range 8).foldl (fun a k => a + occ k) 0 else occ prio

/-- The priority that a change of priority `prio` is judged and sent under. -/
def fcPrio (s : State) (n prio : Nat) : Nat := if s.fld (Reg.PORT_FC_CTRL_MODE n) = 1 then 0 else prio

/-- Occupancy of port `n` and a priority changes to `cells` (R235). -/
def setOccupancy (s : State) (n prio cells : Nat) : State :=
  let k := s.fcPrio n prio
  let old := s.fcLevel n prio
  let p := s.port n
  let s := s.setPort n { p with occupancy := Table.set (fun _ => 0) p.occupancy prio cells }
  let new := s.fcLevel n prio
  if n ≤ 5 ∧ s.fld (Reg.PORT_FC_CTRL_MODE n) ≠ 0 then
    let xoff := s.fld (Reg.PORT_FC_WM_XOFF n k)
    let xon := s.fld (Reg.PORT_FC_WM_XON n k)
    if old < xoff ∧ xoff ≤ new then s.queueFlowControl n k (s.fld (Reg.PORT_FC_CTRL_PAUSE_TIME n))
    else if xon ≤ old ∧ new < xon then s.queueFlowControl n k 0
    else s
  else s

def occupancy (s : State) (n prio : Nat) : Nat := Table.get (fun _ => 0) (s.port n).occupancy prio

/-- The release of the last copy of frame `h` arrives: the hub frees its cells, and flow control sees the
fall of its port's occupancy (R235). -/
def cellRelease (s : State) (h : Nat) : State :=
  let f := s.frame h
  if f.cells = 0 ∨ f.copies ≠ 0 then s
  else
    let s := s.setFrame h {}
    let s := { s with cells := { s.cells with
        free := s.cells.free + f.cells, allocated := s.cells.allocated - f.cells } }
    match f.port with
    | some n => s.setOccupancy n f.prio (s.occupancy n f.prio - f.cells)
    | none => s

/-- Class `c` of port `n` is stopped for a time in quanta, or its stop ends (R237). -/
def stopClass (s : State) (n c quanta : Nat) : State :=
  let p := s.port n
  let until' := if quanta = 0 then 0
    else s.tb.uptime + (quanta * 512 * 1000000 + s.rate n - 1) / s.rate n
  ((s.setPort n { p with stop := Table.set (fun _ => 0) p.stop c until' }).putBit
    (Reg.PORT_FC_STATUS_STOPPED n) c (decide (quanta ≠ 0))).settle n

/-- Port `n` receives (R98, R242): RX_EN is 1 and the network runs. -/
def receives (s : State) (n : Nat) : Bool := s.operating && s.flag (Reg.PORT_MAC_CTRL_RX_EN n)

/-- A received PAUSE frame (R234, R237). -/
def pauseReceive (s : State) (n quanta : Nat) : State :=
  let s := s.count (Cnt.PORT_RX_PAUSE n)
  if n ≤ 5 ∧ s.flag (Reg.PORT_FC_CTRL_RX_HONOUR n) then
    (List.range 8).foldl (fun s c => s.stopClass n c quanta) s
  else s

/-- A received PFC frame: its enable bits and the quanta of each priority (R234, R237). -/
def pfcReceive (s : State) (n : Nat) (enable : BitVec 8) (quanta : Nat → Nat) : State :=
  let s := s.count (Cnt.PORT_RX_PAUSE n)
  if n ≤ 5 ∧ s.flag (Reg.PORT_FC_CTRL_RX_HONOUR n) then
    (List.range 8).foldl (fun s c =>
      let l := (List.range 8).filter fun p =>
        enable.getLsbD p && Nat.beq (bits (s.rd (Reg.PORT_TC_MAP n)).toNat (3 * p) 3) c
      if l.isEmpty then s else s.stopClass n c (l.foldl (fun a p => max a (quanta p)) 0)) s
  else s

/-! ### Receive filter (R231, R232) -/

/-- The filter of PERFECT mode passes a frame. -/
def perfectPass (s : State) (n : Nat) (b : List Byte) : Bool :=
  let dst := b.take 6
  let on (f : Field) : Bool := s.flag f
  let entry := (List.range 16).any fun k => on (Reg.PORT_PERF_HI_EN n k) &&
    dst == leBytes 4 (s.rd (Reg.PORT_PERF_LO n k)).toNat ++ leBytes 2 (s.rd (Reg.PORT_PERF_HI n k)).toNat
  let broadcast := dst == List.replicate 6 0xFF
  let group := (dst.headD 0).getLsbD 0
  let reserved := dst.take 5 == [0x01, 0x80, 0xC2, 0x00, 0x00] && Nat.ble (dst.getD 5 0).toNat 15
  let ptp := dst == [0x01, 0x1B, 0x19, 0x00, 0x00, 0x00]
  let ring := (Nat.beq n 6 || Nat.beq n 7) && Nat.beq (wire16 b 12) s.ring.ethertype
  on (Reg.PORT_RX_FILTER_PROMISC n) || entry || (broadcast && on (Reg.PORT_RX_FILTER_BCAST n)) ||
    (group && !broadcast && on (Reg.PORT_RX_FILTER_ALLMULTI n)) || reserved || ptp || ring

/-- Pattern `k` of port `n` matches a frame without its FCS (R232). -/
def patternMatches (s : State) (n k : Nat) (b : List Byte) : Bool :=
  let mask := (List.range 4).foldl
    (fun m j => m + (s.rd (Reg.PORT_PAT_MASK n k j)).toNat * 2 ^ (32 * j)) 0
  let chosen := (List.range 128).filter fun i => mask.testBit i
  s.flag (Reg.PORT_PAT_CRC_EN n k) && chosen.all (fun i => Nat.blt i b.length) &&
    Nat.beq (crc16 (chosen.map fun i => b.getD i 0)).toNat (s.fld (Reg.PORT_PAT_CRC_CRC n k))

/-- Test the patterns that `v`, the filter in force, gives port `n` (R232, R233, R243). -/
def testPatterns (s v : State) (n : Nat) (b : List Byte) : State :=
  (List.range 8).foldl (fun s k =>
    if v.patternMatches n k b then
      ((s.putBit (Reg.PORT_PAT_MATCH_MATCH n) k true).count (Cnt.PORT_PAT_MATCH n)).postPortLimited n 0x15
    else s) s

/-! ### Received frames (R222 to R224, R230 to R235) -/

/-- A receive queue of PF1 that takes a frame: which of them PTP frames go to is not stated, and a free value names
it. -/
def ptpQueue (s : State) : Option Nat :=
  let l := (s.queues.map (·.1)).filter fun qid => Nat.beq (s.q qid).func 1 && s.rxqTakes qid
  l[s.freeVal.toNat % max 1 l.length]?

/-- R160: a PTP frame goes to the TIME_SERVO role, which acts on its message, or with the host stack to a receive
queue of PF1 with its stamp. -/
def steerPtp (s : State) (r : RxFrame) : State :=
  if s.flag Reg.PTP_CTRL_STACK = false then s.dropCopy r.frame
  else match s.ptpQueue with
    | some qid => (s.draw.toRxq qid { frame := r.frame, bytes := r.bytes, poisoned := r.poisoned, stamp := r.stamp
                                      ts := r.ts, source := r.source, rxUp := r.rxUp }).dropCopy r.frame
    | none => s.draw.dropCopy r.frame

/-- PTP runs on port `n` (R159). -/
def ptpRuns (s : State) (n : Nat) : Bool :=
  s.flag Reg.PTP_CTRL_ENABLE && Nat.blt n 6 && s.bit Reg.PTP_CTRL_PORT_EN n

/-- A frame that has passed the checks and the filter goes to the ring, to PTP or to the classifier. -/
def acceptFrame (s : State) (n : Nat) (b : List Byte) (ageNs : Nat) : State :=
  let len := b.length + 4
  let s := (s.count (Cnt.PORT_RX_OK n)).countN (Cnt.PORT_RX_BYTES n) len
  if (n = 6 ∨ n = 7) ∧ wire16 b 12 = s.ring.ethertype ∧ s.ringState ≠ 0 then s.ringReceive n b ageNs
  else
    let prio := pcp b
    let h := s.nextFrame
    let s := (s.allocFrame len (some n) prio).holdCopy h 1
    let s := s.setOccupancy n prio (s.occupancy n prio + cellsFor len)
    let lat := signed 32 (s.rd (Reg.TB_LAT_RX n)).toNat
    let r : RxFrame :=
      { frame := h, source := n, bytes := b, len := len, ts := s.statusAt ageNs
        stamp := Full.ofTicks (((s.portTicksAt n ageNs : Int) - lat).toNat)
        rxUp := s.tb.uptime - ageNs }
    if s.ptpRuns n && ptpFrame b then s.steerPtp r else s.classifyOrWait r

/-- The opcode of a flow-control frame, if it is one (R234). -/
def flowControlOp (b : List Byte) : Option Nat :=
  if wire16 b 12 = 0x8808 ∧ b.take 6 = [0x01, 0x80, 0xC2, 0x00, 0x00, 0x01] then some (wire16 b 14) else none

/-- A frame that passed R222 is filtered by the filter in force at its delimiter (R231 to R234). -/
def filterFrame (s : State) (n : Nat) (b : List Byte) (ageNs : Nat) : State :=
  let v := s.rxView n ageNs
  let pattern := v.flag (Reg.PORT_RX_FILTER_MODE n)
  if !pattern && !v.perfectPass n b then s.count (Cnt.PORT_RX_FILTERED n)
  else
    let s := if pattern then s.testPatterns v n b else s
    match flowControlOp b with
    | some 1 => s.pauseReceive n (wire16 b 16)
    | some 0x101 => s.pfcReceive n ((b.getD 17 0)) fun p => wire16 b (18 + 2 * p)
    | _ =>
      if s.cells.free < cellsFor (b.length + 4) then s.count (Cnt.PORT_RX_NO_CELL n)
      else s.acceptFrame n b ageNs

/-- The FEC reports of a frame (R242, R243). -/
def countFec (s : State) (n : Nat) (r : RxLine) : State :=
  let s := (s.countN (Cnt.PORT_FEC_CORR n) r.corrected).countN (Cnt.PORT_FEC_UNCORR n) r.uncorrectable
  if r.uncorrectable = 0 then s else s.postPortLimited n 0x17

/-- A frame is received whole, without its FCS, its delimiter `ageNs` ago (R222). -/
def frameReceive (s : State) (n : Nat) (b : List Byte) (r : RxLine) (ageNs : Nat) : State :=
  if s.receives n then
    let s := s.countFec n r
    let len := b.length + 4
    if (s.rxView n ageNs).flag (Reg.PORT_LINK_STATUS_UP n) = false then s.count (Cnt.PORT_RX_NOT_UP n)
    else if len < 64 then s.count (Cnt.PORT_RX_RUNT n)
    else if s.fld (Reg.PORT_MAC_CTRL_MAX_FRAME n) < len then s.count (Cnt.PORT_RX_OVERSIZE n)
    else if r.fcs.toNat = crc32 b ^^^ 0xFFFFFFFF then s.count (Cnt.PORT_RX_STOMPED n)
    else if r.fcs.toNat ≠ crc32 b then s.count (Cnt.PORT_RX_FCS_ERR n)
    else if r.codeErr || !(Nat.beq r.uncorrectable 0) then s.count (Cnt.PORT_RX_PCS_ERR n)
    else s.filterFrame n b ageNs
  else s

/-! ### Verify and reassembly (R226, R227, R230) -/

/-- A verify mPacket is received. -/
def verifyReceive (s : State) (n : Nat) : State :=
  if s.flag (Reg.PORT_MEDIA_PREEMPT_CAP n) && s.flag (Reg.PORT_MM_CTRL_ENABLE n) && s.receives n &&
      s.flag (Reg.PORT_LINK_STATUS_UP n) then s.emit (.respond n) else s

/-- The wait of VERIFY_MS for a respond is over (R226). -/
def verifyOver (s : State) (n : Nat) : Bool :=
  Nat.ble ((s.port n).verifyAt + s.fld (Reg.PORT_MM_CTRL_VERIFY_MS n) * 1000000) s.tb.uptime

/-- A respond mPacket is received: within the wait, verify has succeeded (R226). -/
def respondReceive (s : State) (n : Nat) : State :=
  if s.fld (Reg.PORT_MM_STATUS_VSTATE n) = 2 ∧ s.flag (Reg.PORT_LINK_STATUS_UP n) ∧ s.receives n ∧
      s.verifyOver n = false then
    ((s.setFld (Reg.PORT_MM_STATUS_VSTATE n) 3).settle n).postPort n 0x13
  else s

/-- The sequence number of a start delimiter, of a continuation delimiter, and a fragment count. -/
def startSmd (d : Nat) : Option Nat := startCodes.findIdx? fun x => Nat.beq x d
def contSmd (d : Nat) : Option Nat := contCodes.findIdx? fun x => Nat.beq x d

/-- Discard what is being reassembled, as an assembly error. -/
def assemblyError (s : State) (n : Nat) : State :=
  (s.setPort n { s.port n with assembly := none }).count (Cnt.PORT_MM_ASSY_ERR n)

/-- An mCRC is that of the bytes of its frame sent so far (R227, R230). -/
def mcrcGood (b : List Byte) (mcrc : Nat) : Bool := Nat.beq mcrc (crc32 b ^^^ 0xFFFF)

/-- A fragment of a preemptable frame is received (R230): `last` for the fragment that ends its frame, whose FCS
`r` gives; any other ends in `mcrc`. -/
def fragmentReceive (s : State) (n smd count : Nat) (b : List Byte) (last : Bool) (mcrc : Nat) (r : RxLine)
    (ageNs : Nat) : State :=
  if s.receives n = false then s
  else if smd = 0xD5 then s.frameReceive n b r ageNs
  else if smd = 0x07 then s.verifyReceive n
  else if smd = 0x19 then s.respondReceive n
  else match startSmd smd with
    | some q =>
      let s := if (s.port n).assembly.isSome then s.assemblyError n else s
      if last then s.frameReceive n b r ageNs
      else if mcrcGood b mcrc then
        (s.setPort n { s.port n with assembly := some ⟨b, q, 0, s.tb.uptime - ageNs⟩ }).count
          (Cnt.PORT_MM_FRAG_RX n)
      else s.assemblyError n
    | none =>
      match contSmd smd with
      | none => s.count (Cnt.PORT_MM_SMD_ERR n)
      | some q =>
        match (s.port n).assembly with
        | none => s.count (Cnt.PORT_MM_ASSY_ERR n)
        | some a =>
          if a.seq ≠ q ∨ startSmd count ≠ some a.next then s.assemblyError n
          else if last then
            let s := (s.setPort n { s.port n with assembly := none }).count (Cnt.PORT_MM_ASSY_OK n)
            s.frameReceive n (a.bytes ++ b) r (s.tb.uptime - a.startUp)
          else if mcrcGood (a.bytes ++ b) mcrc then
            (s.setPort n { s.port n with
              assembly := some { a with bytes := a.bytes ++ b, next := (a.next + 1) % 4 } }).count
              (Cnt.PORT_MM_FRAG_RX n)
          else s.assemblyError n

/-! ### PLCA (R238, R239) -/

/-- The PLCA parameters of port `n` come into force. -/
def applyPlca (s : State) (n : Nat) : State :=
  let t := s.setPort n { s.port n with
    plcaCtrl := (s.rd (Reg.PORT_PLCA_CTRL n)).toNat, plcaBurst := (s.rd (Reg.PORT_PLCA_BURST n)).toNat }
  t.noteLink s n

/-- A BEACON is seen or sent on port `n`: a pending write takes effect, and a coordinator sends it with its node
count (R238, R239). -/
def beacon (s : State) (n : Nat) : State :=
  let t := s.applyPlca n
  if t.plcaOn n then
    let t := (t.setFlag (Reg.PORT_PLCA_STATUS_ACTIVE n) true)
    let t := t.setPort n { t.port n with beaconAt := t.tb.uptime }
    let t := if bits (t.port n).plcaCtrl 0 8 = 0 then t.emit (.beacon n (bits (t.port n).plcaCtrl 8 8)) else t
    t.noteLink s n
  else t

/-- The limit of R239 has passed since the last BEACON: 4 × (PLCA_COUNT × TO_TIMER + 20) bit times of 100 ns. -/
def beaconLate (s : State) (n : Nat) : Bool :=
  let c := (s.port n).plcaCtrl
  Nat.ble ((s.port n).beaconAt + 400 * (bits c 8 8 * bits c 16 8 + 20)) s.tb.uptime

end State

/-! ### Meanings -/

/-- The PCS gains or loses lock, or an SFP or in-band status changes (R216, R217). -/
def execPcsLockChange (port : Fin 12) (report : PcsReport) (s : State) : Out State :=
  .next (s.pcsReport port report)

/-- A loss has lasted DOWN_HOLD_US (R217). -/
def execLinkDown (port : Fin 12) (s : State) : Out State :=
  .next (s.linkLoss port)

/-- The condition has held for UP_HOLD_MS (R217). -/
def execLinkUp (port : Fin 12) (s : State) : Out State := .next (s.declareUp port)

/-- A write of PORTn_LINK_CTRL, ADMIN_DOWN among it (R217, R580). -/
def execAdminDownWrite (port : Fin 12) (value : Word) (s : State) : Out State :=
  .next (if 1000 < bits value.toNat 0 10 ∨ 1000 < bits value.toNat 16 10 then s else
    let was := s.flag (Reg.PORT_LINK_CTRL_ADMIN_DOWN port)
    let s := s.wr (Reg.PORT_LINK_CTRL port) (value &&& 0x83FF03FF#32)
    if value.getLsbD 31 then s.declareDown port
    else if was then s.setPort port { s.port port with readySince := s.tb.uptime } else s)

/-- A frame is received whole, its start-of-frame delimiter `ageNs` ago (R222). -/
def execFrameReceive (port : Fin 12) (bytes : List Byte) (line : RxLine) (ageNs : Nat) (s : State) :
    Out State :=
  .next (s.frameReceive port bytes line ageNs)

/-- A fragment is received (R230): its delimiter, the fragment count that follows a continuation
delimiter, its bytes, and how it ends. -/
def execMmFragmentReceive (port : Fin 8) (smd count : BitVec 8) (bytes : List Byte) (last : Bool)
    (mcrc : BitVec 32) (line : RxLine) (ageNs : Nat) (s : State) : Out State :=
  .next (s.fragmentReceive port smd.toNat count.toNat bytes last mcrc.toNat line ageNs)

/-- A verify mPacket is received (R226). -/
def execVerifyReceive (port : Fin 8) (s : State) : Out State := .next (s.verifyReceive port)

/-- A respond mPacket is received within the wait (R226). -/
def execRespondReceive (port : Fin 8) (s : State) : Out State := .next (s.respondReceive port)

/-- VERIFY_MS pass without a respond (R226). -/
def execVerifyTimeout (port : Fin 8) (s : State) : Out State :=
  .next (
    let n := port.val
    if s.fld (Reg.PORT_MM_STATUS_VSTATE n) = 2 ∧ s.flag (Reg.PORT_LINK_STATUS_UP n) ∧ s.verifyOver n then
      let k := s.fld (Reg.PORT_MM_STATUS_ATTEMPTS n)
      if k < 3 then (s.setFld (Reg.PORT_MM_STATUS_ATTEMPTS n) (k + 1)).sendVerify n
      else (s.setFld (Reg.PORT_MM_STATUS_VSTATE n) 4).postPort n 0x14
    else s)

/-- A write of PORTn_MM_CTRL (R226, R242): ENABLE from 0 to 1 starts verify while the link is up; FAILED outlasts
ENABLE 0. -/
def execMmEnableWrite (port : Fin 8) (value : Word) (s : State) : Out State :=
  .next (
    let n := port.val
    let ms := bits value.toNat 8 8
    if s.flag (Reg.PORT_MEDIA_PREEMPT_CAP n) && Nat.ble 1 ms && Nat.ble ms 128 then
      let was := s.flag (Reg.PORT_MM_CTRL_ENABLE n)
      let s := s.wr (Reg.PORT_MM_CTRL n) (value &&& 0xFF03#32)
      let s := if value.getLsbD 0 && !was then
          (if s.flag (Reg.PORT_LINK_STATUS_UP n) && !s.flag (Reg.PORT_MM_CTRL_VERIFY_DIS n) then s.startVerify n
           else s.setFld (Reg.PORT_MM_STATUS_VSTATE n) 1)
        else if was && !value.getLsbD 0 && !(Nat.beq (s.fld (Reg.PORT_MM_STATUS_VSTATE n)) 4) then
          (s.setFld (Reg.PORT_MM_STATUS_VSTATE n) 0).setFld (Reg.PORT_MM_STATUS_ATTEMPTS n) 0
        else s
      s.settle n
    else s)

/-- A PAUSE frame is received (R237). -/
def execPauseReceive (port : Fin 12) (quanta : BitVec 16) (s : State) : Out State :=
  .next (if s.receives port && s.flag (Reg.PORT_LINK_STATUS_UP port) then s.pauseReceive port quanta.toNat
  else s)

/-- A PFC frame is received (R237): its enable bits, and the quanta of priority p in bits 16p to
16p + 15. -/
def execPfcReceive (port : Fin 12) (enable : BitVec 8) (quanta : BitVec 128) (s : State) : Out State :=
  .next (if s.receives port && s.flag (Reg.PORT_LINK_STATUS_UP port) then
    s.pfcReceive port enable fun p => bits quanta.toNat (16 * p) 16
  else s)

/-- The stop of a class runs out (R237). -/
def execFcStopExpire (port : Fin 12) (cls : Fin 8) (s : State) : Out State :=
  .next (if s.stopped port cls then s else s.stopClass port cls 0)

/-- Half of PAUSE_TIME is about to have passed since the last frame of a priority (R235). -/
def execFcRefresh (port : Fin 12) (prio : Fin 8) (s : State) : Out State :=
  .next (
    let n := port.val
    let k := s.fcPrio n prio
    if n ≤ 5 ∧ s.fld (Reg.PORT_FC_CTRL_MODE n) ≠ 0 ∧ s.bit (Reg.PORT_FC_STATUS_XOFF_SENT n) k ∧
        s.fld (Reg.PORT_FC_WM_XON n k) ≤ s.fcLevel n prio then
      s.queueFlowControl n k (s.fld (Reg.PORT_FC_CTRL_PAUSE_TIME n))
    else s)

/-- A BEACON is received on P8 to P11, or sent there by a coordinator (R238, R239): port 8 + `t1s`. -/
def execPlcaBeaconReceive (t1s : Fin 4) (s : State) : Out State :=
  .next (s.beacon (8 + t1s.val))

/-- No BEACON within the limit of R239. -/
def execPlcaBeaconLoss (t1s : Fin 4) (s : State) : Out State :=
  .next (
    let n := 8 + t1s.val
    if s.plcaOn n && !(Nat.beq (bits (s.port n).plcaCtrl 0 8) 0) && s.flag (Reg.PORT_PLCA_STATUS_ACTIVE n) &&
        s.beaconLate n then
      (((s.count (Cnt.PORT_PLCA_BEACON_LOSS n)).setFlag (Reg.PORT_PLCA_STATUS_ACTIVE n) false).postPort n
        0x16).noteLink s n
    else s)

/-- A collision on a T1S segment (R239): the sixteenth attempt abandons the frame, which is sent afresh
as R219 states. -/
def execCollisions (t1s : Fin 4) (s : State) : Out State :=
  .next (
    let n := 8 + t1s.val
    let s := s.count (Cnt.PORT_COLLISIONS n)
    match (s.port n).cur with
    | none => s
    | some m =>
      if m.attempts + 1 < 16 then s.setPort n { s.port n with
        cur := some { m with attempts := m.attempts + 1, startUp := s.tb.uptime } }
      else (s.takeBack n).settle n)

/-- In Dormant a frame that passes R222 with a good FCS reaches an armed port (R121, R240): port
6 + `k`. -/
def execWakePatternMatch (k : Fin 6) (frame : WireFrame) (s : State) : Out State :=
  .next (
    let n := 6 + k.val
    if s.mode = 6 ∧ s.pwr.armed.getLsbD n ∧ 64 ≤ frame.bytes.length + 4 ∧
        frame.bytes.length + 4 ≤ s.fld (Reg.PORT_MAC_CTRL_MAX_FRAME n) ∧
        frame.line.fcs.toNat = crc32 frame.bytes ∧ frame.line.codeErr = false ∧ frame.line.uncorrectable = 0 ∧
        ((List.range 8).any fun j => s.patternMatches n j frame.bytes) then
      { s.putBit Reg.GLB_WAKE_CAUSE_PORT n true with pwr := { s.pwr with wake := true } }
    else s)

/-- Every 1 ms the device reads the link status of each external PHY over MDIO (R552): bit n - 2 for
P2 to P7. -/
def execMdioPoll (up : BitVec 6) (s : State) : Out State :=
  .next ((List.range 6).foldl (fun s i =>
    s.setPort (i + 2) { s.port (i + 2) with mdioUp := up.getLsbD i }) s)

end Sys2Proof.Machine
end

