-- ==== Sys2Proof/Machine/QueueCmd.lean ====
section
/-! DEFINITION. The queue block's happenings: doorbells, reads of entries, fragment tables and bodies,
completions, events, receive delivery, and the operations of the QM mailbox (R385 to R417, R581). -/

namespace Sys2Proof.Machine

/-! ### Fields of entries (R393, R397, R398) -/

namespace Entry

def ofBits (pos : Nat) (v : BitVec 256) : Entry :=
  { pos := pos, q0 := bits v.toNat 0 64, q1 := bits v.toNat 64 64, q2 := bits v.toNat 128 64
    q3 := bits v.toNat 192 64 }

def len (e : Entry) : Nat := bits e.q1 0 16

def nfrag (e : Entry) : Nat := bits e.q1 16 8

end Entry

/-- The DETAIL that makes an RXQ entry invalid (R397): the lowest of those that apply. -/
def rxFault (e : Entry) : Option Nat :=
  if bits e.q1 17 47 ≠ 0 ∨ e.q2 ≠ 0 ∨ bits e.q3 0 63 ≠ 0 then some 0x05
  else if e.len < 64 ∨ 16384 < e.len then some 0x08
  else if e.q0 % 8 ≠ 0 then some 0x0A
  else none

/-- The DETAIL that makes a CMDQ entry end without a read (R398). -/
def cmdFault (e : Entry) : Option Nat :=
  if e.len < 16 ∨ 4096 < e.len then some 0x01
  else if e.ckind = 0 ∨ (2 ≤ e.ckind ∧ e.ckind < 0x10) then some 0x05
  else if e.ckind = 1 ∧ e.len ≠ 336 then some 0x09
  else if e.q0 % 64 ≠ 0 then some 0x0A
  else none

namespace State

/-- Queue `qid` is the payload queue of a slot of the operational ring table (R300). -/
def payloadQueue (s : State) (qid : Nat) : Bool :=
  !(Nat.beq s.ringState 0) &&
    (s.ringBank true).slots.any fun k => k.enabled && k.useTxq && Nat.beq k.txq qid

/-- R158, R393, R394: the outcome of a TXQ entry that is not read further. -/
def txFault (s : State) (qid : Nat) (e : Entry) : Option (Nat × Nat) :=
  let x := s.q qid
  let align := !(Nat.beq e.nfrag 0) && !(Nat.beq (e.q0 % 16) 0)
  if s.payloadQueue qid then (if align then some (0x08, 0x0A) else none)
  else
    let beyond (off : Nat) : Bool := Nat.ble e.len off
    if e.len < 14 ∨ s.fld (Reg.PORT_MAC_CTRL_MAX_FRAME x.port) < e.len + 4 then some (0x08, 0x01)
    else if bits e.q1 29 3 ≠ 0 ∨ bits e.q2 48 16 ≠ 0 ∨ bits e.q3 32 31 ≠ 0 then some (0x08, 0x05)
    else if e.q1.testBit 26 && (beyond (bits e.q2 16 16) || beyond (bits e.q2 32 16)) then some (0x08, 0x06)
    else if align then some (0x08, 0x0A)
    else if e.q1.testBit 24 ∧ s.timeStatus = 0 then some (0x0E, 0)
    else none

/-! ### Taking (R389) -/

/-- A TXQ or CMDQ entry is taken: it is checked, and completes or waits for its read (R394, R398).  A launch time
that is invalid is counted also where the entry reports another condition (R25). -/
def takeEntry (s : State) (qid : Nat) (e : Entry) : State :=
  let x := s.q qid
  let e := if x.kind = 1 ∧ e.nfrag ≠ 0 then { e with phase := .table, hops := 1, left := e.nfrag } else e
  let fault := if x.kind = 1 then s.txFault qid e else (cmdFault e).map fun d => (0x08, d)
  let s := s.setQ qid { x with
    entries := x.entries ++ [e], fetched := x.fetched.tail, taken := x.step x.taken 1
    failed := x.failed.filter fun f => !(Nat.beq f.1 e.pos) }
  match fault with
  | none => s
  | some (status, detail) =>
    let untimed := x.kind = 1 ∧ s.payloadQueue qid = false ∧ e.q1.testBit 24 ∧ s.timeStatus = 0
    let s := if untimed then s.count (Cnt.PORT_TIME_INVALID x.port) else s
    s.complete qid e.pos status detail

/-- An invalid receive entry completes LEN_ERROR with COUNT 1 (R397). -/
def refuseBuffer (s : State) (qid : Nat) (e : Entry) (detail : Nat) : State :=
  let x := s.q qid
  let s := s.setQ qid { x with
    entries := x.entries ++ [e], fetched := x.fetched.tail, taken := x.step x.taken 1 }
  s.complete qid e.pos 0x08 detail

/-- Take what is present and below PI, in position order, while the queue is ENABLED (R389); of a
receive queue the invalid entries alone, its valid buffers waiting for a frame.  `k` bounds the
number. -/
def takeReady (s : State) (qid : Nat) : Nat → State
  | 0 => s
  | k + 1 =>
    let x := s.q qid
    match x.fetched with
    | [] => s
    | e :: _ =>
      if Nat.beq x.state 2 && x.below e.pos then
        (if x.kind = 2 then
          (match rxFault e, x.rxWait with
            | some d, [] => (s.refuseBuffer qid e d).takeReady qid k
            | _, _ => s)
        else (s.takeEntry qid e).takeReady qid k)
      else s

/-- Take all that can be taken. -/
def takeWork (s : State) (qid : Nat) : State := s.takeReady qid ((s.q qid).fetched.length)

/-! ### Receive frames that end (R406, R407, R412, R581) -/

/-- The completion of a frame that has used buffers (R400, R406). -/
def rxCpl (s : State) (qid : Nat) (c : RxCopy) (truncated : Bool) : Cpl :=
  let x := s.q qid
  let status := if truncated then 0x04 else if c.poisoned then 0x05 else 0
  match c.reply with
  | some r => { r with status := status, retires := 1
                       body := r.body / 2 ^ 32 * 2 ^ 32 + c.written % 65536 * 2 ^ 16 + c.first % x.n }
  | none =>
    { qid := qid, status := status, kind := 1, ts := c.ts, stampValid := true, stamp := c.stamp
      x8 := c.unmatched.toNat, x24 := c.flow.getD 0, retires := c.used
      body := c.first % x.n + c.used % 256 * 2 ^ 16 + c.source % 256 * 2 ^ 24 + c.written % 65536 * 2 ^ 32
      hist := if c.hist then c.flow.map fun f => (f, c.rxUp) else none }

/-- The head frame of queue `qid` leaves the queue, its cells released. -/
def popRx (s : State) (qid : Nat) : State :=
  let x := s.q qid
  match x.rxWait with
  | [] => s
  | c :: rest => (s.setQ qid { x with rxWait := rest, holdStart := none }).dropCopy c.frame

/-- The head frame, which has used one or more buffers, completes. -/
def endRx (s : State) (qid : Nat) (truncated : Bool) : State :=
  match (s.q qid).rxWait with
  | [] => s
  | c :: _ =>
    let cpl := s.rxCpl qid c truncated
    let s := s.mapEntry qid c.first fun e => { e with phase := .done, result := some cpl, offered := false }
    let s := if truncated && c.reply.isNone then s.count Cnt.QM_RX_TRUNCATED else s
    (s.popRx qid).offer qid

/-- A frame that has used no buffer is dropped (R257, R407, R581). -/
def dropRx (s : State) (qid : Nat) : State :=
  match (s.q qid).rxWait with
  | [] => s
  | c :: _ => (s.flowDropped c.flow).popRx qid

/-- Every frame that waits at queue `qid` ends: one being written is TRUNCATED, the others are dropped;
`k` bounds the number. -/
def clearRx (s : State) (qid : Nat) : Nat → State
  | 0 => s
  | k + 1 =>
    match (s.q qid).rxWait with
    | [] => s
    | c :: _ => (if c.used = 0 then s.dropRx qid else s.endRx qid true).clearRx qid k

/-! ### Reads that fail (R389, R390, R413) -/

/-- The entry at the next position that has no copy completes FETCH_ERROR and the queue halts; the
copies before it are outstanding.  The TAG of an entry never found present is a free value. -/
def failFetch (s : State) (qid detail : Nat) : State :=
  let x := s.q qid
  if x.state = 2 ∨ x.state = 3 then
    let pos := x.step x.taken x.fetched.length
    let bad : Entry := { pos := pos, q3 := s.freeVal.toNat % 2 ^ 32 }
    let s := s.draw.setQ qid { x with
      entries := x.entries ++ x.fetched ++ [bad], fetched := [], taken := x.step pos 1 }
    let s := s.halt qid pos 0x07 detail
    s.clearRx qid (s.q qid).rxWait.length
  else s

/-- The read of one entry of queue `qid` at position `pos` (R389): a copy with the right mark is kept
while every earlier one has been; another is read again later. -/
def readEntry (s : State) (qid pos : Nat) (v : BitVec 256) : State :=
  let x := s.q qid
  let e := Entry.ofBits pos v
  let old := x.failed.find? fun f => Nat.beq f.1 pos
  let s := if old.isSome then s.count Cnt.QM_REFETCH else s
  let x := s.q qid
  if e.own = ownFor pos x.n then
    (if pos = x.step x.taken x.fetched.length then s.setQ qid { x with fetched := x.fetched ++ [e] } else s)
  else
    let (_, n, first) := old.getD (pos, 0, 0)
    let note := if x.below pos then (pos, n + 1, if n = 0 then s.tb.uptime else first) else (pos, n, first)
    s.setQ qid { x with failed := note :: x.failed.filter fun f => !(Nat.beq f.1 pos) }

/-- R389: an entry below PI has failed on 8 reads spread over at least 8 µs. -/
def phaseFails (s : State) (qid : Nat) : Bool :=
  let x := s.q qid
  let pos := x.step x.taken x.fetched.length
  match x.failed.find? fun f => Nat.beq f.1 pos with
  | some (_, n, first) => x.below pos && Nat.ble 8 n && Nat.ble (first + 8000) s.tb.uptime
  | none => false

/-- How many positions from the next unread one the device may read (R389). -/
def readable (x : Queue) : Nat :=
  min (x.occupancy + 8) x.n - ahead x.taken x.ci x.n - x.fetched.length

/-- A read of entries of work queue `qid` ends. -/
def entryFetch (s : State) (qid : Nat) (fin : ReadEnd) (l : List (BitVec 256)) : State :=
  let x := s.q qid
  if x.isWork && (Nat.beq x.state 2 || Nat.beq x.state 3) then
    match fin with
    | .refused => s.failFetch qid 0x03
    | .poisoned => s.failFetch qid 0x04
    | .good =>
      let start := x.step x.taken x.fetched.length
      let l := l.take (readable x)
      let s := ((List.range l.length).zip l).foldl (fun s p => s.readEntry qid (x.step start p.1) p.2) s
      let s := s.takeWork qid
      if s.phaseFails qid then s.failFetch qid 0x01 else s
  else s

/-! ### Fragment tables (R395, R396) -/

/-- The DETAIL of the first fragment that ends the walk of a table, and the bytes its data names. -/
def walkFrags : List (BitVec 128) → Nat → Option Nat × Nat
  | [], sum => (none, sum)
  | f :: rest, sum =>
    let addr := bits f.toNat 0 64
    let flen := bits f.toNat 64 32
    let link := f.getLsbD 96
    if !link && Nat.beq flen 0 then (some 0x03, sum)
    else if link && !rest.isEmpty then (some 0x04, sum)
    else if bits f.toNat 97 31 ≠ 0 then (some 0x05, sum)
    else if link && (!(Nat.beq (addr % 16) 0) || Nat.beq flen 0 || Nat.blt 255 flen) then (some 0x0A, sum)
    else walkFrags rest (if link then sum else sum + flen)

/-- A fragment table of an entry has been read. -/
def fragmentTable (s : State) (qid pos : Nat) (fin : ReadEnd) (l : List (BitVec 128)) : State :=
  match s.entryAt qid pos with
  | none => s
  | some e =>
    if e.phase ≠ .table then s else
      match fin with
      | .refused => s.halt qid pos 0x07 0x03
      | .poisoned => s.halt qid pos 0x07 0x04
      | .good =>
        let l := l.take e.left
        let last := l.getLast?.getD 0
        let limit := s.fld Reg.QM_HOP_LIMIT_LIMIT
        let (bad, sum) := walkFrags l e.sum
        if last.getLsbD 96 ∧ limit < e.hops + 1 then s.halt qid pos 0x06 (min 255 e.hops)
        else match bad with
          | some d => s.complete qid pos 0x08 d
          | none =>
            if last.getLsbD 96 then
              s.mapEntry qid pos fun e =>
                { e with hops := e.hops + 1, sum := sum, left := bits last.toNat 64 32 }
            else if sum ≠ e.len then s.complete qid pos 0x08 0x02
            else s.mapEntry qid pos fun e => { e with phase := .body, sum := sum }

/-! ### Bodies (R390, R394, R300) -/

/-- R158: over IPv4 or IPv6 the entry names no neutralising bytes. -/
def oneStepRefused (e : Entry) (b : List Byte) : Bool :=
  e.q1.testBit 26 && Nat.beq (bits e.q2 32 16) 0 &&
    (Nat.beq (wire16 b (typeOff b)) 0x0800 || Nat.beq (wire16 b (typeOff b)) 0x86DD)

/-- The body of a TXQ entry is in the packet buffer. -/
def bodyRead (s : State) (qid pos : Nat) (b : List Byte) (poisoned : Bool) (e : Entry) : State :=
  let x := s.q qid
  if s.payloadQueue qid then
    let s := s.mapEntry qid pos fun e => { e with phase := .started }
    { s with ring := { s.ring with bodies := s.ring.bodies ++ [⟨qid, pos, b, poisoned⟩] } }
  else if s.cells.free < cellsFor (b.length + 4) then s
  else if oneStepRefused e b then s.complete qid pos 0x08 0x06
  else
    let h := s.nextFrame
    let s := (s.allocFrame (b.length + 4) none 0).holdCopy h 1
    let s := s.mapEntry qid pos fun e => { e with phase := .started, copies := 1 }
    if e.q1.testBit 27 then
      s.classifyOrWait
        { frame := h, source := 16 + x.port, bytes := b, len := b.length + 4, owner := some (qid, pos)
          stream := bits e.q2 0 16, poisoned := poisoned, stamp := s.now, ts := s.timeStatus
          rxUp := s.tb.uptime }
    else s.toHub x.port (s.txOfEntry qid pos h b poisoned)

/-- The read of a frame body ends. -/
def txBody (s : State) (qid pos : Nat) (fin : ReadEnd) (b : List Byte) : State :=
  match s.entryAt qid pos with
  | none => s
  | some e =>
    if Nat.beq (s.q qid).kind 1 && e.phase == .body then
      (match fin with
        | .refused => s.complete qid pos 0x0D 0
        | .good => s.bodyRead qid pos (b.take e.len) false e
        | .poisoned => s.bodyRead qid pos (b.take e.len) true e)
    else s

/-! ### Receive delivery (R406, R407) -/

/-- Write bytes to host memory, with their poison mark; how many TLPs a poisoned write takes is not
stated, so its count is free (R454). -/
def hostStore (s : State) (addr : Nat) (b : List Byte) (poisoned : Bool) : State :=
  if b.isEmpty then s
  else if poisoned then
    (s.draw.emit (.hostWritePoisoned addr b)).countN Cnt.PCIE_POISONED_TX
      (1 + s.freeVal.toNat % b.length)
  else s.emit (.hostWrite addr b)

/-- The head frame uses the next buffer, which is valid. -/
def useBuffer (s : State) (qid : Nat) (e : Entry) (c : RxCopy) : State :=
  let x := s.q qid
  let chunk := (c.bytes.drop c.written).take e.len
  let s := s.hostStore e.q0 chunk c.poisoned
  let c' := { c with first := if c.used = 0 then e.pos else c.first, used := c.used + 1
                     written := c.written + chunk.length }
  s.setQ qid { x with
    entries := x.entries ++ [{ e with phase := .started, offered := !(Nat.beq c.used 0) }]
    fetched := x.fetched.tail, taken := x.step x.taken 1, rxWait := c' :: x.rxWait.tail, holdStart := none }

/-- The head frame of queue `qid` is written into the buffers present (R406); where none lies below PI
its hold starts (R407).  `k` bounds the number of buffers. -/
def deliverRx (s : State) (qid : Nat) : Nat → State
  | 0 => s
  | k + 1 =>
    let x := s.q qid
    match x.rxWait with
    | [] => s
    | c :: _ =>
      let wait := if x.holdStart.isNone ∧ (x.state = 3 ∨ x.taken = x.pi) then
        s.setQ qid { x with holdStart := some s.tb.uptime } else s
      if Nat.beq x.state 2 && s.canRequest x.func then
        (match x.fetched with
          | [] => wait
          | e :: _ =>
            if x.below e.pos = false then wait
            else match rxFault e with
              | some d =>
                if c.used = 0 then (s.refuseBuffer qid e d).deliverRx qid k
                else (s.endRx qid true).takeWork qid
              | none =>
                let s := s.useBuffer qid e c
                match (s.q qid).rxWait with
                | [] => s
                | c :: _ =>
                  if c.bytes.length ≤ c.written then (s.endRx qid false).takeWork qid
                  else if c.reply.isSome then (s.endRx qid true).takeWork qid
                  else s.deliverRx qid k)
      else wait

/-- Frames wait behind the head: the hold of a new head starts where it finds no buffer (R407). -/
def startHold (s : State) (qid : Nat) : State :=
  let x := s.q qid
  if !x.rxWait.isEmpty && x.holdStart.isNone && (Nat.beq x.state 3 || Nat.beq x.taken x.pi) then
    s.setQ qid { x with holdStart := some s.tb.uptime } else s

/-- The deadline of R407 has come for the head frame of queue `qid`. -/
def holdExpire (s : State) (qid : Nat) : State :=
  let x := s.q qid
  match x.rxWait, x.holdStart with
  | c :: _, some t =>
    if t + s.fld Reg.QM_RX_HOLD_HOLD_US * 1000 ≤ s.tb.uptime then
      (if c.used = 0 then (s.dropRx qid).count Cnt.QM_RX_DROP_NOBUF else s.endRx qid true).startHold qid
    else s
  | _, _ => s

/-! ### Doorbells (R385 to R388) -/

/-- R387: the doorbell of a page of function `fn` is accepted. -/
def doorbellOk (s : State) (fn : Nat) (v : Nat) : Bool :=
  let qid := bits v 0 20
  let x := s.q qid
  let new := bits v 48 1 * x.n + bits v 32 16
  s.ownerOf qid == some fn && !(Nat.beq x.state 0) && !(Nat.beq x.state 5) &&
    Nat.beq (bits v 21 11) 0 && Nat.beq (bits v 49 15) 0 && Nat.blt (bits v 32 16) x.n &&
    (if x.isWork then Nat.ble (ahead new x.pi x.n) (x.n - x.occupancy)
     else Nat.ble (ahead new x.ci x.n) x.occupancy)

/-- A doorbell arrives as one aligned 64-bit write (R386 to R388, R408). -/
def doorbell (s : State) (fn v : Nat) : State :=
  let s := s.count Cnt.QM_DOORBELLS
  let qid := bits v 0 20
  if s.doorbellOk fn v = false then (s.count Cnt.QM_DB_REJECT).postLimited 0x1905 qid
  else
    let x := s.q qid
    let new := bits v 48 1 * x.n + bits v 32 16
    if x.isWork then
      let s := s.setQ qid { x with
        pi := new, holdStart := if new = x.pi ∨ x.state ≠ 2 then x.holdStart else none }
      s.takeWork qid
    else
      let s := s.setQ qid { x with ci := new, armed := x.armed || (v.testBit 20 && x.irqEn) }
      if x.kind = 3 then s.drainCq qid 9 else s.drainEvents qid 17

/-! ### The mailbox (R410, R411) -/

/-- The context words of function `fn` as one image (R416). -/
def qctx (s : State) (fn : Nat) : Nat :=
  (List.range 16).foldl (fun a j => a + (s.rd (Reg.QM_QCTX_W j + fn * 0x4000000)).toNat * 2 ^ (32 * j)) 0

/-- Write an image into the context words. -/
def setQctx (s : State) (fn v : Nat) : State :=
  (List.range 16).foldl (fun s j => s.wrN (Reg.QM_QCTX_W j + fn * 0x4000000) (bits v (32 * j) 32)) s

/-- No bit that the context image does not name is set. -/
def qctxReserved (v : Nat) : Bool :=
  Nat.beq (bits v 77 3) 0 && Nat.beq (bits v 88 8) 0 && Nat.beq (bits v 116 11) 0 &&
    Nat.beq (bits v 145 15) 0 && Nat.beq (bits v 177 15) 0 && Nat.beq (bits v 209 15) 0 &&
    Nat.beq (bits v 229 2) 0 && Nat.beq (bits v 263 25) 0 && Nat.beq (bits v 315 5) 0 &&
    Nat.beq (bits v 352 160) 0

/-- The ring lies wholly in a HOST_WINDOW partition of the function (R381). -/
def inHostWindow (s : State) (fn base size : Nat) : Bool :=
  ((s.imp.image.map (·.parts)).getD []).any fun p =>
    Nat.beq p.kind 8 && Nat.beq (funcOfCode p.owner) fn && Nat.ble p.base base &&
      Nat.ble (base + size) (p.base + p.size)

/-- R411: the context of a CREATE is good. -/
def contextOk (s : State) (fn v : Nat) : Bool :=
  let kind := bits v 64 3
  let loc := v.testBit 67
  let log2 := bits v 68 5
  let link := bits v 96 20
  let own (k : Nat) : Bool := s.ownerOf link == some fn && Nat.beq (s.q link).kind k
  let work := Nat.beq kind 1 || Nat.beq kind 2 || Nat.beq kind 5
  Nat.ble 1 kind && Nat.ble kind 5 && Nat.ble 4 log2 && Nat.ble log2 16 &&
    Nat.beq (bits v 0 64 % 256) 0 &&
    (!loc || (!work && s.inHostWindow fn (bits v 0 64) (ringBytes kind log2))) &&
    (!work || own 3) && (!(Nat.beq kind 3 && v.testBit 127) || own 4) &&
    (!(Nat.beq kind 1) || (Nat.ble (bits v 256 4) 11 &&
      !(Nat.beq (s.fld (Reg.PORT_MEDIA_MEDIA (bits v 256 4))) 0))) &&
    qctxReserved v

/-- The mailbox of function `fn` ends an operation. -/
def qmEnd (s : State) (fn op state result : Nat) : State :=
  ((s.setFld (Reg.QM_QCMD_STATUS_STATE.of fn) state).setFld (Reg.QM_QCMD_STATUS_RESULT.of fn) result).setFld
    (Reg.QM_QCMD_STATUS_OP.of fn) op

def qmDone (s : State) (fn op : Nat) : State := s.qmEnd fn op 2 0

def qmRefuse (s : State) (fn op result : Nat) : State := s.qmEnd fn op 3 result

/-- The queue a mailbox names. -/
def qmQid (s : State) (fn : Nat) : Nat := s.fld (Reg.QM_QCMD_QID_QID.of fn)

/-- Run an operation of the mailbox of function `fn` (R411): ignored while BUSY, refused where the
queue is not the function's or the state does not allow it. -/
def qmOp (s : State) (fn op : Nat) (states : List Nat) (run : Nat → Queue → State) : State :=
  let qid := s.qmQid fn
  let x := s.q qid
  if s.fld (Reg.QM_QCMD_STATUS_STATE.of fn) = 1 then s
  else if (s.ownerOf qid == some fn) = false then s.qmRefuse fn op 1
  else if states.contains x.state then run qid x
  else s.qmRefuse fn op 2

/-- CREATE. -/
def qmCreate (s : State) (fn : Nat) : State :=
  s.qmOp fn 1 [0] fun qid _ =>
    let v := s.qctx fn
    if s.contextOk fn v = false then s.qmRefuse fn 1 3
    else
      let x : Queue :=
        { state := 1, kind := bits v 64 3, ringAddr := bits v 0 64, loc := v.testBit 67
          log2 := bits v 68 5, irqEn := v.testBit 76, func := fn, link := bits v 96 20
          linkEn := v.testBit 127, port := bits v 256 4, cls := bits v 260 3 }
      (s.setQ qid x).qmDone fn 1

/-- ENABLE. -/
def qmEnable (s : State) (fn : Nat) : State :=
  s.qmOp fn 2 [1] fun qid x =>
    if x.isWork && !(Nat.beq (s.q x.link).state 2) then s.qmRefuse fn 2 2
    else
      let s := (s.setQ qid { x with state := 2 }).qmDone fn 2
      if x.isWork then s.takeWork qid
      else if x.kind = 3 then s.drainCq qid 9 else s.drainEvents qid 17

/-- The frame of a started entry has been handed to a fore-edge, or its command has started (R412). -/
def handedOver (s : State) (qid pos : Nat) : Bool :=
  let own (f : TxFrame) : Bool := f.owner == some (qid, pos)
  if (s.q qid).kind = 5 then true
  else s.ports.any (fun p => p.2.fe.any own || (match p.2.cur with | some m => own m.tx | none => false) ||
      (match p.2.susp with | some m => own m.tx | none => false)) ||
    (s.ring.unsent.any fun k => k.owner == some (qid, pos)) ||
    s.ring.built.any fun b => b.polls.any fun k => k.owner == some (qid, pos)

/-- Take an entry's frame back from the hub, the classifier and the payload bodies. -/
def takeEntryBack (s : State) (qid pos : Nat) : State :=
  let own (f : TxFrame) : Bool := f.owner == some (qid, pos)
  let gone := s.ports.flatMap (fun p => (p.2.hub.filter own).map (·.frame))
  let waits := (s.flows.wait.filter fun r => r.owner == some (qid, pos)).map (·.frame)
  let s := { s with
    ports := Table.mapVals (fun _ => {}) (fun p => { p with hub := p.hub.filter fun f => !own f }) s.ports
    flows := { s.flows with wait := s.flows.wait.filter fun r => !(r.owner == some (qid, pos)) }
    ring := { s.ring with bodies := s.ring.bodies.filter fun b =>
      !(Nat.beq b.qid qid && Nat.beq b.pos pos) } }
  (gone ++ waits).foldl (fun s h => s.dropCopy h) s

/-- R412: abort one outstanding entry unless its own outcome is on its way. -/
def abortEntry (s : State) (qid : Nat) (e : Entry) : State :=
  if e.phase = .done then s
  else if e.phase = .started ∧ s.handedOver qid e.pos then s
  else (s.takeEntryBack qid e.pos).complete qid e.pos 0x03 0

/-- R412: the queue drains.  Copies found present keep their TAG; positions never read have TAG 0. -/
def drainQueue (s : State) (qid : Nat) (reset : Bool) : State :=
  let s := s.clearRx qid (s.q qid).rxWait.length
  let x := s.q qid
  let kept := x.fetched.filter fun e => x.below e.pos
  let from_ := x.step x.taken kept.length
  let unread := (List.range (ahead x.pi from_ x.n)).map fun k => ({ pos := x.step from_ k } : Entry)
  let s := s.setQ qid { x with
    state := 5, entries := x.entries ++ kept ++ unread, fetched := [], failed := [], taken := x.pi
    resetAfter := reset }
  (s.q qid).entries.foldl (fun s e => s.abortEntry qid e) s

/-- SHUTDOWN. -/
def qmShutdown (s : State) (fn : Nat) : State :=
  s.qmOp fn 3 [2, 3, 4] fun qid x =>
    if x.isWork then (s.qmEnd fn 3 1 0).drainQueue qid false else s.qmRefuse fn 3 2

/-- An existing queue links to CQ or EQ `qid` (R411). -/
def linked (s : State) (qid : Nat) : Bool :=
  s.queues.any fun p => !(Nat.beq p.2.state 0) && Nat.beq p.2.link qid &&
    (p.2.isWork || (Nat.beq p.2.kind 3 && p.2.linkEn))

/-- R411: a RESET or DESTROY of a CQ or EQ is refused BUSY. -/
def ringBusy (s : State) (qid : Nat) (x : Queue) : Bool :=
  !x.isWork && (s.linked qid || (Nat.beq x.kind 3 && !(Nat.beq x.held 0)))

/-- RESET. -/
def qmReset (s : State) (fn : Nat) : State :=
  s.qmOp fn 4 [1, 2, 3, 4] fun qid x =>
    if x.isWork then (s.qmEnd fn 4 1 0).drainQueue qid true
    else if s.ringBusy qid x then s.qmRefuse fn 4 4
    else
      (s.setQ qid { x with
        state := 1, pi := 0, ci := 0, taken := 0, armed := false, events := [], seq := 0
        ready := [], waiting := [], overflow := false }).qmDone fn 4

/-- DESTROY. -/
def qmDestroy (s : State) (fn : Nat) : State :=
  s.qmOp fn 5 [1] fun qid x =>
    if s.ringBusy qid x then s.qmRefuse fn 5 4 else (s.setQ qid {}).qmDone fn 5

/-- MODIFY: LATE_TOL_NS and IRQ_EN alone are taken and judged, with the reserved bits. -/
def qmModify (s : State) (fn : Nat) : State :=
  s.qmOp fn 6 [1, 2, 3, 4, 5] fun qid x =>
    let v := s.qctx fn
    if 100000000 < bits v 288 27 ∨ qctxReserved v = false then s.qmRefuse fn 6 3
    else (s.setQ qid { x with lateTol := bits v 288 27, irqEn := v.testBit 76 }).qmDone fn 6

/-- The context image of queue `qid` (R416). -/
def qctxImage (s : State) (qid : Nat) : Nat :=
  let x := s.q qid
  let pos (p : Nat) : Nat := p % x.n + p / x.n * 2 ^ 16
  x.ringAddr + x.kind * 2 ^ 64 + x.loc.toNat * 2 ^ 67 + (if x.state = 0 then 0 else x.log2) * 2 ^ 68 +
    x.state * 2 ^ 73 + x.irqEn.toNat * 2 ^ 76 + codeOfFunc ((s.ownerOf qid).getD 0) * 2 ^ 80 +
    x.link * 2 ^ 96 + x.linkEn.toNat * 2 ^ 127 + pos x.pi * 2 ^ 128 + pos x.ci * 2 ^ 160 +
    pos x.taken * 2 ^ 192 + x.held * 2 ^ 224 + x.armed.toNat * 2 ^ 231 + x.haltStatus * 2 ^ 232 +
    x.haltIndex * 2 ^ 240 + x.port * 2 ^ 256 + x.cls * 2 ^ 260 + x.lateTol * 2 ^ 288 + x.done * 2 ^ 320

/-- QUERY. -/
def qmQuery (s : State) (fn : Nat) : State :=
  s.qmOp fn 7 [0, 1, 2, 3, 4, 5] fun qid _ => (s.setQctx fn (s.qctxImage qid)).qmDone fn 7

/-- R412: the last completion of a draining queue has been written. -/
def drained (s : State) (qid : Nat) : State :=
  let x := s.q qid
  if x.state = 5 ∧ x.pi = x.ci then
    let y := { x with state := 1, haltStatus := 0, haltIndex := 0 }
    let y := if x.resetAfter then
      { y with pi := 0, ci := 0, taken := 0, armed := false, resetAfter := false } else y
    let s := (s.setQ qid y).post 0x1904 (qid % 2 ^ 20)
    s.qmDone x.func (if x.resetAfter then 4 else 3)
  else s

end State

/-- Any other write to a doorbell page (R386). -/
def execDbBadWidth (s : State) : Out State := .next (s.count Cnt.QM_DB_BAD_WIDTH)

/-- A read of work entries completes, from the next position the device has no copy of (R389). -/
def execWorkEntryFetch (qid : BitVec 20) (fin : ReadEnd) (entries : List (BitVec 256)) (s : State) :
    Out State :=
  .next (s.entryFetch qid.toNat fin entries)

/-- A read of the fragment table an entry awaits completes (R395). -/
def execFragmentTableRead (qid : BitVec 20) (pos : Nat) (fin : ReadEnd) (fragments : List (BitVec 128))
    (s : State) : Out State :=
  .next (s.fragmentTable qid.toNat pos fin fragments)

/-- A read of an entry's frame body completes (R390). -/
def execTxBodyReadDone (qid : BitVec 20) (pos : Nat) (fin : ReadEnd) (body : List Byte) (s : State) :
    Out State :=
  .next (s.txBody qid.toNat pos fin body)

/-- The oldest posted event is routed (R404, R405). -/
def execEventPost (s : State) : Out State :=
  .next (match s.posted with
    | [] => s
    | e :: rest =>
      let s := { s with posted := rest }
      match s.eventRoute e with
      | some eq => (s.eventTo eq e.code e.data).signalPmes
      | none => s.count Cnt.QM_EVT_UNROUTED)

/-- The head frame of a receive queue is written into its buffers (R406). -/
def execRxDelivery (qid : BitVec 20) (s : State) : Out State :=
  .next (if (s.q qid.toNat).kind = 2 then
    s.deliverRx qid.toNat ((s.q qid.toNat).fetched.length + 1) |>.startHold qid.toNat |>.signalPmes else s)

/-- A frame has waited QM_RX_HOLD for buffers (R407). -/
def execRxHoldExpire (qid : BitVec 20) (s : State) : Out State := .next (s.holdExpire qid.toNat)

/-- Queue operations of the mailbox of function `fn` (R410). -/
def execQmCreate (fn : BitVec 6) (s : State) : Out State := .next (s.qmCreate fn.toNat)

def execQmEnable (fn : BitVec 6) (s : State) : Out State := .next (s.qmEnable fn.toNat)

def execQmShutdown (fn : BitVec 6) (s : State) : Out State := .next (s.qmShutdown fn.toNat)

def execQmReset (fn : BitVec 6) (s : State) : Out State := .next (s.qmReset fn.toNat)

def execQmDestroy (fn : BitVec 6) (s : State) : Out State := .next (s.qmDestroy fn.toNat)

def execQmModify (fn : BitVec 6) (s : State) : Out State := .next (s.qmModify fn.toNat)

def execQmQuery (fn : BitVec 6) (s : State) : Out State := .next (s.qmQuery fn.toNat)

/-- The last completion of a draining queue has been written (R412). -/
def execDrained (qid : BitVec 20) (s : State) : Out State := .next (s.drained qid.toNat)

end Sys2Proof.Machine
end

