-- ==== Sys2Proof/Machine/Dma.lean ====
section
/-! DEFINITION. The DMA channels and their programs (R418 to R441), the two happenings that also move a
channel's SIGNAL completion, and the deadlines of reads (R66, R456, R457). -/

namespace Sys2Proof.Machine

/-! ### The instruction word (R421, R422, R426) -/

def dmaOp (w : Nat) : Nat := bits w 0 8
def dmaReq (w : Nat) : Nat := bits w 12 6
def dmaSub (w : Nat) : Nat := bits w 24 2
def dmaFlag (w : Nat) : Nat := bits w 26 5
def dmaLen (w : Nat) : Nat := bits w 32 32
def dmaQ (w k : Nat) : Nat := bits w (64 * k) 64
def dmaPaced (w : Nat) : Bool := w.testBit 11
def dmaPost (w : Nat) : Bool := w.testBit 19

/-- The bits of [31:8] that the instruction uses (R421).  REQ is used by PACED and by WAIT SUB 0. -/
def dmaUsed (w : Nat) : Nat :=
  let move := 0xC00F00 + (if dmaPaced w then 0x3F000 else 0)
  if dmaOp w = 1 then move
  else if dmaOp w = 2 ∨ dmaOp w = 3 then move + 0x40000
  else if dmaOp w = 4 then 0x300000
  else if dmaOp w = 5 then
    0x3000000 + (if dmaSub w = 0 then 0x3F000 else if dmaSub w = 2 then 0x7C000000 else 0)
  else if dmaOp w = 6 then 0x3080000 + (if dmaSub w = 1 then 0x7C000000 else 0)
  else if dmaOp w = 8 then 0x80000
  else 0

/-- R426: the instruction at index `idx` is well formed. -/
def dmaWordOk (w idx : Nat) : Bool :=
  let op := dmaOp w
  let len := dmaLen w
  let listLen := Nat.ble 1 len && Nat.ble len 4096
  Nat.beq (Nat.land (bits w 0 32) (0xFFFFFF00 - dmaUsed w)) 0 &&
    (if op = 1 then Nat.ble 1 len && Nat.beq (dmaQ w 3) 0
     else if op = 2 then listLen && Nat.beq (dmaQ w 1 % 16) 0 && Nat.beq (dmaQ w 3) 0
     else if op = 3 then listLen && Nat.beq (dmaQ w 2 % 16) 0 && Nat.beq (dmaQ w 3) 0
     else if op = 4 then Nat.ble 1 len && Nat.blt (dmaQ w 1) 65536 && Nat.blt (dmaQ w 1) idx
     else if op = 5 then
       Nat.beq len 0 && Nat.ble (dmaSub w) 2 &&
         (if dmaSub w = 1 then Nat.blt (dmaQ w 1) (2 ^ 32) else Nat.beq (dmaQ w 1) 0) &&
         Nat.beq (dmaQ w 2) 0 && Nat.beq (dmaQ w 3) 0
     else if op = 6 then
       Nat.beq len 0 && Nat.ble (dmaSub w) 1 &&
         (if dmaSub w = 0 then Nat.blt (dmaQ w 1) (2 ^ 20) else Nat.beq (dmaQ w 1) 0) &&
         Nat.blt (dmaQ w 2) (2 ^ 32) && Nat.beq (dmaQ w 3) 0
     else if op = 7 ∨ op = 8 then Nat.beq (w / 2 ^ 32) 0
     else false)

/-- R422: a list entry is well formed. -/
def dmaEntryOk (e : BitVec 128) : Bool :=
  Nat.ble 1 (bits e.toNat 64 32) && Nat.ble (bits e.toNat 64 32) 16777216 && Nat.beq (bits e.toNat 96 32) 0

/-- An address with offset register A or B added where the instruction asks for it (R421, R423). -/
def dmaOffset (w bit off addr : Nat) : Nat := if w.testBit bit then (addr + off) % 2 ^ 64 else addr

/-! ### Runs of bytes -/

/-- The first `n` bytes of a run. -/
def segTake : List Seg → Nat → List Seg
  | [], _ => []
  | g :: t, n => if n = 0 then [] else { g with len := min g.len n } :: segTake t (n - min g.len n)

/-- A run without its first `n` bytes. -/
def segDrop : List Seg → Nat → List Seg
  | [], _ => []
  | g :: t, n =>
    if n < g.len then { g with addr := g.addr + n, len := g.len - n } :: t else segDrop t (n - g.len)

namespace State

def chan (s : State) (c : Nat) : DmaChan := Table.get (fun _ => {}) s.dma c

/-- Bytes of the present instruction not yet in complete bursts (R440). -/
def chanRemain (x : DmaChan) : Nat :=
  x.rest + ((x.flight.filter fun b => Nat.beq b.inst x.inst).map (·.len)).foldl (· + ·) 0

/-- Set a channel and the bytes it shows as remaining. -/
def setChan (s : State) (c : Nat) (x : DmaChan) : State :=
  { s with dma := Table.set (fun _ => {}) s.dma c x }.wrN (Reg.DMA_CH_REMAIN c) (chanRemain x)

def chState (s : State) (c : Nat) : Nat := s.fld (Reg.DMA_CH_STATUS_STATE c)

def setChState (s : State) (c v : Nat) : State := s.setFld (Reg.DMA_CH_STATUS_STATE c) v

/-- R418: channel `c` is reserved to a device role. -/
def reservedChan (s : State) (c : Nat) : Bool := Nat.ble 32 (c + s.fld Reg.DMA_RESERVED_COUNT)

/-- The channel may touch host memory now: a host channel as PF3 (R419, R439). -/
def chanHost (s : State) (c : Nat) : Bool := s.reservedChan c || s.canRequest 3

/-- A partition of the DRAM of one kind (R80). -/
def partOf (s : State) (kind : Nat) : Option Partition :=
  ((s.imp.image.map (·.parts)).getD []).find? fun p => Nat.beq p.kind kind

/-- R419: a host channel may address these bytes. -/
def segAllowed (s : State) (g : Seg) : Bool :=
  !g.dram || ((s.imp.image.map (·.parts)).getD []).any fun p =>
    (Nat.beq p.kind 6 || Nat.beq p.kind 7 || (Nat.beq p.kind 8 && Nat.beq p.owner 3)) &&
      Nat.ble p.base g.addr && Nat.ble (g.addr + g.len) (p.base + p.size)

/-! ### Halting and signalling (R435 to R437) -/

/-- Hand a channel's completion to a CQ. -/
def dmaCpl (s : State) (cq c status detail tag : Nat) (stamped : Bool) : State :=
  let y := s.q cq
  let k : Cpl :=
    { status := status, kind := 4, detail := detail, x8 := c, body := tag * 2 ^ 32
      stampValid := stamped, stamp := if stamped then s.now else {}
      ts := if stamped then s.timeStatus else 0 }
  s.setQ cq { y with ready := y.ready ++ [k] }

/-- The CQ may take channel `c`'s completions (R435): PF3's for a host channel; which function a role
names for a reserved channel is the bundle's. -/
def dmaCqOk (s : State) (c cq : Nat) : Bool :=
  Nat.beq (s.q cq).kind 3 && (s.reservedChan c || s.ownerOf cq == some 3)

/-- R437: the channel halts.  What it had in flight is used no further. -/
def dmaHalt (s : State) (c status detail : Nat) : State :=
  let s := s.setChan c { s.chan c with rest := 0, src := [], dst := [], flight := [], held := false, signal := none }
  let s := ((s.setChState c 4).setFld (Reg.DMA_CH_STATUS_HALT_STATUS c) status).setFld
    (Reg.DMA_CH_STATUS_HALT_DETAIL c) detail
  let s := (s.count Cnt.DMA_HALTS).post 0x0702 c
  let cq := s.fld (Reg.DMA_CH_ERRCQ_CQ c)
  if s.flag (Reg.DMA_CH_ERRCQ_EN c) && s.dmaCqOk c cq then s.dmaCpl cq c status detail 0 false else s

/-- A SIGNAL completion of channel `c` has not yet been written (R436). -/
def signalWaits (s : State) (c : Nat) : Bool :=
  match (s.chan c).signal with
  | none => false
  | some cq => ((s.q cq).ready ++ (s.q cq).waiting).any fun k => Nat.beq k.kind 4 && Nat.beq k.x8 c

/-! ### Requests (R428) -/

def dmaPending (s : State) (c : Nat) : Nat := s.fld (Reg.DMA_CH_STATUS_PENDING c)

def setDmaPending (s : State) (c v : Nat) : State := s.setFld (Reg.DMA_CH_STATUS_PENDING c) v

/-- The channel watches a line: the count is cleared where it is another one. -/
def watchLine (s : State) (c : Nat) (line : Option Nat) : State :=
  match line with
  | none => s
  | some k =>
    if (s.chan c).line = some k then s
    else (s.setChan c { s.chan c with line := some k }).setDmaPending c 0

/-! ### Bursts (R427, R431 to R433) -/

/-- Write bytes over a run, with their poison mark. -/
def segWrite (s : State) : List Seg → List Byte → Bool → State
  | [], _, _ => s
  | g :: t, b, poisoned =>
    let part := b.take g.len
    let s := if g.dram then s.dramWrite g.addr part poisoned else s.hostStore g.addr part poisoned
    s.segWrite t (b.drop g.len) poisoned

/-- The bytes of a run of DRAM, and whether any is poisoned. -/
def segRead (s : State) (l : List Seg) : List Byte × Bool :=
  ((l.map fun g => (s.dramRead g.addr g.len).1).flatten, l.any fun g => (s.dramRead g.addr g.len).2)

/-- R433: poisoned data has arrived for a burst. -/
def notePoison (s : State) (c : Nat) (b : DmaBurst) : State :=
  let s := s.setChan c { s.chan c with poisoned := true }
  if b.poisoned then s else s.count Cnt.DMA_POISONED_BURSTS

/-- A burst whose source is DRAM runs and is complete. -/
def dramBurst (s : State) (c : Nat) (b : DmaBurst) : State :=
  let (bytes, poisoned) := s.segRead b.src
  let s := if poisoned then s.notePoison c b else s
  (s.segWrite b.dst bytes poisoned).count Cnt.DMA_BURSTS

/-- Tags in quarantine of channel `c` (R430). -/
def quarantinedTags (s : State) (c : Nat) : Nat :=
  (s.host.quarantine.filter fun x => match x.path with
    | .dma k _ => Nat.beq k c
    | .dmaFetch k => Nat.beq k c
    | _ => false).length

/-- Bursts of host reads the channel may have in flight: each takes one tag or more (R430). -/
def tagFree (s : State) (c : Nat) : Bool :=
  Nat.blt ((s.chan c).flight.length + s.quarantinedTags c) (s.fld (Reg.DMA_CH_CFG_TAGS c))

/-- R419: the burst lies within what the channel may address; what a role names is the bundle's. -/
def burstAllowed (s : State) (c : Nat) (b : DmaBurst) : Bool :=
  if s.reservedChan c then (b.src ++ b.dst).all (fun g => !g.dram) || s.freeVal.getLsbD 0
  else (b.src ++ b.dst).all s.segAllowed

/-- R427: issue the bursts that may be issued now; `k` bounds their number. -/
def issueBursts (s : State) (c : Nat) : Nat → State
  | 0 => s
  | k + 1 =>
    let x := s.chan c
    let n := min x.rest (s.fld (Reg.DMA_CH_CFG_BURST c))
    let b : DmaBurst :=
      { id := x.nextBurst, inst := x.inst, src := segTake x.src n, dst := segTake x.dst n, len := n, count := n }
    let hostSrc := b.src.any fun g => !g.dram
    let hostDst := b.dst.any fun g => !g.dram
    if x.rest = 0 ∨ s.chState c ≠ 1 then s
    else if dmaPaced x.word ∧ s.dmaPending c = 0 then s
    else if s.burstAllowed c b = false then s.draw.dmaHalt c 0x0D 0x03
    else if (hostSrc || hostDst) && !s.chanHost c then s
    else if hostSrc && !s.tagFree c then s
    else
      let s := if s.reservedChan c then s.draw else s
      let s := if dmaPaced x.word then s.setDmaPending c (s.dmaPending c - 1) else s
      let y := { x with
        src := segDrop x.src n, dst := segDrop x.dst n, rest := x.rest - n, nextBurst := x.nextBurst + 1 }
      if hostSrc then (s.setChan c { y with flight := y.flight ++ [b] }).issueBursts c k
      else ((s.setChan c y).dramBurst c b).issueBursts c k

/-! ### Flags, held instructions and their ends (R424, R425, R435) -/

/-- A SIGNAL past its fence. -/
def dmaSignal (s : State) (c : Nat) : State :=
  let x := s.chan c
  let w := x.word
  let cq := dmaQ w 1 % 2 ^ 20
  let tag := dmaQ w 2 % 2 ^ 32
  let status := if x.poisoned then 0x05 else 0
  let detail := min 255 x.retries
  let posted (s : State) : State := if dmaPost w then s.post 0x0701 (c + tag * 2 ^ 32) else s
  if dmaSub w = 0 then
    if s.dmaCqOk c cq then
      posted ((s.dmaCpl cq c status detail tag true).setChan c
        { x with held := true, signal := some cq, poisoned := false, retries := 0 })
    else s.dmaHalt c 0x08 0x05
  else
    let s := s.wrN Reg.DMA_FLAGS (setBit (s.rd Reg.DMA_FLAGS).toNat (dmaFlag w) true)
    posted (s.setChan c { x with held := false, poisoned := false, retries := 0 })

/-- A HALT past its fence: the channel is IDLE. -/
def dmaIdle (s : State) (c : Nat) : State :=
  let s := if dmaPost (s.chan c).word then s.post 0x0704 c else s
  (s.setChan c { s.chan c with held := false }).setChState c 0

/-- A WAIT ends. -/
def dmaWaitEnd (s : State) (c : Nat) : State :=
  (s.setChan c { s.chan c with held := false }).setChState c 1

/-- R424: a held WAIT ends where what it waits for is there. -/
def dmaWaitTest (s : State) (c : Nat) : State :=
  let w := (s.chan c).word
  if dmaSub w = 0 then
    if s.dmaPending c = 0 then s else (s.setDmaPending c (s.dmaPending c - 1)).dmaWaitEnd c
  else if dmaSub w = 1 then
    if shortDue (dmaQ w 1) s.nowShort then s.dmaWaitEnd c else s
  else if (s.rd Reg.DMA_FLAGS).toNat.testBit (dmaFlag w) then
    (s.wrN Reg.DMA_FLAGS (setBit (s.rd Reg.DMA_FLAGS).toNat (dmaFlag w) false)).dmaWaitEnd c
  else s

/-- Let channel `c` go on as far as it can: a stop that has drained (R438), a held instruction that need
wait no longer. -/
def chanSettle (s : State) (c : Nat) : State :=
  let x := s.chan c
  if s.chState c = 3 then
    if x.flight = [] ∧ s.signalWaits c = false then s.dmaHalt c 0x03 0x00 else s
  else if x.held = false then s
  else if x.signal.isSome then
    if s.signalWaits c then s else s.setChan c { x with held := false, signal := none }
  else if dmaOp x.word = 5 then s.dmaWaitTest c
  else if x.flight ≠ [] then s
  else if dmaOp x.word = 6 then s.dmaSignal c
  else if dmaOp x.word = 8 then s.dmaIdle c
  else s.setChan c { x with held := false }

/-- Every channel goes on as far as it can: a flag has been set, or a completion written. -/
def settleAll (s : State) : State := (List.range 32).foldl (fun s c => s.chanSettle c) s

/-- Issue what may be issued, and settle. -/
def advanceChan (s : State) (c : Nat) : State :=
  (s.issueBursts c (s.chan c).rest).chanSettle c

/-! ### Running an instruction -/

/-- The word a channel fetches, and how the fetch ended (R420). -/
def dmaWord (s : State) (c : Nat) (f : DmaFetch) : Nat × ReadEnd :=
  if s.flag (Reg.DMA_CH_CFG_PROG_LOC c) then
    let base := ((s.partOf 6).map (·.base)).getD 0
    let (b, poisoned) := s.dramRead (base + s.rd64 (Reg.DMA_CH_PROG_LO c) + 32 * (s.chan c).next) 32
    (leNat b, if poisoned then .poisoned else .good)
  else (f.word.toNat, f.fin)

/-- The channel may fetch its next instruction: it is RUNNING, has issued what came before, and nothing
holds it. -/
def dmaReady (s : State) (c : Nat) : Bool :=
  let x := s.chan c
  Nat.beq (s.chState c) 1 && Nat.beq x.rest 0 && !x.held &&
    (s.flag (Reg.DMA_CH_CFG_PROG_LOC c) || s.chanHost c)

/-- The channel moves to the instruction `w` at its next index. -/
def dmaEnter (s : State) (c w : Nat) (next : Option (BitVec 6)) : State :=
  let x := s.chan c
  let paced := (Nat.beq (dmaOp w) 5 && Nat.beq (dmaSub w) 0) || (Nat.ble (dmaOp w) 3 && dmaPaced w)
  let line := if paced then some (dmaReq w) else next.map (·.toNat)
  let s := s.setChan c { x with next := x.next + 1, word := w, inst := x.inst + 1 }
  (s.setFld (Reg.DMA_CH_PC_INDEX c) x.next).watchLine c line

/-- The word `w` at index `idx` of channel `c` runs: a fetch that failed or a malformed word halts the channel,
and a word of another row leaves it as it is. -/
def dmaRunWord (s : State) (c idx w : Nat) (fin : ReadEnd) (next : Option (BitVec 6)) (op : Nat) (sub : Option Nat)
    (run : Nat → State → State) : State :=
  match fin with
  | .refused => (s.setFld (Reg.DMA_CH_PC_INDEX c) idx).dmaHalt c 0x07 0x03
  | .poisoned => (s.setFld (Reg.DMA_CH_PC_INDEX c) idx).dmaHalt c 0x07 0x04
  | .good =>
    if dmaWordOk w idx = false then (s.setFld (Reg.DMA_CH_PC_INDEX c) idx).dmaHalt c 0x08 0x05
    else if dmaOp w = op ∧ sub.all (fun k => Nat.beq k (dmaSub w)) then run w (s.dmaEnter c w next)
    else s

/-- Fetch and run one instruction of operation `op`, and SUB `sub` where the operation has several
(R420, R426).  A held instruction is looked at again. -/
def dmaRun (s : State) (c : Nat) (f : DmaFetch) (op : Nat) (sub : Option Nat)
    (run : Nat → State → State) : State :=
  if (s.chan c).held then s.chanSettle c
  else if s.dmaReady c = false then s
  else if 65535 < (s.chan c).next then s.dmaHalt c 0x08 0x05
  else s.dmaRunWord c (s.chan c).next (s.dmaWord c f).1 (s.dmaWord c f).2 f.next op sub run

/-- The present instruction copies between two runs. -/
def dmaCopy (s : State) (c : Nat) (src dst : List Seg) (total : Nat) : State :=
  (s.setChan c { s.chan c with src := src, dst := dst, rest := total }).advanceChan c

/-- The list of a GATHER or SCATTER: from DRAM where LIST_LOC says so, else as the host gave it; and how
its read ended. -/
def dmaList (s : State) (w addr : Nat) (l : List (BitVec 128)) (fin : ReadEnd) :
    List (BitVec 128) × ReadEnd :=
  if w.testBit 18 then
    let b := s.dramRead addr (16 * dmaLen w)
    ((List.range (dmaLen w)).map fun k => BitVec.ofNat 128 (leNat ((b.1.drop (16 * k)).take 16)),
      if b.2 then .poisoned else .good)
  else (l.take (dmaLen w), fin)

/-- GATHER and SCATTER (R422): `run` gets the entries as a run of bytes and their total. -/
def dmaListed (s : State) (c w addr bit off : Nat) (loc : Bool) (l : List (BitVec 128)) (fin : ReadEnd)
    (run : List Seg → Nat → State → State) : State :=
  let (l, fin) := s.dmaList w addr l fin
  match fin with
  | .refused => s.dmaHalt c 0x07 0x03
  | .poisoned => s.dmaHalt c 0x07 0x04
  | .good =>
    if l.all dmaEntryOk = false then s.dmaHalt c 0x08 0x05
    else
      let segs := l.map fun e =>
        ({ dram := loc, addr := dmaOffset w bit off (bits e.toNat 0 64), len := bits e.toNat 64 32 } : Seg)
      run segs ((segs.map (·.len)).foldl (· + ·) 0) s

/-- Hold the channel at its present instruction, then look whether it need wait. -/
def dmaHold (s : State) (c : Nat) : State :=
  (s.setChan c { s.chan c with held := true }).chanSettle c

/-- Hold the channel at a WAIT, then look whether it need wait (R424). -/
def dmaWait (s : State) (c : Nat) : State :=
  ((s.setChan c { s.chan c with held := true }).setChState c 2).chanSettle c

/-- A LOOP (R423). -/
def dmaLoop (s : State) (c w : Nat) : State :=
  let x := s.chan c
  let k := bits w 20 2
  let n := Table.get (fun _ => 0) x.ctr k
  let n := (if n = 0 then dmaLen w else n) - 1
  let x := { x with ctr := Table.set (fun _ => 0) x.ctr k n }
  if n = 0 then s.setChan c x
  else s.setChan c { x with
    offA := (x.offA + dmaQ w 2) % 2 ^ 64, offB := (x.offB + dmaQ w 3) % 2 ^ 64, next := dmaQ w 1 }

/-! ### The ends of bursts (R431, R432) -/

/-- A burst in flight. -/
def burstAt (s : State) (c id : Nat) : Option DmaBurst := (s.chan c).flight.find? fun b => Nat.beq b.id id

/-- A burst fails: it is issued again, or the channel halts (R432); a stopping channel lets it end (R438). -/
def burstFails (s : State) (c id detail : Nat) : State :=
  match s.burstAt c id with
  | none => s
  | some b =>
    let x := s.chan c
    if s.chState c = 3 then
      (s.setChan c { x with flight := x.flight.filter fun k => !(Nat.beq k.id id) }).chanSettle c
    else if s.fld (Reg.DMA_CH_CFG_RETRY_LIMIT c) ≤ b.retries then s.dmaHalt c 0x0D detail
    else
      let again := { b with id := x.nextBurst, count := b.len, retries := b.retries + 1 }
      (s.setChan c { x with
        flight := x.flight.map fun k => if k.id = id then again else k
        nextBurst := x.nextBurst + 1, retries := x.retries + 1 }).count Cnt.DMA_RETRIES

/-- Good data arrives for a burst, from byte `off` of it. -/
def burstData (s : State) (c id off : Nat) (data : List Byte) (poisoned : Bool) : State :=
  match s.burstAt c id with
  | none => s
  | some b =>
    if b.len < off + data.length ∨ b.count < data.length then s
    else
      let s := if poisoned then s.notePoison c b else s
      let s := s.segWrite (segDrop b.dst off) data poisoned
      let x := s.chan c
      let left := b.count - data.length
      if left = 0 then
        ((s.setChan c { x with flight := x.flight.filter fun k => !(Nat.beq k.id id) }).count
          Cnt.DMA_BURSTS).advanceChan c
      else
        s.setChan c { x with flight := x.flight.map fun k =>
          if k.id = id then { k with count := left, poisoned := k.poisoned || poisoned } else k }

/-! ### Request lines (R428) -/

/-- A request reaches one watching channel. -/
def dmaRequestTo (s : State) (c : Nat) : State :=
  let s := if s.dmaPending c = 255 then
      let key := 0x070300 + c
      let last := Table.get (fun _ => 0) s.lastPost key
      let s := s.count Cnt.DMA_REQ_OVERRUN
      if last ≠ 0 ∧ s.tb.uptime < last - 1 + 1000000 then s
      else
        let s := s.post 0x0703 c
        { s with lastPost := Table.set (fun _ => 0) s.lastPost key (s.tb.uptime + 1) }
    else s.setDmaPending c (s.dmaPending c + 1)
  s.advanceChan c

/-- A request on line `k` reaches every channel that watches it. -/
def dmaLine (s : State) (k : Nat) : State :=
  (List.range 32).foldl (fun s c => if (s.chan c).line = some k then s.dmaRequestTo c else s) s

/-- Whether a request of line `k` is at hand, and the state without it: of the lines 0 to 25 those that a delivered frame, a
start of an operational gate cycle, a ring cycle or a reply has raised; the lines from 26 on reach the channels with
what raises them. -/
def lineRaised (s : State) (k : Nat) : State × Bool :=
  if k < 12 then ({ s with flows := { s.flows with raised := s.flows.raised.erase k } }, s.flows.raised.contains k)
  else if k < 24 then
    (s, s.operating && s.crossed (s.fld (Reg.PORT_OPER_CYCLE_CYCLE_NS (k - 12)))
      ((s.rdFull (Reg.PORT_OPER_BASE_LO (k - 12))).ticks * 2 ^ 16 : Nat))
  else if k < 26 then ({ s with ring := { s.ring with raised := s.ring.raised.erase k } }, s.ring.raised.contains k)
  else (s, false)

/-- A request on line `k` reaches the channels, where one is at hand (R428). -/
def dmaRequest (s : State) (k : Nat) : State :=
  let (t, raised) := s.lineRaised k
  if raised then (t.dmaLine k).settleAll else s

/-! ### Starting and stopping (R423, R438) -/

/-- START and STOP act on a channel of host software through PF3, on a reserved one through its role
alone (R418). -/
def chanBy (s : State) (c : Nat) (byRole : Bool) : Bool := s.reservedChan c == byRole

/-- START (R423, R426). -/
def dmaStart (s : State) (c : Nat) : State :=
  if s.chState c = 0 ∨ s.chState c = 4 then
    let x := s.chan c
    let s := (s.setChan c { nextBurst := x.nextBurst, inst := x.inst + 1 }).setDmaPending c 0
    let s := (s.setFld (Reg.DMA_CH_PC_INDEX c) 0).setChState c 1
    if s.rd64 (Reg.DMA_CH_PROG_LO c) % 32 = 0 then s else s.dmaHalt c 0x08 0x05
  else s

/-- STOP (R438, R439). -/
def dmaStop (s : State) (c : Nat) : State :=
  if s.chState c = 2 then s.dmaHalt c 0x03 0x00
  else if s.chState c = 1 then
    ((s.setChan c { s.chan c with rest := 0, src := [], dst := [] }).setChState c 3).chanSettle c
  else s

/-! ### Deadlines of reads (R66, R390, R456, R457) -/

/-- What a timeout means on the path that issued the read (R456). -/
def pathTimeout (s : State) : ReadPath → State
  | .entry qid pos =>
    if pos = (s.q qid).step (s.q qid).taken (s.q qid).fetched.length ∧ (s.q qid).isWork then
      s.failFetch qid 0x02 else s
  | .table qid pos =>
    match s.entryAt qid pos with
    | some e => if e.phase = .table then s.halt qid pos 0x07 0x02 else s
    | none => s
  | .txBody qid pos =>
    match s.entryAt qid pos with
    | some e => if e.phase = .body ∧ (s.q qid).kind = 1 then s.complete qid pos 0x0D 0 else s
    | none => s
  | .cmdBlock qid pos =>
    match s.entryAt qid pos with
    | some e => if e.phase = .body ∧ (s.q qid).kind = 5 then s.halt qid pos 0x07 0x02 else s
    | none => s
  | .flowCmd => if s.mailboxReads then s.flowCmdFails else s
  | .mailbox => match s.boot.mb with
    | some _ => s.mbEnd 0x38
    | none => s
  | .dma c id => s.burstFails c id 0x01
  | .dmaFetch c => if s.dmaReady c then s.dmaHalt c 0x07 0x02 else s

/-- A read of this path may be outstanding. -/
def pathWaits (s : State) : ReadPath → Bool
  | .entry qid pos =>
    Nat.beq pos ((s.q qid).step (s.q qid).taken (s.q qid).fetched.length) && (s.q qid).isWork &&
      (s.q qid).below pos
  | .table qid pos => (s.entryAt qid pos).any fun e => e.phase == .table
  | .txBody qid pos => Nat.beq (s.q qid).kind 1 && (s.entryAt qid pos).any fun e => e.phase == .body
  | .cmdBlock qid pos => Nat.beq (s.q qid).kind 5 && (s.entryAt qid pos).any fun e => e.phase == .body
  | .flowCmd => s.mailboxReads
  | .mailbox => s.boot.mb.any fun m => !m.transferred
  | .dma c id => (s.chan c).flight.any fun b => Nat.beq b.id id
  | .dmaFetch c => s.dmaReady c

/-- The completion timeout in force for function `fn`, in ns (R455). -/
def cplTimeoutNs (s : State) (fn : Nat) : Nat := s.fld (Reg.PCIE_CTO_TIMEOUT_US.of fn) * 1000

/-- The Tag value `tag` of function `fn` is in quarantine. -/
def tagHeld (s : State) (fn tag : Nat) : Bool :=
  s.host.quarantine.any fun x => Nat.beq x.func fn && Nat.beq x.tag tag

/-- A read of function `fn` with Tag `tag` times out (R456): one that may be outstanding, whose tag is no
quarantined one (R66). -/
def readTimeout (s : State) (path : ReadPath) (fn tag : Nat) : State :=
  if s.pathWaits path = false ∨ s.tagHeld fn tag then s else
  let s := (s.count Cnt.PCIE_CPL_TIMEOUT).postOpenLimited 0x0502
  let x : Quarantine :=
    { func := fn, tag := tag, path := path, expires := s.tb.uptime + s.cplTimeoutNs fn }
  let s := { s with host := { s.host with quarantine := s.host.quarantine ++ [x] } }
  s.pathTimeout path

/-- The NOTICE of a late completion of a queue read (R402, R457). -/
def lateNotice (s : State) (qid pos : Nat) : State :=
  let x := s.q qid
  let s := s.count Cnt.QM_LATE_COMPLETION
  let cq := s.q x.link
  if x.state = 0 then s
  else
    let note : Cpl := { qid := qid, status := 0x0F, kind := 5, body := pos % x.n }
    s.setQ x.link { cq with ready := cq.ready ++ [note] }

/-- A completion arrives for a quarantined read (R457, R467). -/
def lateCompletion (s : State) (fn tag : Nat) : State :=
  match s.host.quarantine.find? fun x => Nat.beq x.func fn && Nat.beq x.tag tag with
  | none => s
  | some x =>
    let s := { s with host := { s.host with quarantine := s.host.quarantine.erase x } }
    if x.byReset then s.count Cnt.PCIE_RESET_DISCARD
    else
      let s := (s.count Cnt.PCIE_LATE_COMPLETION).postOpenLimited 0x0503
      match x.path with
      | .entry qid pos => s.lateNotice qid pos
      | .table qid pos => s.lateNotice qid pos
      | .txBody qid pos => s.lateNotice qid pos
      | .cmdBlock qid pos => s.lateNotice qid pos
      | .dma _ _ => s.count Cnt.DMA_LATE_COMPLETION
      | .dmaFetch _ => s.count Cnt.DMA_LATE_COMPLETION
      | .flowCmd => s
      | .mailbox => s

/-- A quarantined tag is free again (R66), twice the completion timeout after its read was issued. -/
def tagExpires (s : State) (fn tag : Nat) : State :=
  match s.host.quarantine.find? fun x => Nat.beq x.func fn && Nat.beq x.tag tag &&
      Nat.ble x.expires s.tb.uptime with
  | none => s
  | some x => { s with host := { s.host with quarantine := s.host.quarantine.erase x } }

end State

/-- A doorbell page of function `fn` takes one aligned 64-bit write (R386, R387). -/
def execDoorbell (fn : BitVec 6) (value : BitVec 64) (s : State) : Out State :=
  .next (s.doorbell fn.toNat value.toNat).settleAll

/-- A completion of a CQ is written, or waits (R391, R408, R436). -/
def execCompletionWrite (cq : BitVec 20) (s : State) : Out State :=
  .next (if (s.q cq.toNat).kind = 3 then ((s.moveCpl cq.toNat).settleAll).signalPmes else s)

/-- A write of DMA_CHn_CTRL.START through PF3, or the start of a reserved channel by its role. -/
def execDmaStart (ch : Fin 32) (byRole : Bool) (s : State) : Out State :=
  .next (if s.chanBy ch.val byRole then s.dmaStart ch.val else s)

/-- A write of DMA_CHn_CTRL.STOP, or the stop of a reserved channel by its role. -/
def execDmaStop (ch : Fin 32) (byRole : Bool) (s : State) : Out State :=
  .next (if s.chanBy ch.val byRole then s.dmaStop ch.val else s)

/-- A write of DMA_CHn_CTRL.CLEAR_REQ. -/
def execClearReq (ch : Fin 32) (byRole : Bool) (s : State) : Out State :=
  .next (if s.chanBy ch.val byRole then s.setDmaPending ch.val 0 else s)

/-- A write of DMA_FLAGS sets flags (R424). -/
def execDmaFlagsWrite (value : BitVec 32) (s : State) : Out State :=
  .next (s.wr Reg.DMA_FLAGS (s.rd Reg.DMA_FLAGS ||| value)).settleAll

def execDmaMove (ch : Fin 32) (f : DmaFetch) (s : State) : Out State :=
  .next (s.dmaRun ch.val f 1 none fun w s =>
    let x := s.chan ch.val
    s.dmaCopy ch.val [⟨w.testBit 8, dmaOffset w 22 x.offA (dmaQ w 1), dmaLen w⟩]
      [⟨w.testBit 9, dmaOffset w 23 x.offB (dmaQ w 2), dmaLen w⟩] (dmaLen w))

def execDmaGather (ch : Fin 32) (f : DmaFetch) (list : List (BitVec 128)) (listFin : ReadEnd)
    (s : State) : Out State :=
  .next (s.dmaRun ch.val f 2 none fun w s =>
    let x := s.chan ch.val
    s.dmaListed ch.val w (dmaQ w 1) 22 x.offA (w.testBit 8) list listFin fun segs n s =>
      s.dmaCopy ch.val segs [⟨w.testBit 9, dmaOffset w 23 x.offB (dmaQ w 2), n⟩] n)

def execDmaScatter (ch : Fin 32) (f : DmaFetch) (list : List (BitVec 128)) (listFin : ReadEnd)
    (s : State) : Out State :=
  .next (s.dmaRun ch.val f 3 none fun w s =>
    let x := s.chan ch.val
    s.dmaListed ch.val w (dmaQ w 2) 23 x.offB (w.testBit 9) list listFin fun segs n s =>
      s.dmaCopy ch.val [⟨w.testBit 8, dmaOffset w 22 x.offA (dmaQ w 1), n⟩] segs n)

def execDmaLoop (ch : Fin 32) (f : DmaFetch) (s : State) : Out State :=
  .next (s.dmaRun ch.val f 4 none fun w s => s.dmaLoop ch.val w)

def execDmaWaitRequest (ch : Fin 32) (f : DmaFetch) (s : State) : Out State :=
  .next (s.dmaRun ch.val f 5 (some 0) fun _ s => s.dmaWait ch.val)

def execDmaWaitTime (ch : Fin 32) (f : DmaFetch) (s : State) : Out State :=
  .next (s.dmaRun ch.val f 5 (some 1) fun _ s => s.dmaWait ch.val)

def execDmaWaitFlag (ch : Fin 32) (f : DmaFetch) (s : State) : Out State :=
  .next (s.dmaRun ch.val f 5 (some 2) fun _ s => s.dmaWait ch.val)

def execDmaSignalCompletion (ch : Fin 32) (f : DmaFetch) (s : State) : Out State :=
  .next (s.dmaRun ch.val f 6 (some 0) fun _ s => s.dmaHold ch.val)

def execDmaSignalFlag (ch : Fin 32) (f : DmaFetch) (s : State) : Out State :=
  .next (s.dmaRun ch.val f 6 (some 1) fun _ s => (s.dmaHold ch.val).settleAll)

def execDmaFence (ch : Fin 32) (f : DmaFetch) (s : State) : Out State :=
  .next (s.dmaRun ch.val f 7 none fun _ s => s.dmaHold ch.val)

def execDmaHalt (ch : Fin 32) (f : DmaFetch) (s : State) : Out State :=
  .next (s.dmaRun ch.val f 8 none fun _ s => s.dmaHold ch.val)

/-- A read of a burst ends (R431 to R433): `data` from byte `off` of the burst, or an error. -/
def execDmaReadCompletion (ch : Fin 32) (burst off : Nat) (data : List Byte) (fin : ReadEnd) (s : State) :
    Out State :=
  .next (match fin with
    | .good => (s.burstData ch.val burst off data false).settleAll
    | .poisoned => (s.burstData ch.val burst off data true).settleAll
    | .refused => s.burstFails ch.val burst 0x02)

/-- A request on a line of the ports, the gate cycles or the ring (R428). -/
def execDmaRequest (line : BitVec 6) (s : State) : Out State := .next (s.dmaRequest line.toNat)

/-- DMA timer `k` raises its line as the time base passes a multiple of its period (R429). -/
def execDmaTimer (k : Fin 4) (s : State) : Out State :=
  .next (if s.crossed (s.fld (Reg.DMA_TIMER_PERIOD_NS k.val)) 0 then (s.dmaLine (28 + k.val)).settleAll else s)

/-- A read reaches its completion timeout (R456). -/
def execCplTimeout (path : ReadPath) (fn : BitVec 6) (tag : BitVec 10) (s : State) : Out State :=
  .next (s.readTimeout path fn.toNat tag.toNat)

/-- A completion arrives for a read that has timed out, or that a reset abandoned (R457, R467). -/
def execLateCompletion (fn : BitVec 6) (tag : BitVec 10) (s : State) : Out State :=
  .next (s.lateCompletion fn.toNat tag.toNat)

/-- Twice the completion timeout has passed since a quarantined read was issued (R66). -/
def execTagQuarantineExpire (fn : BitVec 6) (tag : BitVec 10) (s : State) : Out State :=
  .next (s.tagExpires fn.toNat tag.toNat)

end Sys2Proof.Machine
end

