-- ==== Sys2Proof/Machine/Events.lean ====
section
/-! DEFINITION. The event pins: edges, counters, schedules, pulses and records (R328 to R343). -/

namespace Sys2Proof.Machine

namespace State

/-! ### Records of stamps (R332 to R334) -/

/-- A CAPTURE or PULSE record: SEQ advances and LAST takes the stamp, posted or not. -/
def evtStamped (s : State) (n code t16 level ts : Nat) : State :=
  let seq := s.fld (Reg.EVT_PIN_STATUS_SEQ n)
  let s := (s.setFld (Reg.EVT_PIN_STATUS_SEQ n) (seq + 1)).wrFull (Reg.EVT_PIN_LAST_LO n) (Full.ofTicks t16)
  if s.flag (Reg.EVT_PIN_CTRL_POST n) then
    s.evtRecord n code (t16 / 65536 % 2 ^ 32 + t16 % 65536 * 2 ^ 32 + n * 2 ^ 48 + level * 2 ^ 53 +
      ts * 2 ^ 54 + seq * 2 ^ 56)
  else s

/-- A SNAPSHOT record of a count. -/
def evtSnapshot (s : State) (n count t16 ts cause : Nat) : State :=
  let s := ((s.count Cnt.EVT_SNAPSHOTS).wrFull (Reg.EVT_PIN_LAST_LO n) (Full.ofTicks t16)).wrN
    (Reg.EVT_PIN_LAST_COUNT n) count
  if s.flag (Reg.EVT_PIN_CTRL_POST n) then
    s.evtRecord n 0x0802 (count % 2 ^ 24 + n * 2 ^ 24 + ts * 2 ^ 29 + cause * 2 ^ 31 +
      t16 / 65536 % 2 ^ 32 * 2 ^ 32)
  else s

/-! ### Inputs (R330, R331, R334) -/

/-- FILTER_NS rounded up to whole ticks. -/
def pinFilter (s : State) (n : Nat) : Nat := (s.fld (Reg.EVT_PIN_CFG_FILTER_NS n) + 1) / 2 * 2

/-- A sampled input shows a level: a change starts the filter, a return to the level held ends it.  Outside the
modes of R329 the pins are nothing. -/
def evtInput (s : State) (n : Nat) (level : Bool) : State :=
  let f := s.pinFunction n
  if s.operating ∧ (f = 1 ∨ f = 2 ∨ f = 4) then
    let p := s.pin n
    if level = s.pinLevel n then s.setPin n { p with cand := none }
    else if p.cand.isSome then s
    else s.setPin n { p with cand := some (s.nowTicks, s.timeStatus, s.tb.uptime) }
  else s

/-- An accepted edge of a counter that is armed (R334). -/
def evtCountEdge (s : State) (n t16 ts : Nat) : State :=
  let count := ((s.rd (Reg.EVT_PIN_COUNT n)).toNat + 1) % 2 ^ 32
  let s := s.wrN (Reg.EVT_PIN_COUNT n) count
  let p := s.pin n
  let every := s.fld (Reg.EVT_PIN_CTRL_SNAP_EVERY n)
  let full := !(Nat.beq every 0) && Nat.ble every (p.group + 1)
  let s := s.setPin n { p with
    recent := if p.snaps.isEmpty then [] else t16 :: p.recent
    group := if every = 0 then p.group else if full then 0 else p.group + 1 }
  if full then s.evtSnapshot n count t16 ts 1 else s

/-- The level of an input has held for its filter (R330). -/
def evtAccept (s : State) (n : Nat) : State :=
  let p := s.pin n
  match p.cand with
  | none => s
  | some (t16, ts, up) =>
    if s.tb.uptime < up + s.pinFilter n then s
    else
      let level := !s.pinLevel n
      let s := (s.setPinLevel n level).setPin n { p with cand := none }
      let pol := s.fld (Reg.EVT_PIN_CFG_POLARITY n)
      let f := s.pinFunction n
      let close := match p.lastEdge with
        | some t => Nat.blt up (t + 8)
        | none => false
      if f = 4 || close || !(Nat.beq pol 2 || Nat.beq pol (if level then 0 else 1)) then s
      else
        let s := s.setPin n { s.pin n with lastEdge := some up }
        let s := if s.flag (Reg.EVT_PIN_CTRL_ARM n) then
            (if f = 1 then (s.count Cnt.EVT_CAPTURES).evtStamped n 0x0801 t16 level.toNat ts
             else s.evtCountEdge n t16 ts)
          else s
        s.dmaLine (32 + n)

/-! ### Schedules (R335 to R338) -/

/-- OPER_BASE and OPER_CYCLE of a pin's aligned port, in 2^-16 ns. -/
def pinGate (s : State) (n : Nat) : Nat × Nat :=
  let p := s.fld (Reg.EVT_PIN_CFG_ALIGN_PORT n)
  ((s.rdFull (Reg.PORT_OPER_BASE_LO p)).ticks, s.fld (Reg.PORT_OPER_CYCLE_CYCLE_NS p) * 65536)

/-- The cycle a schedule follows: its first start on the time base, and its length, in 2^-16 ns (R335). -/
def pinCycle (s : State) (n : Nat) (c : EvtSched) : Int × Nat :=
  if c.align = 1 then let (b, l) := s.pinGate n; ((b : Int), l)
  else if c.align = 2 then (s.tbOfRc (s.ring.c0.getD 0) * 65536, s.ringCycleNs * 65536)
  else (c.base, c.period * 65536)

/-- The next target on the time base, in 2^-16 ns. -/
def pinTarget (s : State) (n : Nat) (c : EvtSched) : Int :=
  let (b, l) := s.pinCycle n c
  b + (c.j * l : Nat) + (if c.align = 0 then 0 else (c.start * 65536 : Nat))

/-- The smallest index whose target lies at or after `t`. -/
def pinIndexFrom (s : State) (n : Nat) (c : EvtSched) (t : Int) : Nat :=
  let (b, l) := s.pinCycle n c
  let d := t - b - (if c.align = 0 then 0 else (c.start * 65536 : Nat))
  let k := if d ≤ 0 then 0 else (d.toNat + l - 1) / max l 1
  if c.align = 0 then k else (k + c.every - 1) / max c.every 1 * c.every

/-- How far the index moves from one target to the next. -/
def pinStride (c : EvtSched) : Nat := if c.align = 0 then 1 else c.every

/-- The schedule has had its last target (R335). -/
def evtDone (s : State) (n : Nat) : State :=
  match (s.pin n).sched with
  | none => s
  | some c =>
    if c.count ≠ 0 ∧ c.count ≤ c.done then (s.evtEnd n).evtRecord n 0x0805 (n * 2 ^ 48) else s

/-- Set the schedule of pin `n`. -/
def setSched (s : State) (n : Nat) (c : EvtSched) : State := s.setPin n { s.pin n with sched := some c }

/-- A target is skipped: it joins the run (R338). -/
def evtSkip (c : EvtSched) (t : Int) (k : Nat) : EvtSched :=
  { c with
    done := c.done + k, j := c.j + k * pinStride c
    run := match c.run with
      | none => some (t, k)
      | some (first, m) => some (first, m + k) }

/-- Targets before `t` are skipped and posted at once (R337, R338, R341). -/
def evtPassed (s : State) (n : Nat) (t : Int) : State :=
  match (s.pin n).sched with
  | none => s
  | some c =>
    let first := s.pinTarget n c
    if first < t then
      let past := (s.pinIndexFrom n c t - c.j) / max (pinStride c) 1
      let past := if c.align = 0 ∧ c.period = 0 then 1 else past
      let k := if c.count = 0 then past else min past (c.count - c.done)
      ((s.setSched n (evtSkip c first k)).evtFlush n).evtDone n
    else s

/-- A pulse begins (R336). -/
def evtPulse (s : State) (n : Nat) (c : EvtSched) : State :=
  let high := Nat.beq (s.fld (Reg.EVT_PIN_CFG_POLARITY n)) 0
  let s := (s.setPin n { s.pin n with
    active := true, pulseEnd := s.tb.uptime + (c.width + 1) / 2 * 2 }).setPinLevel n high
  ((s.count Cnt.EVT_PULSES).evtStamped n 0x0803 s.nowTicks high.toNat s.timeStatus).dmaLine (32 + n)

/-- The next target of pin `n` falls (R334, R336, R338). -/
def evtTarget (s : State) (n : Nat) : State :=
  match (s.pin n).sched with
  | none => s
  | some c =>
    let t := s.pinTarget n c
    if (c.align = 2 ∧ s.ring.c0 = none) ∨ (s.nowTicks : Int) < t then s
    else
      let unsynced := s.flag (Reg.EVT_PIN_CTRL_REQ_SYNC n) && Nat.ble s.timeStatus 1
      if unsynced || (s.pin n).active then (s.setSched n (evtSkip c t 1)).evtDone n
      else
        let s := s.evtFlush n
        let s := s.setSched n { c with done := c.done + 1, j := c.j + pinStride c, run := none }
        let s := if s.pinFunction n = 3 then s.evtPulse n c
          else
            let p := s.pin n
            let due := s.tb.uptime + s.fld (Reg.EVT_PIN_CFG_FILTER_NS n) + 100
            s.setPin n { p with snaps := p.snaps ++ [(t.toNat, s.timeStatus, due)] }
        s.evtDone n

/-- The pulse of pin `n` has had its width: the pin rests inactive (R329, R336). -/
def evtPulseEnd (s : State) (n : Nat) : State :=
  let p := s.pin n
  if p.active && Nat.ble p.pulseEnd s.tb.uptime then
    (s.setPin n { p with active := false }).setPinLevel n
      (!(Nat.beq (s.fld (Reg.EVT_PIN_CFG_POLARITY n)) 0))
  else s

/-- A scheduled snapshot is formed: it counts the edges stamped at or before its target (R334). -/
def evtForm (s : State) (n : Nat) : State :=
  let p := s.pin n
  match p.snaps with
  | [] => s
  | (t, ts, due) :: rest =>
    if s.tb.uptime < due then s
    else
      let later := p.recent.filter fun x => Nat.blt t x
      let count := ((s.rd (Reg.EVT_PIN_COUNT n)).toNat + 2 ^ 32 - later.length) % 2 ^ 32
      let s := s.setPin n { p with snaps := rest, recent := if rest.isEmpty then [] else later }
      s.evtSnapshot n count t ts 0

/-- R339: why a commit is refused; 0 where it is not.  Where no spacing exists the tests against D are
passed over. -/
def commitError (s : State) (n : Nat) (c : EvtSched) : Nat :=
  let f := s.pinFunction n
  let cyc := if c.align = 1 then (s.pinGate n).2 / 65536
    else if c.align = 2 then (if s.ringState = 0 then 0 else s.ringCycleNs) else 0
  let d := if c.align = 0 then c.period else c.every * cyc
  if f ≠ 2 ∧ f ≠ 3 then 1
  else if f = 3 ∧ (c.width < 8 ∨ (d ≠ 0 ∧ d < c.width + 8)) then 2
  else if c.align = 0 ∧ (1000000000 < c.period ∨ (c.period = 0 ∧ 1 < c.count)) then 3
  else if f = 2 ∧ d ≠ 0 ∧ d < 1000 then 3
  else if c.align ≠ 0 ∧ cyc ≠ 0 ∧ cyc ≤ c.start then 4
  else if c.align ≠ 0 ∧ cyc = 0 then 5
  else if c.align ≠ 0 ∧ c.every = 0 then 6
  else 0

/-- A write of REPEAT commits the schedule (R335, R337).  DEDUCED: one aligned to a ring that has no cycle start
yet (LISTEN, CLAIM) waits for C(0): R339 refuses it in DISABLED only. -/
def evtCommit (s : State) (n v : Nat) : State :=
  let s := (s.commitWords (Reg.EVT_PIN_START n) 3).wrN (Reg.EVT_PIN_REPEAT n) v
  let align := s.fld (Reg.EVT_PIN_CFG_ALIGN n)
  let start := (s.rd (Reg.EVT_PIN_START n)).toNat
  let period := s.fld (Reg.EVT_PIN_PERIOD_PERIOD_NS n)
  let count := s.fld (Reg.EVT_PIN_REPEAT_COUNT n)
  let c : EvtSched :=
    { align := align, start := start, width := s.fld (Reg.EVT_PIN_WIDTH_WIDTH_NS n), period := period
      count := count, every := s.fld (Reg.EVT_PIN_REPEAT_EVERY n)
      base := ((s.nowNs : Int) + shortDiff start s.nowShort) * 65536 }
  let e := s.commitError n c
  if e ≠ 0 then s.evtRefuse n e
  else
    let c := if align = 0 ∧ period = 0 then { c with count := 1 } else c
    let s := s.evtEnd n
    if s.flag (Reg.EVT_PIN_CTRL_ARM n) = false then s
    else if align = 0 then (s.setSched n c).evtPassed n (((s.nowNs : Int) + 1) * 65536)
    else
      let from_ := (s.nowTicks : Int) + (s.fld Reg.TB_SETUP_MARGIN_MARGIN_NS * 65536 : Nat)
      s.setSched n { c with j := if align = 2 ∧ s.ring.c0 = none then 0 else s.pinIndexFrom n c from_ }

/-- A write of EVT_PINn_CTRL: ARM 0 ends the schedule, CLEAR sets the count to 0 (R334, R341, R342). -/
def evtCtrl (s : State) (n v : Nat) : State :=
  let s := (s.setFld (Reg.EVT_PIN_CTRL_ARM n) v).setFld (Reg.EVT_PIN_CTRL_POST n) (v / 2)
  let s := (s.setFld (Reg.EVT_PIN_CTRL_REQ_SYNC n) (v / 4)).setFld (Reg.EVT_PIN_CTRL_SNAP_EVERY n) (v / 256)
  if v.testBit 0 then s else s.evtEnd n

/-- A write of CLEAR. -/
def evtClear (s : State) (n : Nat) : State :=
  (s.wrN (Reg.EVT_PIN_COUNT n) 0).setPin n { s.pin n with recent := [] }

/-- The level-output pins follow EVT_LEVEL_OUT (R340). -/
def evtDrive (s : State) (v : Nat) : State :=
  (List.range 32).foldl (fun s n => if s.pinFunction n = 5 then s.setPinLevel n (v.testBit n) else s)
    (s.wrN Reg.EVT_LEVEL_OUT v)

/-- The oldest record of pin `n` leaves for its queue where that can accept it (R332). -/
def evtDeliver (s : State) (n : Nat) : State :=
  let p := s.pin n
  match p.fifo with
  | [] => s
  | (code, data) :: rest =>
    let eq := s.fld Reg.EVT_CTRL_EQ
    let x := s.q eq
    if s.evtQueueOk && (Nat.blt x.events.length 16 || s.ringOpen x) then
      (s.setPin n { p with fifo := rest }).eventTo eq code data
    else s

/-! ### Meetings (R341) -/

/-- Schedules meet a step of the time base. -/
def evtStep (s : State) (forward : Bool) : State :=
  (List.range 32).foldl (fun s n =>
    match (s.pin n).sched with
    | none => s
    | some c =>
      if c.align = 2 then s
      else if forward then s.evtPassed n s.nowTicks
      else if c.align = 1 then s.setSched n { c with j := min c.j (s.pinIndexFrom n c s.nowTicks) }
      else s) s

/-- Schedules aligned to port `p` follow its new list. -/
def evtGateChange (s : State) (p : Nat) : State :=
  (List.range 32).foldl (fun s n =>
    match (s.pin n).sched with
    | none => s
    | some c =>
      if c.align = 1 ∧ s.fld (Reg.EVT_PIN_CFG_ALIGN_PORT n) = p then
        (if (s.pinGate n).2 ≤ c.start * 65536 then (s.evtEnd n).evtRefuse n 4
         else s.setSched n { c with j := s.pinIndexFrom n c s.nowTicks })
      else s) s

end State

/-- An input pin shows a level at a tick (R330). -/
def execEvtInputChange (pin : Fin 32) (level : Bool) (s : State) : Out State := .next (s.evtInput pin.val level)

def execEvtEdgeAccept (pin : Fin 32) (s : State) : Out State := .next (s.evtAccept pin.val).settleAll

def execEvtTarget (pin : Fin 32) (s : State) : Out State := .next (s.evtTarget pin.val).settleAll

def execEvtPulseEnd (pin : Fin 32) (s : State) : Out State := .next (s.evtPulseEnd pin.val)

def execEvtSnapshotForm (pin : Fin 32) (s : State) : Out State := .next (s.evtForm pin.val)

def execEvtScheduleCommit (pin : Fin 32) (value : BitVec 32) (s : State) : Out State :=
  .next (s.evtCommit pin.val value.toNat)

def execClear (pin : Fin 32) (s : State) : Out State := .next (s.evtClear pin.val)

def execEvtArmWrite (pin : Fin 32) (arm : Bool) (s : State) : Out State :=
  .next (s.evtCtrl pin.val (putBits (s.rd (Reg.EVT_PIN_CTRL pin.val)).toNat 0 1 arm.toNat))

def execEvtLevelOutWrite (value : BitVec 32) (s : State) : Out State := .next (s.evtDrive value.toNat)

def execEvtRecordDeliver (pin : Fin 32) (s : State) : Out State := .next (s.evtDeliver pin.val)

end Sys2Proof.Machine
end

