-- ==== Sys2Proof/Machine/Cart.lean ====
section
/-! DEFINITION. The recording bay: slot controls and bay states, the recorder's NVMe commands, labels,
segments and ride-through (R475 to R493). -/

namespace Sys2Proof.Machine

/-! ### Labels (R483, R484) -/

namespace CartLabel

/-- The 64 bytes of a label copy. -/
def image (l : CartLabel) : List Byte :=
  let b := leBytes 4 0x464C424C ++ leBytes 2 1 ++ leBytes 1 l.segLog2 ++ leBytes 1 l.flags ++
    leBytes 8 l.labelSeq ++ leBytes 4 l.slotCount ++ leBytes 4 l.nextSlot ++ leBytes 8 l.nextSeq ++
    leBytes 8 l.writer ++ leBytes 8 l.created ++ leBytes 12 0
  b ++ leBytes 4 (crc32 b)

/-- The label a copy holds, where it is valid by MAGIC, FORMAT and CRC. -/
def ofBytes (b : List Byte) : Option CartLabel :=
  let f (o n : Nat) : Nat := leNat ((b.drop o).take n)
  if 64 ≤ b.length ∧ f 0 4 = 0x464C424C ∧ f 4 2 = 1 ∧ f 0x3C 4 = crc32 (b.take 60) then
    some { segLog2 := f 6 1, flags := f 7 1, labelSeq := f 8 8, slotCount := f 0x10 4, nextSlot := f 0x14 4
           nextSeq := f 0x18 8, writer := f 0x20 8, created := f 0x28 8 }
  else none

end CartLabel

/-- A record (R485). -/
def recordBytes (c : RecCopy) (uptime : Nat) : List Byte :=
  leBytes 2 c.stream ++ leBytes 2 c.bytes.length ++ leBytes 1 c.source ++
    leBytes 1 (c.poisoned.toNat + c.ts % 4 * 2) ++ leBytes 2 0 ++ leBytes 16 c.stamp.image ++
    leBytes 8 uptime ++ c.bytes

namespace State

/-! ### Slot (R477 to R479) -/

def bay (s : State) : Nat := s.fld Reg.SLOT_STATE_STATE

def slotAuto (s : State) : Bool := s.flag Reg.SLOT_CTRL_AUTO

/-- The cartridge link is no longer up. -/
def cartLinkOff (s : State) : State :=
  let s := if s.flag Reg.SLOT_STATUS_DLLA then s.setFlag Reg.SLOT_STATUS_DLLSC true else s
  ((s.setFlag Reg.SLOT_STATUS_DLLA false).setFld Reg.SLOT_STATUS_SPEED 0).setFld Reg.SLOT_STATUS_WIDTH 0

/-- Slot power goes off: the cartridge's link and controller are gone. -/
def cartPowerOff (s : State) : State :=
  { s with cart := { s.cart with
      power := false, perst := true, cmds := [], ready := false, label := none, copies := []
      writing := none, shutAt := none, resets := 0 } }.cartLinkOff

/-- Power and indicators of a bay state (R479), as PCIe codes indicators. -/
def bayPower (v : Nat) : Bool := !(Nat.beq v 0 || Nat.beq v 6 || Nat.beq v 9 || Nat.beq v 10)

def bayInd (v : Nat) : Nat :=
  if v = 1 ∨ v = 2 ∨ v = 4 ∨ v = 5 then 2 else if v = 3 ∨ v = 7 ∨ v = 8 then 1 else 3

def bayAttn (v : Nat) : Nat := if v = 8 then 2 else if v = 9 ∨ v = 10 then 1 else 3

/-! ### Segments (R485, R488, R489) -/

/-- SEGMENT_BYTES. -/
def segBytes (s : State) : Nat := 2 ^ s.fld Reg.SLOT_REC_CFG_SEG_LOG2

/-- Segments the working pool and RIDE_THROUGH hold (R488). -/
def poolSize (s : State) : Nat := (((s.partOf 5).map (·.size)).getD 0 - 2 ^ 20) / s.segBytes

def rideSize (s : State) : Nat := ((s.partOf 4).map (·.size)).getD 0 / s.segBytes

/-- Closed segments in the working pool and in RIDE_THROUGH. -/
def poolUsed (s : State) : Nat := (s.cart.closed.filter fun g => !g.ride).length

def rideUsed (s : State) : Nat := (s.cart.closed.filter fun g => g.ride).length

/-- A full segment goes to the cartridge from the working pool (R488). -/
def direct (s : State) : Bool := Nat.beq s.bay 3 || (Nat.beq s.bay 4 && Nat.beq s.cart.stopFrom 3)

/-- Closed segments not yet flushed, as SLOT_BACKLOG shows them. -/
def showBacklog (s : State) : State := s.setFld Reg.SLOT_BACKLOG_SEGMENTS (min 65535 s.cart.closed.length)

/-- Segments go to RIDE_THROUGH while it has room (R488): all of them where none may be written directly,
the oldest where the pool has no free segment for the next open.  `k` bounds their number. -/
def toRide (s : State) : Nat → State
  | 0 => s
  | k + 1 =>
    let full := Nat.ble s.poolSize s.poolUsed
    if (!s.direct || full) && Nat.blt s.rideUsed s.rideSize then
      match s.cart.closed.find? fun g => !g.ride &&
          !(match s.cart.writing with
            | some (q, _) => Nat.beq q g.seq
            | none => false) with
      | none => s
      | some g =>
        let mark (x : RecSegment) : RecSegment := if x.seq = g.seq then { x with ride := true } else x
        { s with cart := { s.cart with closed := s.cart.closed.map mark } }.toRide k
    else s

/-- The power and indicators of the bay's new state (R479). -/
def bayEnter (s : State) (v : Nat) : State :=
  let s := (s.setFld Reg.SLOT_STATE_STATE v).post 0x0601 v
  let s := if bayPower v then s else s.cartPowerOff
  let on := bayPower v
  let at_ := if on && !s.cart.power then s.tb.uptime else s.cart.poweredAt
  { s with cart := { s.cart with
      power := on, poweredAt := at_, pwrInd := bayInd v, attnInd := bayAttn v } }

/-- The bay enters a state (R479); closed segments go where it has them go (R488, R490). -/
def setBay (s : State) (v : Nat) : State := (s.bayEnter v).toRide s.cart.closed.length

/-! ### NVMe commands (R480, R481) -/

/-- Issue a command. -/
def nvme (s : State) (op : NvmeOp) (again : Bool) : State :=
  let c : NvmeCmd := { id := s.cart.nextCmd, op := op, again := again, since := s.tb.uptime }
  { s with cart := { s.cart with cmds := s.cart.cmds ++ [c], nextCmd := s.cart.nextCmd + 1 } }

/-- Issue `k` Write commands of segment `seq`. -/
def nvmeWrites (s : State) (seq : Nat) : Nat → State
  | 0 => s
  | k + 1 => (s.nvme (.writeSegment seq) false).nvmeWrites seq k

/-- The bytes of a segment as written: header, records, padding to the LBA size (R485). -/
def segmentImage (s : State) (g : RecSegment) : List Byte :=
  let pad := (8 - g.body.length % 8) % 8
  let body := g.body ++ List.replicate pad 0
  let used := 64 + body.length
  let serial := (s.imp.image.map (·.serial.toNat)).getD 0
  let head := leBytes 4 0x46534547 ++ leBytes 2 1 ++ leBytes 2 g.flags ++ leBytes 8 g.seq ++
    leBytes 8 Config.serial.toNat ++ leBytes 4 used ++ leBytes 4 g.records ++ leBytes 8 g.firstUp ++
    leBytes 8 g.lastUp ++ leBytes 8 serial ++ leBytes 4 (crc32 body) ++ leBytes 4 0
  head ++ body ++ List.replicate ((s.cart.lba - used % s.cart.lba) % s.cart.lba) 0

/-- The recorder may write to the cartridge (R478, R488). -/
def cartMayWrite (s : State) : Bool :=
  let on := if s.slotAuto then s.direct else s.cart.power && s.flag Reg.SLOT_STATUS_DLLA
  on && s.cart.ready && (match s.cart.label with
    | some l => Nat.blt l.nextSlot l.slotCount
    | none => false)

/-- Start on the earliest closed segment, or on the shutdown, where nothing is outstanding (R481, R486). -/
def cartKick (s : State) : State :=
  if s.cart.cmds ≠ [] ∨ s.cart.writing.isSome then s
  else if s.bay = 5 ∧ s.cart.shutAt = none then
    { s.nvme .shutdown false with cart := { (s.nvme .shutdown false).cart with shutAt := some s.tb.uptime } }
  else if s.cartMayWrite then
    match s.cart.closed, s.cart.label with
    | g :: _, some l =>
      let b := s.segmentImage g
      let n := (b.length + 131071) / 131072
      let s := s.emit (.cartWrite (2 ^ 20 + l.nextSlot * s.segBytes) b)
      { s with cart := { s.cart with writing := some (g.seq, l.nextSlot, n - min n 32) } }.nvmeWrites g.seq
        (min n 32)
    | _, _ => s
  else s

/-- Write one copy of the label (R483). -/
def writeLabelCopy (s : State) (copy : Nat) (l : CartLabel) : State :=
  s.emit (.cartWrite (524288 * copy) (l.image ++ List.replicate 4032 0))

/-- The recorder brings the controller up (R480). -/
def cartBringUp (s : State) : State :=
  { s with cart := { s.cart with
      cmds := [], ready := false, copies := [], writing := none } }.nvme .enable false

/-- R482, R483: SLOT_COUNT of a capacity. -/
def slotCount (s : State) (capacity : Nat) : Nat := (capacity - 2 ^ 20) / s.segBytes

/-- A fresh label (R484). -/
def freshLabel (s : State) : CartLabel :=
  { segLog2 := s.fld Reg.SLOT_REC_CFG_SEG_LOG2, slotCount := s.slotCount (s.rd64 Reg.SLOT_CAP_LO)
    nextSeq := s.rd64 Reg.SLOT_NEXT_SEQ_LO, writer := Config.serial.toNat, created := Config.serial.toNat }

/-- Write a fresh label to both copies (R484). -/
def labelAfresh (s : State) : State :=
  let l := s.freshLabel
  let s := { s with cart := { s.cart with label := some l, copy := 0, round := false } }
  (s.writeLabelCopy 0 l).nvme (.freshLabel 0) false

/-- The bay enters FAULT (R479). -/
def bayFault (s : State) : State :=
  if s.slotAuto then s.setBay 10 else s.cartPowerOff.toRide s.cart.closed.length

/-- R482 fails. -/
def bayReject (s : State) : State :=
  if s.slotAuto then (s.setBay 9).post 0x0607 9 else s.cartPowerOff.post 0x0607 s.bay

/-- The cartridge is labelled for this device: recording goes on (R484, R488). -/
def cartGo (s : State) : State :=
  let s := { s with cart := { s.cart with ready := true } }
  (if s.slotAuto && (Nat.beq s.bay 2 || Nat.beq s.bay 8) then s.setBay 3 else s).cartKick

/-- The cartridge is classed by its label (R484). -/
def cartClass (s : State) : State :=
  let pick := s.cart.copies.foldl (fun a b => match a, b with
    | some x, some y => if x.labelSeq < y.labelSeq then some y else some x
    | none, y => y
    | x, none => x) none
  match pick with
  | some l =>
    if l.created = Config.serial.toNat ∧ l.segLog2 = s.fld Reg.SLOT_REC_CFG_SEG_LOG2 then
      let other := if s.cart.copies.headD none = some l then 1 else 0
      { s with cart := { s.cart with label := some l, copy := other } }.cartGo
    else if s.slotAuto && Nat.beq s.bay 2 then s.setBay 8 else s
  | none =>
    if s.flag Reg.SLOT_REC_CTRL_AUTO_LABEL then s.labelAfresh
    else if s.slotAuto && Nat.beq s.bay 2 then s.setBay 8 else s

/-- A segment is not on the cartridge as it should be: it is written again to the next slot; after two failed
rewrites the bay enters FAULT (R486, R487). -/
def segmentFails (s : State) (seq : Nat) : State :=
  let s := (s.count Cnt.SLOT_VERIFY_FAIL).postLimited 0x0605 s.bay
  let slot : Nat := (s.cart.writing.map (·.2.1)).getD 0
  let tries : Nat := ((s.cart.closed.find? fun g => Nat.beq g.seq seq).map fun g => g.rewrites).getD 0
  let wrap := s.flag Reg.SLOT_REC_CTRL_WRAP
  let next (l : CartLabel) : CartLabel :=
    { l with nextSlot := if slot + 1 = l.slotCount ∧ wrap then 0 else slot + 1 }
  let again (g : RecSegment) : RecSegment := if g.seq = seq then { g with rewrites := g.rewrites + 1 } else g
  let s := { s with cart := { s.cart with
      cmds := [], writing := none, label := s.cart.label.map next
      closed := s.cart.closed.map again } }
  if 2 ≤ tries then s.bayFault else s.cartKick

/-- The label after segment `seq` is in its slot (R485). -/
def nextLabel (s : State) (seq slot : Nat) (l : CartLabel) : CartLabel :=
  let wrap := slot + 1 = l.slotCount ∧ s.flag Reg.SLOT_REC_CTRL_WRAP
  { l with
    labelSeq := l.labelSeq + 1, nextSlot := if wrap then 0 else slot + 1, nextSeq := seq + 1
    writer := Config.serial.toNat, flags := if slot = 0 ∧ s.cart.round then 1 else l.flags }

/-- The segment being written goes on to its label write. -/
def segmentLabel (s : State) (seq slot : Nat) : State :=
  match s.cart.label with
  | none => s
  | some l =>
    let l := s.nextLabel seq slot l
    let s := s.writeLabelCopy s.cart.copy l
    { s with cart := { s.cart with
        label := some l, copy := 1 - s.cart.copy, round := s.cart.round || Nat.beq l.nextSlot 0
        written := s.cart.written + 1 } }.nvme (.writeLabel seq) false

/-- A segment's Flush has completed: it is written, and its DRAM space free (R485, R488). -/
def segmentDone (s : State) (seq : Nat) : State :=
  let s := { s with cart := { s.cart with
      writing := none, closed := s.cart.closed.filter fun g => !(Nat.beq g.seq seq), ridePosted := false } }
  let s := (s.showBacklog.count Cnt.SLOT_SEGMENTS_WRITTEN).postLimited 0x0608
    (s.bay + seq % 2 ^ 32 * 2 ^ 32)
  let s := s.dmaLine 27
  let full := match s.cart.label with
    | some l => Nat.ble l.slotCount l.nextSlot && !s.flag Reg.SLOT_REC_CTRL_WRAP
    | none => false
  (if full && s.slotAuto && Nat.beq s.bay 3 then s.setBay 7 else s).cartKick

/-- A command of the recorder has failed for the second time, or may not be retried (R480, R486, R487). -/
def nvmeFailed (s : State) (op : NvmeOp) : State :=
  match op with
  | .enable => s.bayFault
  | .identifyController => s.bayReject
  | .identifyNamespace => s.bayReject
  | .createCq => s.bayReject
  | .createSq => s.bayReject
  | .readLabel 0 =>
    { s with cart := { s.cart with copies := [none] } }.nvme (.readLabel 1) false
  | .readLabel _ => { s with cart := { s.cart with copies := s.cart.copies ++ [none] } }.cartClass
  | .freshLabel _ => s.bayFault
  | .freshFlush => s.bayFault
  | .writeSegment seq => s.segmentFails seq
  | .readSegment seq => s.segmentFails seq
  | .writeLabel seq => s.segmentFails seq
  | .flush seq => s.segmentFails seq
  | .shutdown => s

/-- The commands that are issued once more when they fail. -/
def nvmeRetried : NvmeOp → Bool
  | .enable => false
  | .readLabel _ => false
  | .readSegment _ => false
  | .shutdown => false
  | _ => true

/-- A command of the recorder ends well (R480 to R486). -/
def nvmeDone (s : State) (op : NvmeOp) (d : NvmeData) : State :=
  match op with
  | .enable => s.nvme .identifyController false
  | .identifyController =>
    let m := match d with
      | .controller m => m
      | _ => s.freeVal.toNat
    { s with cart := { s.cart with mdts := m } }.nvme .identifyNamespace false
  | .identifyNamespace =>
    match d with
    | .namespaceInfo active lba metadata capacity =>
      let ok := active && (Nat.beq lba 512 || Nat.beq lba 4096) && Nat.beq metadata 0 &&
        (Nat.beq s.cart.mdts 0 || Nat.ble 131072 s.cart.mdts) && Nat.ble 16 (s.slotCount capacity)
      let s := (s.wr64 Reg.SLOT_CAP_LO capacity)
      if ok then { s with cart := { s.cart with lba := lba } }.nvme .createCq false else s.bayReject
    | _ => s.bayReject
  | .createCq => s.nvme .createSq false
  | .createSq => s.nvme (.readLabel 0) false
  | .readLabel 0 =>
    let l := match d with
      | .bytes b => CartLabel.ofBytes b
      | _ => none
    { s with cart := { s.cart with copies := [l] } }.nvme (.readLabel 1) false
  | .readLabel _ =>
    let l := match d with
      | .bytes b => CartLabel.ofBytes b
      | _ => none
    { s with cart := { s.cart with copies := s.cart.copies ++ [l] } }.cartClass
  | .freshLabel 0 =>
    match s.cart.label with
    | some l => (s.writeLabelCopy 1 l).nvme (.freshLabel 1) false
    | none => s
  | .freshLabel _ => s.nvme .freshFlush false
  | .freshFlush => s.cartGo
  | .writeSegment seq =>
    match s.cart.writing with
    | none => s
    | some (_, slot, left) =>
      if 0 < left then
        { s with cart := { s.cart with writing := some (seq, slot, left - 1) } }.nvme (.writeSegment seq) false
      else if s.cart.cmds ≠ [] then s
      else
        let v := s.fld Reg.SLOT_REC_CTRL_VERIFY
        if v = 1 ∨ (v = 2 ∧ s.cart.written % 64 = 0) then s.nvme (.readSegment seq) false
        else s.segmentLabel seq slot
  | .readSegment seq =>
    match d, s.cart.writing, s.cart.closed.find? (fun g => Nat.beq g.seq seq) with
    | .bytes b, some (_, slot, _), some g =>
      let image := s.segmentImage g
      let used := leNat ((image.drop 0x18).take 4)
      if crc32 ((b.take used).drop 64) = leNat ((image.drop 0x38).take 4) then s.segmentLabel seq slot
      else s.segmentFails seq
    | _, _, _ => s.segmentFails seq
  | .writeLabel seq => s.nvme (.flush seq) false
  | .flush seq => s.segmentDone seq
  | .shutdown => s

/-- Command `id` has a completion (R480). -/
def nvmeCompletion (s : State) (id : Nat) (ok : Bool) (d : NvmeData) : State :=
  match s.cart.cmds.find? fun c => Nat.beq c.id id with
  | none => s
  | some c =>
    let s := { s with cart := { s.cart with cmds := s.cart.cmds.erase c } }
    if ok then s.nvmeDone c.op d
    else if nvmeRetried c.op && !c.again then (s.count Cnt.SLOT_CMD_RETRY).nvme c.op true
    else s.nvmeFailed c.op

/-- Command `id` has had no completion for 5 s: the controller is disabled and enabled again once; a second
time the bay enters FAULT (R480, R487). -/
def nvmeTimeout (s : State) (id : Nat) : State :=
  match s.cart.cmds.find? fun c => Nat.beq c.id id with
  | none => s
  | some c =>
    if s.tb.uptime < c.since + 5000000000 ∨ c.op = .shutdown then s
    else if s.cart.resets = 0 then
      { s with cart := { s.cart with resets := 1 } }.cartBringUp
    else s.bayFault

/-! ### Removal and faults (R490, R491) -/

/-- R490: outstanding Writes and Flushes end CARTRIDGE_GONE; what was not flushed goes to ride-through with the
change of state that follows. -/
def cartGone (s : State) : State :=
  let lost := (s.cart.cmds.filter fun c => match c.op with
    | .writeSegment _ => true
    | .writeLabel _ => true
    | .freshLabel _ => true
    | .flush _ => true
    | .freshFlush => true
    | _ => false).length
  let s := (s.countN Cnt.SLOT_CART_GONE_CMDS lost).post 0x0602 (s.bay + lost % 65536 * 2 ^ 32)
  { s with cart := { s.cart with cmds := [], writing := none } }

/-- A surprise removal: power goes off and the bay is EMPTY. -/
def surprise (s : State) : State :=
  let s := s.count Cnt.SLOT_SURPRISE_REMOVALS
  if s.slotAuto then s.setBay 0 else s.cartPowerOff.toRide s.cart.closed.length

/-- The presence input changes (R479, R490). -/
def presence (s : State) (present : Bool) : State :=
  if s.pwr.present = present then s
  else
    let s := { s with pwr := { s.pwr with present := present } }
    if s.operating = false then s
    else
      let s := s.setFlag Reg.SLOT_STATUS_PDC true
      let s := { s with cart := { s.cart with insertSince := s.tb.uptime } }
      if present then s
      else if s.slotAuto then
        (if s.bay = 0 then s
         else if s.bay = 6 ∨ s.bay = 9 ∨ s.bay = 10 then s.setBay 0
         else s.cartGone.surprise)
      else if s.cart.power then s.cartGone.surprise else s

/-- The latch sensor changes (R491). -/
def latchChange (s : State) (isOpen : Bool) : State :=
  if s.pwr.latchOpen = isOpen then s
  else
    let s := { s with pwr := { s.pwr with latchOpen := isOpen } }
    if s.operating = false then s
    else
      let s := s.setFlag Reg.SLOT_STATUS_MRLSC true
      let s := { s with cart := { s.cart with insertSince := s.tb.uptime } }
      if isOpen && s.cart.power then s.cartGone.surprise else s

/-- The attention button (R479, R491). -/
def button (s : State) : State :=
  if s.operating = false then s
  else
    let s := s.setFlag Reg.SLOT_STATUS_ABP true
    let b := s.bay
    if s.slotAuto = false then s
    else if b = 3 ∨ b = 7 ∨ b = 8 then
      let s := s.setBay 4
      { s with cart := { s.cart with stopAt := s.tb.uptime, stopFrom := b } }
    else if b = 4 ∧ s.tb.uptime ≤ s.cart.stopAt + 5000000000 then (s.setBay s.cart.stopFrom).cartKick
    else if b = 6 ∧ s.pwr.present then s.setBay 1
    else s.count Cnt.SLOT_BUTTON_IGNORED

/-- CART_PWRFLT_N asserts (R491). -/
def powerFault (s : State) : State :=
  if s.operating = false then s
  else
    let s := s.setFlag Reg.SLOT_STATUS_PFD true
    if s.cart.power then s.cartGone.bayFault.post 0x0603 10 else s

/-! ### Recording (R485, R488, R489) -/

/-- The open segment closes (R485, R488). -/
def closeSegment (s : State) (byTime : Bool) : State :=
  match s.cart.opened with
  | none => s
  | some g =>
    let g := { g with flags := g.flags + byTime.toNat }
    let s := { s with cart := { s.cart with opened := none, closed := s.cart.closed ++ [g] } }
    let s := s.showBacklog.dmaLine 26
    (s.toRide s.cart.closed.length).cartKick

/-- A record joins the open segment.  DESIGN CHOICE: FIRST_UPTIME and LAST_UPTIME are those of its first and last
records, which R485 names without a rule. -/
def appendRecord (s : State) (c : RecCopy) : State :=
  match s.cart.opened with
  | none => s
  | some g =>
    let g := { g with
      records := g.records + 1, body := g.body ++ recordBytes c c.rxUp, lastUp := c.rxUp
      firstUp := if g.records = 0 then c.rxUp else g.firstUp
      since := if g.records = 0 then s.tb.uptime else g.since }
    ({ s with cart := { s.cart with opened := some g } }.count Cnt.SLOT_RECORDS).dropCopy c.frame

/-- Open a segment for a record, or drop the copy where neither partition can hold another (R489). -/
def openSegment (s : State) (c : RecCopy) : State :=
  let s := s.toRide s.cart.closed.length
  if s.poolUsed < s.poolSize then
    let seq := s.rd64 Reg.SLOT_NEXT_SEQ_LO
    let g : RecSegment := { seq := seq, flags := s.cart.dropped.toNat * 2 }
    let s := s.wr64 Reg.SLOT_NEXT_SEQ_LO (seq + 1)
    { s with cart := { s.cart with opened := some g, dropped := false } }.appendRecord c
  else
    let s := (s.count Cnt.SLOT_REC_DROPPED).dropCopy c.frame
    let s := if s.cart.ridePosted then s else s.post 0x0604 s.bay
    { s with cart := { s.cart with dropped := true, ridePosted := true } }

/-- The oldest recording copy reaches the recorder (R485). -/
def recordingCopy (s : State) : State :=
  match s.recCopies with
  | [] => s
  | c :: rest =>
    let s := { s with recCopies := rest }
    match s.cart.opened with
    | none => s.openSegment c
    | some g =>
      let used := 64 + g.body.length + 32 + c.bytes.length
      if s.segBytes < (used + 7) / 8 * 8 then (s.closeSegment false).openSegment c
      else s.appendRecord c

end State

/-! ### Meanings -/

def execCartPresenceChange (present : Bool) (s : State) : Out State := .next (s.presence present)

def execCartLatchChange (isOpen : Bool) (s : State) : Out State := .next (s.latchChange isOpen)

def execCartButtonPress (s : State) : Out State := .next s.button

def execPowerFault (s : State) : Out State := .next s.powerFault

/-- Presence and latch have held for 1 s (R479). -/
def execCartInsertSettled (s : State) : Out State :=
  .next (if s.operating && s.slotAuto && Nat.beq s.bay 0 && s.pwr.present && !s.pwr.latchOpen &&
      Nat.ble (s.cart.insertSince + 1000000000) s.tb.uptime then s.setBay 1 else s)

/-- 100 ms after power-on CART_PERST_N is deasserted (R479). -/
def execCartPerstRelease (s : State) : Out State :=
  .next (if s.cart.power && s.cart.perst && Nat.ble (s.cart.poweredAt + 100000000) s.tb.uptime then
    { s with cart := { s.cart with perst := false, perstAt := s.tb.uptime } } else s)

/-- The cartridge link comes up (R475, R479). -/
def execCartLinkUp (speed : BitVec 3) (width : BitVec 4) (s : State) : Out State :=
  .next (if s.cart.power && !s.cart.perst && !s.flag Reg.SLOT_STATUS_DLLA then
    let s := (s.setFlag Reg.SLOT_STATUS_DLLA true).setFlag Reg.SLOT_STATUS_DLLSC true
    let s := (s.setFld Reg.SLOT_STATUS_SPEED speed.toNat).setFld Reg.SLOT_STATUS_WIDTH width.toNat
    (if s.slotAuto && Nat.beq s.bay 1 then s.setBay 2 else s).cartBringUp
  else s)

/-- The link is not up 1 s after CART_PERST_N was deasserted (R479). -/
def execCartLinkTimeout (s : State) : Out State :=
  .next (if s.slotAuto && Nat.beq s.bay 1 && !s.cart.perst &&
      Nat.ble (s.cart.perstAt + 1000000000) s.tb.uptime then s.setBay 10 else s)

/-- The link fails after it has come up (R479). -/
def execCartLinkDown (s : State) : Out State :=
  .next (if s.flag Reg.SLOT_STATUS_DLLA then
    (if s.slotAuto then s.setBay 10
     else
      { s.cartLinkOff with cart := { s.cart with cmds := [], ready := false, writing := none } })
  else s)

/-- More than 5 s pass in STOPPING (R479). -/
def execCartStopTimeout (s : State) : Out State :=
  .next (if s.bay = 4 ∧ s.cart.stopAt + 5000000000 < s.tb.uptime then (s.setBay 5).cartKick else s)

/-- A completion of command `id` is found by its phase tag (R480). -/
def execNvmeCompletion (id : Nat) (ok : Bool) (d : NvmeData) (s : State) : Out State :=
  .next (s.nvmeCompletion id ok d)

def execNvmeTimeout (id : Nat) (s : State) : Out State := .next (s.nvmeTimeout id)

/-- CSTS.SHST reads shutdown complete (R480). -/
def execCartShutdownDone (s : State) : Out State :=
  .next (if s.bay = 5 ∧ s.cart.shutAt.isSome then s.setBay 6 else s)

/-- Shutdown has not completed within 10 s (R480). -/
def execCartShutdownTimeout (s : State) : Out State :=
  .next (match s.cart.shutAt with
    | some t => if s.bay = 5 ∧ t + 10000000000 ≤ s.tb.uptime then s.setBay 6 else s
    | none => s)

/-- A write of SLOT_REC_CTRL.LABEL (R484). -/
def execLabel (s : State) : Out State :=
  .next (if s.bay = 8 ∧ s.cart.cmds = [] then s.labelAfresh else s)

def execRecordingCopy (s : State) : Out State := .next s.recordingCopy.settleAll

/-- SEG_MAX_MS has passed since the first record of the open segment (R485). -/
def execSegmentCloseTimeout (s : State) : Out State :=
  .next (match s.cart.opened with
    | some g =>
      if 0 < g.records ∧ g.since + s.fld Reg.SLOT_REC_CFG_SEG_MAX_MS * 1000000 ≤ s.tb.uptime then
        (s.closeSegment true).settleAll
      else s
    | none => s)

/-- A memory request of the cartridge for `len` bytes from `addr` (R476). -/
def execBadInbound (addr len : Nat) (s : State) : Out State :=
  .next (
    let inside (kind : Nat) : Bool := match s.partOf kind with
      | some p => Nat.ble p.base addr && Nat.ble (addr + len) (p.base + p.size)
      | none => false
    if inside 5 || inside 4 then s else (s.count Cnt.SLOT_BAD_INBOUND).postLimited 0x0606 s.bay)

end Sys2Proof.Machine
end

