-- ==== Sys2Proof/Machine/Operands.lean ====
section
/-! DEFINITION. The microword: its fields (R348), the registers, immediates and conditions it reads (R349
to R353), and when a word is invalid (R351 to R356). -/

namespace Sys2Proof.Machine

/-! ### Fields (R348) -/

namespace Mw

def dwell (w : Nat) : Nat := bits w 253 3
def commit (w : Nat) : Bool := w.testBit 252
def safe (w : Nat) : Bool := w.testBit 251
def prog (w : Nat) : Bool := w.testBit 250
def next (w : Nat) : Nat := bits w 247 3
def cond (w : Nat) : Nat := bits w 242 5
def condInv (w : Nat) : Bool := w.testBit 241
def target (w : Nat) : Nat := bits w 226 15

/-- The fields of ALU `k`: operation, destination, operands A and B, immediate flag. -/
def aluOp (w k : Nat) : Nat := if k = 0 then bits w 218 6 else bits w 186 6
def aluDst (w k : Nat) : Nat := if k = 0 then bits w 213 5 else bits w 181 5
def aluSrcA (w k : Nat) : Nat := if k = 0 then bits w 208 5 else bits w 176 5
def aluSrcB (w k : Nat) : Nat := if k = 0 then bits w 203 5 else bits w 171 5
def aluImm (w k : Nat) : Bool := if k = 0 then w.testBit 202 else w.testBit 170
def setf (w : Nat) : Bool := w.testBit 201

def fop (w : Nat) : Nat := bits w 157 3
def freg (w : Nat) : Nat := bits w 152 5
def fbyte (w : Nat) : Nat := bits w 144 8
def fbit (w : Nat) : Nat := bits w 138 6
def fwidth (w : Nat) : Nat := bits w 132 6

def mop (w : Nat) : Nat := bits w 124 4
def space (w : Nat) : Nat := bits w 121 3
def size (w : Nat) : Nat := 2 ^ bits w 119 2
def base (w : Nat) : Nat := bits w 114 5
def data (w : Nat) : Nat := bits w 109 5
def disp (w : Nat) : Int := signed 13 (bits w 96 13)

def hop (w : Nat) : Nat := bits w 91 5
def harg (w : Nat) : Nat := bits w 86 5
def hcnt (w : Nat) : Nat := bits w 83 3
def hres (w : Nat) : Nat := bits w 78 5

def imm (w : Nat) : Nat := bits w 0 64

/-- The units of a word, as bits of `Engine.ran`: ALU0, ALU1, field, memory, hub, commit, progress. -/
def units (w : Nat) : Nat :=
  (decide (aluOp w 0 ≠ 0)).toNat + (decide (aluOp w 1 ≠ 0)).toNat * 2 + (decide (fop w ≠ 0)).toNat * 4 +
    (decide (mop w ≠ 0)).toNat * 8 + (decide (hop w ≠ 0)).toNat * 16 +
    (commit w && !prog w).toNat * 32 + (commit w && prog w).toNat * 64

/-- R351 to R356: a reserved code makes the word invalid; so does LDI64 in ALU1 (R353). -/
def valid (w : Nat) : Bool :=
  let n := next w
  let c := cond w
  Nat.ble n 5 &&
    (!(Nat.beq n 1 || Nat.beq n 2) || Nat.ble c 8) && (!(Nat.beq n 5) || Nat.ble c 8 || Nat.ble 16 c) &&
    Nat.ble (aluOp w 0) 0x17 && Nat.ble (aluOp w 1) 0x17 && !(Nat.beq (aluOp w 1) 0x0B) &&
    Nat.ble (fop w) 2 && Nat.ble (mop w) 5 && (Nat.beq (mop w) 0 || Nat.ble (space w) 3) &&
    Nat.ble (hop w) 0x0F

end Mw

/-! ### Registers and operands (R349, R350, R353) -/

namespace Engine

/-- Register `k` of the bank in use; X0 reads 0. -/
def x (g : Engine) (k : Nat) : BitVec 64 :=
  if k = 0 then 0 else Table.get (fun _ => 0) (if g.handler then g.bank1 else g.bank0) k

/-- Write register `k` of the bank in use; a write to X0 is discarded. -/
def setX (g : Engine) (k : Nat) (v : BitVec 64) : Engine :=
  if k = 0 then g
  else if g.handler then { g with bank1 := Table.set (fun _ => 0) g.bank1 k v }
  else { g with bank0 := Table.set (fun _ => 0) g.bank0 k v }

/-- Operand A of ALU `k`. -/
def opA (g : Engine) (w k : Nat) : BitVec 64 := g.x (Mw.aluSrcA w k)

/-- Operand B of ALU `k`: a register, or its half of IMM sign-extended. -/
def opB (g : Engine) (w k : Nat) : BitVec 64 :=
  if Mw.aluImm w k then BitVec.ofInt 64 (signed 32 (bits (Mw.imm w) (32 * k) 32)) else g.x (Mw.aluSrcB w k)

/-- The shadow and the staged hub operations of the routine or of the handler (R363, R367). -/
def memShadow (g : Engine) : List ShadowOp := if g.handler then g.hShadow else g.shadow

def hubShadow (g : Engine) : List HubOp := if g.handler then g.hHub else g.hub

def setShadow (g : Engine) (m : List ShadowOp) (h : List HubOp) : Engine :=
  if g.handler then { g with hShadow := m, hHub := h } else { g with shadow := m, hub := h }

/-- The COND on which the routine or the handler is parked. -/
def waiting (g : Engine) : Option Nat := if g.handler then g.hParked else g.parked

def setWaiting (g : Engine) (v : Option Nat) : Engine :=
  if g.handler then { g with hParked := v } else { g with parked := v }

/-- R352: whether the condition of a word holds, from the state at its start. -/
def condHolds (g : Engine) (w : Nat) : Bool :=
  let c := Mw.cond w
  let v := if c = 0 then true else if c = 1 then g.z else if c = 2 then g.n else if c = 3 then g.c
    else if c = 4 then g.v else if c = 5 then g.replyOk
    else if c = 6 then (match g.item with
      | some it => Nat.blt 128 it.length
      | none => false)
    else if c = 7 then g.ringStopped
    else if c = 8 then decide (g.x 29 ≠ 0)
    else g.gate
  Bool.xor v (Mw.condInv w)

/-- Write the results of a word in the order of R349: LOAD last. -/
def applyResults (g : Engine) : Engine :=
  (List.range 5).foldl (fun g p =>
    (g.results.filter fun r => Nat.beq r.1 p).foldl (fun g r => g.setX r.2.1 r.2.2) g) g

end Engine

/-! ### Addresses (R355, R372) -/

/-- The bytes of a memory space. -/
def spaceBytes (space : Nat) : Nat :=
  if space = 0 then 160 else if space = 1 then 256 else if space = 2 then 2 ^ 22 else 1024

/-- A word fetched here runs in customer state. -/
def customerPc (pc : Nat) : Bool := Nat.ble 0x3000 pc && Nat.blt pc 0x4000

/-- The address of a word's memory operation. -/
def Engine.memAddr (g : Engine) (w : Nat) : Nat :=
  unsigned 64 (((g.x (Mw.base w)).toNat : Int) + Mw.disp w)

/-- The cause that aborts a memory operation, if there is one: ADDRESS, or ACCESS in customer state. -/
def Engine.memFault (g : Engine) (w : Nat) : Option Nat :=
  let a := g.memAddr w
  let n := Mw.size w
  let store := !(Nat.beq (Mw.mop w) 1)
  if a % n ≠ 0 ∨ spaceBytes (Mw.space w) < a + n then some 8
  else if Mw.space w = 0 ∧ store ∧ a < 32 then some 8
  else if Mw.space w = 2 ∧ customerPc g.pc ∧ a < 0x300000 then some 4
  else none

end Sys2Proof.Machine
end

