-- ==== Sys2Proof/Machine/Flags.lean ====
section
/-! DEFINITION. What the ALUs compute, and the flags ALU0 sets (R352, R353). -/

namespace Sys2Proof.Machine

/-- `v` sign-extended from its low `n` bits. -/
def sext (n : Nat) (v : BitVec 64) : BitVec 64 := BitVec.ofInt 64 (signed n v.toNat)

/-- The number of leading zeros of a 64-bit value. -/
def leadingZeros (v : Nat) : Nat := 64 - (if v = 0 then 0 else Nat.log2 v + 1)

/-- The value of ALU operation `op` on A and B (R353); LDI64 loads IMM. -/
def aluValue (op : Nat) (a b imm : BitVec 64) : BitVec 64 :=
  let n := b.toNat % 64
  if op = 0x01 then a + b
  else if op = 0x02 ∨ op = 0x0C then a - b
  else if op = 0x03 then a &&& b
  else if op = 0x04 then a ||| b
  else if op = 0x05 then a ^^^ b
  else if op = 0x06 then a <<< n
  else if op = 0x07 then a >>> n
  else if op = 0x08 then a.sshiftRight n
  else if op = 0x09 then a.rotateLeft n
  else if op = 0x0A then a
  else if op = 0x0B then imm
  else if op = 0x0D then (if b.slt a then b else a)
  else if op = 0x0E then (if a.slt b then b else a)
  else if op = 0x0F then BitVec.ofNat 64 ((a.toNat + b.toNat) % 2 ^ 16)
  else if op = 0x10 then sext 16 (a - b)
  else if op = 0x11 then sext 32 (a - b)
  else if op = 0x12 then a * b
  else if op = 0x13 then BitVec.ofNat 64 (a.toNat * b.toNat / 2 ^ 64)
  else if op = 0x14 then BitVec.ofNat 64 (beNat (leBytes 8 a.toNat))
  else if op = 0x15 then BitVec.ofNat 64 (popCount 64 a.toNat)
  else if op = 0x16 then BitVec.ofNat 64 (leadingZeros a.toNat)
  else if op = 0x17 then Config.crc32Step a (b.setWidth 8)
  else 0

/-- Z and N of a result; C and V, which the spec does not define, are the bits of a free value (R352). -/
def aluFlags (v free : BitVec 64) : Bool × Bool × Bool × Bool :=
  (decide (v = 0), v.msb, free.getLsbD 0, free.getLsbD 1)

end Sys2Proof.Machine
end

