-- ==== Sys2Proof/Machine/Engines.lean ====
section
/-! DEFINITION. The engines: the units of a microword, commit, the sequencer, safe points and sparing
(R348 to R377).  A command of a unit runs the word at the engine's microaddress where that word names the
operation; the command of its NEXT mode ends the word once every unit it names has run. -/

namespace Sys2Proof.Machine

/-! ### Shadowed memory (R355, R363) -/

/-- A view of a memory space: what is known of each byte. -/
abbrev View : Type := Nat → Option Byte

/-- The number that `n` bytes from `a` stand for, where all are known. -/
def View.read (m : View) (a : Nat) : Nat → Option Nat
  | 0 => some 0
  | n + 1 =>
    match m a, View.read m (a + 1) n with
    | some b, some v => some (b.toNat + 256 * v)
    | _, _ => none

/-- One bit of an INSERT: where the frame's bit `i`, counted from its most significant, lies in the field
it is taken from there. -/
def insertBit (o : ShadowOp) (i : Nat) (old : Bool) : Bool :=
  if o.addr ≤ i ∧ i < o.addr + o.size then o.data.testBit (o.size - 1 - (i - o.addr)) else old

/-- The view after one staged operation: 2 STORE, 3 ADDM, 4 BITSET, 5 BITCLR, 6 INSERT. -/
def View.after (m : View) (o : ShadowOp) : View := fun k =>
  let inside := Nat.ble o.addr k && Nat.blt k (o.addr + o.size)
  let byteOf (v : Nat) : Byte := BitVec.ofNat 8 (v / 2 ^ (8 * (k - o.addr)))
  if o.op = 2 then (if inside then some (byteOf o.data) else m k)
  else if o.op = 3 then
    (if inside then (m.read o.addr o.size).map fun v => byteOf (v + o.data) else m k)
  else if o.op = 6 then
    (m k).map fun b => (List.range 8).foldl (fun r i =>
      BitVec.ofNat 8 (setBit r.toNat (7 - i) (insertBit o (8 * k + i) (b.toNat.testBit (7 - i))))) b
  else if k = o.addr + o.data / 8 then
    (m k).map fun b => BitVec.ofNat 8 (setBit b.toNat (o.data % 8) (Nat.beq o.op 4))
  else m k

namespace State

/-- The header of a work item (R357); the handle of its first cell is the packet buffer's own. -/
def itemHeader (it : WorkItem) : Nat :=
  it.opcode + it.kind * 2 ^ 8 + it.source * 2 ^ 16 + it.flags * 2 ^ 24 + it.key * 2 ^ 32 +
    it.progress * 2 ^ 64 + it.length * 2 ^ 96 + it.stampStatus * 2 ^ 112 + it.stamp * 2 ^ 160 +
    it.arrivalUs * 2 ^ 192 + it.seq * 2 ^ 224

/-- What the work-item buffer holds (R357). -/
def itemView (g : Engine) : View := fun k =>
  match g.item with
  | none => none
  | some it =>
    if k < 32 then (if 16 ≤ k ∧ k < 20 then none else some (BitVec.ofNat 8 (itemHeader it / 2 ^ (8 * k))))
    else it.bytes[k - 32]?

/-- The item's lent flow context, or its queue context (R355). -/
def ctxView (s : State) (g : Engine) : View := fun k =>
  match g.item with
  | none => none
  | some it =>
    match it.flow, it.entry with
    | some i, _ =>
      let f := s.flow i
      let v := if k < 64 then f.ctx else if k < 128 then f.stats else f.ext
      let o := if k < 64 then k else if k < 128 then k - 64 else k - 128
      some (BitVec.ofNat 8 (v / 2 ^ (8 * o)))
    | none, some (qid, _) => if k < 64 then some (BitVec.ofNat 8 (s.qctxImage qid / 2 ^ (8 * k))) else none
    | none, none => none

/-- A byte of the quire store of engine `e`. -/
def quireKey (e a : Nat) : Nat := quireOf (folioOf e) * 2 ^ 22 + a

/-- What space `space` holds, without the shadow. -/
def baseView (s : State) (e space : Nat) : View :=
  let g := s.eng e
  if space = 0 then itemView g
  else if space = 1 then s.ctxView g
  else if space = 2 then fun a => some (Table.get (fun _ => 0) s.engines.quire (quireKey e a))
  else fun a => Table.get (fun _ => none) g.loc a

/-- What a read of space `space` sees: the shadow in force covers it (R363). -/
def view (s : State) (e space : Nat) : View :=
  if space = 3 then s.baseView e 3
  else ((s.eng e).memShadow.filter fun o => Nat.beq o.space space).foldl View.after (s.baseView e space)

/-- The bytes of a view, what is not known of them taken from a free value. -/
def viewBytes (s : State) (m : View) (a n : Nat) : List Byte :=
  (List.range n).map fun k => (m (a + k)).getD (BitVec.ofNat 8 (s.freeVal.toNat / 2 ^ (8 * (k % 8))))

/-! ### Publishing (R363, R368) -/

/-- Write one byte of the lent flow context. -/
def setFlowByte (s : State) (i k : Nat) (b : Byte) : State :=
  let f := s.flow i
  s.setFlow i (if k < 64 then { f with ctx := putBits f.ctx (8 * k) 8 b.toNat }
    else if k < 128 then { f with stats := putBits f.stats (8 * (k - 64)) 8 b.toNat }
    else { f with ext := putBits f.ext (8 * (k - 128)) 8 b.toNat })

/-- Write one byte of the context image of queue `qid` (R416). -/
def setQctxByte (s : State) (qid k : Nat) (b : Byte) : State :=
  let x := s.q qid
  let v := putBits (s.qctxImage qid) (8 * k) 8 b.toNat
  let log2 := bits v 68 5
  let pos (lo : Nat) : Nat := bits v lo 16 + bits v (lo + 16) 1 * 2 ^ log2
  s.setQ qid { x with
    ringAddr := bits v 0 64, kind := bits v 64 3, loc := v.testBit 67, log2 := log2, state := bits v 73 3
    irqEn := v.testBit 76, link := bits v 96 20, linkEn := v.testBit 127, pi := pos 128, ci := pos 160
    taken := pos 192, armed := v.testBit 231, haltStatus := bits v 232 8, haltIndex := bits v 240 16
    port := bits v 256 4, cls := bits v 260 3, lateTol := bits v 288 27, done := bits v 320 32 }

/-- Change the item an engine holds. -/
def mapItem (s : State) (e : Nat) (f : WorkItem → WorkItem) : State :=
  let g := s.eng e
  s.setEng e { g with item := g.item.map f }

/-- Write one byte of a memory space, for engine `e`. -/
def spaceWrite (s : State) (e space a : Nat) (b : Byte) : State :=
  if space = 0 then
    s.mapItem e fun it => { it with bytes := it.bytes.set (a - 32) b, full := it.full.set (a - 32) b }
  else if space = 1 then
    match (s.eng e).item with
    | none => s
    | some it =>
      match it.flow, it.entry with
      | some i, _ => s.setFlowByte i a b
      | none, some (qid, _) => if a < 64 then s.setQctxByte qid a b else s
      | none, none => s
  else if space = 2 then
    { s with engines := { s.engines with
        quire := Table.set (fun _ => 0) s.engines.quire (quireKey e a) b } }
  else
    let g := s.eng e
    s.setEng e { g with loc := Table.set (fun _ => none) g.loc a (some b) }

/-- The bytes a staged operation may touch. -/
def touched (o : ShadowOp) : List Nat :=
  if o.op = 6 then (List.range 9).map (o.addr / 8 + ·) else (List.range o.size).map (o.addr + ·)

/-- One staged write is published. -/
def publishOp (s : State) (e : Nat) (o : ShadowOp) : State :=
  let before := s.baseView e o.space
  let after := before.after o
  (touched o).foldl (fun s k =>
    if after k = before k then s
    else s.spaceWrite e o.space k ((after k).getD (BitVec.ofNat 8 s.freeVal.toNat))) s.draw

/-- The `k`th of the next free values, and having drawn `n` of them. -/
def freeAt (s : State) (k : Nat) : Nat := (Config.freeValue (s.free + k)).toNat

def drawN (s : State) (n : Nat) : State := { s with free := s.free + n }

/-- R494: engines of a control folio that is not the active one act nowhere outside their folio. -/
def hubBlocked (s : State) (e : Nat) : Bool :=
  match s.imp.image with
  | none => false
  | some i =>
    let f := folioOf e
    (Nat.beq f i.struct.ctrlActive || Nat.beq f i.struct.ctrlStandby) &&
      !(Nat.beq f (s.fld Reg.GUARD_STATUS_ACTIVE))

/-- TIME_ADJ: a rate, a step or a slew request, or the role timer; which, and how much, is the bundle's
(R356).  An offset committed to a running slew adds to its residual (R143), and in dual-domain mode a step after
the first setting is such an offset (R147). -/
def timeAdjust (s : State) (e : Nat) : State :=
  let v := signed 32 (s.freeAt 1)
  let s' := s.drawN 2
  if s.freeAt 0 % 4 = 0 then { s' with tb := { s'.tb with rate := clampInt (-500000000) 500000000 v } }
  else if s.freeAt 0 % 4 = 1 ∧ (s.timeStatus = 0 ∨ s.flag Reg.TB_STATUS_DUAL = false) then
    s'.requestStep (v * 2 ^ 32)
  else if s.freeAt 0 % 4 = 1 ∨ s.freeAt 0 % 4 = 2 then
    s'.slewTo (s.tb.residual + v * 2 ^ 32) s.tb.slewAuth
  else s'.setEng e { s'.eng e with timer := some (s.tb.uptime + v.natAbs) }

/-- CMD_REPLY: the oldest started command of the engine's role that its quire serves ends, with the result
the role gives (R356, R400). -/
def commandReply (s : State) (e : Nat) : State :=
  let role := s.engRole e
  let quire := quireOf (folioOf e)
  let found := s.queues.findSome? fun p =>
    if Nat.beq p.2.kind 5 && Nat.beq (s.homeQuire p.1) quire then
      (p.2.entries.find? fun x => x.phase == .started && Nat.ble 0x10 x.ckind && Nat.beq x.role role).map
        fun x => (p.1, x.pos)
    else none
  match found with
  | none => s
  | some (qid, pos) => s.draw.complete qid pos 0 (s.freeVal.toNat % 256)

/-- An event code that a block may post (R28): the upper byte of a block, and a low byte other than 0. -/
def eventCode (v : Nat) : Nat := v % 27 * 256 + 1 + v / 27 % 255

/-- The engine's item has had its frame delivered (R257). -/
def paid (s : State) (e : Nat) : State := s.mapItem e fun it => { it with owed := false }

/-- One staged hub operation takes effect (R356).  Arguments whose layout the spec does not give are free
values; a status is one of R23 that may end an entry, and an event code one of R28. -/
def publishHub (s : State) (e : Nat) (h : HubOp) : State :=
  match (s.eng e).item with
  | none =>
    if h.code = 0x07 then (s.drawN 2).post (eventCode (s.freeAt 0)) (s.freeAt 1)
    else if h.code = 0x0A then
      (s.drawN 2).dramWrite (s.freeAt 0 % 2 ^ 36) (h.bytes.take (s.freeAt 1 % 65)) false
    else if h.code = 0x0D then s.commandReply e
    else if h.code = 0x0F then s.timeAdjust e
    else s
  | some it =>
    let held := !(Nat.beq it.frame 0)
    if h.code = 0x01 then
      let qid := h.args.headD 0 % 2 ^ 20
      let hist := it.flow.any fun i => (s.flow i).has Ctx.histEn && !(Nat.beq it.kind 1)
      if held = false then s
      else if s.rxqTakes qid then
        (s.paid e).toRxq qid
          { frame := it.frame, bytes := it.full, poisoned := it.poisoned, stamp := it.rxStamp
            ts := it.stampStatus, source := it.source, flow := it.flow, hist := hist, rxUp := it.rxUp }
      else (s.paid e).flowDropped it.flow
    else if h.code = 0x02 then
      let launch := if s.freeAt 2 % 2 = 0 then none else some (s.freeAt 3 % 2 ^ 32)
      let hist := it.flow.any fun i => (s.flow i).has Ctx.histEn && !(Nat.beq it.kind 1)
      let f : TxFrame :=
        { frame := it.frame, cls := s.freeAt 1 % 8, len := it.full.length + 4, bytes := it.full
          launch := launch, flow := it.flow, hist := hist, poisoned := it.poisoned, rxUp := it.rxUp }
      if held then ((s.drawN 4).paid e).toPort (s.freeAt 0 % 12) f false else s
    else if h.code = 0x03 then
      let c : RecCopy :=
        { frame := it.frame, stream := s.freeAt 0 % 2 ^ 16, bytes := it.full, source := it.source
          poisoned := it.poisoned, ts := it.stampStatus, stamp := it.rxStamp, rxUp := it.rxUp }
      if held then { (s.draw.paid e).holdCopy it.frame 1 with recCopies := s.recCopies ++ [c] } else s
    else if h.code = 0x04 then
      if held then (s.paid e).toPair { frame := it.frame, bytes := it.full, flow := it.flow, since := s.tb.uptime }
      else s
    else if h.code = 0x05 then (s.dropCopy it.frame).mapItem e fun it => { it with frame := 0 }
    else if h.code = 0x06 then
      match it.entry with
      | some (qid, pos) => (s.drawN 2).complete qid pos (s.freeAt 0 % 15) (s.freeAt 1 % 256)
      | none => s
    else if h.code = 0x07 then (s.drawN 2).post (eventCode (s.freeAt 0)) (s.freeAt 1)
    else if h.code = 0x0A then
      (s.drawN 2).dramWrite (s.freeAt 0 % 2 ^ 36) (h.bytes.take (s.freeAt 1 % 65)) false
    else if h.code = 0x0C then
      let at_ := s.freeAt 0 % max 1 it.full.length
      let part := h.bytes.take (s.freeAt 1 % 65)
      let full := (it.full.take at_ ++ part ++ it.full.drop (at_ + part.length)).take it.full.length
      (s.drawN 2).mapItem e fun it => { it with full := full, bytes := full.take 128 }
    else if h.code = 0x0D then
      match it.kind, it.entry with
      | 2, some (qid, pos) => s.draw.complete qid pos 0 (s.freeVal.toNat % 256)
      | _, _ => s.commandReply e
    else if h.code = 0x0F then s.timeAdjust e
    else s

/-- The flits that a commit sends to the hub: on the request channel two for each write of DRAM or of the frame, on
the response channel one for the result and one for each other operation.  The spec does not give their number. -/
def commitFlits (g : Engine) : Nat × Nat :=
  let writes := (g.hubShadow.filter fun h => Nat.beq h.code 0x0A || Nat.beq h.code 0x0C).length
  (2 * writes, 1 + (g.hubShadow.length - writes))

/-- The link of engine `e` holds the credit for its commit (R36). -/
def mayCommit (s : State) (e : Nat) : Bool :=
  let n := commitFlits (s.eng e)
  s.spineHolds (spineKey (dieOf (quireOf (folioOf e))) 0 1) n.1 && s.mayRespond e n.2

/-- R363, R367: the shadow of the routine, or of the handler, is published as one unit; its results cross the spine
(R33). -/
def publish (s : State) (e : Nat) : State :=
  let g := s.eng e
  let n := commitFlits g
  let s := (s.spineCross (spineKey (dieOf (quireOf (folioOf e))) 0 1) n.1).respondHub e n.2
  let s := g.memShadow.foldl (fun s o => s.publishOp e o) s
  let s := if s.hubBlocked e then s else g.hubShadow.foldl (fun s h => s.publishHub e h) s
  s.setEng e ((s.eng e).setShadow [] [])

/-! ### Running a word (R348 to R352, R362, R366) -/

/-- Engine `e` has a routine or a handler to run, in a mode in which engines run (R48). -/
def engRuns (s : State) (e : Nat) : Bool :=
  let g := s.eng e
  s.operating && s.engActive e && !(Nat.beq (s.engState e) 5) && (g.item.isSome || g.handler)

/-- At a word's start, a safe point must act first (R366, R367). -/
def mustStop (s : State) (e : Nat) : Bool :=
  let g := s.eng e
  let safe := g.safe || g.waiting.isSome
  decide (g.ran = 0) && ((safe && g.migrate) || ((safe || s.engPriv e) && !g.handler && decide (g.ints ≠ 0)))

/-- The item has run 4 × BOUND words (R362). -/
def atBound (g : Engine) : Bool := !g.handler && decide (g.ran = 0) && Nat.blt (4 * g.bound) (g.words + 1)

/-- Run `f` on the word engine `e` stands at; an address without a store or a reserved code aborts the
routine (R346, R351 to R356). -/
def onWord (s : State) (e : Nat) (f : Nat → State) : State :=
  let g := s.eng e
  if s.engRuns e = false ∨ s.mustStop e = true then s
  else match s.fetchWord e g.pc with
    | none => s.abort e 8
    | some w => if Mw.valid w = false then s.abort e 6 else if atBound g then s else f w

/-- Unit `u` of the word runs, where the word names the operation and the unit has not run. -/
def unit (s : State) (e u : Nat) (names : Nat → Bool) (f : Nat → State → State) : State :=
  s.onWord e fun w =>
    let g := s.eng e
    if (Mw.units w).testBit u && !g.ran.getLsbD u && g.waiting.isNone && names w then
      f w (s.setEng e { g with ran := g.ran ||| 1#8 <<< u, safe := false })
    else s

/-- A result of the word: its precedence, register and value (R349). -/
def result (s : State) (e prec reg : Nat) (v : BitVec 64) : State :=
  let g := s.eng e
  s.setEng e { g with results := g.results ++ [(prec, reg, v)] }

/-! ### ALUs (R353) -/

/-- ALU `k` runs operation `op`. -/
def alu (s : State) (e k op : Nat) : State :=
  s.unit e k (fun w => Nat.beq (Mw.aluOp w k) op) fun w s =>
    let g := s.eng e
    let v := aluValue op (g.opA w k) (g.opB w k) (BitVec.ofNat 64 (Mw.imm w))
    let s := if op = 0x0C then s else s.result e k (Mw.aluDst w k) v
    if k = 0 ∧ Mw.setf w then
      s.draw.setEng e { s.eng e with flags := some (aluFlags v s.freeVal) }
    else s

/-! ### The field unit (R354) -/

/-- The window of a field operation runs past the buffer, or the field past the window. -/
def fieldFault (w : Nat) : Bool := Nat.blt 160 (Mw.fbyte w + 8) || Nat.blt 64 (Mw.fbit w + Mw.fwidth w + 1)

/-- EXTRACT. -/
def extract (s : State) (e : Nat) : State :=
  s.unit e 2 (fun w => Nat.beq (Mw.fop w) 1) fun w s =>
    if fieldFault w then s.abort e 8
    else
      let window := beNat (s.viewBytes (s.view e 0) (Mw.fbyte w) 8)
      let n := Mw.fwidth w + 1
      s.draw.result e 2 (Mw.freg w) (BitVec.ofNat 64 (bits window (64 - Mw.fbit w - n) n))

/-- Stage a write (R363, R364). -/
def stageOp (s : State) (e : Nat) (o : ShadowOp) : State :=
  let g := s.eng e
  if 64 ≤ g.memShadow.length then s.abort e 2
  else s.setEng e (g.setShadow (g.memShadow ++ [o]) g.hubShadow)

/-- INSERT; one that touches the read-only header lies outside the writable space. -/
def insert (s : State) (e : Nat) : State :=
  s.unit e 2 (fun w => Nat.beq (Mw.fop w) 2) fun w s =>
    let first := 8 * Mw.fbyte w + Mw.fbit w
    if fieldFault w || Nat.blt first 256 then s.abort e 8
    else
      let n := Mw.fwidth w + 1
      s.stageOp e { op := 6, space := 0, addr := first, size := n
                    data := (s.eng e).x (Mw.freg w) |>.toNat }

/-! ### Memory (R355, R372) -/

/-- LOAD: little-endian, zero-extended. -/
def load (s : State) (e : Nat) : State :=
  s.unit e 3 (fun w => Nat.beq (Mw.mop w) 1) fun w s =>
    let g := s.eng e
    match g.memFault w with
    | some cause => s.abort e cause
    | none =>
      let v := leNat (s.viewBytes (s.view e (Mw.space w)) (g.memAddr w) (Mw.size w))
      s.draw.result e 3 (Mw.data w) (BitVec.ofNat 64 v)

/-- STORE, ADDM, BITSET and BITCLR: staged, or at once in LOCAL.  Which bit BITSET and BITCLR name is a
free value. -/
def writeMem (s : State) (e op : Nat) : State :=
  s.unit e 3 (fun w => Nat.beq (Mw.mop w) op) fun w s =>
    let g := s.eng e
    match g.memFault w with
    | some cause => s.abort e cause
    | none =>
      let n := Mw.size w
      let o : ShadowOp :=
        { op := op, space := Mw.space w, addr := g.memAddr w, size := n
          data := if op ≤ 3 then (g.x (Mw.data w)).toNat else s.freeVal.toNat % (8 * n) }
      let s := s.draw
      if Mw.space w = 3 then s.publishOp e o else s.stageOp e o

/-! ### The hub unit (R356) -/

/-- Stage a hub operation with its arguments as they stand, and for DRAM_WRITE and FRAME_WRITE the bytes
of LOCAL. -/
def hubStage (s : State) (e code : Nat) (privileged : Bool) : State :=
  s.unit e 4 (fun w => Nat.beq (Mw.hop w) code) fun w s =>
    let g := s.eng e
    if privileged && !s.engPriv e then s.abort e 3
    else if 16 ≤ g.hubShadow.length then s.abort e 2
    else
      let args := (List.range (Mw.hcnt w + 1)).map fun k => (g.x ((Mw.harg w + k) % 32)).toNat
      let from_ := s.freeAt 0 % 961
      let bytes := if code = 0x0A ∨ code = 0x0C then
        (s.drawN 1).viewBytes (s.baseView e 3) from_ 64 else []
      let s := s.drawN 2
      s.setEng e (g.setShadow g.memShadow (g.hubShadow ++ [{ code := code, args := args, bytes := bytes }]))

/-- The link of engine `e` holds the credit for a read of the hub: a request flit, and two of read data (R36). -/
def mayAsk (s : State) (e : Nat) : Bool :=
  let d := dieOf (quireOf (folioOf e))
  s.spineHolds (spineKey d 0 1) 1 && s.spineHolds (spineKey d 1 0) 2

/-- A read of the hub crosses the spine (R33). -/
def readCrosses (s : State) (e : Nat) : State :=
  let d := dieOf (quireOf (folioOf e))
  (s.spineCross (spineKey d 0 1) 1).spineCross (spineKey d 1 0) 2

/-- A hub operation with a reply: HRES and the status it carries are free values; a read into LOCAL leaves
LOCAL undefined where it is placed, which its arguments name. -/
def hubReply (s : State) (e code : Nat) : State :=
  s.unit e 4 (fun w => Nat.beq (Mw.hop w) code && s.mayAsk e) fun w s =>
    let v := s.freeVal
    let s := s.readCrosses e
    let ok := s.freeAt 1 % 2 = 1
    let s := (s.drawN 2).result e 4 (Mw.hres w) v
    let g := { s.eng e with reply := some (decide ok) }
    s.setEng e (if code = 0x08 then g else { g with loc := [] })

/-! ### Commit (R363, R368) -/

/-- Every unit of the word but commit and NEXT has run. -/
def unitsRan (g : Engine) (w : Nat) : Bool := Nat.beq (Mw.units w % 32) (g.ran.toNat % 32)

/-- COMMIT publishes the whole shadow at the word's end. -/
def commit (s : State) (e : Nat) : State :=
  s.unit e 5 (fun w => unitsRan (s.eng e) w && s.mayCommit e) fun _ s => s.publish e

/-- COMMIT with PROG: X29, as the word leaves it, becomes the item's progress word in the same unit. -/
def commitProg (s : State) (e : Nat) : State :=
  s.unit e 6 (fun w => unitsRan (s.eng e) w && s.mayCommit e) fun _ s =>
    let p := (s.eng e).applyResults.x 29 |>.toNat
    (s.publish e).mapItem e fun it => { it with progress := p % 2 ^ 32 }

/-! ### The sequencer (R351, R362, R371) -/

/-- The word ends: its results, flags and reply status are written and the engine goes to `pc`. -/
def endWord (s : State) (e w pc : Nat) : State :=
  let g := (s.eng e).applyResults
  let g := match g.flags with
    | some (z, n, c, v) => { g with z := z, n := n, c := c, v := v }
    | none => g
  s.setEng e { g with
    pc := pc % 2 ^ 15, ran := 0, results := [], flags := none, reply := none
    replyOk := g.reply.getD g.replyOk, words := if g.handler then g.words else g.words + 1
    safe := Mw.safe w }

/-- The NEXT mode of the word acts, once every unit of it has run. -/
def closeWord (s : State) (e mode : Nat) (f : Nat → State) : State :=
  s.onWord e fun w =>
    let g := s.eng e
    if Nat.beq (Mw.next w) mode && Nat.beq (Mw.units w) (g.ran.toNat % 128) && g.waiting.isNone then f w else s

/-- R372: a branch taken from customer state reaches only the customer area and the exports. -/
def branchAllowed (s : State) (e target : Nat) : Bool :=
  !customerPc (s.eng e).pc || customerPc target ||
    (match s.bundleOf (folioOf e) with
      | some b => b.exports.contains target
      | none => false)

def seq (s : State) (e : Nat) : State :=
  s.closeWord e 0 fun w => s.endWord e w ((s.eng e).pc + 1)

def branch (s : State) (e : Nat) : State :=
  s.closeWord e 1 fun w =>
    let g := s.eng e
    if g.condHolds w then
      (if s.branchAllowed e (Mw.target w) then s.endWord e w (Mw.target w) else s.abort e 4)
    else s.endWord e w (g.pc + 1)

def call (s : State) (e : Nat) : State :=
  s.closeWord e 2 fun w =>
    let g := s.eng e
    if g.condHolds w then
      (if s.branchAllowed e (Mw.target w) = false then s.abort e 4
       else if 8 ≤ g.stack.length then s.abort e 5
       else
         let s := s.endWord e w (Mw.target w)
         s.setEng e { s.eng e with stack := (g.pc + 1) % 2 ^ 15 :: g.stack })
    else s.endWord e w (g.pc + 1)

/-- The handler of engine `e` returns (R369). -/
def handlerReturn (s : State) (e w : Nat) : State :=
  let s := s.endWord e w (s.eng e).hret
  let g := s.eng e
  let g := { g with handler := false, hShadow := [], hHub := [], hParked := none, safe := g.hSafe }
  let s := (s.setEng e g).setEngState e (if g.item.isNone then 0 else if g.parked.isSome then 2 else 1)
  s.takeItem e

def ret (s : State) (e : Nat) : State :=
  s.closeWord e 3 fun w =>
    let g := s.eng e
    if g.handler then s.handlerReturn e w
    else match g.stack with
      | [] => s.abort e 5
      | a :: rest =>
        let s := s.endWord e w a
        s.setEng e { s.eng e with stack := rest }

/-- DISPATCH ends the item, and is a safe point (R359, R365); the release of its frame needs a response credit
(R63). -/
def dispatch (s : State) (e : Nat) : State :=
  s.closeWord e 4 fun w =>
    if s.mayRespond e 1 = false then s else
    let s := (s.endWord e w ((s.eng e).pc + 1)).endItem e
    (s.setEng e { s.eng e with safe := true }).takeItem e

/-- WAIT: the first pass has its effects; the word then repeats until its condition holds (R351, R371). -/
def wait (s : State) (e : Nat) : State :=
  let g := s.eng e
  if g.waiting.isSome then
    s.onWord e fun w =>
      let mark := Nat.ble 16 (Mw.cond w)
      if g.condHolds w || (mark && g.stop) then
        let g := g.setWaiting none
        let g := { g with
          pc := (g.pc + 1) % 2 ^ 15, safe := Mw.safe w
          ringStopped := if mark then g.stop && !g.gate else g.ringStopped }
        (s.setEng e g).setEngState e 1
      else s
  else
    s.closeWord e 5 fun w =>
      let holds := { g with gate := false }.condHolds w
      if holds then s.endWord e w (g.pc + 1)
      else
        let s := s.endWord e w g.pc
        let g := (s.eng e).setWaiting (some (Mw.cond w))
        (s.setEng e { g with gate := false, stop := false }).setEngState e 2

/-! ### Safe points and sparing (R366 to R369, R374) -/

/-- What a safe point does (R366): a migration, an interrupt, else the routine, or the next item,
continues. -/
def safePoint (s : State) (e : Nat) : State :=
  let g := s.eng e
  let idle := g.item.isNone && !g.handler
  let safe := g.safe || idle || g.waiting.isSome
  if s.operating && s.engActive e && !(Nat.beq (s.engState e) 5) && decide (g.ran = 0) then
    if g.migrate && safe then s.setEngState e 5
    else if (safe || s.engPriv e) && !g.handler && decide (g.ints ≠ 0) then (s.takeInt e).takeItem e
    else s.takeItem e
  else s

/-- R362. -/
def boundExceeded (s : State) (e : Nat) : State :=
  if s.engRuns e && !s.mustStop e && atBound (s.eng e) && (s.eng e).waiting.isNone then s.abort e 1 else s

/-- The idle spare engine of folio `f` (R374): slot 4's, or one that an engine reset made the spare (R127). -/
def spareOf (s : State) (f : Nat) : Nat :=
  ((folioEngines f).find? fun e => Nat.beq (s.engState e) 3).getD (5 * f + 4)

/-- The folio has a spare that may take a role (R374). -/
def spareFree (s : State) (f : Nat) : Bool := Nat.beq (s.engState (s.spareOf f)) 3

/-- The quire of folio `f` is isolated, in reset or reloading. -/
def quireBusy (s : State) (f : Nat) : Bool :=
  let q := quireOf f
  s.units.quireIso.getLsbD q || s.units.carried.getLsbD q || s.imp.reimp.named.getLsbD q ||
    s.units.dieLost.getLsbD (dieOf q)

/-- Why a planned migration is refused (R377): the lowest code that applies. -/
def spareRefusal (s : State) (e : Nat) : Nat :=
  if s.flag Reg.ENG_SPARE_STATUS_BUSY then 1
  else if e < 160 ∧ s.spareFree (folioOf e) = false then 2
  else if 160 ≤ e ∨ s.engActive e = false then 3
  else if s.mode ≠ 2 ∧ s.mode ≠ 3 then 4
  else if s.quireBusy (folioOf e) then 5
  else 0

/-- A planned migration of engine `e` is asked for: an idle engine stops at once. -/
def planMigration (s : State) (e : Nat) : State :=
  let s := s.setFlag Reg.ENG_SPARE_STATUS_BUSY true
  let s := s.setEng e { s.eng e with migrate := true }
  if s.engIdle e then s.setEngState e 5 else s

/-- ENG_SPARE_CTRL.GO for engine `e` (R374, R377). -/
def spareGo (s : State) (e : Nat) : State :=
  let r := s.spareRefusal e
  let s := (s.setFld Reg.ENG_SPARE_STATUS_ENGINE e).setFld Reg.ENG_SPARE_STATUS_REFUSAL r
  if r = 0 then s.planMigration e else s.post 0x1A05 e

/-- A planned migration of an engine of folio `f` is over, done or not (R374). -/
def endMigration (s : State) (f : Nat) : State :=
  if s.flag Reg.ENG_SPARE_STATUS_BUSY ∧ folioOf (s.fld Reg.ENG_SPARE_STATUS_ENGINE) = f then
    let e := s.fld Reg.ENG_SPARE_STATUS_ENGINE
    let g := s.eng e
    let s := (s.setEng e { g with migrate := false }).setFlag Reg.ENG_SPARE_STATUS_BUSY false
    if s.engState e = 5 then
      s.setEngState e (if g.item.isNone && !g.handler then 0 else if g.waiting.isSome then 2 else 1)
    else s
  else s

/-- The spare of `e`'s folio takes its role and slot; `e` is marked out (R39, R374, R375). -/
def spareTakes (s : State) (e : Nat) (g : Engine) : State :=
  let k := s.spareOf (folioOf e)
  let s := (s.setFld (Reg.ENG_ROLE_ROLE k) (s.engRole e)).setFlag (Reg.ENG_ROLE_PRIV k) (s.engPriv e)
  let s := s.setFld (Reg.ENG_ROLE_SLOT k) (s.fld (Reg.ENG_ROLE_SLOT e))
  let s := (s.setEng k g).setEngState k
    (if g.item.isNone && !g.handler then 0 else if g.waiting.isSome then 2 else 1)
  let s := ((s.setEng e {}).setEngState e 4).setFld (Reg.ENG_ROLE_SLOT e) 7
  let s := s.setFlag (Reg.ENG_FOLIO_SPARE_USED (folioOf e)) true
  let s := { s with units := { s.units with
    engOut := s.units.engOut ||| 1#160 <<< e, spareUsed := s.units.spareUsed ||| 1#32 <<< folioOf e } }
  s.post 0x1A01 e

/-- R374: the copy to the spare is complete. -/
def migrationDone (s : State) (e : Nat) : State :=
  if s.engState e = 5 ∧ s.operating ∧ s.spareFree (folioOf e) then
    let k := s.spareOf (folioOf e)
    let s := (s.spareTakes e { s.eng e with migrate := false }).count Cnt.ENG_MIGRATIONS_PLANNED
    let s := ((s.post 0x1A04 e).setFlag Reg.ENG_SPARE_STATUS_BUSY false).degrade 0x05
    s.takeItem k
  else s

end State

/-! ### Meanings -/

def execSeq (e : Fin 160) (s : State) : Out State := .next (s.seq e.val)
def execBr (e : Fin 160) (s : State) : Out State := .next (s.branch e.val)
def execCall (e : Fin 160) (s : State) : Out State := .next (s.call e.val)
def execRet (e : Fin 160) (s : State) : Out State := .next (s.ret e.val)
def execDispatch (e : Fin 160) (s : State) : Out State := .next (s.dispatch e.val)
def execWait (e : Fin 160) (s : State) : Out State := .next (s.wait e.val)

/-- NOP does nothing (R353). -/
def execNop (_e : Fin 160) (_k : Fin 2) (s : State) : Out State := .next s
def execAdd (e : Fin 160) (k : Fin 2) (s : State) : Out State := .next (s.alu e.val k.val 0x01)
def execSub (e : Fin 160) (k : Fin 2) (s : State) : Out State := .next (s.alu e.val k.val 0x02)
def execAnd (e : Fin 160) (k : Fin 2) (s : State) : Out State := .next (s.alu e.val k.val 0x03)
def execOr (e : Fin 160) (k : Fin 2) (s : State) : Out State := .next (s.alu e.val k.val 0x04)
def execXor (e : Fin 160) (k : Fin 2) (s : State) : Out State := .next (s.alu e.val k.val 0x05)
def execShl (e : Fin 160) (k : Fin 2) (s : State) : Out State := .next (s.alu e.val k.val 0x06)
def execShr (e : Fin 160) (k : Fin 2) (s : State) : Out State := .next (s.alu e.val k.val 0x07)
def execSar (e : Fin 160) (k : Fin 2) (s : State) : Out State := .next (s.alu e.val k.val 0x08)
def execRol (e : Fin 160) (k : Fin 2) (s : State) : Out State := .next (s.alu e.val k.val 0x09)
def execMov (e : Fin 160) (k : Fin 2) (s : State) : Out State := .next (s.alu e.val k.val 0x0A)
/-- LDI64 is ALU0's alone (R353). -/
def execLdi64 (e : Fin 160) (s : State) : Out State := .next (s.alu e.val 0 0x0B)
def execCmp (e : Fin 160) (k : Fin 2) (s : State) : Out State := .next (s.alu e.val k.val 0x0C)
def execMin (e : Fin 160) (k : Fin 2) (s : State) : Out State := .next (s.alu e.val k.val 0x0D)
def execMax (e : Fin 160) (k : Fin 2) (s : State) : Out State := .next (s.alu e.val k.val 0x0E)
def execAdd16 (e : Fin 160) (k : Fin 2) (s : State) : Out State := .next (s.alu e.val k.val 0x0F)
def execSub16s (e : Fin 160) (k : Fin 2) (s : State) : Out State := .next (s.alu e.val k.val 0x10)
def execSub32s (e : Fin 160) (k : Fin 2) (s : State) : Out State := .next (s.alu e.val k.val 0x11)
def execMul (e : Fin 160) (k : Fin 2) (s : State) : Out State := .next (s.alu e.val k.val 0x12)
def execMulhi (e : Fin 160) (k : Fin 2) (s : State) : Out State := .next (s.alu e.val k.val 0x13)
def execBswap (e : Fin 160) (k : Fin 2) (s : State) : Out State := .next (s.alu e.val k.val 0x14)
def execPopcnt (e : Fin 160) (k : Fin 2) (s : State) : Out State := .next (s.alu e.val k.val 0x15)
def execClz (e : Fin 160) (k : Fin 2) (s : State) : Out State := .next (s.alu e.val k.val 0x16)
def execCrc32 (e : Fin 160) (k : Fin 2) (s : State) : Out State := .next (s.alu e.val k.val 0x17)

def execExtract (e : Fin 160) (s : State) : Out State := .next (s.extract e.val)
def execFieldInsert (e : Fin 160) (s : State) : Out State := .next (s.insert e.val)

def execLoad (e : Fin 160) (s : State) : Out State := .next (s.load e.val)
def execStore (e : Fin 160) (s : State) : Out State := .next (s.writeMem e.val 2)
def execAddm (e : Fin 160) (s : State) : Out State := .next (s.writeMem e.val 3)
def execBitset (e : Fin 160) (s : State) : Out State := .next (s.writeMem e.val 4)
def execBitclr (e : Fin 160) (s : State) : Out State := .next (s.writeMem e.val 5)

def execEmitRxq (e : Fin 160) (s : State) : Out State := .next (s.hubStage e.val 0x01 false)
def execEmitPort (e : Fin 160) (s : State) : Out State := .next (s.hubStage e.val 0x02 false)
def execEmitRec (e : Fin 160) (s : State) : Out State := .next (s.hubStage e.val 0x03 false)
def execEmitPair (e : Fin 160) (s : State) : Out State := .next (s.hubStage e.val 0x04 false)
def execDrop (e : Fin 160) (s : State) : Out State := .next (s.hubStage e.val 0x05 false)
def execComplete (e : Fin 160) (s : State) : Out State := .next (s.hubStage e.val 0x06 false)
def execEvent (e : Fin 160) (s : State) : Out State := .next (s.hubStage e.val 0x07 false)
def execReadHub (e : Fin 160) (s : State) : Out State := .next (s.hubReply e.val 0x08)
def execDramRead (e : Fin 160) (s : State) : Out State := .next (s.hubReply e.val 0x09)
def execDramWrite (e : Fin 160) (s : State) : Out State := .next (s.hubStage e.val 0x0A false)
def execFrameRead (e : Fin 160) (s : State) : Out State := .next (s.hubReply e.val 0x0B)
def execFrameWrite (e : Fin 160) (s : State) : Out State := .next (s.hubStage e.val 0x0C false)
def execCmdReply (e : Fin 160) (s : State) : Out State := .next (s.hubStage e.val 0x0D false)
def execForeEdge (e : Fin 160) (s : State) : Out State := .next (s.hubStage e.val 0x0E true)
def execTimeAdj (e : Fin 160) (s : State) : Out State := .next (s.hubStage e.val 0x0F true)

def execCommit (e : Fin 160) (s : State) : Out State := .next (s.commit e.val)
def execProg (e : Fin 160) (s : State) : Out State := .next (s.commitProg e.val)
def execSafePoint (e : Fin 160) (s : State) : Out State := .next (s.safePoint e.val)
def execBoundExceeded (e : Fin 160) (s : State) : Out State := .next (s.boundExceeded e.val)

/-- The role timer of engine `e` has expired (R369). -/
def execRoleTimerExpire (e : Fin 160) (s : State) : Out State :=
  .next (match (s.eng e.val).timer with
    | none => s
    | some t =>
      if s.operating && s.engActive e.val && Nat.ble t s.tb.uptime then
        (s.setEng e.val { s.eng e.val with timer := none }).raiseInt e.val 3
      else s)

/-- A write of ENG_SPARE_CTRL with GO (R374, R377). -/
def execEngineSpareGo (engine : BitVec 8) (s : State) : Out State := .next (s.spareGo engine.toNat)

def execMigrationDone (e : Fin 160) (s : State) : Out State := .next (s.migrationDone e.val)

end Sys2Proof.Machine
end

