-- ==== Sys2Proof/Machine/Health.lean ====
section
/-! DEFINITION. Checked faults and what follows from them (R43 to R45, R498 to R512): the votes of the
bound pair, Held, sparing, isolation, die loss, and the Guard's takeover. -/

namespace Sys2Proof.Machine

namespace State

/-! ### The bound pair (R515 to R520) -/

/-- R516: this Guard's vote: 0 ABSTAIN, 1 SELF, 2 PARTNER. -/
def ownVote (s : State) : Nat :=
  let role := s.fld Reg.GUARD_PAIR_STATUS_ROLE
  let mine := s.fld Reg.GUARD_PAIR_CTRL_PRIORITY
  let theirs := s.rd64 Reg.GUARD_PARTNER_LO
  if !s.flag Reg.GUARD_PAIR_CTRL_ENABLE then 0
  else if s.operating = false ∨ s.flag Reg.GUARD_PAIR_CTRL_WITHDRAW ∨ s.fld Reg.GUARD_STATUS_STATE = 5 then 0
  else if role = 1 ∨ s.pair.bound = false ∨ s.fld Reg.GUARD_PAIR_STATUS_PARTNER_VOTE = 0 then 1
  else if s.pair.active = false ∧
      (mine < s.pair.priority ∨ (mine = s.pair.priority ∧ Config.serial.toNat < theirs)) then 1
  else 2

/-- R517: the arbiter votes FOR this device. -/
def arbFor (s : State) : Bool :=
  if s.flag Reg.GUARD_PAIR_CTRL_ARB_SRC then s.flag Reg.GUARD_PAIR_CTRL_HOST_VOTE else s.pair.arbToggles

/-- R520: every valid recovering flow that the pair link feeds gets a recovery reset. -/
def pairRecovery (s : State) : State :=
  let fed (f : Flow) : Bool := f.has Ctx.valid && f.has Ctx.rcv &&
    (match (s.imp.image.map (·.flowParts)).getD [] |>.getD (f.get Ctx.part) ⟨0, 0, 0, 0⟩ with
      | p => p.portMask.testBit 12)
  (s.flows.table.map (·.1)).foldl (fun s i =>
    if fed (s.flow i) then s.setFlow i (s.flow i).recoveryReset else s) s

/-- R519: the ring schedule, exclusions and miss counts of the last complete pair epoch. -/
def loadPairEpoch (s : State) : State :=
  match s.pair.epoch with
  | none => s
  | some p =>
    let s := ((s.loadRingBank true p.ring).wrN 0x840184 p.dlim).wrN 0x840188 p.turn
    (List.range 256).foldl (fun s a =>
      (s.setStationBit (Reg.RING_EXCLUDED 0) a (p.excluded.getLsbD a)).setStationRec a 2 8 8
        (p.misses.getD a 0)) s

/-- What an epoch holds of the RING_MASTER role for the partner (R519). -/
def ringEpoch (s : State) : PairEpoch :=
  let b := s.ringBank true
  { ring := { s.ringSheet with slots := b.slots, marks := b.marks, payload := s.ringStatic true 0 0x40000 }
    dlim := b.dlim, turn := b.turn
    excluded := (List.range 256).foldl (fun m a => if s.excluded a then m ||| 1#256 <<< a else m) 0
    misses := (List.range 256).map fun a => s.stationRec a 2 8 8 }

/-- R518: the role this device has with `votes` votes. -/
def pairRole (s : State) (votes : Nat) : Nat :=
  if !s.flag Reg.GUARD_PAIR_CTRL_ENABLE then 0
  else if 2 ≤ votes then 1
  else if s.pair.bound then (if s.pair.active then 2 else 3) else 0

/-- Vote, count and take or leave the role once (R516 to R520). -/
def pairCount (s : State) : State :=
  let was := s.systemActive
  let own := s.ownVote
  let votes := (Nat.beq own 1).toNat +
    (s.pair.bound && Nat.beq (s.fld Reg.GUARD_PAIR_STATUS_PARTNER_VOTE) 2).toNat + s.arbFor.toNat
  let old := s.fld Reg.GUARD_PAIR_STATUS_ROLE
  let role := s.pairRole votes
  let s := ((s.setFld Reg.GUARD_PAIR_STATUS_OWN_VOTE own).setFlag Reg.GUARD_PAIR_STATUS_ARB_FOR
    s.arbFor).setFld Reg.GUARD_PAIR_STATUS_VOTES votes
  let s := s.setFld Reg.GUARD_PAIR_STATUS_ROLE role
  let s := if old ≠ role then s.post 0x0208 role else s
  let s := if role = 1 ∧ old ≠ 1 then (s.count Cnt.GUARD_PAIR_TAKEOVERS).loadPairEpoch.pairRecovery else s
  if was && !s.systemActive then s.losesActive
  else if !was && s.systemActive then s.takeMastership else s

/-- The vote follows the role and the role the votes: counting twice settles both. -/
def pairUpdate (s : State) : State := s.pairCount.pairCount

/-- The partner is no longer bound (R515). -/
def unbind (s : State) : State :=
  if s.pair.bound then
    ({ s with pair := { s.pair with bound := false, active := false } }.setFld
      Reg.GUARD_PAIR_STATUS_PARTNER_VOTE 0).postOpen 0x0209
  else s

/-! ### Held (R122) and the record of faults (R510, R511) -/

/-- What runs in the device ends with Held: resets, re-imposition, planned handover and migration (R118, R122,
R129).  IMP_REIMP_STATUS then reads IDLE: the spec gives it no value here (DESIGN CHOICE). -/
def endWork (s : State) : State :=
  let s := { s with
    imp := { s.imp with locked := s.imp.locked ||| s.imp.reimp.named, reimp := {} }
    guard := { s.guard with handover := none }, units := { s.units with ereset := none } }
  let s := (s.setFld Reg.GLB_RESET_STATUS_QUIRE_BUSY 0).setFlag Reg.GLB_RESET_STATUS_ENGINE_BUSY false
  let s := if s.fld Reg.IMP_REIMP_STATUS_STATE < 5 then s.setFld Reg.IMP_REIMP_STATUS_STATE 0 else s
  let s := if s.fld Reg.GUARD_STATUS_STATE = 3 then s.setFld Reg.GUARD_STATUS_STATE 1 else s
  (s.endMigration (folioOf (s.fld Reg.ENG_SPARE_STATUS_ENGINE))).showDegraded

/-- The device enters Held: ports, ring, event pins, 1PPS_OUT and slot power are in their safe state. -/
def enterHeld (s : State) (cause : Nat) : State :=
  if s.mode = 6 ∨ s.mode = 7 then s else
    let s := (s.transition 7 cause).endWork
    let s := ((List.range 12).foldl (fun s n => s.declareDown n) s).stopRing
    let s := (List.range 32).foldl (fun s n => (s.wrN (Reg.EVT_PIN_COUNT n) 0).setPin n {})
      { s with evt := {} }
    let s := { s with tb := { s.tb with ppsOut := none } }.cartPowerOff
    { s with cart := { s.cart with opened := none, closed := [] } }.pairUpdate

/-- A checked fault is counted, recorded and posted; of those at one instant the lowest code stays (R511). -/
def recordFault (s : State) (code unit : Nat) : State :=
  let s := (s.count Cnt.HLTH_CHECKED_FAULTS).post 0x0302 (code + unit % 2 ^ 16 * 2 ^ 16)
  let s := if s.guard.faultAt = s.tb.uptime + 1 ∧ s.fld Reg.HLTH_FAULT_CODE ≤ code then s
    else (s.setFld Reg.HLTH_FAULT_CODE code).setFld Reg.HLTH_FAULT_WHERE unit
  { s with guard := { s.guard with faultAt := s.tb.uptime + 1 } }

/-- A fault whose response is FATAL. -/
def fatal (s : State) (code unit : Nat) : State := (s.recordFault code unit).enterHeld 0x0E

/-! ### The control folios (R494 to R506) -/

def ctrlActive (s : State) : Nat := s.fld Reg.GUARD_STATUS_ACTIVE
def ctrlStandby (s : State) : Nat := s.fld Reg.GUARD_STATUS_STANDBY
def guardState (s : State) : Nat := s.fld Reg.GUARD_STATUS_STATE
def setGuard (s : State) (v : Nat) : State := s.setFld Reg.GUARD_STATUS_STATE v
def standbyValid (s : State) : Bool := s.flag Reg.GUARD_STATUS_STANDBY_VALID

/-- The control roles (R494). -/
def controlRoles : List Nat := [0x10, 0x11, 0x12]

/-- Quire `q` is in service. -/
def quireUp (s : State) (q : Nat) : Bool :=
  !s.units.quireIso.getLsbD q && !s.units.dieLost.getLsbD (dieOf q) && !s.units.carried.getLsbD q

/-- Every role of folio `f` is in service (R496). -/
def folioReady (s : State) (f : Nat) : Bool :=
  s.quireUp (quireOf f) && !s.units.folioOut.getLsbD f &&
    ((s.imp.image.map fun i => folioRoles i.struct f).getD []).all fun r =>
      Nat.beq r.role 0 || Nat.beq r.role 1 || s.folioRuns f r.role

/-- The epoch being copied, or any other that is not whole, is torn (R508). -/
def tearEpoch (s : State) : State :=
  if s.guard.copying then
    (({ s with guard := { s.guard with copying := false } }).count Cnt.GUARD_EPOCH_TORN).postOpenLimited 0x0206
  else s

/-- The active control folio and the standby change places: its control items, by way of the hub, and raised
interrupts go to the new active folio, and the standby is valid again with its next complete epoch. -/
def swapControl (s : State) : State :=
  let old := s.ctrlActive
  let new := s.ctrlStandby
  let s := (s.items.filter fun it => Nat.beq it.folio old).foldl (fun s it => s.leaveSpine it) s
  let s := ((s.setFolioQueue old []).returnItems (quireOf old) (s.folioQueue old))
  let s : State := { s with items := s.items.map fun (it : WorkItem) =>
      if it.folio = old then { it with folio := new, link := none } else it }.sendItems
  let s := (folioEngines old).foldl (fun s e =>
    let ints := (s.eng e).ints
    if ints = 0 ∨ controlRoles.contains (s.engRole e) = false then s else
      let s := s.setEng e { s.eng e with ints := 0 }
      (folioEngines new).foldl (fun s k =>
        if s.engActive k && Nat.beq (s.engRole k) (s.engRole e) then
          s.setEng k { s.eng k with ints := (s.eng k).ints ||| ints } else s) s) s
  let s := ((s.setFld Reg.GUARD_STATUS_ACTIVE new).setFld Reg.GUARD_STATUS_STANDBY old).setFlag
    Reg.GUARD_STATUS_STANDBY_VALID false
  { s with guard := { s.guard with alive := [], charged := 0, handover := none, ready := false } }

/-! ### Quire resets (R126), as far as faults start them -/

/-- The quire's march and known-answer tests begin: its work has migrated, its engines are reset and its
store is cleared. -/
def quireResetBegin (s : State) (q : Nat) : State :=
  let s := s.migrateOut q
  let s := (folioEngines (2 * q) ++ folioEngines (2 * q + 1)).foldl (fun s e =>
    if s.engState e = 4 then s else (s.setEng e {}).setEngState e 6) s
  { s with engines := { s.engines with
      quire := s.engines.quire.filter fun p => !(Nat.beq (p.1 / 2 ^ 22) q) } }

/-- A quire reset is accepted: where the quire holds the active control folio, a handover runs first. -/
def quireResetStart (s : State) (q : Nat) (waits : Bool) : State :=
  let s := (s.putBit Reg.GLB_RESET_STATUS_QUIRE_BUSY q true).showDegraded
  let s := s.setFlag Reg.GLB_MODE_DEGRADED true
  if waits then s else s.quireResetBegin q

/-- The control roles have left a quire whose reset waited for that (R126). -/
def controlLeft (s : State) (h : Option Handover) : State :=
  match h with
  | some h => if h.origin = 2 ∧ s.bit Reg.GLB_RESET_STATUS_QUIRE_BUSY h.quire
      then s.quireResetBegin h.quire else s
  | none => s

/-! ### Reloads that end early (R89, R94) -/

/-- STATE follows the phases of the named quires (R95). -/
def reimpPhase (s : State) : State :=
  let r := s.imp.reimp
  if s.mode ≠ 4 then s
  else s.setFld Reg.IMP_REIMP_STATUS_STATE (if r.migratingOut ≠ 0 then 2 else if r.loading ≠ 0 then 3 else 4)

/-- R94: the reload of quire `q` ends, its stores locked again (R112). -/
def endReload (s : State) (q : Nat) : State :=
  let keep := ~~~(1#16 <<< q)
  let r := s.imp.reimp
  if r.named.getLsbD q = false then s else
  { s with imp := { s.imp with
      locked := s.imp.locked ||| 1#16 <<< q
      reimp := { r with
        named := r.named &&& keep, migratingOut := r.migratingOut &&& keep, loading := r.loading &&& keep
        migratingBack := r.migratingBack &&& keep } } }.reimpPhase

/-- A request for a handover that is refused, or one abandoned (R506). -/
def refuseHandover (s : State) : State := (s.count Cnt.GUARD_HANDOVER_REFUSED).postOpen 0x0204

/-- A re-imposition request ends as refused (R89). -/
def refuseReimp (s : State) (reason : Nat) : State :=
  ((s.setFld Reg.IMP_REIMP_STATUS_STATE 6).setFld Reg.IMP_REIMP_STATUS_REASON reason).postImp reason

/-- A re-imposition whose handover was refused ends as refused with BUSY (R506): no store has been written, and the
quires have their work back (R89). -/
def dropReimp (s : State) : State :=
  if s.mode ≠ 4 then s else
  let r := s.imp.reimp
  let s := { s with imp := { s.imp with reimp := {} } }
  let s := (List.range 16).foldl (fun s q =>
    if r.named.getLsbD q && s.units.carried.getLsbD q then s.migrateBack q else s) s
  ((s.refuseReimp 0x11).transition s.workMode 0x0A).settleQuiet

/-- A planned handover ends without a switch (R506): the request that asked for it is refused. -/
def abandonHandover (s : State) : State :=
  match s.guard.handover with
  | none => s
  | some h =>
    let s := ({ s with guard := { s.guard with handover := none } }.setGuard 1).refuseHandover
    if s.operating = false then s
    else match h.origin with
      | 1 => s.dropReimp
      | 2 => ((s.putBit Reg.GLB_RESET_STATUS_QUIRE_BUSY h.quire false).setFld
          Reg.GLB_RESET_STATUS_REFUSAL 1).restore
      | _ => s

/-! ### Unplanned takeover (R498 to R504) -/

/-- Every domain's measurement counts start again (R150). -/
def restartCounts (s : State) : State :=
  let s := { s with tb := { s.tb with inBound := 0, outBound := 0 } }
  (List.range 4).foldl (fun s i => s.setDom i { s.dom i with inBound := 0, outBound := 0 }) s

/-- R150: the servo resumes from its state at the last complete epoch, and its measurement counts start again. -/
def servoResumes (s : State) : State :=
  { s with tb := { s.tb with rate := s.tb.saved.1, rates := s.tb.saved.2 } }.restartCounts

/-- R94: a takeover onto a quire that is being emptied for a reload ends the reload; the quire stays in service. -/
def keepQuire (s : State) (q : Nat) : State :=
  if s.imp.reimp.migratingOut.getLsbD q then (s.endReload q).migrateBack q else s

/-- R501, steps 1 to 4, from the decision of cause `cause` (R525). -/
def takeoverRuns (s : State) (cause : Nat) : State :=
  let s := s.keepQuire (quireOf s.ctrlStandby)
  let old := s.ctrlActive
  let h := s.guard.handover
  let s := (s.count Cnt.GUARD_TAKEOVERS).setFld Reg.GUARD_LAST_CAUSE cause
  let s := s.post 0x0201 (cause + old * 2 ^ 8 + s.ctrlStandby * 2 ^ 16)
  let held := (folioEngines old).filterMap s.heldItem
  let s := (folioEngines old).foldl (fun s e =>
    if s.engActive e then (s.clearEngine e).setEngState e 6 else s) s
  let s := (s.setFolioQueue old (held ++ s.folioQueue old)).tearEpoch
  let beat := Table.get (fun _ => 0) s.guard.beat old
  let s := s.swapControl.setGuard 2
  { s with guard := { s.guard with oldBeat := beat - 1, resumed := false } }.controlLeft h

/-- The Guard's decision to take over (R498, R500, R504). -/
def takeover (s : State) (cause : Nat) : State :=
  let g := s.guardState
  if g = 0 ∨ g = 5 ∨ s.operating = false then s
  else if g = 2 ∨ g = 4 ∨ s.standbyValid = false then s.fatal 0x11 s.ctrlActive
  else s.takeoverRuns cause

/-- A fault of quire `q` also makes the Guard take over, where the active control folio lies there (R510). -/
def assignQuire (s : State) (q : Nat) : State :=
  if q = quireOf s.ctrlActive ∧ s.guardState ≠ 0 then s.takeover 2 else s

/-! ### Isolation, sparing and loss (R39, R40, R43, R45, R375) -/

/-- The pair of quire `q` (R42). -/
def pairOf (s : State) (q : Nat) : Nat := (s.imp.image.map fun i => i.struct.pair.getD q 16).getD 16

/-- Quire `q` or its die is out of service. -/
def quireOut (s : State) (q : Nat) : Bool :=
  s.units.quireIso.getLsbD q || s.units.dieLost.getLsbD (dieOf q)

/-- PAIR_ORPHAN: both quires of a pair are out, other than while one of them is being reloaded (R510). -/
def checkOrphan (s : State) (q : Nat) : State :=
  let p := s.pairOf q
  if s.quireOut q && s.quireOut p && Nat.blt p 16 && !s.imp.reimp.named.getLsbD q &&
      !s.imp.reimp.named.getLsbD p then s.fatal 0x12 q else s

/-- R43: quire `q` is isolated; a reload of it ends. -/
def isolateQuire (s : State) (q : Nat) : State :=
  if s.units.quireIso.getLsbD q then s else
    let s := s.endReload q
    let s := { s with units := { s.units with quireIso := s.units.quireIso ||| 1#16 <<< q } }
    ((s.degrade 0x06).migrateOut q).checkOrphan q

/-- R40: folio `f` is marked out and its quire isolated. -/
def markFolioOut (s : State) (f : Nat) : State :=
  let s := { s with units := { s.units with folioOut := s.units.folioOut ||| 1#32 <<< f } }
  ((s.setFlag (Reg.ENG_FOLIO_MARKED_OUT f) true).post 0x1A02 f).isolateQuire (quireOf f)

/-- Engine `e` is marked out. -/
def markOut (s : State) (e : Nat) : State :=
  let s := ((s.setEng e {}).setEngState e 4).setFld (Reg.ENG_ROLE_SLOT e) 7
  { s with units := { s.units with engOut := s.units.engOut ||| 1#160 <<< e } }

/-- R94: an engine failure while quire `q` is loaded ends its reload and isolates it. -/
def failsLoading (s : State) (q : Nat) : State :=
  if s.imp.reimp.loading.getLsbD q then s.isolateQuire q else s

/-- R375: engine `e` has failed hard; a planned migration in its folio ends. -/
def engineFails (s : State) (e : Nat) : State :=
  let f := folioOf e
  if s.engState e = 4 ∨ 160 ≤ e then s
  else if s.engState e = 3 then (((s.endMigration f).markOut e).degrade 0x05).failsLoading (quireOf f)
  else
    let s := if s.fld Reg.ENG_SPARE_STATUS_ENGINE = e then s.endMigration f else s
    let held := s.heldItem e
    let s := match held with
      | some it => (s.setFolioQueue f (it :: s.folioQueue f)).count Cnt.ENG_ITEMS_RETURNED
      | none => s
    let ints := (s.eng e).ints
    let s := s.clearEngine e
    if s.spareFree f then
      let s := ((s.spareTakes e { ints := ints }).count Cnt.ENG_MIGRATIONS_FAILED).degrade 0x05
      (s.failsLoading (quireOf f)).takeAll f
    else (((s.markOut e).degrade 0x05).failsLoading (quireOf f)).markFolioOut f

/-- R282: a lent flow whose quire or die is lost restarts from its last checkpoint.  The items that the hub has
still to dispatch have their numbers as well. -/
def restartFlow (s : State) (i : Nat) : State :=
  let f := s.flow i
  let sent := f.since + (s.items.filter fun it => it.link.isNone && it.flow == some i).length
  let f := if f.saved = (0, 0, 0) then f else
    { f with ctx := f.saved.1, stats := f.saved.2.1, ext := f.saved.2.2 }
  let f := if f.has Ctx.rcv then f.recoveryReset else f
  let f := if f.has Ctx.gen then (f.set Ctx.genSeq (f.get Ctx.genSeq + sent)).addStat Stat.genRestarts 1 else f
  let s := (s.setFlow i { f with lent := none, since := 0 }).count Cnt.FLOW_RESTART
  s.postFlow 0x05 i

/-- Every flow lent to quire `q` restarts. -/
def restartLent (s : State) (q : Nat) : State := (s.lentTo q).foldl (fun s i => s.restartFlow i) s

/-- R45: a work item is lost with its die: its frame counts against its flow, and the cells that no other copy holds
are free. -/
def loseItem (s : State) (it : WorkItem) : State :=
  ((s.retireItem { it with owed := decide (it.kind ≤ 1) } 0x02)).cellRelease it.frame

/-- R45: what was on folio `f` is lost in the interior. -/
def loseFolio (s : State) (f : Nat) : State :=
  let items := (folioEngines f).filterMap s.heldItem ++ s.folioQueue f
  let s := (folioEngines f).foldl (fun s e =>
    let s := s.clearEngine e
    if s.engActive e then s.setEngState e 0 else s) s
  items.foldl (fun s it => s.loseItem it) (s.setFolioQueue f [])

/-- R45, R46: quire `q` goes with its die; a reload, a reset and a migration in it end. -/
def loseQuire (s : State) (q : Nat) : State :=
  let s := (s.endReload q).putBit Reg.GLB_RESET_STATUS_QUIRE_BUSY q false
  let s := (s.endMigration (2 * q)).endMigration (2 * q + 1)
  let s := { s with units := { s.units with carried := s.units.carried ||| 1#16 <<< q } }
  (((s.restartLent q).loseFolio (2 * q)).loseFolio (2 * q + 1))

/-- R45: engine die `d` is lost until the next fundamental reset. -/
def dieLost (s : State) (d : Nat) : State :=
  if s.units.dieLost.getLsbD d ∨ 4 ≤ d then s else
    let s := { s with units := { s.units with dieLost := s.units.dieLost ||| 1#4 <<< d } }
    let quires := (List.range 4).map (4 * d + ·)
    let onLink (it : WorkItem) : Bool := it.link == some d
    let lost := s.items.filter onLink
    let s := { s.degrade 0x07 with items := s.items.filter fun it => !onLink it }
    let s := match s.guard.handover with
      | some h => if dieOf (quireOf s.ctrlStandby) = d ∨ (h.origin ≠ 0 ∧ dieOf h.quire = d)
          then s.abandonHandover else s
      | none => s
    let s : State := lost.foldl (fun s it => s.loseItem it) s
    let s := match s.units.ereset with
      | some e => if dieOf (quireOf (folioOf e)) = d then
          { (s.markOut e) with units := { (s.markOut e).units with ereset := none } }.setFlag
            Reg.GLB_RESET_STATUS_ENGINE_BUSY false
        else s
      | none => s
    let s := ((quires.foldl (fun s q => s.loseQuire q) s).sendItems).showDegraded
    let s : State := quires.foldl (fun s q => s.checkOrphan q) s
    if dieOf (quireOf s.ctrlActive) = d ∧ s.guardState ≠ 0 then s.takeover 2 else s

/-! ### Checked faults (R510) -/

/-- The poison mark of frame `h`, wherever it waits (R223). -/
def poisonFrame (s : State) (h : Nat) : State :=
  let tx (f : TxFrame) : TxFrame := if Nat.beq f.frame h then { f with poisoned := true } else f
  let rx (c : RxCopy) : RxCopy := if Nat.beq c.frame h then { c with poisoned := true } else c
  let item (w : WorkItem) : WorkItem := if Nat.beq w.frame h then { w with poisoned := true } else w
  let rec_ (c : RecCopy) : RecCopy := if Nat.beq c.frame h then { c with poisoned := true } else c
  let wait (f : RxFrame) : RxFrame := if Nat.beq f.frame h then { f with poisoned := true } else f
  { s with
    ports := Table.mapVals (fun _ => {}) (fun p => { p with hub := p.hub.map tx, fe := p.fe.map tx }) s.ports
    queues := Table.mapVals (fun _ => {}) (fun x => { x with rxWait := x.rxWait.map rx }) s.queues
    items := s.items.map item
    recCopies := s.recCopies.map rec_
    flows := { s.flows with wait := s.flows.wait.map wait }
    engines := { s.engines with
      queue := Table.mapVals (fun _ => []) (fun l => l.map item) s.engines.queue
      eng := Table.mapVals (fun _ => {}) (fun g => { g with item := g.item.map item }) s.engines.eng } }

/-- An uncorrectable error of SRAM or DRAM is posted (R527). -/
def eccUe (s : State) : State := s.postOpenLimited 0x030A

/-- The Guard enters FAULT (R500). -/
def guardFault (s : State) : State :=
  if s.guardState = 5 then s else ((s.setGuard 5).postOpen 0x020C).pairUpdate

/-- A quire reset run by the HLTH block after an uncorrectable quire-store error (R510). -/
def healthReset (s : State) (q : Nat) : State :=
  if s.operating && s.quireUp (s.pairOf q) && !s.units.dieLost.getLsbD (dieOf q) then s.quireResetStart q false
  else s

/-- R510: an uncorrectable error in the flow cache: the group is read again, and where it differed from DRAM its lent
flows restart (R282). -/
def rereadGroup (s : State) (part bucket : Nat) : State :=
  let first := ((s.flowPart? part).elim 0 (·.base)) + 4 * bucket
  let group := (List.range 4).map (first + ·)
  let clean (i : Nat) : Bool :=
    decide ((s.dramRead (s.flowBucket i + 64 * (i % 4)) 64).1 = leBytes 64 (s.flow i).ctx)
  if group.all clean then s
  else group.foldl (fun s i => if (s.flow i).has Ctx.valid then s.restartFlow i else s) s

/-- The response of the table of R510. -/
def respond (s : State) (code unit : Nat) (item : FaultItem) : State :=
  match code with
  | 0x01 => (s.engineFails unit).assignQuire (quireOf (folioOf unit))
  | 0x02 =>
    let s := { s with units := { s.units with csFault := s.units.csFault ||| 1#32 <<< unit } }
    (((s.count Cnt.ENG_CS_ECC_UNCORR).eccUe).markFolioOut unit).assignQuire (quireOf unit)
  | 0x03 =>
    let s := (((s.count Cnt.HLTH_SRAM_UE).eccUe).restartLent unit).isolateQuire unit
    (s.assignQuire unit).healthReset unit
  | 0x04 =>
    let s := (s.count Cnt.HLTH_SRAM_UE).eccUe
    (match item with
      | .frame h => s.poisonFrame h
      | .flowGroup part bucket => s.rereadGroup part bucket
      | _ => s)
  | 0x05 => (s.count Cnt.HLTH_PACE_LOW).post 0x0303 (unit % 16)
  | 0x06 | 0x0A => s.dieLost unit
  | 0x07 => s.takeover 1
  | 0x08 => s.takeover 3
  | 0x09 => s.takeover 4
  | 0x0C =>
    (match item with
      | .flow i => s.setFlow i (s.flow i).recoveryReset
      | _ => s)
  | 0x10 => s.guardFault
  | 0x13 =>
    let s := (s.count Cnt.HLTH_DRAM_UE).eccUe
    (match item with
      | .dram a n => s.dramWrite a (s.dramRead a n).1 true
      | _ => s)
  | _ => s.enterHeld 0x0E

/-- R510: a checked fault of `unit`.  TEMP_CRIT acts only after Imposing (R560); Dormant has no power for
the checks, and in Held a fault is only recorded. -/
def checkedFault (s : State) (code unit : Nat) (item : FaultItem) : State :=
  if s.mode = 6 ∨ code = 0 ∨ 0x13 < code ∨ (code = 0x0D ∧ s.mode < 2) then s
  else
    let s := s.recordFault code unit
    if s.mode = 7 then s else s.respond code unit item

end State

/-! ### Meanings -/

/-- An engine fails hard: the checked fault ENGINE_HARD (R375, R510). -/
def execEngineHardFailure (e : Fin 160) (s : State) : Out State := .next (s.checkedFault 0x01 e .none)

/-- A checked fault (R510): its code, the index of its unit, and the item where the response needs it. -/
def execCheckedFault (code : BitVec 8) (unit : BitVec 16) (item : FaultItem) (s : State) : Out State :=
  .next (s.checkedFault code.toNat unit.toNat item)

/-- An engine die is lost: the checked fault DIE_LOST (R45, R510). -/
def execDieLost (die : Fin 4) (s : State) : Out State := .next (s.checkedFault 0x06 die .none)

end Sys2Proof.Machine
end

