-- ==== Sys2Proof/Machine/Pcie.lean ====
section
/-! DEFINITION. The host link (R442 to R474): functions, their power states and resets, DRAM windows,
interrupt modes and masks, PME and LTR. -/

namespace Sys2Proof.Machine

namespace State

/-! ### Power states (R118, R120, R462, R463) -/

/-- What waited for host memory goes on: event entries of every event queue, the results of DELETE commands, then the
DMA channels. -/
def resumeHost (s : State) : State :=
  let s := (s.queues.map (·.1)).foldl (fun s qid =>
    if (s.q qid).kind = 4 then s.drainEvents qid (s.q qid).events.length else s) s
  (s.flows.deletes.foldl (fun s d => s.settleDelete (some d.flow)) s).settleAll

/-- A write of the power state or Bus Master Enable of a function has come into force (R415, R451). -/
def hostChanged (s : State) : State := s.settleQuiet.resumeHost.signalPmes

/-! ### Resets of functions (R125, R465 to R467) -/

/-- Work entries of queue `qid` that have left for the engines or the ports go on without it (R125). -/
def disown (s : State) (qid : Nat) : State :=
  let ours (o : Option (Nat × Nat)) : Option (Nat × Nat) := match o with
    | some (k, p) => if k = qid then none else some (k, p)
    | none => none
  let tx (f : TxFrame) : TxFrame := { f with owner := ours f.owner }
  let item (w : WorkItem) : WorkItem := { w with entry := ours w.entry }
  { s with
    ports := Table.mapVals (fun _ => {}) (fun p => { p with
      hub := p.hub.map tx, fe := p.fe.map tx
      cur := p.cur.map fun c => { c with tx := tx c.tx }
      susp := p.susp.map fun c => { c with tx := tx c.tx } }) s.ports
    items := s.items.map item
    flows := { s.flows with wait := s.flows.wait.map fun (r : RxFrame) =>
        if r.owner.isSome && (ours r.owner).isNone then
          { r with owner := none, orphan := (s.txIntent r r.bytes).map fun x => (x.1, { x.2 with owner := none }) }
        else r }
    ring := { s.ring with
      bodies := s.ring.bodies.filter fun b => !(Nat.beq b.qid qid)
      unsent := s.ring.unsent.map fun (p : BuiltPoll) => { p with owner := ours p.owner }
      built := s.ring.built.map fun (c : BuiltCycle) => { c with
        polls := c.polls.map fun (p : BuiltPoll) => { p with owner := ours p.owner } } }
    engines := { s.engines with
      queue := Table.mapVals (fun _ => []) (fun l => l.map item) s.engines.queue
      eng := Table.mapVals (fun _ => {}) (fun g => { g with item := g.item.map item }) s.engines.eng } }

/-- The entries of a work queue that are outstanding: taken and not done, and not yet taken. -/
def outstanding (x : Queue) : Nat :=
  (x.entries.filter fun e => e.phase ≠ .done).length + ahead x.pi x.taken x.n

/-- A frame that waits at a queue is dropped with the reset (R125). -/
def dropWaiting (s : State) (c : RxCopy) : State :=
  let s := match c.flow with
    | some i => s.flowDropped (some i)
    | none => if c.unmatched then s.count Cnt.FLOW_LOOKUP_MISS else s
  s.dropCopy c.frame

/-- R125, R414: a queue in the scope of a reset is ABSENT; its entries are retired as ABORTED within the
device, and everything that waits to be written is discarded. -/
def resetQueue (s : State) (qid : Nat) : State :=
  let x := s.q qid
  let s := x.rxWait.foldl (fun s c => s.dropWaiting c) s
  let s := if x.isWork then s.countN Cnt.QM_ABORTED (outstanding x) else s
  let s := (s.disown qid).setQ qid {}
  if s.fld Reg.EVT_CTRL_EQ = qid ∧ x.kind = 4 then { s with evt := { s.evt with dropping := true } } else s

/-- Function `fn` issued the flow command of this source. -/
def cmdOf (s : State) (fn : Nat) : CmdSrc → Bool
  | .mailbox => s.flows.cmdFunc == some fn
  | .queue qid _ => Nat.beq (s.q qid).func fn

/-- The results of a DELETE of function `fn` that waits for its flow's work items are discarded with a reset
(R125). -/
def dropAnswers (s : State) (fn : Nat) : State :=
  let drop (d : Deleting) : Deleting := if s.cmdOf fn d.src then { d with wbOk := false } else d
  { s with flows := { s.flows with deletes := s.flows.deletes.map drop } }

/-- A reset of function `fn` ends its mailbox command (R110); a flow command whose block read it discards ends as
one whose read failed (R283, R467). -/
def endReads (s : State) (fn : Nat) : State :=
  let s := if fn = 3 then s.mbReset else s
  if s.flows.cmdFunc = some fn ∧ s.mailboxReads then s.flowCmdFails else s

/-- The key of SR-IOV Control, in the configuration space of PF0. -/
abbrev cfgSriov : Nat := 0x3900168

/-- The link registers that an FLR keeps (R466): Link Control, Link Control 2 and L1 PM Substates. -/
def linkKey (o : Nat) : Bool :=
  Nat.beq o 0x3900080 || Nat.beq o 0x39000A0 || (Nat.ble 0x39001B0 o && Nat.blt o 0x39001C0)

/-- R466: the PCIe-facing registers of function `fn` are as after reset, but AER and, of an FLR, the link
registers.  The queue mailbox is no such register.  A VF's Memory Space Enable is the one of SR-IOV
Control. -/
def resetFuncRegs (s : State) (fn : Nat) (flr : Bool) : State :=
  let lo := fn * 0x4000000
  let gone (k : Nat) : Bool := Nat.ble lo k && Nat.blt k (lo + 0x4000000) &&
    (let o := k - lo
     Nat.beq o Reg.PCIE_FUNC || Nat.beq o Reg.PCIE_CTO || Nat.beq o Reg.PCIE_INTX_PEND ||
       (Nat.ble 0x84000 o && Nat.blt o 0x90000) || (Nat.ble 0x3000000 o && !aerKey k && !(flr && linkKey o)))
  let vfMse := Nat.ble 4 fn && (s.rd cfgSriov).getLsbD 3
  { s with
    regs := s.regs.filter fun p => !gone p.1
    stage := s.stage.filter fun p => !gone p.1
    host := { s.host with
      vectors := s.host.vectors.filter fun p => !(Nat.beq (p.1 / 2048) fn)
      msiMessages := Table.set (fun _ => 1) s.host.msiMessages fn 1
      intxDisable := s.host.intxDisable &&& ~~~(1#64 <<< fn)
      fnMask := s.host.fnMask &&& ~~~(1#64 <<< fn)
      ltrEnable := s.host.ltrEnable && !(Nat.beq fn 0) } }.setFlag (Reg.PCIE_FUNC_MSE.of fn) vfMse

/-- R124: the DRAM windows that function `fn` owns are disabled. -/
def closeWindows (s : State) (fn : Nat) : State :=
  (List.range 4).foldl (fun s w =>
    if s.fld (Reg.PCIE_WIN_ACTIVE_OWNER w) = fn then s.setFlag (Reg.PCIE_WIN_ACTIVE_EN w) false else s) s

/-- R467: the reads of function `fn` among `reads` go to quarantine. -/
def quarantineReads (s : State) (fn : Nat) (reads : List HostRead) : State :=
  let l := (reads.filter fun r => Nat.beq r.func fn).map fun (r : HostRead) =>
    ({ func := fn, tag := r.tag, path := r.path, byReset := true
       expires := s.tb.uptime - r.ageNs + 2 * s.cplTimeoutNs fn } : Quarantine)
  { s with host := { s.host with quarantine := s.host.quarantine ++ l } }

/-- R125, R414, R424 and R438 for one function. -/
def resetFunc (s : State) (fn : Nat) (flr : Bool) (reads : List HostRead) : State :=
  let s := (s.quarantineReads fn reads).dropAnswers fn
  let s := ((s.queues.filter fun p => Nat.beq p.2.func fn && !(Nat.beq p.2.state 0)).map (·.1)).foldl
    (fun s qid => s.resetQueue qid) s
  let s := if s.fld (Reg.QM_QCMD_STATUS_STATE.of fn) = 1 then s.setFld (Reg.QM_QCMD_STATUS_STATE.of fn) 0 else s
  let s := if fn = 3 then
      (List.range 32).foldl (fun s c =>
        if s.reservedChan c || !(Nat.beq (s.chState c) 1 || Nat.beq (s.chState c) 2 || Nat.beq (s.chState c) 3)
        then s else s.dmaHalt c 0x03 0x00) { s with obs := { s.obs with hold := none } }
    else s
  ((s.endReads fn).closeWindows fn).resetFuncRegs fn flr

/-- The virtual functions that are enabled. -/
def vfs (s : State) : List Nat := (List.range s.host.numVfs).map (4 + ·)

/-- Every VF is reset and VF Enable cleared (R447, R465). -/
def clearVfs (s : State) (reads : List HostRead) : State :=
  let s := s.vfs.foldl (fun s fn => s.resetFunc fn true reads) s
  { s with host := { s.host with numVfs := 0 } }

/-- A hot reset (R123 to R125). -/
def hotReset (s : State) (reads : List HostRead) : State :=
  let s := (s.clearVfs reads)
  let s := [0, 1, 2, 3].foldl (fun s fn => s.resetFunc fn false reads) s
  s.settleAll.settleQuiet

/-! ### Requests to the device (R450) -/

/-- A memory request of function `fn` is served: the device runs, the function is enabled, in D0, and its
Memory Space Enable is 1 (R450). -/
def served (s : State) (fn : Nat) : Bool :=
  s.running && !(Nat.beq s.mode 6) && s.enabledFuncs.contains fn && s.flag (Reg.PCIE_FUNC_MSE.of fn) &&
    Nat.beq (s.fld (Reg.PCIE_FUNC_DSTATE.of fn)) 0

/-- A request that is not served completes with Unsupported Request (R450). -/
def unsupported (s : State) (fn : Nat) : State :=
  if s.running && !(Nat.beq s.mode 6) && s.enabledFuncs.contains fn then
    (s.count Cnt.PCIE_UR_SENT).emit (.unsupported fn)
  else s

/-! ### DRAM windows (R468 to R471) -/

/-- A staged window `w` may become active (R469). -/
def windowOk (s : State) (w : Nat) : Bool :=
  !s.flag (Reg.PCIE_WIN_STAGE_EN w) ||
    (let base := s.fld (Reg.PCIE_WIN_STAGE_BASE w) * 4096
     ((s.imp.image.map (·.parts)).getD []).any fun p =>
       Nat.beq p.kind 8 && Nat.beq p.owner (s.fld (Reg.PCIE_WIN_STAGE_OWNER w)) && Nat.ble p.base base &&
         Nat.ble (base + 0x800000) (p.base + p.size))

/-- PCIE_WIN_COMMIT (R469). -/
def commitWindows (s : State) (mask : Nat) : State :=
  let named := (List.range 4).filter mask.testBit
  let bad := named.filter fun w => !s.windowOk w
  if bad = [] then
    let s := named.foldl (fun s w => s.wr (Reg.PCIE_WIN_ACTIVE w) (s.rd (Reg.PCIE_WIN_STAGE w))) s
    s.postOpen 0x0504
  else
    let s := s.setFld Reg.PCIE_WIN_STATUS_REFUSED (bad.foldl (fun a w => a + 2 ^ w) 0)
    (s.setFld Reg.PCIE_WIN_STATUS_ERROR 1).postOpen 0x0505

/-- Window `w` is open to requests of function `fn` (R468). -/
def windowOpen (s : State) (w fn : Nat) : Bool :=
  s.flag (Reg.PCIE_WIN_ACTIVE_EN w) && Nat.beq (s.fld (Reg.PCIE_WIN_ACTIVE_OWNER w)) fn &&
    s.flag (Reg.PCIE_FUNC_MSE.of fn) && Nat.ble 2 s.mode && Nat.blt s.mode 5 &&
    Nat.beq (s.fld (Reg.PCIE_FUNC_DSTATE.of fn)) 0

def windowBase (s : State) (w : Nat) : Nat := s.fld (Reg.PCIE_WIN_ACTIVE_BASE w) * 4096

/-- Store the bytes of a write whose byte enables are set, within the window (R471). -/
def writeEnabled (s : State) (a : Nat) (poisoned : Bool) : List (Option Byte) → State
  | [] => s
  | none :: rest => s.writeEnabled (a + 1) poisoned rest
  | some b :: rest => (s.dramWrite a [b] poisoned).writeEnabled (a + 1) poisoned rest

/-- A write to window `w` through function `fn` (R454, R471): a byte whose enable is clear is `none`. -/
def windowWrite (s : State) (w fn off : Nat) (data : List (Option Byte)) (poisoned : Bool) : State :=
  let s := if poisoned then (s.count Cnt.PCIE_POISONED_RX).postOpenLimited 0x0506 else s
  if s.windowOpen w fn = false then s
  else if s.flag (Reg.PCIE_WIN_ACTIVE_RDONLY w) then s.count Cnt.PCIE_WIN_RO_DROP
  else s.writeEnabled (s.windowBase w + off) poisoned (data.take (0x800000 - off))

/-- A read of window `w` (R454, R470, R471); seen through another function, or disabled, it reads 0 (R8).
`ue`: the DRAM data has an uncorrectable error. -/
def windowRead (s : State) (w fn off len : Nat) (ue : Bool) : State :=
  if s.windowOpen w fn = false then s.emit (.completion fn (List.replicate len 0) false)
  else
    let (b, bad) := s.dramRead (s.windowBase w + off) len
    let s := if bad || ue then s.count Cnt.PCIE_POISONED_TX else s
    s.emit (.completion fn b (bad || ue))

/-! ### Interrupt modes (R458, R461) -/

/-- The mode of R458. -/
def irqMode (fn : Nat) (msix msi intxDisable : Bool) : Nat :=
  if msix then 3 else if msi && Nat.blt fn 4 then 2 else if !intxDisable && Nat.blt fn 4 then 1 else 0

/-- The message of vector `v` is sent if one is pending and no mask holds it (R461). -/
def deliverPending (s : State) (fn v : Nat) : State :=
  let x := s.vec fn v
  if x.pendingBit && !s.vecMasked fn v then (s.setVec fn v { x with pendingBit := false }).deliver fn v else s

/-- The vectors of function `fn` that hold something. -/
def liveVectors (s : State) (fn : Nat) : List Nat :=
  (s.host.vectors.filter fun p => Nat.beq (p.1 / 2048) fn).map fun p => p.1 % 2048

/-- Fields of Message Control of MSI-X and of MSI in the configuration space of a function. -/
def cfgMsix (fn lo : Nat) : Field := ⟨fn * 0x4000000 + 0x39000B0, lo, 1⟩

def cfgMsi (fn lo width : Nat) : Field := ⟨fn * 0x4000000 + 0x3900050, lo, width⟩

/-- R461: the interrupt mode of a function changes. -/
def changeMode (s : State) (fn : Nat) (msix mask msi : Bool) (messages : Nat) (intxDisable : Bool) : State :=
  let old := s.fld (Reg.PCIE_FUNC_IRQ_MODE.of fn)
  let mode := irqMode fn msix msi intxDisable
  let bit (w : BitVec 64) (b : Bool) : BitVec 64 := if b then w ||| 1#64 <<< fn else w &&& ~~~(1#64 <<< fn)
  let s := { s with host := { s.host with
      fnMask := bit s.host.fnMask mask, intxDisable := bit s.host.intxDisable intxDisable
      msiMessages := Table.set (fun _ => 1) s.host.msiMessages fn (max 1 messages) } }
  let s := s.setFld (Reg.PCIE_FUNC_IRQ_MODE.of fn) mode
  let s := (s.setFlag (cfgMsix fn 31) msix).setFlag (cfgMsix fn 30) mask
  let s := if fn < 4 then
      (s.setFlag (cfgMsi fn 16 1) msi).setFld (cfgMsi fn 20 3) (lowestBit 6 (max 1 messages)|>.getD 0)
    else s
  (s.liveVectors fn).foldl (fun s v =>
    let x := s.vec fn v
    if old ≠ mode ∧ 0 < x.requests then s.sendVector fn v
    else s.deliverPending fn v) s

end State

/-! ### Meanings -/

/-- An in-band hot reset, or Data Link Layer down, with the reads outstanding (R123 to R125, R466): with
HOT_FULL at 1 it acts as a fundamental reset, which samples the strap (R557). -/
def execHotReset (linkDown : Bool) (bootsel : BitVec 2) (reads : List HostRead) (s : State) : Out State :=
  .next (if s.mode = 6 ∨ s.running = false then s else
    let s := if linkDown then s.setFlag Reg.PCIE_LINK_UP false else s
    if s.flag Reg.GLB_RESET_CFG_HOT_FULL then
      { s with pwr := { s.pwr with bootsel := bootsel } }.enterBoot 0x11
    else s.hotReset reads)

/-- A function-level reset, with the reads outstanding (R465). -/
def execFlr (fn : BitVec 6) (reads : List HostRead) (s : State) : Out State :=
  .next (if s.enabledFuncs.contains fn.toNat = false then s else
    let s := if fn = 0 then s.clearVfs reads else s
    ((s.resetFunc fn.toNat true reads).settleAll.settleQuiet).post 0x0507 fn.toNat)

/-- A function enters D3hot (R118, R462). -/
def execD3hotEntry (fn : BitVec 6) (s : State) : Out State :=
  .next (if s.enabledFuncs.contains fn.toNat then
    (s.setFld (Reg.PCIE_FUNC_DSTATE.of fn.toNat) 3).hostChanged else s)

/-- A function returns to D0 (R118, R462). -/
def execD0Return (fn : BitVec 6) (s : State) : Out State :=
  .next (if s.enabledFuncs.contains fn.toNat then
    (s.setFld (Reg.PCIE_FUNC_DSTATE.of fn.toNat) 0).hostChanged else s)

/-- Bus Master Enable of a function changes (R451). -/
def execBusMasterEnableChange (fn : BitVec 6) (enable : Bool) (s : State) : Out State :=
  .next (if s.enabledFuncs.contains fn.toNat then
    (s.setFlag (Reg.PCIE_FUNC_BME.of fn.toNat) enable).hostChanged else s)

/-- A write of VF Enable of PF0 with NumVFs as set (R447), and the reads outstanding. -/
def execVfEnable (enable : Bool) (numVfs : BitVec 16) (reads : List HostRead) (s : State) : Out State :=
  .next (if enable then
    (if s.host.numVfs ≠ 0 then s
     else if 1 ≤ numVfs.toNat ∧ numVfs.toNat ≤ (s.imp.image.map (·.struct.totalVfs)).getD 0 then
       let s := { s with host := { s.host with numVfs := numVfs.toNat } }
       (s.vfs.foldl (fun s v => s.setFlag (Reg.PCIE_FUNC_MSE.of v) ((s.rd State.cfgSriov).getLsbD 3)) s).settleQuiet
     else s)
  else (s.clearVfs reads).settleQuiet)

/-- A write of PCIE_WIN_COMMIT through PF3 (R469). -/
def execWinCommit (windows : BitVec 4) (s : State) : Out State := .next (s.commitWindows windows.toNat)

/-- A host write to a DRAM window through the BAR0 of PF `fn` (R471). -/
def execWindowWrite (w fn : Fin 4) (off : BitVec 23) (data : List (Option Byte)) (poisoned : Bool)
    (s : State) : Out State :=
  .next (if s.served fn then s.windowWrite w fn off.toNat data poisoned else s.unsupported fn)

/-- A host read of a DRAM window (R470): at most 4,096 bytes. -/
def execWindowRead (w fn : Fin 4) (off : BitVec 23) (len : Fin 4097) (ue : Bool) (s : State) : Out State :=
  .next (if s.served fn then s.windowRead w fn off.toNat len ue else s.unsupported fn)

/-- A request the device does not serve completes with Unsupported Request (R450). -/
def execUnsupportedRequest (fn : BitVec 6) (kind : BadRequest) (s : State) : Out State :=
  .next (if kind = .memory ∧ s.flag (Reg.PCIE_FUNC_MSE.of fn.toNat) ∧
      s.fld (Reg.PCIE_FUNC_DSTATE.of fn.toNat) = 0 then s
    else (s.count Cnt.PCIE_UR_SENT).emit (.unsupported fn.toNat))

/-- The host link comes up, retrains, or changes speed or width (R472, R473). -/
def execLinkChange (speed : BitVec 3) (width : BitVec 4) (eqDone reversed : Bool) (lstate : BitVec 3)
    (s : State) : Out State :=
  .next (
    let s := ((s.setFld Reg.PCIE_LINK_SPEED speed.toNat).setFld Reg.PCIE_LINK_WIDTH width.toNat).setFlag
      Reg.PCIE_LINK_UP true
    let s := ((s.setFlag Reg.PCIE_LINK_EQ_DONE eqDone).setFlag Reg.PCIE_LINK_REVERSED reversed).setFld
      Reg.PCIE_LINK_LSTATE lstate.toNat
    s.postOpen 0x0501)

/-- TIME_US has passed since the first request pending on a vector (R460). -/
def execVectorCoalesceTimeout (fn : BitVec 6) (vector : BitVec 11) (s : State) : Out State :=
  .next (
    let x := s.vec fn.toNat vector.toNat
    let us := s.fld ((Reg.PCIE_VEC_TIME_US vector.toNat).of fn.toNat)
    if 0 < x.requests ∧ x.first + us * 1000 ≤ s.tb.uptime then s.sendVector fn.toNat vector.toNat else s)

/-- The mask of a vector, MSI-X or MSI as the mode in force has it, clears (R461). -/
def execVectorUnmask (fn : BitVec 6) (vector : BitVec 11) (s : State) : Out State :=
  .next (
    let x := s.vec fn.toNat vector.toNat
    let s := s.setVec fn.toNat vector.toNat
      (if s.fld (Reg.PCIE_FUNC_IRQ_MODE.of fn.toNat) = 2 then { x with msiMasked := false }
       else { x with unmasked := true })
    s.deliverPending fn.toNat vector.toNat)

/-- A write of PCIE_LTR_ACTIVE or, with `quiet`, PCIE_LTR_QUIET through PF3 (R464). -/
def execLtrWrite (quiet : Bool) (value : BitVec 16) (s : State) : Out State :=
  .next (
    let reg := if quiet then Reg.PCIE_LTR_QUIET else Reg.PCIE_LTR_ACTIVE
    let s := s.wrN reg (value.toNat &&& 0x9FFF)
    if quiet = Nat.beq s.mode 5 then s.sendLtr s.mode else s)

/-- A configuration write changes MSI-X Enable, its Function Mask, MSI Enable, the number of MSI messages
or Interrupt Disable of a function (R458, R461). -/
def execInterruptModeChange (fn : BitVec 6) (msix mask msi : Bool) (messages : BitVec 6) (intxDisable : Bool)
    (s : State) : Out State :=
  .next (s.changeMode fn.toNat msix mask msi messages.toNat intxDisable)

end Sys2Proof.Machine
end

