-- ==== Sys2Proof/Machine/Impose.lean ====
section
/-! DEFINITION. The end of Imposing (R86, R92, R98, R112, R184, R209, R329), partial re-imposition (R90 to
R96), and quire and engine resets (R126 to R128). -/

namespace Sys2Proof.Machine

namespace State

/-! ### Structure applied at the end of Imposing -/

/-- Engines, folios and the control folios as STRUCTURE and CODE have them (R377, R525). -/
def imposeEngine (s : State) (t : StructureSheet) (e : Nat) : State :=
  let r := roleOf t e
  let s := (s.setFld (Reg.ENG_ROLE_ROLE e) r.role).setFlag (Reg.ENG_ROLE_PRIV e) r.priv
  (s.setFld (Reg.ENG_ROLE_SLOT e) (e % 5)).setEngState e (if e % 5 = 4 then 3 else 0)

/-- Folio `f` runs the bundle that its roles name in STRUCTURE `t` (R78, R91). -/
def imposeFolio (s : State) (t : StructureSheet) (f : Nat) : State :=
  let k := ((folioRoles t f).find? fun r => !(Nat.beq r.role 0)).elim 0 fun r => r.bundle + 1
  let s := { s with imp := { s.imp with bundle := Table.set (fun _ => 0) s.imp.bundle f k } }
  match s.bundleOf f with
  | some b => (s.wrN (Reg.ENG_FOLIO_BUNDLE_LO f) b.id).wrN (Reg.ENG_FOLIO_BUNDLE_HI f) b.version
  | none => s

/-- The device's own PTP data set (R160): priority, class, accuracy, variance and second priority are not given, free
values; its identity is its serial number. -/
def imposeOwn (s : State) : State :=
  let v := s.freeVal.toNat
  { s.draw with ptp := { s.ptp with
      own := [bits v 0 8, bits v 8 8, bits v 16 8, bits v 24 16, bits v 40 8, Config.serial.toNat] } }

/-- The TIME sheet (R168, R169). -/
def imposeTime (s : State) (t : TimeSheet) : State :=
  let s := ((s.wrN Reg.TB_JUMP t.jump).wrN Reg.TB_LOCK_BOUND t.lockBound).wrN Reg.TB_SETUP_MARGIN t.setupMargin
  let s := ((s.wrN Reg.TB_SLEW_PPB t.slewPpb).setFlag Reg.TB_STATUS_DUAL t.dual).setFld
    Reg.TB_STATUS_WORKING t.working
  let s := (s.setFlag Reg.PTP_CTRL_ONE_STEP (t.flags.testBit 0)).setFlag Reg.PTP_CTRL_PEER_DELAY
    (t.flags.testBit 1)
  let slot (s : State) (i domain role : Nat) : State :=
    (s.setFld (Reg.PTP_DOM_CFG_DOMAIN i) domain).setFld (Reg.PTP_DOM_CFG_ROLE i) role
  let s := slot s 0 t.working 1
  let s := if t.dual then slot s 1 t.second 2 else s
  ((List.range 2).zip t.mon).foldl (fun s p => slot s (2 + p.1) p.2 3) s

/-- The 64 bits of a gate entry in a bank (R174). -/
def gateImage (g : GateEntry) : Nat :=
  g.gates.toNat + g.interval % 2 ^ 24 * 2 ^ 8 + g.op % 16 * 2 ^ 32 + g.reserved % 2 ^ 28 * 2 ^ 36

/-- A port record (R79, R184, R209): its initial list pends, with every gate closed till then. -/
def imposePort (s : State) (n : Nat) (p : PortRec) : State :=
  let s := ((s.setFld (Reg.PORT_MEDIA_MEDIA n) p.media).setFld (Reg.PORT_MEDIA_SPEED n) p.speed).setFld
    (Reg.PORT_MEDIA_FEC n) p.fec
  let s := (s.setFlag (Reg.PORT_MEDIA_PREEMPT_CAP n) p.preempt).setFlag (Reg.PORT_RX_FILTER_MODE n) p.pattern
  let s := (s.setFld (Reg.PORT_LEAD_LEAD_NS n) p.lead).setFld (Reg.PORT_HOLD_ADVANCE_HOLD_NS n)
    (holdAdvance p.speed)
  let s := if 8 ≤ n then
      ((s.setFld (Reg.PORT_PLCA_CTRL_ID n) p.plcaId).setFld (Reg.PORT_PLCA_CTRL_COUNT n) p.plcaCount).applyPlca n
    else s
  let s := s.setPort n { s.port n with settled := s.tb.uptime, awaiting := !p.gcl.isEmpty }
  let s := s.wrFull (Reg.PORT_ADMIN_BASE_LO n) p.base
  if p.gcl.isEmpty then s.gateRefresh n
  else
    let s := (s.setFld (Reg.PORT_ADMIN_CYCLE_CYCLE_NS n)
      p.cycle).setFld (Reg.PORT_ADMIN_LEN_LEN n) p.gcl.length
    let s := ((List.range p.gcl.length).zip p.gcl).foldl (fun s x =>
      s.wr64 (Reg.PORT_ADMIN_GCL_LO n x.1) (gateImage x.2)) s
    s.pendGcl n

/-- The RING sheet (R325, R326): both banks are loaded, and an enabled ring starts to listen. -/
def imposeRing (s : State) (r : RingSheet) : State :=
  let s := ((s.setFld Reg.RING_CYCLE_CYCLE_NS r.cycle).setFld Reg.RING_GUTTER_GUTTER_NS r.gutter).setFld
    Reg.RING_MISS_LIMIT_LIMIT r.missLimit
  let s := (s.setFld Reg.RING_PRIORITY_PRIORITY r.priority).setFld Reg.RING_ETHERTYPE_ETHERTYPE r.ethertype
  let s := { s with ring := { s.ring with ethertype := r.ethertype } }
  let s := (s.loadRingBank false r).loadRingBank true r
  if r.enabled then (((s.setFlag Reg.RING_CTRL_ENABLE true).freshRing).setBridge 0).setRing 1 else s

/-- An event-pin record (R328, R329): an output pin drives INIT_LEVEL. -/
def imposePin (s : State) (n : Nat) (p : PinRec) : State :=
  let s := ((s.setFld (Reg.EVT_PIN_CFG_FUNCTION n) p.function).setFld (Reg.EVT_PIN_CFG_POLARITY n)
    p.polarity).setFld (Reg.EVT_PIN_CFG_ALIGN n) p.align
  let s := (s.setFld (Reg.EVT_PIN_CFG_ALIGN_PORT n) p.alignPort).setFld (Reg.EVT_PIN_CFG_FILTER_NS n) p.filterNs
  let high := Nat.beq p.initLevel 1
  let s := if p.function = 5 then
      s.wrN Reg.EVT_LEVEL_OUT (setBit (s.rd Reg.EVT_LEVEL_OUT).toNat n high) else s
  if p.function = 3 ∨ p.function = 5 then s.setPinLevel n high else s

/-! ### Code versions (R92) -/

/-- The bundles and tip-ins loaded into the folios of quire `q`. -/
def codeVersion (s : State) (q : Nat) : List (Nat × Nat × Nat) :=
  ((Table.get (fun _ => []) s.imp.loaded q).filter fun c =>
    !(Nat.beq c.kind 3) && (c.folioMask.getLsbD (2 * q) || c.folioMask.getLsbD (2 * q + 1))).map
    fun c => (c.kind, c.id, c.version)

/-- The code versions of quire `q` and its pair are equal. -/
def codeMatches (s : State) (q : Nat) : Bool :=
  let a := s.codeVersion q
  let b := s.codeVersion (s.pairOf q)
  a.all b.contains && b.all a.contains

/-- R92: quire `q` is isolated with reason CODE_MISMATCH. -/
def isolateMismatch (s : State) (q : Nat) : State :=
  let s := (s.putBit Reg.IMP_REIMP_ISOLATED_QUIRES q true).setFld Reg.IMP_REIMP_STATUS_REASON 0x10
  (s.postImp 0x10).isolateQuire q

/-- Every quire comes into service in turn: the second of a pair is compared with the first. -/
def checkCode (s : State) : State :=
  (List.range 16).foldl (fun s q =>
    if s.pairOf q < q ∧ s.codeMatches q = false then s.isolateMismatch q else s) s

/-! ### The end of Imposing -/

/-- The image whose structure is in force shows in IMP_RUN (R95). -/
def showImage (s : State) (i : Image) : State :=
  (s.wr64 Reg.IMP_RUN_SERIAL_LO i.serial.toNat).setFlag Reg.IMP_RUN_KEY_OWNER_SIGNED
    (decide (s.fuses.ownerDigest = some i.pubkeyDigest))

/-- The Guard begins to watch (R525), where it is not in FAULT (R500). -/
def startGuard (s : State) (t : StructureSheet) : State :=
  let s := ((s.setFld Reg.GUARD_STATUS_ACTIVE t.ctrlActive).setFld Reg.GUARD_STATUS_STANDBY
    t.ctrlStandby).setGuard (if s.guardState = 5 then 5 else 1)
  let now := s.tb.uptime + 1
  let beat := Table.set (fun _ => 0) (Table.set (fun _ => 0) [] t.ctrlActive now) t.ctrlStandby now
  { s with guard := { s.guard with
      beat := beat, epochUs := s.fld Reg.GUARD_EPOCH_EPOCH_US, coloAt := some s.tb.uptime } }

/-- Structure is applied, stores are locked, code versions are checked, and the device enters Running or
Degraded; `out` are engines marked out at start. -/
def imposed (s : State) (i : Image) (out : BitVec 160) : State :=
  let t := i.struct
  let s := { s with imp := { s.imp with
      image := some i, pending := none, locked := 0xFFFF#16
      loaded := (List.range 16).foldl (fun l q => Table.set (fun _ => []) l q i.code) [] } }
  let s := ((s.setFld Reg.IMP_BOOT_STATUS_STAGE 5).setFld Reg.IMP_BOOT_STATUS_SOURCE s.imp.pendingSource).showImage i
  let s := (List.range 160).foldl (fun s e => s.imposeEngine t e) s
  let s := (List.range 32).foldl (fun s f => s.imposeFolio t f) s
  let s := (s.imposeTime i.time).imposeOwn.wrN (0x390016C) (t.totalVfs * 0x10001)
  let s := ((List.range 12).zip i.ports).foldl (fun s x => s.imposePort x.1 x.2) s
  let s := (s.imposeRing i.ring).setFld Reg.DMA_RESERVED_COUNT i.dmaReserved
  let s := ((List.range 32).zip i.pins).foldl (fun s x => s.imposePin x.1 x.2) s
  let s := ({ s with flows := { s.flows with keyDraw := s.free } }.draw).startGuard t
  let s := ([4, 0, 1, 2, 3].flatMap fun k => (List.range 32).map fun f => 5 * f + k).foldl (fun s e =>
    if out.getLsbD e then s.engineFails e else s) s
  let s : State := s.checkCode
  let s := if s.mode ≠ 1 then s
    else s.transition s.workMode (if s.fld Reg.IMP_REIMP_ISOLATED_QUIRES = 0 then 0x04 else 0x08)
  s.settleQuiet

/-! ### Planned handover, as far as requests start it (R505, R506) -/

/-- A handover may start now (R506). -/
def canHandOver (s : State) : Bool := Nat.beq s.guardState 1 && s.standbyValid && s.operating

/-- The Guard raises HANDOVER on both folios (R505). -/
def startHandover (s : State) (origin quire : Nat) : State :=
  let s := { s.setGuard 3 with guard := { s.guard with
      handover := some { since := s.tb.uptime, origin := origin, quire := quire } } }
  (s.raiseRoles s.ctrlActive 1 controlRoles).raiseRoles s.ctrlStandby 1 controlRoles

/-- The active control folio lies in quire `q`. -/
def holdsControl (s : State) (q : Nat) : Bool := Nat.beq (quireOf s.ctrlActive) q && !(Nat.beq s.guardState 0)

/-- A folio that is in service again is the standby, where there was none (R91, R503). -/
def rejoinStandby (s : State) : State :=
  if s.guardState = 4 ∧ s.folioReady s.ctrlStandby then s.setGuard 1 else s

/-! ### Partial re-imposition (R90 to R96) -/

def reimpState (s : State) : Nat := s.fld Reg.IMP_REIMP_STATUS_STATE

/-- R90, R96: GO.  DESIGN CHOICE: a GO in a mode other than Running or Degraded is refused with BUSY, as R119 has it
for Quiet, where R90 gives no reason for the others; and an accepted GO clears REASON, which R95 defines as that of
the last refusal or isolation without saying when it ends. -/
def reimpGo (s : State) : State :=
  if 1 ≤ s.reimpState ∧ s.reimpState ≤ 4 then (s.setFld Reg.IMP_REIMP_STATUS_REASON 0x11).postImp 0x11
  else if s.mode ≠ 2 ∧ s.mode ≠ 3 then s.refuseReimp 0x11
  else ((s.setFld Reg.IMP_REIMP_STATUS_STATE 1).setFld Reg.IMP_REIMP_STATUS_REASON 0).setFld
    Reg.IMP_REIMP_STATUS_DONE_QUIRES 0

end State

/-- An image with the parts that a re-imposition of the quires `named` may change left out (R90): SERIAL,
MANIFEST, SEAL, bundles, tip-ins, customer records of named quires alone, and roles in named quires.  The offsets and
lengths of sheets follow their contents. -/
def imageFixedParts (i : Image) (named : BitVec 16) : Image :=
  let folios : BitVec 32 := (List.range 32).foldl (fun m f =>
    if named.getLsbD (f / 2) then m ||| 1#32 <<< f else m) 0
  let roles := ((List.range i.struct.roles.length).zip i.struct.roles).map fun x =>
    if named.getLsbD (x.1 / 10) then ({} : RoleEntry) else x.2
  { i with
    imageLen := 0, sheets := [], serial := 0, pubkeyDigest := 0, sealed := {}, stepMask := 0, endpaperMin := 0
    binderMin := 0, binderMax := 0, bundleSet := 0, tipinSet := 0, bundles := [], tipins := [], matrix := []
    matrixSeal := {}, digest := 0, struct := { i.struct with roles := roles }
    code := i.code.filter fun c => Nat.beq c.kind 3 && !decide (c.folioMask &&& ~~~folios = 0)
    customerCount := 0, dmaReserved := 0 }

namespace State

/-- R90: the reason to refuse a request whose image is `i`; 0 to accept it.  DESIGN CHOICE: an image outside STAGING
reports FORMAT, and quires that may not be named PARTIAL_SCOPE; and a request verified while a quire reset is in
progress, which R90 does not list, is refused with BUSY. -/
def reimpReason (s : State) (i : Image) : Nat :=
  let named := BitVec.ofNat 16 (s.fld Reg.IMP_REIMP_QUIRES_QUIRES)
  let addr := s.rd64 Reg.IMP_REIMP_ADDR_LO
  let len := (s.rd Reg.IMP_REIMP_LEN).toNat
  let quires := (List.range 16).filter named.getLsbD
  let staged := ((s.imp.image.map (·.parts)).getD []).any fun p =>
    Nat.beq p.kind 7 && Nat.ble p.base addr && Nat.ble (addr + len) (p.base + p.size)
  let reason := imageReason i len s.boot.dramBytes (s.rd Reg.GLB_BINDER_VER).toNat s.fuses
  if s.mode ≠ 2 ∧ s.mode ≠ 3 then 0x11
  else if staged = false ∨ addr % 8 ≠ 0 then 0x01
  else if reason ≠ 0 then reason
  else if (s.imp.image.map (imageFixedParts · named)) ≠ some (imageFixedParts i named) then 0x0F
  else if quires = [] ∨ quires.any (fun q => named.getLsbD (s.pairOf q) || s.quireOut q) then 0x0F
  else if s.fld Reg.GLB_RESET_STATUS_QUIRE_BUSY ≠ 0 then 0x11
  else 0

/-- Verification ends (R90, R91 step 1): refused, or Reimposing with the named quires emptying. -/
def reimpVerified (s : State) (i : Image) : State :=
  if s.reimpState ≠ 1 then s
  else
    let r := s.reimpReason i
    let named := BitVec.ofNat 16 (s.fld Reg.IMP_REIMP_QUIRES_QUIRES)
    let control := (List.range 16).find? fun q => named.getLsbD q && s.holdsControl q
    if r ≠ 0 then s.refuseReimp r
    else if control.isSome ∧ s.canHandOver = false then s.refuseHandover.refuseReimp 0x11
    else
      let s := { s with imp := { s.imp with
          reimp := { image := some i, named := named, migratingOut := named } } }
      let s := (s.transition 4 0x09).setFld Reg.IMP_REIMP_STATUS_STATE 2
      let s := (List.range 16).foldl (fun s q =>
        if named.getLsbD q && !s.holdsControl q then
          { s with units := { s.units with carried := s.units.carried ||| 1#16 <<< q } } else s) s
      match control with
      | some q => s.startHandover 1 q
      | none => s

/-- Every engine of quire `q` is idle or at a safe point (R91, R366). -/
def quireSafe (s : State) (q : Nat) : Bool :=
  (folioEngines (2 * q) ++ folioEngines (2 * q + 1)).all fun e =>
    !s.engRuns e || (s.eng e).safe || (s.eng e).waiting.isSome

/-- A handover that the re-imposition asked for has not ended (R91, step 1). -/
def reimpHandsOver (s : State) : Bool := s.guard.handover.any fun h => Nat.beq h.origin 1

/-- R91 steps 2 and 3: quire `q` is empty, and the writing of its stores begins.  No store is written while the
handover of step 1 may still be refused (R89, R506). -/
def reimpMigratedOut (s : State) (q : Nat) : State :=
  let r := s.imp.reimp
  if r.migratingOut.getLsbD q && !s.holdsControl q && !s.reimpHandsOver && !(Nat.beq s.guardState 2) &&
      s.quireSafe q then
    match r.image with
    | none => s
    | some _ =>
      let s := s.migrateOut q
      let s := { s with imp := { s.imp with
          locked := s.imp.locked &&& ~~~(1#16 <<< q)
          reimp := { r with
            migratingOut := r.migratingOut &&& ~~~(1#16 <<< q), loading := r.loading ||| 1#16 <<< q } } }
      s.reimpPhase
  else s

/-- The roles of a reloaded quire are the new image's; an engine marked out stays so, and a spare keeps the
role it has taken (R91). -/
def reloadRoles (s : State) (q : Nat) (i : Image) : State :=
  (folioEngines (2 * q) ++ folioEngines (2 * q + 1)).foldl (fun s e =>
    if s.engState e = 4 ∨ s.fld (Reg.ENG_ROLE_SLOT e) ≠ e % 5 then s
    else (s.setFld (Reg.ENG_ROLE_ROLE e) (roleOf i.struct e).role).setFlag (Reg.ENG_ROLE_PRIV e)
      (roleOf i.struct e).priv) s

/-- R91, step 3: of the records read again, each of the new image's bundles and tip-ins is the one verified before, and
verifies. -/
def recordsOk (i : Image) (records : List CodeRec) : Bool :=
  (records.all fun c => Nat.beq c.kind 3 || c.verified) &&
    decide ((records.map fun c => (c.kind, c.id, c.version)) = i.code.map fun c => (c.kind, c.id, c.version))

/-- R91 steps 3 and 4, R92: the stores of quire `q` hold the records as they were read again, `records`, and are locked;
its code version is checked. -/
def reimpLoaded (s : State) (q : Nat) (records : List CodeRec) : State :=
  let r := s.imp.reimp
  if r.loading.getLsbD q = false then s
  else match r.image with
    | none => s
    | some i =>
      let s := { s with imp := { s.imp with
          locked := s.imp.locked ||| 1#16 <<< q, loaded := Table.set (fun _ => []) s.imp.loaded q records } }
      let s := ((s.reloadRoles q i).imposeFolio i.struct (2 * q)).imposeFolio i.struct (2 * q + 1)
      if recordsOk i records && s.codeMatches q then
        { s with imp := { s.imp with reimp := { r with
            loading := r.loading &&& ~~~(1#16 <<< q)
            migratingBack := r.migratingBack ||| 1#16 <<< q } } }.reimpPhase
      else (s.isolateMismatch q).reimpPhase

/-- R91, step 5 and the end: the reloaded quires have their work back, and the new image runs. -/
def reimpDone (s : State) : State :=
  let r := s.imp.reimp
  if s.mode = 4 ∧ r.migratingOut = 0 ∧ r.loading = 0 then
    match r.image with
    | none => s
    | some i =>
      let s := { s with imp := { s.imp with image := some i, reimp := {} } }
      let s := (List.range 16).foldl (fun s q =>
        if r.migratingBack.getLsbD q then
          (s.putBit Reg.IMP_REIMP_STATUS_DONE_QUIRES q true).migrateBack q else s) s
      let s := ((s.showImage i).setFld Reg.IMP_REIMP_STATUS_STATE 5).postImp 0x20
      (((s.transition s.workMode 0x0A).showDegraded).rejoinStandby).settleQuiet
  else s

/-! ### Quire and engine resets (R126 to R128) -/

def resetRefusal (s : State) (code : Nat) : State := s.setFld Reg.GLB_RESET_STATUS_REFUSAL code

/-- Quire `q` is in a reset or a re-imposition. -/
def quireInReset (s : State) (q : Nat) : Bool :=
  s.bit Reg.GLB_RESET_STATUS_QUIRE_BUSY q || s.imp.reimp.named.getLsbD q

/-- R128, for quire `q`: the lowest code that applies. -/
def quireResetRefusal (s : State) (q : Nat) : Nat :=
  if s.quireInReset q || s.quireInReset (s.pairOf q) then 1
  else if s.quireOut (s.pairOf q) then 2
  else if s.bit Reg.IMP_REIMP_ISOLATED_QUIRES q then 3
  else if s.units.dieLost.getLsbD (dieOf q) then 5
  else if s.mode ≠ 2 ∧ s.mode ≠ 3 then 6 else 0

/-- A reset of quire `q` is asked for (R126). -/
def quireReset (s : State) (q : Nat) : State :=
  let r := s.quireResetRefusal q
  if r ≠ 0 then s.resetRefusal r
  else if s.holdsControl q then
    (if s.canHandOver then (s.quireResetStart q true).startHandover 2 q
     else s.refuseHandover.resetRefusal 1)
  else s.quireResetStart q false

/-- A known-answer test of engine `e` has failed (R514). -/
def katFails (s : State) (e : Nat) : State := (s.count Cnt.HLTH_KAT_FAIL).post 0x0306 e

/-- The engines of folio `f` that were in test are in service again; then those that failed are marked out,
the idle spare first. -/
def endTests (s : State) (f : Nat) (failed : Nat → Bool) : State :=
  let tested := (folioEngines f).filter fun e => Nat.beq (s.engState e) 6
  let s := tested.foldl (fun s e => (s.setEngState e (if s.fld (Reg.ENG_ROLE_SLOT e) = 4 then 3 else 0)).count
    Cnt.HLTH_KAT_RUN) s
  let bad := tested.filter failed
  let spares := bad.filter fun e => Nat.beq (s.engState e) 3
  let others := bad.filter fun e => !(Nat.beq (s.engState e) 3)
  ((spares ++ others).foldl (fun s e => (s.katFails e).checkedFault 0x01 e .none) s).takeAll f

/-- The tests of a quire reset end (R126): its work migrates back and its isolation ends, where it passes. -/
def quireResetDone (s : State) (q : Nat) (marchOk : Bool) (failed : BitVec 10) : State :=
  if s.bit Reg.GLB_RESET_STATUS_QUIRE_BUSY q && !s.holdsControl q then
    let s := s.putBit Reg.GLB_RESET_STATUS_QUIRE_BUSY q false
    let s := (s.endTests (2 * q) fun e => failed.getLsbD (e % 10)).endTests (2 * q + 1) fun e =>
      failed.getLsbD (e % 10)
    let s := if marchOk then s else s.isolateQuire q
    let out := s.units.folioOut.getLsbD (2 * q) || s.units.folioOut.getLsbD (2 * q + 1) || !marchOk
    if out ∨ s.mode = 7 then s.showDegraded
    else
      let s := { s with units := { s.units with quireIso := s.units.quireIso &&& ~~~(1#16 <<< q) } }
      ((s.migrateBack q).restore).rejoinStandby
  else s

/-- R128, for engine `e`: the lowest code that applies.  DESIGN CHOICE: an engine reset while another runs is refused
with BUSY, which R128 says of quire resets and re-impositions alone: GLB_RESET_STATUS has one ENGINE_BUSY. -/
def engineResetRefusal (s : State) (e : Nat) : Nat :=
  let q := quireOf (folioOf e)
  if s.flag Reg.GLB_RESET_STATUS_ENGINE_BUSY || s.quireInReset q || s.quireInReset (s.pairOf q) then 1
  else if s.quireOut (s.pairOf q) then 2
  else if s.bit Reg.IMP_REIMP_ISOLATED_QUIRES q then 3
  else if s.engState e ≠ 4 ∧ s.engState e ≠ 3 then 4
  else if s.units.dieLost.getLsbD (dieOf q) then 5
  else if s.mode ≠ 2 ∧ s.mode ≠ 3 then 6 else 0

/-- GLB_ERESET.GO for engine `e` (R127); an index above 159 is outside the field's range (R580). -/
def engineReset (s : State) (e : Nat) : State :=
  let r := s.engineResetRefusal e
  if 160 ≤ e then s
  else if r ≠ 0 then s.resetRefusal r
  else
    let s := ((s.setEng e {}).setEngState e 6).setFlag Reg.GLB_RESET_STATUS_ENGINE_BUSY true
    { s with units := { s.units with ereset := some e } }

/-- The known-answer test after an engine reset ends (R127). -/
def engineKatDone (s : State) (pass : Bool) : State :=
  match s.units.ereset with
  | none => s
  | some e =>
    let f := folioOf e
    let s := ({ s with units := { s.units with ereset := none } }.setFlag Reg.GLB_RESET_STATUS_ENGINE_BUSY
      false).count Cnt.HLTH_KAT_RUN
    if pass then
      let s := (((s.setEngState e 3).setFld (Reg.ENG_ROLE_SLOT e) 4).setFld (Reg.ENG_ROLE_ROLE e) 1).setFlag
        (Reg.ENG_ROLE_PRIV e) false
      let s := s.setFlag (Reg.ENG_FOLIO_SPARE_USED f) false
      let s := { s with units := { s.units with
          engOut := s.units.engOut &&& ~~~(1#160 <<< e), spareUsed := s.units.spareUsed &&& ~~~(1#32 <<< f) } }
      s.restore
    else ((s.katFails e).markOut e).degrade 0x05

end State

/-! ### Meanings -/

/-- Imposing ends (R86, step 7): `out` are engines marked out at start. -/
def execImposed (out : BitVec 160) (s : State) : Out State :=
  .next (match s.imp.pending with
    | some i => if s.mode = 1 then s.imposed i out else s
    | none => s)

/-- A write of IMP_REIMP_CTRL with GO (R90, R96). -/
def execReimpGo (s : State) : Out State := .next s.reimpGo

/-- A write of IMP_REIMP_CTRL with ABANDON (R93).  DESIGN CHOICE: R93 gives an abandoned request no code; STATE reads
REFUSED, REASON stays 0 and no event is posted. -/
def execAbandon (s : State) : Out State :=
  .next (if s.reimpState = 1 then s.setFld Reg.IMP_REIMP_STATUS_STATE 6 else s)

/-- Verification of a partial re-imposition ends: `img` is the staged image as the binder reads it. -/
def execReimpVerified (img : Image) (s : State) : Out State := .next (s.reimpVerified img)

def execReimpMigratedOut (quire : Fin 16) (s : State) : Out State := .next (s.reimpMigratedOut quire)

/-- A named quire is loaded: `records` are the CODE records as the binder reads them again. -/
def execReimpLoaded (quire : Fin 16) (records : List CodeRec) (s : State) : Out State :=
  .next (s.reimpLoaded quire records)

def execReimpDone (s : State) : Out State := .next s.reimpDone

/-- A write of GLB_QRESET through PF3: each quire it names is judged in turn (R126, R128). -/
def execQuireReset (quires : BitVec 16) (s : State) : Out State :=
  .next (((List.range 16).filter quires.getLsbD).foldl (fun s q => s.quireReset q) s)

/-- The march test of a quire reset and its engines' known-answer tests end; bit k of `failed` is the k-th
engine of the quire (R126). -/
def execQuireResetDone (quire : Fin 16) (marchOk : Bool) (failed : BitVec 10) (s : State) : Out State :=
  .next (s.quireResetDone quire marchOk failed)

/-- A write of GLB_ERESET with GO through PF3 (R127, R128). -/
def execEngineReset (engine : BitVec 8) (s : State) : Out State := .next (s.engineReset engine.toNat)

def execEngineKatDone (pass : Bool) (s : State) : Out State := .next (s.engineKatDone pass)

end Sys2Proof.Machine
end

