-- ==== Sys2Proof/Machine/Guard.lean ====
section
/-! DEFINITION. The Guard, state copy, self-tests, spare rows, the bound pair, the colophon, and the
thermal and management pins (R494 to R527, R552). -/

namespace Sys2Proof.Machine

namespace State

/-! ### Heartbeats (R496 to R499) -/

/-- The liaison of folio `f`: an active GUARD_LIAISON engine in the folio's quire (R495). -/
def hasLiaison (s : State) (f : Nat) : Bool :=
  (folioEngines (2 * quireOf f) ++ folioEngines (2 * quireOf f + 1)).any fun e =>
    s.engActive e && Nat.beq (s.engRole e) 0x13

/-- A heartbeat of folio `f` is due: one at each multiple of 10 µs, which leaves within 1 µs (R496). -/
def beatDue (s : State) (f : Nat) : Bool :=
  Nat.ble (s.tb.uptime % 10000) 1000 &&
    Nat.ble (Table.get (fun _ => 0) s.guard.beatSlot f) (s.tb.uptime / 10000)

/-- The liaison of folio `f` sends its heartbeat, with the alive counts of its control roles (R496). -/
def heartbeatSend (s : State) (f : Nat) (alive : List Nat) : State :=
  if s.guardState = 0 ∨ s.operating = false ∨ s.hasLiaison f = false ∨ s.beatDue f = false then s
  else
    let act := Nat.beq f s.ctrlActive
    let seq := Table.get (fun _ => 0) s.guard.beatSeq f
    let beat : Heartbeat :=
      { folio := f, seq := seq, alive := alive, ready := s.folioReady f, act := act
        epoch := if act then s.guard.epoch - s.guard.copying.toNat else (s.rd Reg.GUARD_EPOCH_LAST).toNat }
    { s with guard := { s.guard with
        beats := s.guard.beats ++ [beat]
        beatSeq := Table.set (fun _ => 0) s.guard.beatSeq f ((seq + 1) % 2 ^ 16)
        beatSlot := Table.set (fun _ => 0) s.guard.beatSlot f (s.tb.uptime / 10000 + 1) } }

/-- The standby does not stand by (R499). -/
def noStandby (s : State) : State :=
  if s.standbyValid then (s.setFlag Reg.GUARD_STATUS_STANDBY_VALID false).postOpen 0x0205 else s

/-- The alive counts of the active folio that have changed (R498). -/
def noteAlive (s : State) (l : List Nat) : State :=
  (List.range 3).foldl (fun s k =>
    let count := l.getD k 0 + 1
    if (Table.get (fun _ => (0, 0)) s.guard.alive k).1 = count then s
    else { s with guard := { s.guard with
        alive := Table.set (fun _ => (0, 0)) s.guard.alive k (count, s.tb.uptime) } }) s

/-- The Guard accepts a heartbeat (R498, R499, R501 step 5). -/
def heartbeatTaken (s : State) (b : Heartbeat) : State :=
  let s := { s with guard := { s.guard with
      beat := Table.set (fun _ => 0) s.guard.beat b.folio (s.tb.uptime + 1) } }
  if b.folio = s.ctrlActive then
    let s : State := s.noteAlive b.alive
    if s.guardState = 2 ∧ b.act ∧ s.guard.resumed = false then
      ({ s with guard := { s.guard with resumed := true } }.servoResumes).setFld Reg.GUARD_LAST_GAP_US
        (min 65535 ((s.tb.uptime - s.guard.oldBeat) / 1000))
    else s
  else if b.folio = s.ctrlStandby then
    let s := { s with guard := { s.guard with ready := b.ready } }
    if b.ready then s else s.noStandby
  else s

/-- Folio `f` has been silent for 3,000 ticks of the Guard (R498). -/
def silent (s : State) (f : Nat) : Bool :=
  Nat.ble (Table.get (fun _ => 0) s.guard.beat f + 29880) (s.tb.uptime + 1)

/-- The Guard judges its folios (R498, R500). -/
def guardWatches (s : State) : Bool :=
  s.operating && !(Nat.beq s.guardState 0) && !(Nat.beq s.guardState 5)

/-- The old active folio's engines have passed or failed their known-answer tests (R503). -/
def takeoverDone (s : State) (failed : BitVec 5) : State :=
  if s.guardState = 2 ∧ s.guard.resumed then
    let f := s.ctrlStandby
    let s := s.endTests f fun e => failed.getLsbD (e % 5)
    let well := decide (failed = 0) && s.quireUp (quireOf f) && !s.units.folioOut.getLsbD f
    let s := if s.guardState ≠ 2 then s
      else if well then s.setGuard 1 else (s.setGuard 4).postOpen 0x0205
    s.postOpen 0x0202
  else s

/-! ### Planned handover (R505, R506) -/

/-- A planned handover that has not switched within its limit is abandoned. -/
def handoverLimit (s : State) : State :=
  match s.guard.handover with
  | none => s
  | some h =>
    if s.guardState = 3 ∧
        h.since + 2 * s.guard.epochUs * 1000 + 2 * s.ringCycleNs ≤ s.tb.uptime ∧ s.operating then s.abandonHandover
    else s

/-- The Guard switches (R505, step 4). -/
def switchHandover (s : State) : State :=
  match s.guard.handover with
  | some h =>
    if s.guardState = 3 ∧ h.complete then
      let s := (s.swapControl.count Cnt.GUARD_HANDOVERS).setGuard 1
      let s := (s.setFld Reg.GUARD_LAST_CAUSE 5).setFld Reg.GUARD_LAST_GAP_US 0
      (s.postOpen 0x0203).controlLeft (some h)
    else s
  | none => s

/-! ### State copy (R507, R508) and checking replay (R513) -/

/-- This device may send and take on the pair link (R515). -/
def pairOn (s : State) : Bool := s.pairOpen && !(Nat.beq s.mode 6)

/-- The roles commit the records of an epoch: the servo's state (R150), and the ring master's, where the partner is
to have it (R507, R519). -/
def commitEpoch (s : State) : State :=
  { s with guard := { s.guard with
      copying := true, copyServo := (s.tb.rate, s.tb.rates)
      copyRing := if s.systemActive && s.pairOn then some s.ringEpoch else none } }

/-- An epoch boundary (R507). -/
def epochBoundary (s : State) : State :=
  if s.operating ∧ s.guardState ≠ 0 ∧ s.tb.uptime % (s.guard.epochUs * 1000) = 0 then
    let s := s.tearEpoch
    let copies := s.guardState = 1 ∨ s.guardState = 3 ∨ s.guardState = 5
    let s := { s with guard := { s.guard with
        epochUs := s.fld Reg.GUARD_EPOCH_EPOCH_US, epoch := (s.guard.epoch + 1) % 2 ^ 32 } }
    let s := if copies then s.commitEpoch else s
    s.raiseRoles s.ctrlActive 2 controlRoles
  else s

/-- The outcome of one replayed record. -/
def replayed (s : State) (r : Replay) : State :=
  if s.standbyValid && s.flag Reg.HLTH_TEST_CFG_REPLAY_EN then
    let s := s.count Cnt.GUARD_REPLAY_RUN
    if r = .equal then { s with guard := { s.guard with charged := 0 } }
    else
      let s := (s.count Cnt.GUARD_REPLAY_MISMATCH).postOpenLimited 0x0207
      if r = .chargedActive then
        let s := { s with guard := { s.guard with charged := s.guard.charged + 1 } }
        if s.fld Reg.GUARD_REPLAY_LIMIT ≤ s.guard.charged then
          { s with guard := { s.guard with charged := 0 } }.checkedFault 0x09 s.ctrlActive .none
        else s
      else { s with guard := { s.guard with charged := 0 } }
  else s

/-- An epoch complete at the standby (R508): the servo's state can be loaded from it (R150), and the ring master's is
forwarded to the partner (R519). -/
def epochComplete (s : State) : State :=
  let s := { s with tb := { s.tb with saved := s.guard.copyServo } }
  let s := match s.guard.copyRing with
    | some e => if s.systemActive && s.pairOn then s.emit (.pairEpoch e) else s
    | none => s
  let s := (s.count Cnt.GUARD_EPOCHS).wrN Reg.GUARD_EPOCH_LAST s.guard.epoch
  if (s.guardState = 1 ∨ s.guardState = 3) ∧ s.guard.ready ∧ s.silent s.ctrlStandby = false then
    s.setFlag Reg.GUARD_STATUS_STANDBY_VALID true
  else s

/-- The state-copy channels from the active control folio to the standby hold the credit for a trailer, one flit on
each link (R32, R33, R507). -/
def epochMayCross (s : State) : Bool :=
  s.spineHolds (spineKey (dieOf (quireOf s.ctrlActive)) 2 1) 1 &&
    s.spineHolds (spineKey (dieOf (quireOf s.ctrlStandby)) 2 0) 1

/-- The records and the trailer of an epoch cross; the credits of the records have come back by then. -/
def epochCrosses (s : State) : State :=
  (s.spineCross (spineKey (dieOf (quireOf s.ctrlActive)) 2 1) 1).spineCross
    (spineKey (dieOf (quireOf s.ctrlStandby)) 2 0) 1

/-- The trailer of epoch `number` arrives (R508); the final epoch of a handover, where none is being copied,
takes the next number.  A trailer of any other number belongs to an epoch already torn. -/
def epochTrailer (s : State) (number : Nat) (final whole : Bool) (replays : List Replay) : State :=
  let begins := final && !s.guard.copying && s.guard.handover.isSome
  let s := if begins then
      { s with guard := { s.guard with epoch := (s.guard.epoch + 1) % 2 ^ 32 } }.commitEpoch else s
  if s.guard.copying = false ∨ number ≠ s.guard.epoch ∨ s.epochMayCross = false then s
  else if whole = false then s.epochCrosses.tearEpoch
  else
    let s := s.epochCrosses
    let s := { s with guard := { s.guard with copying := false } }.epochComplete
    let s : State := replays.foldl (fun s r => s.replayed r) s
    if final then
      let s := { s with guard := { s.guard with
          handover := s.guard.handover.map fun h => { h with complete := true } } }
      if s.ringRuns then s else s.switchHandover
    else s

/-! ### Spare rows and self-tests (R512 to R514) -/

/-- The key of an array in `Guard.rows`, and its spare rows (R512). -/
def rowKey : RowArray → Nat × Nat
  | .quireStore q => (q, 64)
  | .sharedStore f => (16 + f, 16)
  | .privateStore e => (48 + e, 4)
  | .packetBuffer => (208, 256)
  | .flowCache => (209, 128)
  | .queueCache => (210, 64)

/-- Spare rows used in the array of key `k`. -/
def rowsUsed (s : State) (k : Nat) : Nat := Table.get (fun _ => 0) s.guard.rows k

/-- A row of `array` is spared; where no spare row is left it is not, and `cells` cells of a packet-buffer
row that are free are marked out. -/
def spareRow (s : State) (array : RowArray) (cells : Nat) : State :=
  let (k, limit) := rowKey array
  if s.rowsUsed k < limit then
    let s := { s with guard := { s.guard with
        rows := Table.set (fun _ => 0) s.guard.rows k (s.rowsUsed k + 1) } }
    (s.count Cnt.HLTH_ROWS_SPARED).postOpenLimited 0x0304
  else
    let n := if array = .packetBuffer then min cells s.cells.free else 0
    let s := { s with cells := { s.cells with
        free := s.cells.free - n, allocated := s.cells.allocated + n, markedOut := s.cells.markedOut + n } }
    (s.count Cnt.HLTH_ROW_SPARES_OUT).postOpen 0x0305

/-- The corrected errors that a row has shown are counted (R512, R526, R378). -/
def countCorrected (s : State) (array : RowArray) : State :=
  let n := s.fld Reg.HLTH_ROW_CFG_CE_LIMIT
  match array with
  | .sharedStore _ | .privateStore _ => (s.countN Cnt.ENG_CS_ECC_CORR n).postOpenLimited 0x1A06
  | _ => s.countN Cnt.HLTH_SRAM_CE n

/-- An engine whose turn a known-answer test may be: a standby engine, or an idle spare (R513). -/
def mayTest (s : State) (e : Nat) : Bool := Nat.beq (folioOf e) s.ctrlStandby || Nat.beq (s.engState e) 3

/-- One test of R513, or the end of a full pass (R514). -/
def selfTest (s : State) : SelfTest → State
  | .kat e pass =>
    if s.standbyValid && s.flag Reg.HLTH_TEST_CFG_KAT_EN && s.mayTest e then
      let s := s.count Cnt.HLTH_KAT_RUN
      if pass then s else (s.katFails e).checkedFault 0x01 e .none
    else s
  | .march array pass =>
    if s.standbyValid && s.flag Reg.HLTH_TEST_CFG_MARCH_EN then
      let s := s.count Cnt.HLTH_MARCH_ROWS
      if pass then s
      else ((s.count Cnt.HLTH_MARCH_FAIL).postOpenLimited 0x0307).spareRow array 0
    else s
  | .passDone =>
    if s.standbyValid then { s with guard := { s.guard with lastPass := s.tb.uptime / 1000000 % 2 ^ 32 } }
    else s

/-! ### The pair (R515 to R521) -/

/-- Waiting frame copies of the pair link are dropped and counted (R521). -/
def dropPairCopies (s : State) : State :=
  let l := s.pairLink.copies
  let s := { s with pairLink := { s.pairLink with copies := [] } }
  l.foldl (fun s c => (s.flowDropped c.flow).dropCopy c.frame) s

/-- A heartbeat of the partner (R515): its vote, serial, priority and role, the image sets it runs, and the
cell credits it returns (R521). -/
def pairHeartbeat (s : State) (vote serial priority : Nat) (active equal : Bool) (credits : Nat) : State :=
  let s := s.wr64 Reg.GUARD_PARTNER_LO serial
  let s := { s with pairLink := { s.pairLink with credits := s.pairLink.credits + credits } }
  let s := s.sendPairCopies (s.pairLink.copies.length + 1)
  if equal then
    let was := s.pair.bound
    let s := (s.setFlag Reg.GUARD_PAIR_STATUS_MISMATCH false).setFld Reg.GUARD_PAIR_STATUS_PARTNER_VOTE vote
    let s := { s with pair := { s.pair with
        seen := some s.tb.uptime, bound := true, priority := priority, active := active } }
    (if was then s else s.postOpen 0x020A).pairUpdate
  else
    let s := if s.flag Reg.GUARD_PAIR_STATUS_MISMATCH then s
      else (s.setFlag Reg.GUARD_PAIR_STATUS_MISMATCH true).postOpen 0x020B
    s.unbind.pairUpdate

/-- No heartbeat has arrived for 300 µs: three have been missed (R515). -/
def pairLost (s : State) : State :=
  match s.pair.seen with
  | some t =>
    if s.pair.bound ∧ t + 300000 ≤ s.tb.uptime then
      ((s.countN Cnt.GUARD_PAIR_HB_MISSED 3).unbind).pairUpdate
    else s
  | none => s

/-- An edge of ARB_VOTE_IN (R517). -/
def arbVoteEdge (s : State) : State :=
  let good := match s.pair.arbEdge with
    | some t => Nat.ble (t + 1000) s.tb.uptime && Nat.ble s.tb.uptime (t + 100000)
    | none => false
  { s with pair := { s.pair with arbEdge := some s.tb.uptime, arbToggles := good } }.pairUpdate

/-- More than 100 µs have passed without an edge (R517). -/
def arbVoteTimeout (s : State) : State :=
  match s.pair.arbEdge with
  | some t => if t + 100000 < s.tb.uptime then
      { s with pair := { s.pair with arbToggles := false } }.pairUpdate else s
  | none => s

/-- A lane of the pair link goes up or down (R515, R521). -/
def pairLane' (s : State) (lane : Nat) (up : Bool) : State :=
  let old := s.pairLink.lanes
  let bit : BitVec 2 := 1#2 <<< lane
  let new := if up then old ||| bit else old &&& ~~~bit
  let s := { s with pairLink := { s.pairLink with
      lanes := new, credits := if old = 0 ∧ new ≠ 0 then 512 else s.pairLink.credits } }
  let s := s.setFld Reg.GUARD_PAIR_STATUS_LANES (popCount 2 new.toNat)
  if new = 0 then s.dropPairCopies.unbind.pairUpdate
  else s.sendPairCopies (s.pairLink.copies.length + 1)

/-- GUARD_PAIR_CTRL takes `v` (R516, R517, R525). -/
def pairCtrl (s : State) (v : Word) : State :=
  let s := s.wr Reg.GUARD_PAIR_CTRL (v &&& 0xFF0F#32)
  if s.flag Reg.GUARD_PAIR_CTRL_ENABLE then s.pairUpdate
  else
    let s := { s with pair := { s.pair with bound := false, active := false, seen := none } }
    (s.dropPairCopies.setFld Reg.GUARD_PAIR_STATUS_PARTNER_VOTE 0).pairUpdate

/-! ### The colophon (R522, R523) -/

/-- TIME_FLAGS, GUARD and PAIR of the colophon. -/
def coloTime (s : State) : Nat := bits (s.rd Reg.TB_STATUS).toNat 0 5

def coloGuard (s : State) : Nat := s.guardState + 8 * s.standbyValid.toNat

def coloPair (s : State) : Nat :=
  s.fld Reg.GUARD_PAIR_STATUS_ROLE + 4 * s.fld Reg.GUARD_PAIR_STATUS_OWN_VOTE +
    16 * s.fld Reg.GUARD_PAIR_STATUS_PARTNER_VOTE + 64 * s.fld Reg.GUARD_PAIR_STATUS_ARB_FOR +
    128 * (decide (s.pairLink.lanes ≠ 0)).toNat

/-- Spare rows used in quire `q`: its store, and the control stores of its folios and engines. -/
def quireRows (s : State) (q : Nat) : Nat :=
  s.rowsUsed q + s.rowsUsed (16 + 2 * q) + s.rowsUsed (17 + 2 * q) +
    ((List.range 10).map fun k => s.rowsUsed (48 + 10 * q + k)).sum

/-- The highest HLTH_TEMP_d.MAX. -/
def tempMax (s : State) : Nat :=
  (List.range 5).foldl (fun m d =>
    let t := s.fld (Reg.HLTH_TEMP_MAX d)
    if signed 16 m < signed 16 t then t else m) 0x8000

/-- Bytes 0x000 to 0x05F: the record, the device, the control folios, the pair and what is out. -/
def coloHead (s : State) (seq : Nat) : List Byte :=
  leBytes 4 0x46434F4C ++ leBytes 2 1 ++ leBytes 2 512 ++ leBytes 4 seq ++ leBytes 1 s.mode ++
  leBytes 1 (s.fld Reg.GLB_MODE_DEGRADED) ++ leBytes 1 (s.fld Reg.GLB_MODE_CAUSE) ++ leBytes 1 s.coloTime ++
  leBytes 8 s.tb.uptime ++ leBytes 16 s.now.image ++ leBytes 8 Config.serial.toNat ++
  leBytes 1 s.ctrlActive ++ leBytes 1 (if s.guardState = 4 then 0xFF else s.ctrlStandby) ++
  leBytes 1 s.coloGuard ++ leBytes 1 s.coloPair ++
  leBytes 2 (min 65535 (s.cnt Cnt.GUARD_TAKEOVERS + s.cnt Cnt.GUARD_HANDOVERS)) ++
  leBytes 2 (min 65535 (s.cnt Cnt.GUARD_PAIR_TAKEOVERS)) ++ leBytes 4 (s.rd Reg.GUARD_EPOCH_LAST).toNat ++
  leBytes 4 (s.cnt Cnt.GUARD_EPOCH_TORN) ++ leBytes 20 s.units.engOut.toNat ++
  leBytes 4 s.units.spareUsed.toNat ++ leBytes 4 s.units.folioOut.toNat ++ leBytes 2 s.units.quireIso.toNat ++
  leBytes 1 s.units.dieLost.toNat ++ leBytes 1 0

/-- Bytes 0x060 to 0x0C3: pace, rails, temperatures, corrected errors, spare rows. -/
def coloMid (s : State) : List Byte :=
  ((List.range 16).flatMap fun q => leBytes 2 (Table.get (fun _ => 0xFFFF) s.pace.colophonLow q)) ++
  ((List.range 4).flatMap fun d => leBytes 2 (Table.get (fun _ => 0) s.pace.railRead d / 10)) ++
  ((List.range 5).flatMap fun d => leBytes 2 (s.fld (Reg.HLTH_TEMP_TEMP d))) ++ leBytes 2 s.tempMax ++
  ([Cnt.HLTH_DRAM_CE, Cnt.HLTH_DRAM_UE, Cnt.HLTH_SRAM_CE, Cnt.HLTH_SRAM_UE, Cnt.ENG_CS_ECC_CORR,
    Cnt.ENG_CS_ECC_UNCORR, Cnt.ENG_REG_ECC_CORR].flatMap fun i => leBytes 4 (s.cnt i)) ++
  ((List.range 16).flatMap fun q => leBytes 1 (s.quireRows q)) ++
  leBytes 1 (s.rowsUsed 208) ++ leBytes 1 (s.rowsUsed 209) ++ leBytes 1 (s.rowsUsed 210) ++ leBytes 1 0

/-- Bytes 0x0C4 to 0x1FB: tests, faults, books, the attestation short form. -/
def coloTail (s : State) : List Byte :=
  leBytes 4 (s.cnt Cnt.HLTH_KAT_RUN) ++ leBytes 2 (s.cnt Cnt.HLTH_KAT_FAIL) ++
  leBytes 2 (s.cnt Cnt.HLTH_MARCH_FAIL) ++ leBytes 4 (s.cnt Cnt.HLTH_MARCH_ROWS) ++
  leBytes 4 (s.cnt Cnt.GUARD_REPLAY_RUN) ++ leBytes 2 (s.cnt Cnt.GUARD_REPLAY_MISMATCH) ++
  leBytes 2 (min 65535 (s.cnt Cnt.HLTH_CHECKED_FAULTS)) ++ leBytes 2 (s.fld Reg.HLTH_FAULT_CODE) ++
  leBytes 2 (s.fld Reg.HLTH_FAULT_WHERE) ++
  leBytes 4 (if s.obs.latest then s.obs.bank1.num else s.obs.bank0.num) ++
  leBytes 4 (s.cnt Cnt.HLTH_BOOK_FAULTS) ++ leBytes 4 s.guard.lastPass ++ s.attestShort ++ leBytes 228 0

/-- The 512 bytes of R522. -/
def colophonBytes (s : State) (seq : Nat) : List Byte :=
  let b := s.coloHead seq ++ s.coloMid ++ s.coloTail
  b ++ leBytes 4 (crc32 b)

/-- Bytes latched into HLTH_COLO_W from word `k` on. -/
def latchColophon (s : State) (k : Nat) : List Byte → State
  | a :: b :: c :: d :: rest => (s.wrN (Reg.HLTH_COLO_W k) (leNat [a, b, c, d])).latchColophon (k + 1) rest
  | _ => s

/-- Where the colophon of sequence number `seq` is written (R523). -/
def coloSlot (s : State) (seq : Nat) : Option Nat :=
  let slot := seq % 2 ^ s.fld Reg.HLTH_COLO_CTRL_LOG2_SLOTS
  let addr := s.rd64 Reg.HLTH_COLO_ADDR_LO / 512 * 512 + 512 * slot
  let inWindow := ((s.imp.image.map (·.parts)).getD []).any fun p =>
    Nat.beq p.kind 8 && Nat.beq p.owner 3 && Nat.ble p.base addr && Nat.ble (addr + 512) (p.base + p.size)
  if s.flag Reg.HLTH_COLO_CTRL_EN && Nat.blt s.mode 5 &&
      (if s.flag Reg.HLTH_COLO_CTRL_LOC then inWindow else s.canRequest 3) then some slot else none

/-- A colophon is due: each PERIOD_MS from the end of Imposing (R522). -/
def coloDue (s : State) : Bool :=
  match s.guard.coloAt with
  | some t => Nat.ble (t + s.fld Reg.HLTH_COLO_CTRL_PERIOD_MS * 1000000) s.tb.uptime
  | none => false

/-- A colophon is formed (R522, R523). -/
def colophon (s : State) : State :=
  if s.mode < 2 ∨ s.mode = 6 ∨ s.coloDue = false then s
  else
    let seq := ((s.rd Reg.HLTH_COLO_SEQ).toNat + 1) % 2 ^ 32
    let b := s.colophonBytes seq
    let slot := s.coloSlot seq
    let addr := s.rd64 Reg.HLTH_COLO_ADDR_LO / 512 * 512 + 512 * slot.getD 0
    let s := { s with guard := { s.guard with
        coloAt := s.guard.coloAt.map (· + s.fld Reg.HLTH_COLO_CTRL_PERIOD_MS * 1000000) } }
    let s := (s.latchColophon 0 b).wrN Reg.HLTH_COLO_SEQ seq
    let s := { s with pace := { s.pace with colophonLow := [] } }.count Cnt.HLTH_COLOPHONS
    let s := if slot = none then s
      else if s.flag Reg.HLTH_COLO_CTRL_LOC then s.dramWrite addr b false else s.emit (.hostWrite addr b)
    s.post 0x0301 (seq + slot.getD 0xFFFF * 2 ^ 32)

/-- The latest colophon as HLTH_COLO_W latches it. -/
def colophonLatched (s : State) : List Byte :=
  (List.range 128).flatMap fun k => leBytes 4 (s.rd (Reg.HLTH_COLO_W k)).toNat

/-! ### Pins of the package (R552) -/

/-- PHY_RSTn_N is low: until the end of Imposing, and while port `n` is disabled (MEDIA 0). -/
def phyReset (s : State) (n : Nat) : Bool :=
  Nat.blt s.mode 2 || (!(Nat.beq s.mode 6) && Nat.beq (s.fld (Reg.PORT_MEDIA_MEDIA n)) 0)

/-- SFPn_TX_DIS is high: while the port is held down under R98, and while ADMIN_DOWN is 1. -/
def sfpTxDisabled (s : State) (n : Nat) : Bool :=
  Nat.blt s.mode 2 || Nat.beq s.mode 7 || s.flag (Reg.PORT_LINK_CTRL_ADMIN_DOWN n)

/-- HELD_N is low (R551). -/
def heldN (s : State) : Bool := Nat.beq s.mode 7

/-! ### The thermal monitor (R510, R552, R566) -/

/-- The grade's maximum junction temperature, in ¼ °C (R2, R566). -/
def junctionMax : Int := if Config.gradeE then 500 else 440

/-- The hottest sensor of die `d` reads `t`, in ¼ °C. -/
def temperature (s : State) (d : Nat) (t : BitVec 16) : State :=
  if s.mode = 6 then s
  else
    let old := signed 16 (s.fld (Reg.HLTH_TEMP_TEMP d))
    let new := signed 16 t.toNat
    let warn := signed 16 (s.fld Reg.HLTH_TEMP_WARN_WARN)
    let s := s.setFld (Reg.HLTH_TEMP_TEMP d) t.toNat
    let s := if signed 16 (s.fld (Reg.HLTH_TEMP_MAX d)) < new then s.setFld (Reg.HLTH_TEMP_MAX d) t.toNat else s
    let s := if old < warn ∧ warn ≤ new then s.post 0x0308 d else s
    let die (k : Nat) : Int := signed 16 (s.fld (Reg.HLTH_TEMP_TEMP k))
    let hot := (List.range 5).any fun k => decide (junctionMax ≤ die k)
    let cool := (List.range 5).all fun k => decide (die k < junctionMax - 20)
    let s := { s with pwr := { s.pwr with therm := hot || (s.pwr.therm && !cool) } }
    if junctionMax + 20 < new then s.checkedFault 0x0D d .none else s

end State

/-! ### Meanings -/

/-- The liaison of the active folio, or of the standby, sends its heartbeat (R496); `alive` are the alive
counts of TIME_SERVO, RING_MASTER and SCHEDULE_COMMIT. -/
def execHeartbeatSend (standby : Bool) (time ring schedule : BitVec 16) (s : State) : Out State :=
  .next (s.heartbeatSend (if standby then s.ctrlStandby else s.ctrlActive)
    [time.toNat, ring.toNat, schedule.toNat])

/-- The heartbeat that left first reaches the Guard (R498). -/
def execHeartbeatReceive (s : State) : Out State :=
  .next (match s.guard.beats with
    | [] => s
    | b :: rest => { s with guard := { s.guard with beats := rest } }.heartbeatTaken b)

/-- The silence count of the active folio reaches 3,000 ticks (R498). -/
def execCtrlMissed (s : State) : Out State :=
  .next (if s.guardWatches && s.silent s.ctrlActive then
    (s.countN Cnt.GUARD_HEARTBEATS_MISSED 3).checkedFault 0x07 s.ctrlActive .none else s)

/-- An alive count of the active folio has not changed for STALL_US (R498). -/
def execCtrlStall (role : Fin 3) (s : State) : Out State :=
  .next (let (count, at_) := Table.get (fun _ => (0, 0)) s.guard.alive role
    if s.guardWatches && !(Nat.beq count 0) &&
        Nat.ble (at_ + s.fld Reg.GUARD_STALL_STALL_US * 1000) s.tb.uptime then
      s.checkedFault 0x08 s.ctrlActive .none else s)

/-- The standby is silent, or not ready (R499). -/
def execNoStandby (s : State) : Out State :=
  .next (if s.guardWatches && s.standbyValid then
    (if s.silent s.ctrlStandby then (s.countN Cnt.GUARD_HEARTBEATS_MISSED 3).noStandby
     else if s.guard.ready then s else s.noStandby)
  else s)

/-- The known-answer tests of the old active folio end (R503); bit k of `failed` is its k-th engine. -/
def execTakeoverDone (failed : BitVec 5) (s : State) : Out State := .next (s.takeoverDone failed)

/-- A write of GUARD_CTRL with HANDOVER 1 (R505, R506). -/
def execGuardHandoverWrite (s : State) : Out State :=
  .next (if s.operating then (if s.canHandOver then s.startHandover 0 0 else s.refuseHandover) else s)

def execHandoverRefused (s : State) : Out State := .next s.handoverLimit

def execEpochBoundary (s : State) : Out State := .next s.epochBoundary

/-- An epoch trailer arrives at the standby (R507, R508, R513): its number, whether it is the final epoch of a
handover, whether record count and CRC match, and how its decision records replay. -/
def execEpochTrailer (number : BitVec 32) (final recordsOk crcOk : Bool) (replays : List Replay) (s : State) :
    Out State :=
  .next (s.epochTrailer number.toNat final (recordsOk && crcOk) replays)

def execSelfTest (t : SelfTest) (s : State) : Out State := .next (s.selfTest t)

/-- The Guard oscillator is measured; 0 when it has stopped (R497). -/
def execGuardOscCheck (khz : Nat) (s : State) : Out State :=
  .next (if khz < 99000 ∨ 101400 < khz then s.checkedFault 0x10 0 .none else s)

/-- A row reaches CE_LIMIT corrected errors (R512); `cells` is how many cells a packet-buffer row holds. -/
def execRowSpared (array : RowArray) (cells : BitVec 8) (s : State) : Out State :=
  .next ((s.countCorrected array).spareRow array cells.toNat)

/-- The Guard sends its pair heartbeat, one in each 100 µs (R515). -/
def execPairHeartbeatSend (s : State) : Out State :=
  .next (if s.pairOn && Nat.ble s.pair.sentSlot (s.tb.uptime / 100000) then
    { s with pair := { s.pair with sentSlot := s.tb.uptime / 100000 + 1 } }.emit
      (.pairHeartbeat s.ownVote Config.serial.toNat)
  else s)

/-- A heartbeat of the partner arrives (R515 to R518, R521). -/
def execPairHeartbeatReceive (vote : Fin 3) (serial : BitVec 64) (priority : BitVec 8) (active : Bool)
    (bundleSet tipinSet : BitVec 32) (credits : BitVec 10) (s : State) : Out State :=
  .next (if s.pairOn then
    s.pairHeartbeat vote serial.toNat priority.toNat active
      (s.imp.image.any fun i => Nat.beq i.bundleSet bundleSet.toNat && Nat.beq i.tipinSet tipinSet.toNat)
      credits.toNat
  else s)

def execPairLost (s : State) : Out State := .next s.pairLost
def execArbVoteEdge (s : State) : Out State := .next s.arbVoteEdge
def execArbVoteTimeout (s : State) : Out State := .next s.arbVoteTimeout

/-- A pair epoch of the ring master arrives (R519): complete under R508, or torn. -/
def execPairEpochReceive (complete : Bool) (epoch : PairEpoch) (s : State) : Out State :=
  .next (if s.pairOn = false then s
    else if complete then { s with pair := { s.pair with epoch := some epoch } }
    else s.count Cnt.GUARD_PAIR_EPOCH_TORN)

def execPairLaneChange (lane : Fin 2) (up : Bool) (s : State) : Out State := .next (s.pairLane' lane up)

def execColophon (s : State) : Out State := .next s.colophon

def execThermalThresholdCross (die : Fin 5) (temp : BitVec 16) (s : State) : Out State :=
  .next (s.temperature die temp)

/-- An SMBus read from byte offset 0 of the target at 0x5A (R552). -/
def execSmbusRead (s : State) : Out State :=
  .next (if s.mode = 6 then s else s.emit (.smbus s.colophonLatched))

/-- An SMBus write: acknowledged and ignored (R552). -/
def execSmbusWrite (_offset : BitVec 16) (_data : BitVec 8) (s : State) : Out State := .next s

def execGuardPairCtrlWrite (value : Word) (s : State) : Out State := .next (s.pairCtrl value)

end Sys2Proof.Machine
end

