-- ==== Sys2Proof/Machine/Obs.lean ====
section
/-! DEFINITION. Cell releases, the pace and rail loops, ledger points and the trace (R50 to R52, R61 to R68,
R528 to R541, R565). -/

namespace Sys2Proof.Machine

namespace State

/-! ### Pace (R50 to R52) -/

/-- The rail of die `d` as commanded, in mV; each regulator starts at 0.80 V (R562). -/
def railMv (s : State) (d : Nat) : Nat := Table.get (fun _ => 800) s.pace.railMv d

/-- The pace monitor of quire `q` publishes an average, in Mmicrowords/s. -/
def paceSample (s : State) (q p : Nat) : State :=
  if s.mode < 2 ∨ s.mode = 6 then s.setFld (Reg.ENG_PACE_PACE q) p
  else
    let s := (s.setFld (Reg.ENG_PACE_PACE q) p).setFld (Reg.ENG_PACE_MIN q) (min p (s.fld (Reg.ENG_PACE_MIN q)))
    let low := min p (Table.get (fun _ => 0xFFFF) s.pace.colophonLow q)
    let s := { s with pace := { s.pace with
        colophonLow := Table.set (fun _ => 0xFFFF) s.pace.colophonLow q low } }
    let since := Table.get (fun _ => 0) s.pace.lowSince q
    if p < 1050 ∧ s.railMv (dieOf q) = 840 ∧ s.quireOut q = false then
      if since ≠ 0 then s
      else { s with pace := { s.pace with
          lowSince := Table.set (fun _ => 0) s.pace.lowSince q (s.tb.uptime + 1) } }.checkedFault 0x05 q .none
    else { s with pace := { s.pace with lowSince := Table.set (fun _ => 0) s.pace.lowSince q 0 } }

/-- A pace-low condition of quire `q` has lasted 10 ms. -/
def paceTimeout (s : State) (q : Nat) : State :=
  let since := Table.get (fun _ => 0) s.pace.lowSince q
  if since ≠ 0 ∧ since + 10000000 ≤ s.tb.uptime + 1 ∧ s.operating then
    { s with pace := { s.pace with lowSince := Table.set (fun _ => 0) s.pace.lowSince q 0 } }.isolateQuire q
  else s

/-- The hub steps the regulator of die `d` toward the target of its slowest quire in service (R51). -/
def railAdjust (s : State) (d : Nat) : State :=
  let last := Table.get (fun _ => 0) s.pace.lastAdjust d
  let quires := ((List.range 4).map (4 * d + ·)).filter fun q => !s.quireOut q
  let slowest := quires.foldl (fun m q => min m (s.fld (Reg.ENG_PACE_PACE q))) 65535
  let target := if s.mode = 5 then 1050
    else ((s.imp.image.map fun i => i.struct.pace.getD d 120).getD 120) * 10
  let mv := s.railMv d
  let new := if slowest < target then min 840 (mv + 5) else if target < slowest then max 610 (mv - 5) else mv
  if s.operating = false ∨ quires = [] ∨ (last ≠ 0 ∧ s.tb.uptime + 1 < last + 100000) ∨ new = mv then s
  else { s with pace := { s.pace with
      railMv := Table.set (fun _ => 800) s.pace.railMv d new
      lastAdjust := Table.set (fun _ => 0) s.pace.lastAdjust d (s.tb.uptime + 1) } }

/-- The limits of a rail's 10 µs average, in units of 100 µV (R565). -/
def railLimits : Rail → Nat × Nat
  | .eng _ => (6000, 8500)
  | .hub => (7125, 7875)
  | .sram => (7600, 8400)
  | .sd => (8075, 8925)
  | .ddr => (9975, 11025)
  | .vddq => (4750, 5250)
  | .vddh => (11400, 12600)
  | .pll => (17100, 18900)
  | .vio18 => (16560, 19440)
  | .vio33 => (30360, 35640)

/-- The rail monitor averages a rail to `v`; the limits themselves are within (R578). -/
def railSample (s : State) (rail : Rail) (v : Nat) : State :=
  let (lo, hi) := railLimits rail
  let bad := Nat.blt v lo || Nat.blt hi v
  match rail with
  | .eng d =>
    let s := { s with pace := { s.pace with railRead := Table.set (fun _ => 0) s.pace.railRead d v } }
    if bad then s.checkedFault 0x06 d .none else s
  | _ => if bad then s.checkedFault 0x0F 4 .none else s

/-! ### Books and ledger points (R61 to R68, R535 to R538) -/

/-- Cells whose release is in flight (R62). -/
def cellsReturning (s : State) : Nat :=
  (s.frames.map fun p => if p.2.copies = 0 then p.2.cells else 0).sum

/-- Tags of DMA channel `c`: free, outstanding, quarantined (R61); how many reads its bursts have out is a
value the spec leaves open. -/
def dmaTags (s : State) (c : Nat) : Nat × Nat × Nat :=
  let all := s.fld (Reg.DMA_CH_CFG_TAGS c)
  let quarantined := s.quarantinedTags c
  let out := if (s.chan c).flight.isEmpty then 0 else (s.freeAt c) % (all - quarantined + 1)
  (all - quarantined - out, out, quarantined)

/-- FRER windows: windowed and resetting flows (R277). -/
def frerWindows (s : State) : Nat × Nat :=
  let rcv := s.flows.table.filter fun p => p.2.has Ctx.valid && p.2.has Ctx.rcv
  let resetting := (rcv.filter fun p => p.2.has Ctx.takeAny).length
  (rcv.length - resetting, resetting)

/-- The book area of R538, in the order of its offsets. -/
def bookTerms (s : State) : List Nat :=
  let returning := s.cellsReturning
  [s.cells.free, s.cells.allocated - returning, returning] ++
  ((List.range 32).flatMap fun k =>
    let c := s.credit k
    [c.held, c.buffered, c.returning]) ++
  ((List.range 32).flatMap fun c =>
    let t := s.dmaTags c
    [t.1, t.2.1, t.2.2]) ++ [s.frerWindows.1, s.frerWindows.2]

/-- The books that the hub finds out of balance by their terms: cells, the spine links that are not lost, and
queue entries. -/
def badBooks (s : State) : List BookOut :=
  (if s.cells.free + s.cells.allocated = 131072 then [] else [⟨0, 0⟩]) ++
  (((List.range 32).filter fun k =>
    let c := s.credit k
    !s.units.dieLost.getLsbD (k / 8) && !(Nat.beq (c.held + c.buffered + c.returning) (spineGrant (k % 8 / 2)))).map
      fun k => ⟨1, BitVec.ofNat 24 (k / 8)⟩) ++
  ((s.queues.filter fun p => Nat.blt p.2.n p.2.occupancy).map fun p => ⟨2, BitVec.ofNat 24 p.1⟩)

/-- A book out of balance (R67, R510): of the spine as the loss of its die, of the windows as a flow's fault,
of the hub as FATAL.  The hub's own books have no block code in R28: that byte of DATA is free. -/
def bookFault (s : State) (b : BookOut) : State :=
  let i := b.index.toNat
  let block : Option Nat := match b.book.val with
    | 2 => some 0x19
    | 3 => some (0x0C + i % 12)
    | 4 => some 0x05
    | 5 => some 0x07
    | 6 => some 0x18
    | _ => none
  let s := s.count Cnt.HLTH_BOOK_FAULTS
  let s := match block with
    | some k => s.post 0x0309 (k + i * 256)
    | none => (s.post 0x0309 (s.freeVal.toNat % 256 + i * 256)).draw
  match b.book.val with
  | 1 => s.checkedFault 0x0A i .none
  | 6 => s.checkedFault 0x0C i (.flow i)
  | _ => s.checkedFault 0x0B i .none

/-- The latest snapshot. -/
def latestSnap (s : State) : Snap := if s.obs.latest then s.obs.bank1 else s.obs.bank0

/-- A ledger point at the present uptime, where none has been taken within the last 2 µs (R535, R539); `out`
are books that its check finds out of balance through a fault beneath this model. -/
def ledgerPoint (s : State) (out : List BookOut) : State :=
  if s.mode = 6 ∨ (s.latestSnap.num ≠ 0 ∧ s.tb.uptime ≤ s.latestSnap.time + 2000) then s
  else
    let s := s.count Cnt.OBS_LEDGER_POINTS
    let all := s.badBooks ++ out
    let snap : Snap :=
      { num := (s.latestSnap.num + 1) % 2 ^ 32, time := s.tb.uptime, counters := s.cnts, books := s.bookTerms
        outOfBalance := all.foldl (fun m b => m ||| 1#7 <<< b.book.val) 0 }
    let bank := match s.obs.hold with
      | some (b, _) => !b
      | none => !s.obs.latest
    let s := { s with obs := { s.obs with
        bank0 := if bank then s.obs.bank0 else snap, bank1 := if bank then snap else s.obs.bank1
        latest := bank } }
    let s := (s.drawN 32).wrN Reg.OBS_LEDGER_NUM snap.num
    all.foldl (fun s b => s.bookFault b) s

/-! ### The trace (R529 to R533) -/

/-- A record's length in units of 16 bytes, and its bytes (R530). -/
def traceUnits (r : TraceRec) : Nat := r.len / 16

def traceBytes (r : TraceRec) : List Byte :=
  leBytes 8 (r.type % 256 + (r.len / 16 - 1) % 4 * 2 ^ 8 + r.ts % 4 * 2 ^ 10 + r.seq % 2 ^ 16 * 2 ^ 16 +
    r.uptime % 2 ^ 32 * 2 ^ 32) ++ leBytes (r.len - 8) r.payload

/-- Units of 16 bytes that wait in the FIFO. -/
def traceUsed (s : State) : Nat := (s.obs.fifo.map traceUnits).sum

/-- The trace port has sent what 1.6 GB/s, 16 bytes in 10 ns, allowed until now; `k` bounds the number. -/
def traceDrain (s : State) : Nat → State
  | 0 => s
  | k + 1 =>
    match s.obs.fifo with
    | [] => s
    | r :: rest =>
      let done := s.obs.busy + 10 * traceUnits r
      if done ≤ s.tb.uptime then
        (({ s with obs := { s.obs with fifo := rest, busy := done } }.emit (.trace (traceBytes r))).count
          Cnt.OBS_TRACE_RECORDS).traceDrain k
      else s

/-- The FIFO as it stands now. -/
def traceNow (s : State) : State := s.traceDrain s.obs.fifo.length

/-- A record enters the FIFO. -/
def traceEnter (s : State) (type len uptime payload : Nat) : State :=
  let r : TraceRec :=
    { type := type, len := len, seq := s.obs.seq, ts := s.statusAt (s.tb.uptime - uptime), uptime := uptime
      payload := payload }
  { s with obs := { s.obs with
      fifo := s.obs.fifo ++ [r], seq := (s.obs.seq + 1) % 2 ^ 16
      busy := if s.obs.fifo.isEmpty then max s.obs.busy s.tb.uptime else s.obs.busy } }

/-- The LOST record that goes ahead of the next other record (R532). -/
def traceLost (s : State) : State :=
  if s.obs.lostSpine = 0 ∧ s.obs.lostFifo = 0 then s
  else
    let s := s.traceEnter 0x02 16 s.tb.uptime
      (s.obs.lostSpine % 2 ^ 32 + s.obs.lostFifo % 2 ^ 32 * 2 ^ 32)
    { s with obs := { s.obs with lostSpine := 0, lostFifo := 0 } }

/-- A SYNC record (R531). -/
def traceSync (s : State) : State :=
  s.traceNow.traceLost.traceEnter 0x01 32 s.tb.uptime (s.tb.uptime % 2 ^ 64 + s.now.image * 2 ^ 64)

/-- A record reaches the FIFO, which keeps room for one SYNC and one LOST, or is discarded (R532, R533). -/
def traceRecord (s : State) (type len uptime payload : Nat) : State :=
  let s := s.traceNow
  let lost := (decide (s.obs.lostSpine ≠ 0) || decide (s.obs.lostFifo ≠ 0)).toNat
  if s.traceUsed + lost + len / 16 + 3 ≤ 4096 then s.traceLost.traceEnter type len uptime payload
  else
    ({ s with obs := { s.obs with lostFifo := s.obs.lostFifo + 1 } }.count
      Cnt.OBS_TRACE_DISCARD_FIFO).postOpenLimited 0x0401

/-- An ENGINE record crosses the trace channel of its die's link, or is discarded there (R36, R533). -/
def traceCross (s : State) (d : Nat) : State × Bool :=
  let k := spineKey d 3 1
  if (s.credit k).held = 0 then
    (({ s with obs := { s.obs with lostSpine := s.obs.lostSpine + 1 } }.count
      Cnt.OBS_TRACE_DISCARD_SPINE).postOpenLimited 0x0401, false)
  else ((s.spineSend k 1).spineFree k 1, true)

/-- A traced happening of uptime `up` (R531, R533). -/
def traceItem (s : State) (up : Nat) : TraceItem → State
  | .engine e opcode addr commit key more =>
    if s.flag Reg.OBS_TRACE_SRC_ENGINE && (s.rd Reg.OBS_TRACE_FOLIOS).toNat.testBit (folioOf e) then
      let (s, passed) := s.traceCross (dieOf (quireOf (folioOf e)))
      let p := e.val + opcode.toNat * 2 ^ 8 + addr.toNat * 2 ^ 16 + commit.toNat * 2 ^ 31 + key.toNat * 2 ^ 32
      if passed then
        (match more with
          | none => s.traceRecord 0x10 16 up p
          | some m => s.traceRecord 0x10 32 up (p + m.toNat * 2 ^ 64))
      else s
    else s
  | .port n tx cls len status index =>
    if s.flag Reg.OBS_TRACE_SRC_PORT && s.bit Reg.OBS_TRACE_PORTS_PORTS n then
      s.traceRecord 0x20 16 up (n.val + tx.toNat * 2 ^ 4 + cls.toNat * 2 ^ 5 + len.toNat * 2 ^ 8 +
        status.toNat * 2 ^ 24 + index.toNat * 2 ^ 32)
    else s
  | .gate n entry states hold =>
    if s.flag Reg.OBS_TRACE_SRC_GATE && s.bit Reg.OBS_TRACE_PORTS_PORTS n then
      s.traceRecord 0x21 16 up (n.val + entry.toNat * 2 ^ 4 + states.toNat * 2 ^ 16 + hold.toNat * 2 ^ 24)
    else s
  | .ring cycle slot station outcome =>
    if s.flag Reg.OBS_TRACE_SRC_RING then
      s.traceRecord 0x30 16 up
        (cycle.toNat + slot.toNat * 2 ^ 16 + station.toNat * 2 ^ 28 + outcome.toNat * 2 ^ 36)
    else s
  | .event code data =>
    if s.flag Reg.OBS_TRACE_SRC_EVENT then s.traceRecord 0x40 16 up (code.toNat + data.toNat * 2 ^ 16) else s

/-- The trace runs (R529). -/
def traceOn (s : State) : Bool := s.flag Reg.OBS_TRACE_CTRL_EN && !(Nat.beq s.mode 6)

end State

/-! ### Meanings -/

/-- A cell release arrives at the hub (R63): `handle` names the frame. -/
def execCellRelease (handle : Nat) (s : State) : Out State := .next (s.cellRelease handle)

/-- The average of a quire over 10 µs, in Mmicrowords/s (R50, R52). -/
def execPaceMonitorSample (quire : Fin 16) (pace : BitVec 16) (s : State) : Out State :=
  .next (s.paceSample quire pace.toNat)

def execPaceLowTimeout (quire : Fin 16) (s : State) : Out State := .next (s.paceTimeout quire)

def execRailAdjust (die : Fin 4) (s : State) : Out State := .next (s.railAdjust die)

/-- A 10 µs average of a rail, in units of 100 µV (R565). -/
def execRailMonitorSample (rail : Rail) (v : BitVec 16) (s : State) : Out State :=
  .next (s.railSample rail v.toNat)

/-- A multiple of PERIOD_US on the uptime counter (R535). -/
def execLedgerPoint (out : List BookOut) (s : State) : Out State :=
  .next (if s.tb.uptime % (s.fld Reg.OBS_LEDGER_PERIOD_PERIOD_US * 1000) = 0 then s.ledgerPoint out else s)

/-- A write of OBS_LEDGER_CTRL.NOW (R535). -/
def execNow (out : List BookOut) (s : State) : Out State := .next (s.ledgerPoint out)

/-- PF3 reads OBS_LEDGER_NUM: the bank of the latest complete snapshot is held for 10 ms (R537). -/
def execLedgerNumRead (s : State) : Out State :=
  .next ({ s with obs := { s.obs with hold := some (s.obs.latest, s.tb.uptime + 10000000) } }.emit
    (.completion 3 (leBytes 4 (s.rd Reg.OBS_LEDGER_NUM).toNat) false))

/-- A write of OBS_LEDGER_RELEASE (R537). -/
def execRelease (s : State) : Out State := .next { s with obs := { s.obs with hold := none } }

/-- A hold ends by its limit (R537). -/
def execHoldExpired (s : State) : Out State :=
  .next (match s.obs.hold with
    | some (_, t) => if t ≤ s.tb.uptime then { s with obs := { s.obs with hold := none } }.postOpen 0x0402 else s
    | none => s)

/-- A record of a happening `ageNs` ago reaches the hub FIFO (R530 to R533). -/
def execTraceRecord (item : TraceItem) (ageNs : Nat) (s : State) : Out State :=
  .next (if s.traceOn then s.traceItem (s.tb.uptime - ageNs) item else s)

/-- A whole ms of uptime (R532). -/
def execTraceSync (s : State) : Out State :=
  .next (if s.traceOn ∧ s.tb.uptime % 1000000 = 0 then s.traceSync else s)

end Sys2Proof.Machine
end

