-- ==== Sys2Proof/Machine/Meet.lean ====
section
/-! DEFINITION. Happenings in which several blocks meet: a step of the time base, a change of a gate list, a
cycle start and a cycle mark (R141, R142, R180, R210, R293, R297, R299, R341, R439, R505). -/

namespace Sys2Proof.Machine

namespace State

/-! ### Steps (R141, R142) -/

/-- The pending change of port `n` has come (R180). -/
def gclDue (s : State) (n : Nat) : Bool :=
  match s.pendingChange n with
  | some t => Nat.ble t (s.edgeTicks n)
  | none => false

/-- The admin list of port `n` becomes operational, and the schedules aligned to it follow (R180, R341). -/
def gclChanged (s : State) (n : Nat) : State :=
  if s.gclDue n then (s.gclChange n).evtGateChange n else s

/-- Port `n` meets a step: a pending change passed over takes effect, the gates are those of the new time,
and launch times that are due are judged (R142, R192, R210).  DESIGN CHOICE: the hold stands as it stood,
since R207 asserts and releases it only at entries that start. -/
def portStep (s : State) (n : Nat) : State :=
  if s.gclDue n then s.gclChanged n else (s.gateRefresh n).testHeads n

/-- The step that is due acts, at the realignment boundary: on the time base and with it on every fore-edge copy,
on BRIDGE, and on every schedule. -/
def stepApplied (s : State) : State :=
  match s.tb.due with
  | none => s
  | some d =>
    if s.tb.realigned ≠ s.tb.uptime then s else
    let s := { s with tb := { s.tb with
        time := (((s.tb.time : Int) + d) % (timeSpan : Int)).toNat, due := none } }
    let s := if s.ringState = 0 then s else s.setBridge (s.ring.bridge + d)
    let s := s.postOpen 0x0902
    let s := if s.timeStatus = 0 then s.setStatus 1 else s
    let s : State := (List.range 12).foldl (fun s n => s.portStep n) s
    (s.evtStep (decide (0 < d))).settleAll

/-! ### The ring (R297, R299) -/

/-- Engines parked on mark `m` are released by an occurrence with GATE (R297, R371). -/
def releaseMark (s : State) (m : Nat) : State :=
  (List.range 160).foldl (fun s e =>
    let g := s.eng e
    if g.parked = some (16 + m) ∨ g.hParked = some (16 + m) then s.setEng e { g with gate := true } else s) s

/-- Mark `m` of the running cycle acts, once in it, at C(n) + OFFSET_NS (R297). -/
def ringMark (s : State) (m : Nat) : State :=
  match (s.ringBank true).marks[m]? with
  | none => s
  | some k =>
    let n := s.ring.n - 1
    if s.ringRuns = false ∨ k.enabled = false ∨ s.ring.n = s.ring.first ∨ s.ring.marked.getLsbD m ∨
        s.rc < s.cycleStartRc n + k.offset then s
    else
      let s := { s with ring := { s.ring with marked := s.ring.marked ||| (1#16 <<< m) } }
      let s := if k.event then s.postOpen (0x0B40 + m) else s
      let s := if k.irq && s.flag (Reg.QM_EVT_ROUTE_EN 0x0B) then
          s.requestIrq 2 (s.fld (Reg.QM_EVT_ROUTE_EQ 0x0B)) true else s
      let s : State := if k.gate then s.releaseMark m else s
      if k.send && !s.ring.hold then
        let (s, t) := s.launchAt (s.cycleStartRc n + k.offset)
        s.sendRing s.ringPorts
          { type := 7, cycle := n, slot := m, rtime := unsigned 32 t } []
      else s

/-- One tick of the device's clock: both counts, what the device stack sends, and what leaves within a ring
cycle. -/
def tick (s : State) : State := if s.running then s.advance.ptpTick.ringTick else s

end State

/-! ### Meanings -/

/-- The first 1 µs boundary after a step is accepted (R141). -/
def execStepApplied (s : State) : Out State := .next s.stepApplied

/-- The change time of a port's gate list (R180). -/
def execGclChanged (port : Fin 12) (s : State) : Out State := .next (s.gclChanged port)

/-- The instant C(n) (R299, R302); a planned handover whose final epoch is complete switches there (R505). -/
def execCycleStart (s : State) : Out State :=
  .next (if s.cycleDue then s.switchHandover.startCycle else s)

/-- The instant of cycle mark `m` (R297). -/
def execRingMark (mark : Fin 16) (s : State) : Out State := .next (s.ringMark mark)

end Sys2Proof.Machine
end

