-- ==== Sys2Proof/Machine/Access.lean ====
section
/-! DEFINITION. Host access to the register space (R6 to R10, R449, R542 to R546): what decodes through
which function, the value each register shows, register groups and their latches, and reads. -/

namespace Sys2Proof.Machine

/-! ### The map (R449, R542 to R544) -/

/-- Offset `a` of BAR0 lies in a block that function `fn` decodes (R449). -/
def blockOpen (fn a : Nat) : Bool :=
  if 4 ≤ fn ∧ 0x400000 ≤ a then false
  else if a < 0x10000 then Nat.blt fn 4 || Nat.beq a Reg.GLB_ID || Nat.beq a Reg.GLB_MODE
  else if a < 0x80000 then Nat.beq fn 3
  else if a < 0x90000 then true
  else if a < 0xC0000 then Nat.beq fn 3
  else if a < 0xF0000 then Nat.beq fn 1 || Nat.beq fn 3
  else if a < 0x100000 then Nat.beq fn 2 || Nat.beq fn 3
  else if a < 0x1C0000 then Nat.beq fn 0 || Nat.beq fn 1 || Nat.beq fn 3
  else if a < 0x200000 then false
  else if a < 0x300000 then Nat.beq fn 0 || Nat.beq fn 3
  else if a < 0x400000 then true
  else if a < 0x500000 then Nat.beq fn 3
  else if 0x800000 ≤ a ∧ a < 0x900000 then Nat.beq fn 2 || Nat.beq fn 3
  else false

/-- Function `fn` has the write right at offset `a` (R130, R211, R242, R416, R473). -/
def writeRight (fn a : Nat) : Bool :=
  if a < 0x10000 then Nat.beq fn 3
  else if 0x100000 ≤ a ∧ a < 0x1C0000 then
    Nat.beq fn 3 || (if a % 0x10000 < 0x4000 then Nat.beq fn 0 else Nat.beq fn 1)
  else if 0x80100 ≤ a ∧ a < 0x80210 then Nat.beq fn 3
  else if 0x300080 ≤ a ∧ a < 0x400000 then Nat.beq fn 3
  else true

/-- The registers that exist once per function (R416, R473, R544). -/
def perFunction (a : Nat) : Bool :=
  Nat.beq a Reg.PCIE_FUNC || Nat.beq a Reg.PCIE_CTO || Nat.beq a Reg.PCIE_INTX_PEND ||
    (Nat.ble 0x84000 a && Nat.blt a 0x90000) || (Nat.ble 0x300000 a && Nat.blt a 0x300080)

/-- The key in the register file of offset `a` reached through function `fn`. -/
def keyOf (fn a : Nat) : Nat := if perFunction a then a + fn * 0x4000000 else a

/-- The entries of the interrupt map of a function (R473). -/
def imapCount (fn : Nat) : Nat := if fn = 0 then 4096 else if fn < 4 then 1024 else 256

namespace State

/-- A register stands at offset `a` for function `fn`: the registers that only some functions or ports have
(R235, R242, R473). -/
def present (s : State) (fn a : Nat) : Bool :=
  if 0x84000 ≤ a ∧ a < 0x88000 then Nat.blt ((a - 0x84000) / 4) (vectorCount fn)
  else if 0x88000 ≤ a ∧ a < 0x90000 then Nat.blt ((a - 0x88000) / 8) (imapCount fn)
  else if 0x100000 ≤ a ∧ a < 0x1C0000 then
    let n := (a - 0x100000) / 0x10000
    let o := a % 0x10000
    if 0x400 ≤ o ∧ o < 0x430 then Nat.blt n 6
    else if 0x500 ≤ o ∧ o < 0x508 then Nat.blt n 8 && s.flag (Reg.PORT_MEDIA_PREEMPT_CAP n)
    else if 0x600 ≤ o ∧ o < 0x60C then Nat.ble 8 n
    else true
  else true

/-- Offset `a` decodes through function `fn` in the mode in force (R98, R117, R122, R449, R542). -/
def decodes (s : State) (fn a : Nat) (write : Bool) : Bool :=
  blockOpen fn a &&
    (if s.mode = 0 ∨ s.mode = 1 then Nat.beq fn 3 && Nat.blt a 0x20000
     else if s.mode = 7 then
       !write && Nat.beq fn 3 && (Nat.blt a 0x10000 || (Nat.ble 0x30000 a && Nat.blt a 0x80000))
     else true)

/-! ### The value a register shows -/

/-- Word `j` of a full-form group in the word order of TB_NOW (R168). -/
def fullWord (t : Full) (j : Nat) : Nat :=
  if j = 0 then t.ns else if j = 1 then t.sec % 2 ^ 32 else t.sec / 2 ^ 32 % 2 ^ 16 + t.frac * 2 ^ 16

/-- The snapshot that OBS_SNAP and the book area show: the bank held, else the latest (R537). -/
def heldSnap (s : State) : Snap :=
  match s.obs.hold with
  | some (b, _) => if b then s.obs.bank1 else s.obs.bank0
  | none => s.latestSnap

/-- The book area at offset `o` (R538). -/
def bookWord (s : State) (o : Nat) : Nat :=
  let at_ (k : Nat) : Nat := s.heldSnap.books.getD k 0
  if o < 0xC then at_ (o / 4)
  else if 0x10 ≤ o ∧ o < 0x190 then at_ (3 + (o - 0x10) / 4)
  else if 0x200 ≤ o ∧ o < 0x380 then at_ (99 + (o - 0x200) / 4)
  else if 0x400 ≤ o ∧ o < 0x408 then at_ (195 + (o - 0x400) / 4)
  else 0

/-- Some path may have host reads outstanding. -/
def mayRead (s : State) : Bool :=
  !s.queues.isEmpty || !s.dma.isEmpty || s.boot.mb.isSome || s.flows.cmdFunc.isSome

/-- What a register shows that the register file does not hold, or holds in part. -/
def computed (s : State) (a : Nat) : Option Nat :=
  if a < 0x50000 then
    (if a = Reg.OBS_TRACE_STATUS then some (s.traceNow.traceUsed % 2 ^ 16)
     else if a = Reg.OBS_LEDGER_TIME_LO then some (s.heldSnap.time % 2 ^ 32)
     else if a = Reg.OBS_LEDGER_TIME_HI then some (s.heldSnap.time / 2 ^ 32)
     else if a = Reg.OBS_BOOK_STATUS then some s.heldSnap.outOfBalance.toNat
     else none)
  else if a < 0x70000 then
    let v := if a < 0x60000 then s.cnt ((a - 0x50000) / 8)
      else Table.get (fun _ => 0) s.heldSnap.counters ((a - 0x60000) / 8)
    some (if a % 8 = 0 then v % 2 ^ 32 else v / 2 ^ 32)
  else if a < 0x80000 then some (s.bookWord (a - 0x70000))
  else if a = Reg.PCIE_TAGS then
    some ((if s.mayRead then s.freeVal.toNat % 769 else 0) + s.host.quarantine.length % 1024 * 2 ^ 10)
  else if a = Reg.SLOT_STATUS then
    some (putBits (putBits (s.rd a).toNat 5 1 s.pwr.latchOpen.toNat) 6 1 s.pwr.present.toNat)
  else if 0xA1000 ≤ a ∧ a < 0xA1800 then
    let c := (a - 0xA1000) / 64
    if a = Reg.DMA_CH_CFG c then some (putBits (s.rd a).toNat 27 1 (s.reservedChan c).toNat)
    else if a = Reg.DMA_CH_TAGS c then
      let (free, out, quarantined) := s.dmaTags c
      some (out % 128 + quarantined % 128 * 2 ^ 8 + free % 128 * 2 ^ 16)
    else none
  else if 0xD0000 ≤ a ∧ a < 0xD0018 then
    if a < 0xD000C then some (fullWord s.now ((a - 0xD0000) / 4))
    else if a = Reg.TB_UPTIME_LO then some (s.tb.uptime % 2 ^ 32)
    else if a = Reg.TB_UPTIME_HI then some (s.tb.uptime / 2 ^ 32 % 2 ^ 32)
    else none
  else if a = Reg.TB_RATE then some (unsigned 32 s.appliedRate)
  else if a = Reg.TB_REF_STATUS then some (putBits (s.rd a).toNat 0 1 s.ppsPresent.toNat)
  else if a = Reg.TB_SLEW_RESIDUAL then some (saturated 32 2147483647 (s.tb.residual / 2 ^ 32))
  else if a = Reg.RING_SERIAL_LO then some (Config.serial.toNat % 2 ^ 32)
  else if a = Reg.RING_SERIAL_HI then some (Config.serial.toNat / 2 ^ 32)
  else if a = Reg.RING_NOW_LO then some (unsigned 64 s.rc % 2 ^ 32)
  else if a = Reg.RING_NOW_HI then some (unsigned 64 s.rc / 2 ^ 32)
  else if 0x848000 ≤ a ∧ a < 0x849000 ∧ a % 16 = 8 then
    let st := (a - 0x848000) / 16
    some (putBits (putBits (s.rd a).toNat 1 1 (s.stationBit (Reg.RING_DRIFT 0) st).toNat) 2 1
      (s.excluded st).toNat)
  else if 0x100000 ≤ a ∧ a < 0x1C0000 then
    let n := (a - 0x100000) / 0x10000
    let o := a % 0x10000
    if o = 0x504 then some (putBits (s.rd a).toNat 3 1 (s.preemptActive n).toNat)
    else if a = Reg.PORT_LAUNCH_STATUS n then
      some (((s.port n).fe.filter fun f => f.launch.isSome).length % 1024)
    else if a = Reg.PORT_GATE_STATUS n ∧ s.operating then
      let seg := s.gateSegNow n (s.edgeTicks n)
      some (putBits (putBits (s.rd a).toNat 8 8 seg.gates) 16 10 seg.index)
    else if 0x4100 ≤ o ∧ o < 0x4180 ∧ o % 16 = 12 then
      some (unsigned 32 ((s.creditShown n ((o - 0x4100) / 16)).tdiv 1000000))
    else none
  else none

/-- The value of offset `a` of BAR0 as function `fn` reads it: a counter, a value computed, or the register
file, where a word staged reads as it was written (R6, R8, R416, R473, R534). -/
def liveWord (s : State) (fn a : Nat) : Nat :=
  if s.present fn a = false then 0
  else match cntIndex? a with
    | some (i, hi) =>
      if (0x300000 ≤ a ∧ a < 0x400000 ∧ fn ≠ 0) ∨ (a / 0x10000 = 8 ∧ fn ≠ 3) then 0
      else if hi then s.cnt i / 2 ^ 32 else s.cnt i % 2 ^ 32
    | none => (s.computed a).getD (s.staged (keyOf fn a)).toNat

/-- The free values a read of offset `a` draws. -/
def drawFor (s : State) (a : Nat) : State :=
  if a = Reg.PCIE_TAGS then s.draw
  else if 0xA1000 ≤ a ∧ a < 0xA1800 ∧ a % 64 = 0x20 then s.drawN 32
  else s

end State

/-! ### Register groups (R10) -/

/-- `a` lies in one of `count` groups of `words` words, `stride` bytes apart from `base` on. -/
def groupAt (base count stride words a : Nat) : Option (Nat × Nat) :=
  if base ≤ a ∧ (a - base) / stride < count ∧ (a - base) % stride < 4 * words then
    some (a - (a - base) % stride, words)
  else none

/-- The group in which offset `a` is read: its _LO word and the number of its words (R10, R523). -/
def latchGroup? (a : Nat) : Option (Nat × Nat) :=
  if a < 0x80000 then
    (groupAt 0x10010 1 8 2 a).or <| (groupAt 0x10100 1 8 2 a).or <| (groupAt 0x10110 1 8 2 a).or <|
    (groupAt 0x20028 1 8 2 a).or <| (groupAt 0x30008 1 8 2 a).or <| (groupAt 0x30200 1 512 128 a).or <|
    (groupAt 0x40030 1 8 2 a).or <| (groupAt 0x50000 8192 8 2 a).or (groupAt 0x60000 8192 8 2 a)
  else if a < 0x100000 then
    (groupAt 0x88000 4096 8 2 a).or <| (groupAt 0x90018 2 8 2 a).or <| (groupAt 0xA1000 32 64 2 a).or <|
    (groupAt 0xC0120 32 64 3 a).or <| (groupAt 0xD0000 1 12 3 a).or <| (groupAt 0xD0010 1 8 2 a).or <|
    (groupAt 0xD0020 1 12 3 a).or <| (groupAt 0xD0030 2 8 2 a).or <| (groupAt 0xD0070 1 12 3 a).or <|
    (groupAt 0xE0018 4 16 2 a).or (groupAt 0xF0020 3 8 2 a)
  else if a < 0x1C0000 then
    let n := (a - 0x100000) / 0x10000 * 0x10000 + 0x100000
    (groupAt (n + 0x10) 1 8 2 a).or <| (groupAt (n + 0x100) 16 8 2 a).or <|
    (groupAt (n + 0x1004) 1 8 2 a).or <| (groupAt (n + 0x1030) 1 8 2 a).or <|
    (groupAt (n + 0x4020) 1 12 3 a).or <| (groupAt (n + 0x4040) 2 16 3 a).or <|
    (groupAt (n + 0x8000) 1024 8 2 a).or (groupAt (n + 0xA000) 1024 8 2 a)
  else
    (groupAt 0x200010 1 8 2 a).or <| (groupAt 0x400500 32 8 2 a).or (groupAt 0x400810 1 8 2 a)

namespace State

/-- Latch words `1` to `k` of the group at `lo` as they read now. -/
def latchWords (s : State) (fn lo : Nat) : Nat → State
  | 0 => s
  | k + 1 =>
    let s := s.latchWords fn lo k
    let a := lo + 4 * (k + 1)
    let w := BitVec.ofNat 32 (s.liveWord fn a)
    { s with latch := Table.set (fun _ => none) s.latch (keyOf fn a) (some w) }

/-- The group at `lo` is no longer latched. -/
def unlatch (s : State) (fn lo : Nat) : Nat → State
  | 0 => s
  | k + 1 =>
    let s := s.unlatch fn lo k
    { s with latch := Table.set (fun _ => none) s.latch (keyOf fn (lo + 4 * (k + 1))) none }

/-- A 32-bit read of offset `a` of BAR0 through function `fn`, with its effects (R6, R10, R537). -/
def readWord (s : State) (fn a : Nat) : State × Nat :=
  if s.decodes fn a false = false then (s, 0)
  else
    let v := s.liveWord fn a
    let t := s.drawFor a
    if a = Reg.OBS_LEDGER_NUM then
      ({ t with obs := { t.obs with hold := some (t.obs.latest, t.tb.uptime + 10000000) } }, v)
    else match latchGroup? a with
      | none => (t, v)
      | some (lo, n) =>
        if a = lo then (t.latchWords fn lo (n - 1), v)
        else
          let r := match Table.get (fun _ => none) t.latch (keyOf fn a) with
            | some w => w.toNat
            | none => v
          (if a = lo + 4 * (n - 1) then t.unlatch fn lo (n - 1) else t, r)

/-! ### The MSI-X table and configuration space (R444 to R448, R461) -/

/-- The key of offset `o` of BAR4 and of configuration space of function `fn`. -/
def bar4Key (fn o : Nat) : Nat := fn * 0x4000000 + 0x3000000 + o

def cfgKey (fn o : Nat) : Nat := fn * 0x4000000 + 0x3900000 + o

/-- The word at offset `o` of BAR4: the MSI-X table, whose Vector Control holds the mask, and the PBA. -/
def bar4Word (s : State) (fn o : Nat) : Nat :=
  let pba := if fn < 4 then 0x8000 else 0x800
  if o < 16 * vectorCount fn then
    (if o % 16 = 12 then (!(s.vec fn (o / 16)).unmasked).toNat else (s.rd (bar4Key fn o)).toNat)
  else if pba ≤ o ∧ o < pba + vectorCount fn / 8 then
    (List.range 32).foldl (fun a i => a + (s.vec fn ((o - pba) * 8 + i)).pendingBit.toNat * 2 ^ i) 0
  else 0

/-- The word at offset `o` of the configuration space of function `fn`. -/
def cfgWord (s : State) (fn o : Nat) : Nat :=
  let v := (s.rd (cfgKey fn o)).toNat
  if o = 0x04 then
    let v := if fn < 4 then putBits v 1 1 (s.fld (Reg.PCIE_FUNC_MSE.of fn)) else v
    let v := putBits v 2 1 (s.fld (Reg.PCIE_FUNC_BME.of fn))
    let v := putBits v 10 1 (s.host.intxDisable.getLsbD fn).toNat
    putBits v 19 1 (decide (s.rd (keyOf fn Reg.PCIE_INTX_PEND) ≠ 0)).toNat
  else if o = 0x44 then
    let v := putBits v 0 2 (s.fld (Reg.PCIE_FUNC_DSTATE.of fn))
    putBits (putBits v 8 1 (s.host.pmeEn.getLsbD fn).toNat) 15 1 (s.host.pmeStatus.getLsbD fn).toNat
  else if o = 0x64 ∧ fn < 4 then
    (List.range 32).foldl (fun a i => a + (s.vec fn i).pendingBit.toNat * 2 ^ i) 0
  else if o = 0x80 then
    putBits (putBits v 16 4 (s.fld Reg.PCIE_LINK_SPEED)) 20 6 (s.fld Reg.PCIE_LINK_WIDTH)
  else if o = 0x14C then putBits v 8 8 (if fn + 1 < 4 + s.host.numVfs then fn + 1 else 0)
  else if fn ≠ 0 then v
  else if o = 0x168 then putBits v 0 1 (decide (s.host.numVfs ≠ 0)).toNat
  else if o = 0x16C then ((s.imp.image.map (·.struct.totalVfs)).getD 0) % 2 ^ 16 * (2 ^ 16 + 1)
  else if o = 0x170 then (if s.host.numVfs ≠ 0 then s.host.numVfs else v)
  else if o = 0x1A4 then Config.serial.toNat % 2 ^ 32
  else if o = 0x1A8 then Config.serial.toNat / 2 ^ 32
  else v

/-- A 32-bit read at offset `a` of a space of function `fn`. -/
def readSpace (s : State) (fn : Nat) (sp : Space) (a : Nat) : State × Nat :=
  match sp with
  | .bar0 => s.readWord fn a
  | .bar4 => (s, if 2 ≤ s.mode ∧ s.mode < 6 then s.bar4Word fn a else 0)
  | .config => (s, s.cfgWord fn a)

/-- `k` words from `a` on, in address order (R9, R450, R545). -/
def readWords (s : State) (fn : Nat) (sp : Space) (a : Nat) : Nat → State × List Byte
  | 0 => (s, [])
  | k + 1 =>
    let (t, v) := s.readSpace fn sp a
    let (u, rest) := t.readWords fn sp (a + 4) k
    (u, leBytes 4 v ++ rest)

/-- A host read of `len` bytes from `a` (R9, R450); a DRAM window answers under its own rules (R470). -/
def hostRead (s : State) (fn : Nat) (sp : Space) (a len : Nat) : State :=
  if sp ≠ .config ∧ s.served fn = false then s.unsupported fn
  else if (s.running && s.enabledFuncs.contains fn) = false then s
  else if sp = .bar0 ∧ 0x2000000 ≤ a then
    s.windowRead ((a - 0x2000000) / 0x800000) fn ((a - 0x2000000) % 0x800000) len false
  else
    let first := a / 4 * 4
    let (t, b) := s.readWords fn sp first ((a % 4 + len + 3) / 4)
    t.emit (.completion fn ((b.drop (a % 4)).take len) false)

end State

/-! ### Meanings -/

/-- A host read of the register space, of the MSI-X table or of configuration space (R6, R9, R10): a read of
the _LO word of a group latches the group's other words until _HI is read. -/
def execGroupReadLatch (fn : BitVec 6) (space : Space) (addr : BitVec 26) (len : Fin 4097) (s : State) :
    Out State :=
  .next (s.hostRead fn.toNat space addr.toNat len.val)

end Sys2Proof.Machine
end

