-- ==== Sys2Proof/Machine/RegWrite.lean ====
section
/-! DEFINITION. Register writes (R6, R7, R9, R10, R544, R580): decoding, rights, the writes a register
ignores, staging and committing groups, and the write of each register with a behaviour of its own, which
acts as the command that stands for it. -/

namespace Sys2Proof.Machine

/-- The group into which a write of offset `a` is staged: its first word and the number of its words; the
last word commits (R10). -/
def stageGroup? (a : Nat) : Option (Nat × Nat) :=
  if a < 0x80000 then
    (groupAt 0x10010 1 8 2 a).or <| (groupAt 0x10110 1 8 2 a).or (groupAt 0x30008 1 8 2 a)
  else if a < 0x100000 then
    (groupAt 0x88000 4096 8 2 a).or <| (groupAt 0xA1000 32 64 2 a).or <| (groupAt 0xC0108 32 64 4 a).or <|
    (groupAt 0xD0020 1 12 3 a).or (groupAt 0xD0030 1 8 2 a)
  else if a < 0x1C0000 then
    let n := (a - 0x100000) / 0x10000 * 0x10000 + 0x100000
    (groupAt (n + 0x10) 1 8 2 a).or <| (groupAt (n + 0x100) 16 8 2 a).or <|
    (groupAt (n + 0x200) 8 32 5 a).or <| (groupAt (n + 0x4020) 1 12 3 a).or
    (groupAt (n + 0x8000) 1024 8 2 a)
  else
    (groupAt 0x200010 1 8 2 a).or <| (groupAt 0x201000 256 16 4 a).or (groupAt 0x204000 4096 16 4 a)

/-- The bits of offset `a` that a write can set (R6, R7). -/
def rwMask (a : Nat) : Nat := ((regDef? a).map (·.rw)).getD 0

/-- Every field of `v` is within the range the definition of its register states (R5, R580). -/
def RegDef.inRange (d : RegDef) (v : Nat) : Bool :=
  d.ranges.all fun r => Nat.ble r.2.2.1 (bits v r.1 r.2.1) && Nat.ble (bits v r.1 r.2.1) r.2.2.2

/-- R6: the value of a register after a write of `v`. -/
def RegDef.take (d : RegDef) (old v : Word) : Word :=
  let rw := BitVec.ofNat 32 d.rw
  (((old &&& ~~~rw) ||| (v &&& rw)) &&& ~~~(v &&& BitVec.ofNat 32 d.w1c)) ||| (v &&& BitVec.ofNat 32 d.w1s)

/-- The state a command answers. -/
def after (o : Out State) (s : State) : State :=
  match o with
  | .next t => t
  | _ => s

namespace State

/-- A write of `v` at offset `a` that the definition of the register has the device ignore as a whole, beyond
the ranges of its fields. -/
def ignoresWrite (s : State) (fn a v : Nat) : Bool :=
  if a < 0x80000 then
    -- R132, R96
    (Nat.ble 0x10010 a && Nat.ble a 0x10018 && s.boot.mb.isSome) ||
      (Nat.ble 0x10110 a && Nat.ble a 0x1011C && Nat.ble 1 s.reimpState && Nat.ble s.reimpState 4)
  else if a = Reg.SLOT_REC_CFG then !(Nat.beq s.bay 0 || Nat.beq s.bay 6)
  else if 0xA0010 ≤ a ∧ a < 0xA0020 then
    -- PERIOD_NS: 0, or 1,000 to 1,000,000,000
    !(Nat.beq (bits v 0 30) 0 || (Nat.ble 1000 (bits v 0 30) && Nat.ble (bits v 0 30) 1000000000))
  else if 0xA1000 ≤ a ∧ a < 0xA1800 then
    -- R418, R430, R438
    let c := (a - 0xA1000) / 64
    let o := a % 64
    let sum := (List.range 32).foldl (fun t k =>
      t + if k = c then bits v 20 7 else s.fld (Reg.DMA_CH_CFG_TAGS k)) 0
    s.reservedChan c || (Nat.ble o 8 && !(Nat.beq (s.chState c) 0 || Nat.beq (s.chState c) 4)) ||
      (Nat.beq o 8 && (!(Nat.beq (bits v 0 13 % 64) 0) || Nat.blt 256 sum))
  else if 0xE0100 ≤ a ∧ a < 0xE0130 ∧ a % 8 = 0 then
    let inside (lo : Nat) (least greatest : Int) : Bool :=
      decide (least ≤ signed 4 (bits v lo 4)) && decide (signed 4 (bits v lo 4) ≤ greatest)
    !(inside 0 (-7) 4 && inside 4 (-3) 4 && inside 8 (-4) 5)
  else if 0x100000 ≤ a ∧ a < 0x1C0000 then
    let n := (a - 0x100000) / 0x10000
    let o := a % 0x10000
    -- R179; FC_WM
    (((Nat.ble 0x4020 o && Nat.ble o 0x4034) || (Nat.ble 0x8000 o && Nat.blt o 0xA000)) &&
      (!(Nat.beq (s.fld (Reg.PORT_GATE_STATUS_STATE n)) 0) || (s.port n).copying)) ||
      (Nat.ble 0x410 o && Nat.blt o 0x430 && Nat.ble (bits v 0 16) (bits v 16 16))
  else if a = Reg.FLOW_CMD_ADDR_LO ∨ a = Reg.FLOW_CMD_ADDR_HI then
    Nat.beq (s.fld Reg.FLOW_CMD_STATUS_STATE) 1
  else if 0x300000 ≤ a ∧ a < 0x300080 then
    -- R411
    Nat.beq (s.fld (Reg.QM_QCMD_STATUS_STATE.of fn)) 1
  else if a = Reg.QM_EVT_ROUTE 0x0B then
    -- R404
    match s.ownerOf (bits v 0 20) with
    | some f => !(Nat.beq f 2)
    | none => false
  else false

/-- A write by the access types of the register's fields (R6, R7, R580). -/
def plainWrite (s : State) (fn a v : Nat) : State :=
  match regDef? a with
  | none => s
  | some d =>
    if d.inRange v then s.wr (keyOf fn a) (d.take (s.rd (keyOf fn a)) (BitVec.ofNat 32 v)) else s

/-- SLOT_CTRL (R478): with AUTO at 1 the recorder role drives power and indicators, with AUTO at 0 the host. -/
def slotCtrlWrite (s : State) (v : Nat) : State :=
  let auto := v.testBit 0
  let s := if auto then s.setFlag Reg.SLOT_CTRL_AUTO true else s.wrN Reg.SLOT_CTRL (v % 64)
  let on := if auto then bayPower s.bay else !v.testBit 1
  let s := if on then s else s.cartPowerOff
  let since := if on && !s.cart.power then s.tb.uptime else s.cart.poweredAt
  { s with cart := { s.cart with
      power := on, poweredAt := since
      attnInd := if auto then bayAttn s.bay else bits v 2 2
      pwrInd := if auto then bayInd s.bay else bits v 4 2 } }

/-- OBS_TRACE_CTRL.EN (R530, R532): enabling starts afresh and sends a SYNC; disabling ends the trace. -/
def traceCtrlWrite (s : State) (v : Nat) : State :=
  let was := s.flag Reg.OBS_TRACE_CTRL_EN
  let t := s.traceNow.setFlag Reg.OBS_TRACE_CTRL_EN (v.testBit 0)
  if v.testBit 0 = was then t
  else
    let t := { t with obs := { t.obs with fifo := [], seq := 0, lostSpine := 0, lostFifo := 0 } }
    if v.testBit 0 then t.traceSync else t

/-- PORTn_MAC_CTRL: a change of MAX_FRAME recomputes LO_CREDIT (R203). -/
def macCtrlWrite (s : State) (a n v : Nat) : State :=
  let was := s.fld (Reg.PORT_MAC_CTRL_MAX_FRAME n)
  let t := s.plainWrite 0 a v
  -- R242: at TX_EN 0 the port acts as with the link down.
  let t := (if s.flag (Reg.PORT_MAC_CTRL_TX_EN n) && !t.flag (Reg.PORT_MAC_CTRL_TX_EN n) then t.takeBack n
    else t).settle n
  if t.fld (Reg.PORT_MAC_CTRL_MAX_FRAME n) = was then t
  else (List.range 8).foldl (fun t c =>
    let slope := Table.get (fun _ => 0) (t.port n).slope c
    if slope = 0 then t else
      let lo := State.loCredit (t.rate n) slope (t.fld (Reg.PORT_MAC_CTRL_MAX_FRAME n))
      t.wrN (Reg.PORT_CBS_LO n c) (unsigned 32 (-((-lo) / 1000000)))) t

/-- PLCA parameters (R238): in force at once with PLCA off, else at the next BEACON sent or received. -/
def plcaWrite (s : State) (a n v : Nat) : State :=
  let t := s.plainWrite 0 a v
  if (t.port n).plcaCtrl % 256 = 255 then t.applyPlca n else t

/-- QM_QCMD: a write starts the operation OP names (R410). -/
def qcmdWrite (s : State) (fn v : Nat) : State :=
  match v % 8 with
  | 1 => s.qmCreate fn
  | 2 => s.qmEnable fn
  | 3 => s.qmShutdown fn
  | 4 => s.qmReset fn
  | 5 => s.qmDestroy fn
  | 6 => s.qmModify fn
  | 7 => s.qmQuery fn
  | _ => s

/-- IMP_MB_CMD (R107): LOAD_BINDER, LOAD_IMAGE, and any other use.  ENROL and ATTEST, whose buffers the write
does not carry, are the commands of that name. -/
def mbCmdWrite (s : State) (v : Nat) : State :=
  match v % 256 with
  | 1 => after (execLoadBinder s) s
  | 2 => after (execLoadImage s) s
  | 3 => s
  | 4 => s
  | c => s.mbStart c false true (s.mbOp c)

/-- A write of one of the DMA channel's registers. -/
def dmaCtrlWrite (s : State) (c v : Nat) : State :=
  let s := if v.testBit 0 then s.dmaStart c else s
  let s := if v.testBit 1 then s.dmaStop c else s
  if v.testBit 2 then s.setDmaPending c 0 else s

/-- The writes of blocks GLB to SLOT that act, by offset. -/
def actLow (s : State) (fn a v : Nat) : State :=
  if a = Reg.GLB_QRESET then after (execQuireReset (BitVec.ofNat 16 v) s) s
  else if a = Reg.GLB_ERESET then (if v.testBit 31 && Nat.blt (v % 256) 160 then s.engineReset (v % 256) else s)
  else if a = Reg.IMP_MB_CMD then s.mbCmdWrite v
  else if a = Reg.IMP_REIMP_CTRL then
    let s := if v.testBit 0 then s.reimpGo else s
    if v.testBit 1 then after (execAbandon s) s else s
  else if a = Reg.GUARD_CTRL then (if v.testBit 0 then after (execGuardHandoverWrite s) s else s)
  else if a = Reg.GUARD_PAIR_CTRL then s.pairCtrl (BitVec.ofNat 32 v)
  else if a = Reg.OBS_TRACE_CTRL then s.traceCtrlWrite v
  else if a = Reg.OBS_LEDGER_CTRL then (if v.testBit 0 then s.ledgerPoint [] else s)
  else if a = Reg.OBS_LEDGER_RELEASE then (if v.testBit 0 then after (execRelease s) s else s)
  else if a = Reg.PCIE_WIN_COMMIT then s.commitWindows (v % 16)
  else if a = Reg.PCIE_LTR_ACTIVE then after (execLtrWrite false (BitVec.ofNat 16 v) s) s
  else if a = Reg.PCIE_LTR_QUIET then after (execLtrWrite true (BitVec.ofNat 16 v) s) s
  else if a = Reg.SLOT_CTRL then s.slotCtrlWrite v
  else if a = Reg.SLOT_REC_CTRL then
    let s := s.plainWrite fn a v
    if v.testBit 4 then after (execLabel s) s else s
  else s.plainWrite fn a v

/-- The writes of blocks DMA to RING that act, by offset. -/
def actMid (s : State) (fn a v : Nat) : State :=
  if a = Reg.DMA_FLAGS then after (execDmaFlagsWrite (BitVec.ofNat 32 v) s) s
  else if a = Reg.DMA_FLAGS_CLR then
    (s.wr Reg.DMA_FLAGS (s.rd Reg.DMA_FLAGS &&& ~~~(BitVec.ofNat 32 v))).settleAll
  else if 0xA1000 ≤ a ∧ a < 0xA1800 ∧ a % 64 = 0x10 then s.dmaCtrlWrite ((a - 0xA1000) / 64) v
  else if a = Reg.EVT_LEVEL_OUT then s.evtDrive v
  else if 0xC0100 ≤ a ∧ a < 0xC0900 ∧ a % 64 = 4 then
    let n := (a - 0xC0100) / 64
    let s := s.evtCtrl n v
    if v.testBit 3 then s.evtClear n else s
  else if a = Reg.TB_STEP_AUTH then
    (match v % 4 with
     | 1 => after (execApply s) s
     | 2 => after (execSlew s) s
     | 3 => after (execReject s) s
     | _ => s)
  else if a = Reg.TB_PPS_CTRL then (s.plainWrite fn a v).ppsDrive
  else if a = Reg.TB_RATE then after (execTbRate (BitVec.ofNat 32 v) s) s
  else if a = Reg.TB_HOST_STATUS then after (execTbHostStatusWrite (BitVec.ofNat 2 v) s) s
  else if a = Reg.PTP_CTRL then after (execPtpCtrlWrite (BitVec.ofNat 32 v) s) s
  else if a = Reg.PTP_SWITCH then (if v.testBit 0 then after (execPtpSwitchGo s) s else s)
  else if a = Reg.RING_CTRL then
    let s := after (execRingEnableWrite (v.testBit 0) s) s
    let s := if v.testBit 1 then after (execMeasure s) s else s
    if v.testBit 2 then after (execHeal s) s else s
  else if a = Reg.RING_ETHERTYPE then after (execRingEthertypeWrite (BitVec.ofNat 16 v) s) s
  else if a = Reg.RING_READMIT then
    (if v.testBit 31 then after (execRingReadmit (BitVec.ofNat 8 v) s) s else s)
  else if a = Reg.RING_TABLE_COMMIT then
    (match v % 4 with
     | 1 => after (execRingTableGo s) s
     | 2 => after (execRingTableCancel s) s
     | _ => s)
  else s.plainWrite fn a v

/-- The writes of the PORT blocks that act. -/
def actPort (s : State) (fn a v : Nat) : State :=
  let n := (a - 0x100000) / 0x10000
  let o := a % 0x10000
  let port := Fin.ofNat 12 n
  if o = 0x8 then after (execAdminDownWrite port (BitVec.ofNat 32 v) s) s
  else if o = 0xC then s.macCtrlWrite a n v
  else if o = 0x500 then after (execMmEnableWrite (Fin.ofNat 8 n) (BitVec.ofNat 32 v) s) s
  else if o = 0x600 ∨ o = 0x604 then s.plcaWrite a n v
  else if o = 0x4038 then
    (match v % 4 with
     | 1 => after (execGclGo port s) s
     | 2 => after (execGclCancel port s) s
     | _ => s)
  else if 0x4100 ≤ o ∧ o < 0x4180 ∧ o % 16 = 0 then
    after (execCbsSlopeWrite port (Fin.ofNat 8 ((o - 0x4100) / 16)) (BitVec.ofNat 25 v) s) s
  else s.plainWrite fn a v

/-- The writes of blocks FLOW, QM and ENG that act. -/
def actHigh (s : State) (fn a v : Nat) : State :=
  if a = Reg.FLOW_CMD_CTRL then (if v.testBit 0 then after (execFlowCmdGo (Nat.beq fn 3) s) s else s)
  else if a = Reg.QM_QCMD then s.qcmdWrite fn v
  else if a = Reg.ENG_SPARE_CTRL then (if v.testBit 31 then s.spareGo (v % 256) else s)
  else s.plainWrite fn a v

/-- A write to the ring schedule table window (R301, R326): the admin areas take it while no change runs. -/
def ringTableWrite (s : State) (a v : Nat) : State :=
  let o := a - 0x800000
  let admin := Nat.blt o 0x20000 || (Nat.ble 0x40000 o && Nat.blt o 0x4008C) ||
    (Nat.ble 0x80000 o && Nat.blt o 0xC0000)
  let ok := if o = 0x40084 then Nat.ble 1000 v && Nat.ble v 1000000
    else if o = 0x40088 then Nat.ble 500 v && Nat.ble v 100000
    else true
  if s.fld Reg.RING_TABLE_STATUS_STATE = 0 ∧ admin ∧ ok then
    s.wrN a (if o = 0x40080 then v % 2 ^ 24 else v)
  else s

/-- The commit of the group of `n` words at `lo` (R10): what is staged comes into force, or is dropped where
the definition of the group has the commit ignored. -/
def commitGroup (s : State) (fn lo n : Nat) : State :=
  let k := keyOf fn lo
  let w (j : Nat) : Nat := (s.staged (k + 4 * j)).toNat
  if lo = Reg.TB_SET_LO then
    let t : Full := { sec := w 1 + w 2 % 2 ^ 16 * 2 ^ 32, ns := w 0, frac := w 2 / 2 ^ 16 }
    let s := s.dropStaged k n
    after (execTbSet t s) s
  else if lo = Reg.TB_STEP_LO then
    let d := w 0 + w 1 * 2 ^ 32
    let s := s.dropStaged k n
    after (execTbStep (BitVec.ofNat 64 d) s) s
  else if 0xC0108 ≤ lo ∧ lo < 0xC0900 then
    (s.unstage (k + 12)).evtCommit ((lo - 0xC0100) / 64) (w 3)
  else if 0x201000 ≤ lo ∧ lo < 0x202000 then s.commitFrer ((lo - 0x201000) / 16)
  else if 0x204000 ≤ lo ∧ lo < 0x214000 then s.commitPolicer ((lo - 0x204000) / 16)
  else if 0x88000 ≤ lo ∧ lo < 0x90000 then
    -- R459
    if (w 0).testBit 31 && !((s.ownerOf (bits (w 0) 0 20) == some fn) && Nat.blt (bits (w 1) 0 11) (vectorCount fn))
    then s.dropStaged k n else s.commitWords k n
  else s.commitWords k n

/-- A 32-bit write of `v` at offset `a` of BAR0 through function `fn`. -/
def writeWord (s : State) (fn a v : Nat) : State :=
  if (s.decodes fn a true && writeRight fn a && s.present fn a && !s.ignoresWrite fn a v) = false then s
  else
    let s := if 0x100000 ≤ a ∧ a < 0x1C0000 ∧ 0x20 ≤ a % 0x10000 ∧ a % 0x10000 < 0x300 then
      s.logRx ((a - 0x100000) / 0x10000) else s
    match stageGroup? a with
    | some (lo, n) =>
      let s := s.stageWord (keyOf fn a) (BitVec.ofNat 32 (v &&& rwMask a))
      if a = lo + 4 * (n - 1) then s.commitGroup fn lo n else s
    | none =>
      if a < 0xA0000 then s.actLow fn a v
      else if a < 0x100000 then s.actMid fn a v
      else if a < 0x1C0000 then s.actPort fn a v
      else if a < 0x500000 then s.actHigh fn a v
      else s.ringTableWrite a v

/-! ### The MSI-X table and configuration space (R444 to R448, R455, R458, R461) -/

/-- A 32-bit write at offset `o` of BAR4. -/
def bar4Write (s : State) (fn o v : Nat) : State :=
  if (Nat.ble 2 s.mode && Nat.blt s.mode 6 && Nat.blt o (16 * vectorCount fn)) = false then s
  else if o % 16 = 12 then
    let k := o / 16
    (s.setVec fn k { s.vec fn k with unmasked := !v.testBit 0 }).deliverPending fn k
  else s.wrN (bar4Key fn o) (if o % 16 = 0 then v / 4 * 4 else v)

/-- The bits of a configuration word that a write sets, and those it clears with a 1: those of R444 to R447,
and the others as PCI Express has them (PRESUMED). -/
def cfgMask (fn o : Nat) : Nat × Nat :=
  let pf := Nat.blt fn 4
  let of0 (m : Nat) : Nat × Nat := (if fn = 0 then m else 0, 0)
  match o with
  | 0x04 => (if pf then 0x140 else 0, 0xF9000000)
  | 0x0C => (0xFF, 0)
  | 0x10 => (if pf then 0xFC000000 else 0, 0)
  | 0x18 => (if pf then 0xFFFFF000 else 0, 0)
  | 0x20 => (if pf then 0xFFFF0000 else 0, 0)
  | 0x14 | 0x1C | 0x24 => (if pf then 0xFFFFFFFF else 0, 0)
  | 0x3C => (if pf then 0xFF else 0, 0)
  | 0x54 => (if pf then 0xFFFFFFFC else 0, 0)
  | 0x58 | 0x60 => (if pf then 0xFFFFFFFF else 0, 0)
  | 0x5C => (if pf then 0xFFFF else 0, 0)
  | 0x78 => (0x71FF, 0xF0000)
  | 0x80 => (0x1CB, 0)
  | 0x98 => (if fn = 0 then 0x140F else 0x100F, 0)
  | 0xA0 => of0 0xFFFF
  | 0x104 => (0, 0x7FF030)
  | 0x108 | 0x10C => (0x7FF030, 0)
  | 0x110 => (0, 0xF1C1)
  | 0x114 => (0xF1C1, 0)
  | 0x118 => (0x140, 0)
  | 0x168 => of0 0x18
  | 0x170 => of0 0xFFFF
  | 0x184 => of0 0xFFC00000
  | 0x18C | 0x194 => of0 0xFFFFF000
  | 0x188 | 0x190 | 0x198 => of0 0xFFFFFFFF
  | 0x1B8 => of0 0xE3FFFF0F
  | 0x1BC => of0 0xFB
  | 0x2A4 => of0 0x1FFF1FFF
  | _ => (0, 0)

/-- The completion timeout of a code, in µs (R455). -/
def ctoMicros (code : Nat) : Nat :=
  match code with
  | 1 => 100
  | 2 => 10000
  | 5 => 50000
  | 6 => 200000
  | 9 => 800000
  | 10 => 3000000
  | 13 => 12000000
  | 14 => 60000000
  | _ => 10000

/-- R453: the tag space that the two enables select. -/
def showTags (s : State) (fn : Nat) : State :=
  let ext := (s.rd (cfgKey fn 0x78)).getLsbD 8
  let ten := (s.rd (cfgKey fn 0x98)).getLsbD 12
  s.setFld (Reg.PCIE_FUNC_TAGS.of fn) (if ten then 2 else if ext then 1 else 0)

/-- The interrupt mode as the configuration words of function `fn` give it (R458). -/
def modeFromConfig (s : State) (fn : Nat) (intxDisable : Bool) : State :=
  let msi := s.rd (cfgKey fn 0x50)
  let msix := s.rd (cfgKey fn 0xB0)
  s.changeMode fn (msix.getLsbD 31) (msix.getLsbD 30) (Nat.blt fn 4 && msi.getLsbD 16)
    (if fn < 4 then 2 ^ min 5 (bits msi.toNat 20 3) else 1) intxDisable

/-- A 32-bit write at offset `o` of the configuration space of function `fn`.  Initiate Function Level Reset
and VF Enable are the commands FLR and VF_ENABLE. -/
def cfgWrite (s : State) (fn o v : Nat) : State :=
  let k := cfgKey fn o
  let (rw, w1c) := cfgMask fn o
  let old := (s.rd k).toNat
  let s := s.wrN k (((old &&& (0xFFFFFFFF - rw)) ||| (v &&& rw)) &&& (0xFFFFFFFF - (v &&& w1c)))
  let intx := s.host.intxDisable.getLsbD fn
  match o with
  | 0x04 =>
    let s := if fn < 4 then s.setFlag (Reg.PCIE_FUNC_MSE.of fn) (v.testBit 1) else s
    let s := (s.setFlag (Reg.PCIE_FUNC_BME.of fn) (v.testBit 2)).hostChanged
    if fn < 4 then s.modeFromConfig fn (v.testBit 10) else s
  | 0x44 =>
    let one := 1#64 <<< fn
    let s := { s with host := { s.host with
        pmeEn := if v.testBit 8 then s.host.pmeEn ||| one else s.host.pmeEn &&& ~~~one
        pmeStatus := if v.testBit 15 then s.host.pmeStatus &&& ~~~one else s.host.pmeStatus } }
    let s := if v % 4 = 0 ∨ v % 4 = 3 then s.setFld (Reg.PCIE_FUNC_DSTATE.of fn) (v % 4) else s
    s.hostChanged
  | 0x50 =>
    if fn < 4 then
      (s.wrN k (putBits (putBits old 16 1 (bits v 16 1)) 20 3 (bits v 20 3))).modeFromConfig fn intx
    else s
  | 0x60 =>
    let m := max 1 (Table.get (fun _ => 1) s.host.msiMessages fn)
    (List.range (if fn < 4 then vectorCount fn else 0)).foldl (fun s i =>
      (s.setVec fn i { s.vec fn i with msiMasked := v.testBit (i % m) }).deliverPending fn i) s
  | 0x78 => s.showTags fn
  | 0x98 =>
    let s := (s.setFld (Reg.PCIE_CTO_TIMEOUT_US.of fn) (ctoMicros (v % 16))).setFld
      (Reg.PCIE_CTO_CODE.of fn) (v % 16)
    let s := if fn = 0 then { s with host := { s.host with ltrEnable := v.testBit 10 } } else s
    s.showTags fn
  | 0xB0 =>
    (s.wrN k (putBits old 30 2 (bits v 30 2))).modeFromConfig fn intx
  | 0x168 =>
    if fn = 0 then s.vfs.foldl (fun s f => s.setFlag (Reg.PCIE_FUNC_MSE.of f) (v.testBit 3)) s else s
  | _ => s

/-! ### Writes by address and width (R9, R450, R454, R545) -/

/-- One 32-bit part of a write. -/
def writeSpace (s : State) (fn : Nat) (sp : Space) (a v : Nat) : State :=
  match sp with
  | .bar0 => s.writeWord fn a v
  | .bar4 => s.bar4Write fn a v
  | .config => s.cfgWrite fn a v

/-- `k` words of `data`, in address order; a final part of fewer than 4 bytes is not among them. -/
def writeWords (s : State) (fn : Nat) (sp : Space) (a : Nat) (data : List Byte) : Nat → State
  | 0 => s
  | k + 1 => (s.writeSpace fn sp a (leNat (data.take 4))).writeWords fn sp (a + 4) (data.drop 4) k

/-- A host write of `data` from `a`. -/
def hostRegWrite (s : State) (fn : Nat) (sp : Space) (a : Nat) (data : List Byte) (poisoned : Bool) : State :=
  if sp ≠ .config ∧ s.served fn = false then s.unsupported fn
  else if (s.running && s.enabledFuncs.contains fn) = false then s
  else if sp = .bar0 ∧ 0x2000000 ≤ a then
    s.windowWrite ((a - 0x2000000) / 0x800000) fn ((a - 0x2000000) % 0x800000) (data.map some) poisoned
  else if poisoned then (s.count Cnt.PCIE_POISONED_RX).postOpenLimited 0x0506
  else if a % 4 ≠ 0 then s
  else s.writeWords fn sp a data (data.length / 4)

end State

/-! ### Meanings -/

/-- A host write to the register space, the MSI-X table or configuration space (R6 to R10, R580): decoded by
address, width and access type.  A register whose write is a command of its own takes it as that command. -/
def execRegisterWrite (fn : BitVec 6) (space : Space) (addr : BitVec 26) (data : List Byte) (poisoned : Bool)
    (s : State) : Out State :=
  .next (s.hostRegWrite fn.toNat space addr.toNat data poisoned)

end Sys2Proof.Machine
end

