-- ==== Sys2Proof/Machine/Dispatch.lean ====
section
/-! DEFINITION. The dispatch: one arm for each constructor of `Instr`. -/

namespace Sys2Proof.Machine

/-- The effect of a command on everything but the queue of commands that wait. -/
def exec (i : Instr) (s : State) : Host.Outcome State Fault Refusal :=
  match i with
  | .registerWrite fn space addr data poisoned => Sys2Proof.Machine.execRegisterWrite fn space addr data poisoned s
  | .groupReadLatch fn space addr len => Sys2Proof.Machine.execGroupReadLatch fn space addr len s
  | .auxPgRise => Sys2Proof.Machine.execAuxPgRise s
  | .auxPgFall => Sys2Proof.Machine.execAuxPgFall s
  | .mainPgFall => Sys2Proof.Machine.execMainPgFall s
  | .perstAssert => Sys2Proof.Machine.execPerstAssert s
  | .perstDeassert bootsel => Sys2Proof.Machine.execPerstDeassert bootsel s
  | .hotReset linkDown bootsel reads => Sys2Proof.Machine.execHotReset linkDown bootsel reads s
  | .flr fn reads => Sys2Proof.Machine.execFlr fn reads s
  | .d3hotEntry fn => Sys2Proof.Machine.execD3hotEntry fn s
  | .d0Return fn => Sys2Proof.Machine.execD0Return fn s
  | .l2Entry => Sys2Proof.Machine.execL2Entry s
  | .busMasterEnableChange fn enable => Sys2Proof.Machine.execBusMasterEnableChange fn enable s
  | .bootSlotRead slot density hdr => Sys2Proof.Machine.execBootSlotRead slot density hdr s
  | .binderLoaded fw => Sys2Proof.Machine.execBinderLoaded fw s
  | .dramTrainingDone bytes => Sys2Proof.Machine.execDramTrainingDone bytes s
  | .imageLoaded img => Sys2Proof.Machine.execImageLoaded img s
  | .imposed out => Sys2Proof.Machine.execImposed out s
  | .loadBinder => Sys2Proof.Machine.execLoadBinder s
  | .loadImage => Sys2Proof.Machine.execLoadImage s
  | .enrol record vppMv => Sys2Proof.Machine.execEnrol record vppMv s
  | .attest nonce => Sys2Proof.Machine.execAttest nonce s
  | .mbTransferDone ok => Sys2Proof.Machine.execMbTransferDone ok s
  | .reimpGo => Sys2Proof.Machine.execReimpGo s
  | .abandon => Sys2Proof.Machine.execAbandon s
  | .reimpVerified img => Sys2Proof.Machine.execReimpVerified img s
  | .reimpMigratedOut quire => Sys2Proof.Machine.execReimpMigratedOut quire s
  | .reimpLoaded quire records => Sys2Proof.Machine.execReimpLoaded quire records s
  | .reimpDone => Sys2Proof.Machine.execReimpDone s
  | .quireReset quires => Sys2Proof.Machine.execQuireReset quires s
  | .quireResetDone quire marchOk failed => Sys2Proof.Machine.execQuireResetDone quire marchOk failed s
  | .engineReset engine => Sys2Proof.Machine.execEngineReset engine s
  | .engineKatDone pass => Sys2Proof.Machine.execEngineKatDone pass s
  | .creditReturn link vc dir n => Sys2Proof.Machine.execCreditReturn link vc dir n s
  | .cellRelease handle => Sys2Proof.Machine.execCellRelease handle s
  | .workItemArrival folio => Sys2Proof.Machine.execWorkItemArrival folio s
  | .dieLost die => Sys2Proof.Machine.execDieLost die s
  | .paceMonitorSample quire pace => Sys2Proof.Machine.execPaceMonitorSample quire pace s
  | .paceLowTimeout quire => Sys2Proof.Machine.execPaceLowTimeout quire s
  | .railAdjust die => Sys2Proof.Machine.execRailAdjust die s
  | .railMonitorSample rail v => Sys2Proof.Machine.execRailMonitorSample rail v s
  | .ledgerPoint out => Sys2Proof.Machine.execLedgerPoint out s
  | .now out => Sys2Proof.Machine.execNow out s
  | .ledgerNumRead => Sys2Proof.Machine.execLedgerNumRead s
  | .release => Sys2Proof.Machine.execRelease s
  | .holdExpired => Sys2Proof.Machine.execHoldExpired s
  | .traceRecord item ageNs => Sys2Proof.Machine.execTraceRecord item ageNs s
  | .traceSync => Sys2Proof.Machine.execTraceSync s
  | .foreEdgeRealign => Sys2Proof.Machine.execForeEdgeRealign s
  | .stepApplied => Sys2Proof.Machine.execStepApplied s
  | .slewDone => Sys2Proof.Machine.execSlewDone s
  | .tbSet value => Sys2Proof.Machine.execTbSet value s
  | .tbStep value => Sys2Proof.Machine.execTbStep value s
  | .tbRate value => Sys2Proof.Machine.execTbRate value s
  | .apply => Sys2Proof.Machine.execApply s
  | .slew => Sys2Proof.Machine.execSlew s
  | .reject => Sys2Proof.Machine.execReject s
  | .tbHostStatusWrite value => Sys2Proof.Machine.execTbHostStatusWrite value s
  | .ptpCtrlWrite value => Sys2Proof.Machine.execPtpCtrlWrite value s
  | .ptpSwitchGo => Sys2Proof.Machine.execPtpSwitchGo s
  | .sync port domain seq twoStep origin correction rx => Sys2Proof.Machine.execSync port domain seq twoStep origin correction rx s
  | .followUp port domain seq origin correction => Sys2Proof.Machine.execFollowUp port domain seq origin correction s
  | .announce port domain gm dataSet utc utcValid => Sys2Proof.Machine.execAnnounce port domain gm dataSet utc utcValid s
  | .delayReq port domain seq rx => Sys2Proof.Machine.execDelayReq port domain seq rx s
  | .delayResp port domain t3 t4 => Sys2Proof.Machine.execDelayResp port domain t3 t4 s
  | .pdelayReq port seq rx => Sys2Proof.Machine.execPdelayReq port seq rx s
  | .pdelayResp port t1 t2 t3 t4 => Sys2Proof.Machine.execPdelayResp port t1 t2 t3 t4 s
  | .ptpUnsupportedMessage port => Sys2Proof.Machine.execPtpUnsupportedMessage port s
  | .domainLost slot noMaster => Sys2Proof.Machine.execDomainLost slot noMaster s
  | .ppsInEdge falling stamp => Sys2Proof.Machine.execPpsInEdge falling stamp s
  | .ppsInLost => Sys2Proof.Machine.execPpsInLost s
  | .ppsOutRise => Sys2Proof.Machine.execPpsOutRise s
  | .ppsOutFall => Sys2Proof.Machine.execPpsOutFall s
  | .ref10mLost => Sys2Proof.Machine.execRef10mLost s
  | .headerArrival port cls => Sys2Proof.Machine.execHeaderArrival port cls s
  | .launchTimeDue port => Sys2Proof.Machine.execLaunchTimeDue port s
  | .lateDropped port plcaWaitNs => Sys2Proof.Machine.execLateDropped port plcaWaitNs s
  | .frameTransmitStart port plcaWaitNs => Sys2Proof.Machine.execFrameTransmitStart port plcaWaitNs s
  | .frameTransmitEnd port => Sys2Proof.Machine.execFrameTransmitEnd port s
  | .gateEntryStart port => Sys2Proof.Machine.execGateEntryStart port s
  | .cbsCreditRecovered port => Sys2Proof.Machine.execCbsCreditRecovered port s
  | .cbsSlopeWrite port cls value => Sys2Proof.Machine.execCbsSlopeWrite port cls value s
  | .holdAssert port => Sys2Proof.Machine.execHoldAssert port s
  | .holdRelease port => Sys2Proof.Machine.execHoldRelease port s
  | .gclGo port => Sys2Proof.Machine.execGclGo port s
  | .gclCancel port => Sys2Proof.Machine.execGclCancel port s
  | .gclValidated port => Sys2Proof.Machine.execGclValidated port s
  | .gclChanged port => Sys2Proof.Machine.execGclChanged port s
  | .adminCopyDone port => Sys2Proof.Machine.execAdminCopyDone port s
  | .pcsLockChange port report => Sys2Proof.Machine.execPcsLockChange port report s
  | .linkDown port => Sys2Proof.Machine.execLinkDown port s
  | .linkUp port => Sys2Proof.Machine.execLinkUp port s
  | .adminDownWrite port value => Sys2Proof.Machine.execAdminDownWrite port value s
  | .frameReceive port bytes line ageNs => Sys2Proof.Machine.execFrameReceive port bytes line ageNs s
  | .mmFragmentReceive port smd count bytes last mcrc line ageNs => Sys2Proof.Machine.execMmFragmentReceive port smd count bytes last mcrc line ageNs s
  | .verifyReceive port => Sys2Proof.Machine.execVerifyReceive port s
  | .respondReceive port => Sys2Proof.Machine.execRespondReceive port s
  | .verifyTimeout port => Sys2Proof.Machine.execVerifyTimeout port s
  | .mmEnableWrite port value => Sys2Proof.Machine.execMmEnableWrite port value s
  | .pauseReceive port quanta => Sys2Proof.Machine.execPauseReceive port quanta s
  | .pfcReceive port enable quanta => Sys2Proof.Machine.execPfcReceive port enable quanta s
  | .fcStopExpire port cls => Sys2Proof.Machine.execFcStopExpire port cls s
  | .fcRefresh port prio => Sys2Proof.Machine.execFcRefresh port prio s
  | .plcaBeaconReceive t1s => Sys2Proof.Machine.execPlcaBeaconReceive t1s s
  | .plcaBeaconLoss t1s => Sys2Proof.Machine.execPlcaBeaconLoss t1s s
  | .collisions t1s => Sys2Proof.Machine.execCollisions t1s s
  | .wakePatternMatch k frame => Sys2Proof.Machine.execWakePatternMatch k frame s
  | .mdioPoll up => Sys2Proof.Machine.execMdioPoll up s
  | .flowCacheFill part bucket => Sys2Proof.Machine.execFlowCacheFill part bucket s
  | .flowCheckpoint flow => Sys2Proof.Machine.execFlowCheckpoint flow s
  | .flowIdleReturn flow => Sys2Proof.Machine.execFlowIdleReturn flow s
  | .flowSweep flow => Sys2Proof.Machine.execFlowSweep flow s
  | .cmdBlockRead src fin block wbOk => Sys2Proof.Machine.execCmdBlockRead src fin block wbOk s
  | .insert src part key context => Sys2Proof.Machine.execInsert src part key context s
  | .flowModify src part flags flowIdx key context => Sys2Proof.Machine.execFlowModify src part flags flowIdx key context s
  | .delete src part flags flowIdx key => Sys2Proof.Machine.execDelete src part flags flowIdx key s
  | .read src part flags flowIdx key => Sys2Proof.Machine.execRead src part flags flowIdx key s
  | .flowRecoveryReset src part flags flowIdx key => Sys2Proof.Machine.execFlowRecoveryReset src part flags flowIdx key s
  | .genReset src part flags flowIdx key => Sys2Proof.Machine.execGenReset src part flags flowIdx key s
  | .frerProfileCommit profile => Sys2Proof.Machine.execFrerProfileCommit profile s
  | .policerProfileCommit profile => Sys2Proof.Machine.execPolicerProfileCommit profile s
  | .pairLinkFrameReceive lane bytes ageNs => Sys2Proof.Machine.execPairLinkFrameReceive lane bytes ageNs s
  | .pairCopyTimeout => Sys2Proof.Machine.execPairCopyTimeout s
  | .cycleStart => Sys2Proof.Machine.execCycleStart s
  | .ringCycleBuild cycle => Sys2Proof.Machine.execRingCycleBuild cycle s
  | .ringMark mark => Sys2Proof.Machine.execRingMark mark s
  | .reply side cycle slot station flags d payload ageNs => Sys2Proof.Machine.execReply side cycle slot station flags d payload ageNs s
  | .ringSlotDeadline cycle slot => Sys2Proof.Machine.execRingSlotDeadline cycle slot s
  | .delayOutReceive side seq of ret ageNs => Sys2Proof.Machine.execDelayOutReceive side seq of ret ageNs s
  | .delayBackReceive side seq of ageNs => Sys2Proof.Machine.execDelayBackReceive side seq of ageNs s
  | .ringReturnFrame side type cycle ret => Sys2Proof.Machine.execRingReturnFrame side type cycle ret s
  | .ringCycleReturnTimeout => Sys2Proof.Machine.execRingCycleReturnTimeout s
  | .heal => Sys2Proof.Machine.execHeal s
  | .measure => Sys2Proof.Machine.execMeasure s
  | .ringEnableWrite enable => Sys2Proof.Machine.execRingEnableWrite enable s
  | .ringEthertypeWrite value => Sys2Proof.Machine.execRingEthertypeWrite value s
  | .ringReadmit station => Sys2Proof.Machine.execRingReadmit station s
  | .ringTableGo => Sys2Proof.Machine.execRingTableGo s
  | .ringTableCancel => Sys2Proof.Machine.execRingTableCancel s
  | .ringTableValidated => Sys2Proof.Machine.execRingTableValidated s
  | .ringListenEnd => Sys2Proof.Machine.execRingListenEnd s
  | .ringHoldoffEnd => Sys2Proof.Machine.execRingHoldoffEnd s
  | .claimSend => Sys2Proof.Machine.execClaimSend s
  | .claimReceive priority serial => Sys2Proof.Machine.execClaimReceive priority serial s
  | .claimWon => Sys2Proof.Machine.execClaimWon s
  | .foreignMaster => Sys2Proof.Machine.execForeignMaster s
  | .standbyForward side bytes ageNs => Sys2Proof.Machine.execStandbyForward side bytes ageNs s
  | .standbyRelayLaunch => Sys2Proof.Machine.execStandbyRelayLaunch s
  | .evtInputChange pin level => Sys2Proof.Machine.execEvtInputChange pin level s
  | .evtEdgeAccept pin => Sys2Proof.Machine.execEvtEdgeAccept pin s
  | .evtTarget pin => Sys2Proof.Machine.execEvtTarget pin s
  | .evtPulseEnd pin => Sys2Proof.Machine.execEvtPulseEnd pin s
  | .evtSnapshotForm pin => Sys2Proof.Machine.execEvtSnapshotForm pin s
  | .evtScheduleCommit pin value => Sys2Proof.Machine.execEvtScheduleCommit pin value s
  | .clear pin => Sys2Proof.Machine.execClear pin s
  | .evtArmWrite pin arm => Sys2Proof.Machine.execEvtArmWrite pin arm s
  | .evtLevelOutWrite value => Sys2Proof.Machine.execEvtLevelOutWrite value s
  | .evtRecordDeliver pin => Sys2Proof.Machine.execEvtRecordDeliver pin s
  | .seq e => Sys2Proof.Machine.execSeq e s
  | .br e => Sys2Proof.Machine.execBr e s
  | .call e => Sys2Proof.Machine.execCall e s
  | .ret e => Sys2Proof.Machine.execRet e s
  | .dispatch e => Sys2Proof.Machine.execDispatch e s
  | .wait e => Sys2Proof.Machine.execWait e s
  | .nop e k => Sys2Proof.Machine.execNop e k s
  | .add e k => Sys2Proof.Machine.execAdd e k s
  | .sub e k => Sys2Proof.Machine.execSub e k s
  | .and e k => Sys2Proof.Machine.execAnd e k s
  | .or e k => Sys2Proof.Machine.execOr e k s
  | .xor e k => Sys2Proof.Machine.execXor e k s
  | .shl e k => Sys2Proof.Machine.execShl e k s
  | .shr e k => Sys2Proof.Machine.execShr e k s
  | .sar e k => Sys2Proof.Machine.execSar e k s
  | .rol e k => Sys2Proof.Machine.execRol e k s
  | .mov e k => Sys2Proof.Machine.execMov e k s
  | .ldi64 e => Sys2Proof.Machine.execLdi64 e s
  | .cmp e k => Sys2Proof.Machine.execCmp e k s
  | .min e k => Sys2Proof.Machine.execMin e k s
  | .max e k => Sys2Proof.Machine.execMax e k s
  | .add16 e k => Sys2Proof.Machine.execAdd16 e k s
  | .sub16s e k => Sys2Proof.Machine.execSub16s e k s
  | .sub32s e k => Sys2Proof.Machine.execSub32s e k s
  | .mul e k => Sys2Proof.Machine.execMul e k s
  | .mulhi e k => Sys2Proof.Machine.execMulhi e k s
  | .bswap e k => Sys2Proof.Machine.execBswap e k s
  | .popcnt e k => Sys2Proof.Machine.execPopcnt e k s
  | .clz e k => Sys2Proof.Machine.execClz e k s
  | .crc32 e k => Sys2Proof.Machine.execCrc32 e k s
  | .extract e => Sys2Proof.Machine.execExtract e s
  | .fieldInsert e => Sys2Proof.Machine.execFieldInsert e s
  | .load e => Sys2Proof.Machine.execLoad e s
  | .store e => Sys2Proof.Machine.execStore e s
  | .addm e => Sys2Proof.Machine.execAddm e s
  | .bitset e => Sys2Proof.Machine.execBitset e s
  | .bitclr e => Sys2Proof.Machine.execBitclr e s
  | .emitRxq e => Sys2Proof.Machine.execEmitRxq e s
  | .emitPort e => Sys2Proof.Machine.execEmitPort e s
  | .emitRec e => Sys2Proof.Machine.execEmitRec e s
  | .emitPair e => Sys2Proof.Machine.execEmitPair e s
  | .drop e => Sys2Proof.Machine.execDrop e s
  | .complete e => Sys2Proof.Machine.execComplete e s
  | .event e => Sys2Proof.Machine.execEvent e s
  | .readHub e => Sys2Proof.Machine.execReadHub e s
  | .dramRead e => Sys2Proof.Machine.execDramRead e s
  | .dramWrite e => Sys2Proof.Machine.execDramWrite e s
  | .frameRead e => Sys2Proof.Machine.execFrameRead e s
  | .frameWrite e => Sys2Proof.Machine.execFrameWrite e s
  | .cmdReply e => Sys2Proof.Machine.execCmdReply e s
  | .foreEdge e => Sys2Proof.Machine.execForeEdge e s
  | .timeAdj e => Sys2Proof.Machine.execTimeAdj e s
  | .commit e => Sys2Proof.Machine.execCommit e s
  | .prog e => Sys2Proof.Machine.execProg e s
  | .safePoint e => Sys2Proof.Machine.execSafePoint e s
  | .boundExceeded e => Sys2Proof.Machine.execBoundExceeded e s
  | .roleTimerExpire e => Sys2Proof.Machine.execRoleTimerExpire e s
  | .engineSpareGo engine => Sys2Proof.Machine.execEngineSpareGo engine s
  | .migrationDone e => Sys2Proof.Machine.execMigrationDone e s
  | .engineHardFailure e => Sys2Proof.Machine.execEngineHardFailure e s
  | .doorbell fn value => Sys2Proof.Machine.execDoorbell fn value s
  | .dbBadWidth => Sys2Proof.Machine.execDbBadWidth s
  | .workEntryFetch qid fin entries => Sys2Proof.Machine.execWorkEntryFetch qid fin entries s
  | .fragmentTableRead qid pos fin fragments => Sys2Proof.Machine.execFragmentTableRead qid pos fin fragments s
  | .txBodyReadDone qid pos fin body => Sys2Proof.Machine.execTxBodyReadDone qid pos fin body s
  | .completionWrite cq => Sys2Proof.Machine.execCompletionWrite cq s
  | .eventPost => Sys2Proof.Machine.execEventPost s
  | .rxDelivery qid => Sys2Proof.Machine.execRxDelivery qid s
  | .rxHoldExpire qid => Sys2Proof.Machine.execRxHoldExpire qid s
  | .qmCreate fn => Sys2Proof.Machine.execQmCreate fn s
  | .qmEnable fn => Sys2Proof.Machine.execQmEnable fn s
  | .qmShutdown fn => Sys2Proof.Machine.execQmShutdown fn s
  | .qmReset fn => Sys2Proof.Machine.execQmReset fn s
  | .qmDestroy fn => Sys2Proof.Machine.execQmDestroy fn s
  | .qmModify fn => Sys2Proof.Machine.execQmModify fn s
  | .qmQuery fn => Sys2Proof.Machine.execQmQuery fn s
  | .drained qid => Sys2Proof.Machine.execDrained qid s
  | .cplTimeout path fn tag => Sys2Proof.Machine.execCplTimeout path fn tag s
  | .lateCompletion fn tag => Sys2Proof.Machine.execLateCompletion fn tag s
  | .tagQuarantineExpire fn tag => Sys2Proof.Machine.execTagQuarantineExpire fn tag s
  | .dmaStart ch byRole => Sys2Proof.Machine.execDmaStart ch byRole s
  | .dmaStop ch byRole => Sys2Proof.Machine.execDmaStop ch byRole s
  | .clearReq ch byRole => Sys2Proof.Machine.execClearReq ch byRole s
  | .dmaFlagsWrite value => Sys2Proof.Machine.execDmaFlagsWrite value s
  | .dmaMove ch f => Sys2Proof.Machine.execDmaMove ch f s
  | .dmaGather ch f list listFin => Sys2Proof.Machine.execDmaGather ch f list listFin s
  | .dmaScatter ch f list listFin => Sys2Proof.Machine.execDmaScatter ch f list listFin s
  | .dmaLoop ch f => Sys2Proof.Machine.execDmaLoop ch f s
  | .dmaWaitRequest ch f => Sys2Proof.Machine.execDmaWaitRequest ch f s
  | .dmaWaitTime ch f => Sys2Proof.Machine.execDmaWaitTime ch f s
  | .dmaWaitFlag ch f => Sys2Proof.Machine.execDmaWaitFlag ch f s
  | .dmaSignalCompletion ch f => Sys2Proof.Machine.execDmaSignalCompletion ch f s
  | .dmaSignalFlag ch f => Sys2Proof.Machine.execDmaSignalFlag ch f s
  | .dmaFence ch f => Sys2Proof.Machine.execDmaFence ch f s
  | .dmaHalt ch f => Sys2Proof.Machine.execDmaHalt ch f s
  | .dmaReadCompletion ch burst off data fin => Sys2Proof.Machine.execDmaReadCompletion ch burst off data fin s
  | .dmaRequest line => Sys2Proof.Machine.execDmaRequest line s
  | .dmaTimer k => Sys2Proof.Machine.execDmaTimer k s
  | .vfEnable enable numVfs reads => Sys2Proof.Machine.execVfEnable enable numVfs reads s
  | .winCommit windows => Sys2Proof.Machine.execWinCommit windows s
  | .windowWrite w fn off data poisoned => Sys2Proof.Machine.execWindowWrite w fn off data poisoned s
  | .windowRead w fn off len ue => Sys2Proof.Machine.execWindowRead w fn off len ue s
  | .unsupportedRequest fn kind => Sys2Proof.Machine.execUnsupportedRequest fn kind s
  | .linkChange speed width eqDone reversed lstate => Sys2Proof.Machine.execLinkChange speed width eqDone reversed lstate s
  | .vectorCoalesceTimeout fn vector => Sys2Proof.Machine.execVectorCoalesceTimeout fn vector s
  | .vectorUnmask fn vector => Sys2Proof.Machine.execVectorUnmask fn vector s
  | .ltrWrite quiet value => Sys2Proof.Machine.execLtrWrite quiet value s
  | .cartPresenceChange present => Sys2Proof.Machine.execCartPresenceChange present s
  | .cartLatchChange isOpen => Sys2Proof.Machine.execCartLatchChange isOpen s
  | .cartButtonPress => Sys2Proof.Machine.execCartButtonPress s
  | .powerFault => Sys2Proof.Machine.execPowerFault s
  | .cartInsertSettled => Sys2Proof.Machine.execCartInsertSettled s
  | .cartPerstRelease => Sys2Proof.Machine.execCartPerstRelease s
  | .cartLinkUp speed width => Sys2Proof.Machine.execCartLinkUp speed width s
  | .cartLinkTimeout => Sys2Proof.Machine.execCartLinkTimeout s
  | .cartStopTimeout => Sys2Proof.Machine.execCartStopTimeout s
  | .nvmeCompletion id ok d => Sys2Proof.Machine.execNvmeCompletion id ok d s
  | .nvmeTimeout id => Sys2Proof.Machine.execNvmeTimeout id s
  | .cartShutdownDone => Sys2Proof.Machine.execCartShutdownDone s
  | .cartShutdownTimeout => Sys2Proof.Machine.execCartShutdownTimeout s
  | .label => Sys2Proof.Machine.execLabel s
  | .recordingCopy => Sys2Proof.Machine.execRecordingCopy s
  | .segmentCloseTimeout => Sys2Proof.Machine.execSegmentCloseTimeout s
  | .badInbound addr len => Sys2Proof.Machine.execBadInbound addr len s
  | .heartbeatSend standby time ring schedule => Sys2Proof.Machine.execHeartbeatSend standby time ring schedule s
  | .heartbeatReceive => Sys2Proof.Machine.execHeartbeatReceive s
  | .ctrlMissed => Sys2Proof.Machine.execCtrlMissed s
  | .ctrlStall role => Sys2Proof.Machine.execCtrlStall role s
  | .noStandby => Sys2Proof.Machine.execNoStandby s
  | .takeoverDone failed => Sys2Proof.Machine.execTakeoverDone failed s
  | .guardHandoverWrite => Sys2Proof.Machine.execGuardHandoverWrite s
  | .handoverRefused => Sys2Proof.Machine.execHandoverRefused s
  | .epochBoundary => Sys2Proof.Machine.execEpochBoundary s
  | .epochTrailer number final recordsOk crcOk replays => Sys2Proof.Machine.execEpochTrailer number final recordsOk crcOk replays s
  | .selfTest t => Sys2Proof.Machine.execSelfTest t s
  | .guardOscCheck khz => Sys2Proof.Machine.execGuardOscCheck khz s
  | .checkedFault code unit item => Sys2Proof.Machine.execCheckedFault code unit item s
  | .rowSpared array cells => Sys2Proof.Machine.execRowSpared array cells s
  | .pairHeartbeatSend => Sys2Proof.Machine.execPairHeartbeatSend s
  | .pairHeartbeatReceive vote serial priority active bundleSet tipinSet credits => Sys2Proof.Machine.execPairHeartbeatReceive vote serial priority active bundleSet tipinSet credits s
  | .pairLost => Sys2Proof.Machine.execPairLost s
  | .arbVoteEdge => Sys2Proof.Machine.execArbVoteEdge s
  | .arbVoteTimeout => Sys2Proof.Machine.execArbVoteTimeout s
  | .pairEpochReceive complete epoch => Sys2Proof.Machine.execPairEpochReceive complete epoch s
  | .pairLaneChange lane up => Sys2Proof.Machine.execPairLaneChange lane up s
  | .colophon => Sys2Proof.Machine.execColophon s
  | .thermalThresholdCross die temp => Sys2Proof.Machine.execThermalThresholdCross die temp s
  | .smbusRead => Sys2Proof.Machine.execSmbusRead s
  | .smbusWrite offset data => Sys2Proof.Machine.execSmbusWrite offset data s
  | .mainPgRise => Sys2Proof.Machine.execMainPgRise s
  | .ref10mLocked rate => Sys2Proof.Machine.execRef10mLocked rate s
  | .cartLinkDown => Sys2Proof.Machine.execCartLinkDown s
  | .guardPairCtrlWrite value => Sys2Proof.Machine.execGuardPairCtrlWrite value s
  | .flowCmdGo pf3 => Sys2Proof.Machine.execFlowCmdGo pf3 s
  | .interruptModeChange fn msix mask msi messages intxDisable => Sys2Proof.Machine.execInterruptModeChange fn msix mask msi messages intxDisable s

end Sys2Proof.Machine
end

