-- ==== Sys2Proof/Safety.lean ====
section
/-! DEFINITION. What the statements speak of: which parts of the state a command leaves as they were, which
registers keep their value, and the canonical form of every table that the state holds (INVENTORY.md, "Memory
and ordering"). -/

namespace Sys2Proof.Machine

/-- The parts of the state: one for each field of `State`, and `mode`, which is the register GLB_MODE of `regs`. -/
inductive Part where
  | pending | regs | mode | stage | latch | cnts | posted | lastPost | out
  | free | pwr | fuses | boot | imp | units | spine | cells
  | frames | nextFrame | dram | poison | queues | host | ports | flows
  | items | itemSeq | pairLink | recCopies | ring | engines | dma | evt
  | cart | guard | pair | pace | obs | tb | ptp
  deriving DecidableEq, Repr

namespace State

/-- The two states have the same part `p`. -/
def agrees (s t : State) (p : Part) : Prop :=
  match p with
  | .pending => t.pending = s.pending
  | .regs => t.regs = s.regs
  | .mode => t.rd Reg.GLB_MODE = s.rd Reg.GLB_MODE
  | .stage => t.stage = s.stage
  | .latch => t.latch = s.latch
  | .cnts => t.cnts = s.cnts
  | .posted => t.posted = s.posted
  | .lastPost => t.lastPost = s.lastPost
  | .out => t.out = s.out
  | .free => t.free = s.free
  | .pwr => t.pwr = s.pwr
  | .fuses => t.fuses = s.fuses
  | .boot => t.boot = s.boot
  | .imp => t.imp = s.imp
  | .units => t.units = s.units
  | .spine => t.spine = s.spine
  | .cells => t.cells = s.cells
  | .frames => t.frames = s.frames
  | .nextFrame => t.nextFrame = s.nextFrame
  | .dram => t.dram = s.dram
  | .poison => t.poison = s.poison
  | .queues => t.queues = s.queues
  | .host => t.host = s.host
  | .ports => t.ports = s.ports
  | .flows => t.flows = s.flows
  | .items => t.items = s.items
  | .itemSeq => t.itemSeq = s.itemSeq
  | .pairLink => t.pairLink = s.pairLink
  | .recCopies => t.recCopies = s.recCopies
  | .ring => t.ring = s.ring
  | .engines => t.engines = s.engines
  | .dma => t.dma = s.dma
  | .evt => t.evt = s.evt
  | .cart => t.cart = s.cart
  | .guard => t.guard = s.guard
  | .pair => t.pair = s.pair
  | .pace => t.pace = s.pace
  | .obs => t.obs = s.obs
  | .tb => t.tb = s.tb
  | .ptp => t.ptp = s.ptp

/-- `t` is as `s` in every part but those of `l`. -/
def sameBut (l : List Part) (s t : State) : Prop := ∀ p, p ∉ l → s.agrees t p

/-- `t` reads as `s` in every register but those of `l`. -/
def regsBut (l : List Nat) (s t : State) : Prop := ∀ a, a ∉ l → t.rd a = s.rd a

/-- `t` counts as `s` in every counter but those of `l`. -/
def countsBut (l : List Nat) (s t : State) : Prop := ∀ i, i ∉ l → t.cnt i = s.cnt i

/-- Every table of the state is in its canonical form: registers, staged and latched words, counters, limits of
events, spine books, frames, device DRAM and its poison marks, queues, ports, DMA channels and quire stores. -/
def canonical (s : State) : Bool :=
  Table.wf regReset s.regs &&
    Table.wf (fun _ => none) s.stage &&
    Table.wf (fun _ => none) s.latch &&
    Table.wf (fun _ => 0) s.cnts &&
    Table.wf (fun _ => 0) s.lastPost &&
    Table.wf State.spineDefault s.spine &&
    Table.wf (fun _ => {}) s.frames &&
    Table.wf (fun _ => 0) s.dram &&
    Table.wf (fun _ => false) s.poison &&
    Table.wf (fun _ => {}) s.queues &&
    Table.wf (fun _ => {}) s.ports &&
    Table.wf (fun _ => {}) s.dma &&
    Table.wf (fun _ => 0) s.engines.quire

/-! ### What statements say of a command -/

/-- `t` holds the events of `s`, then further events whose codes are `codes`, in this order. -/
def posts (s : State) (codes : List Nat) (t : State) : Prop :=
  ∃ l : List Event, t.posted = s.posted ++ l ∧ l.map (·.code) = codes

/-- Everything that R124's column "Fundamental" clears is clear; `host` keeps PME_En and PME_Status (R466). -/
structure Cleared (s t : State) : Prop where
  words : t.stage = [] ∧ t.latch = [] ∧ t.cnts = [] ∧ t.lastPost = []
  binder : t.boot.binder = false ∧ t.boot.mb = none ∧ t.boot.dramBytes = 0
  blocks : t.imp = {} ∧ t.units = {} ∧ t.spine = [] ∧ t.cells = {} ∧ t.frames = []
  memory : t.dram = [] ∧ t.poison = [] ∧ t.queues = [] ∧ t.ports = [] ∧ t.flows = {} ∧ t.items = []
  work : t.pairLink = {} ∧ t.recCopies = [] ∧ t.ring = {} ∧ t.engines = {} ∧ t.dma = [] ∧ t.evt = {}
  health : t.cart = {} ∧ t.guard = {} ∧ t.pair = {} ∧ t.pace = {} ∧ t.obs = {}
  time : t.tb = {} ∧ t.ptp = {}
  host : t.host = { pmeEn := s.host.pmeEn, pmeStatus := s.host.pmeStatus }
  fuses : t.fuses = s.fuses

/-- `t` is the device that has just entered Boot from `s` with the strap at `b` (R118, R124, R557): everything is
cleared, and the strap decides between Held, host-fed boot and the boot chain. -/
structure BootEntered (b : BitVec 2) (cause : Nat) (s t : State) : Prop where
  cleared : Cleared s t
  mode : t.mode = if 2 ≤ b.toNat then 7 else 0
  shown : t.fld Reg.GLB_MODE_CAUSE = if 2 ≤ b.toNat then 0x0F else cause % 256
  events : t.posted.map (·.code) = if 2 ≤ b.toNat then [cause, 0x0F] else [cause]
  strap : t.fld Reg.IMP_BOOT_STRAPS_BOOTSEL = b.toNat
  stage : t.fld Reg.IMP_BOOT_STATUS_STAGE = if b = 1 then 6 else 0
  wake : t.rd Reg.GLB_WAKE_CAUSE = s.rd Reg.GLB_WAKE_CAUSE

/-- The command `op` of the flow mailbox has ended with `result` and `index`: counted, its results (with an image,
where it has one) written to its block, its status DONE, and the event posted (R278, R283, R284). -/
structure MailboxAnswers (op result index : Nat) (image : List Byte) (s t : State) : Prop where
  state : t.fld Reg.FLOW_CMD_STATUS_STATE = 2
  shown : t.fld Reg.FLOW_CMD_STATUS_RESULT = result ∧ t.fld Reg.FLOW_CMD_STATUS_OP = op
  counted : t.cnt Cnt.FLOW_COMMANDS = (s.cnt Cnt.FLOW_COMMANDS + 1) % 2 ^ 64
  written : t.out = s.out ++ [.hostWrite (s.rd64 Reg.FLOW_CMD_ADDR_LO + 1) (leBytes 1 result),
    .hostWrite (s.rd64 Reg.FLOW_CMD_ADDR_LO + 4) (leBytes 4 index)] ++
    (if image.isEmpty then [] else [.hostWrite (s.rd64 Reg.FLOW_CMD_ADDR_LO + 0x50) image])
  posted : t.posted = s.posted ++ [⟨0x1801, index % 2 ^ 20⟩]
  ended : t.flows.cmdFunc = none

/-- Flow `i` of `t` is `g`, and what the checkpoint of a lent flow makes of it (R255): its deltas folded, its state
saved. -/
def KeepsFlow (i : Nat) (g : Flow) (t : State) : Prop :=
  t.flow i = if g.lent.isSome then { g.fold with saved := (g.fold.ctx, g.fold.stats, g.fold.ext), since := 0 } else g

/-- Engine `e` stands at the valid word `w`, and neither a safe point nor its bound acts first (R346, R362, R366). -/
structure AtWord (e w : Nat) (s : State) : Prop where
  runs : s.engRuns e = true
  goes : s.mustStop e = false
  fetched : s.fetchWord e (s.eng e).pc = some w
  valid : Mw.valid w = true
  bound : State.atBound (s.eng e) = false
  going : (s.eng e).waiting = none

/-- Engine `e` stands at the word `w`, of whose units `u` is named and has not run. -/
structure UnitReady (e u w : Nat) (s : State) : Prop where
  stands : s.AtWord e w
  named : (Mw.units w).testBit u = true
  fresh : (s.eng e).ran.getLsbD u = false

/-- Every unit of the word `w`, at which engine `e` stands, has run. -/
structure WordRan (e w : Nat) (s : State) : Prop where
  stands : s.AtWord e w
  ran : (s.eng e).ran.toNat % 128 = Mw.units w

/-- What is known of engine `e` once unit `u` of its word has run. -/
def unitRan (s : State) (e u : Nat) : Engine := { s.eng e with ran := (s.eng e).ran ||| 1#8 <<< u, safe := false }

/-- Engine `e` of `t` is `g`; every other engine, and every queue and store of the folios, is as in `s`. -/
structure EngineBecomes (e : Nat) (g : Engine) (s t : State) : Prop where
  this : t.eng e = g
  others : ∀ k, k ≠ e → t.eng k = s.eng k
  queues : ∀ f, t.folioQueue f = s.folioQueue f
  quire : t.engines.quire = s.engines.quire

/-- Channel `c` stands before the well-formed word `w`: the fetch has ended well and nothing holds the channel
(R420, R426). -/
structure DmaAt (c : Nat) (f : DmaFetch) (w : Nat) (s : State) : Prop where
  going : (s.chan c).held = false ∧ (s.chan c).signal = none
  ready : s.dmaReady c = true
  index : (s.chan c).next ≤ 65535
  fetched : s.dmaWord c f = (w, .good)
  ok : dmaWordOk w (s.chan c).next = true

/-- Channel `c` as it enters the word `w`: a request WAIT or a paced copy watches the line it names, and any other
word the line that the next such word names (R428). -/
def dmaNow (s : State) (c w : Nat) (f : DmaFetch) : DmaChan :=
  { s.chan c with
    next := (s.chan c).next + 1, word := w, inst := (s.chan c).inst + 1
    line := (if (dmaOp w = 5 ∧ dmaSub w = 0) ∨ (dmaOp w ≤ 3 ∧ dmaPaced w = true) then some (dmaReq w)
      else f.next.map (·.toNat)).or (s.chan c).line }

/-- Channel `c` of `t` is `x`; every other channel, and every register but `c`'s own status, index and remaining
bytes and those of `l`, is as in `s`. -/
structure DmaBecomes (c : Nat) (x : DmaChan) (l : List Nat) (s t : State) : Prop where
  this : t.chan c = x
  others : ∀ k, k ≠ c → t.chan k = s.chan k
  regs : s.regsBut ([Reg.DMA_CH_STATUS c, Reg.DMA_CH_PC c, Reg.DMA_CH_REMAIN c] ++ l) t

/-- Channel `c` has halted with a status and a detail: shown, counted, posted, and written to its error CQ where one
is enabled that may take it (R435, R437). -/
structure DmaHalted (c status detail : Nat) (s t : State) : Prop where
  state : t.chState c = 4
  shown : t.fld (Reg.DMA_CH_STATUS_HALT_STATUS c) = status ∧ t.fld (Reg.DMA_CH_STATUS_HALT_DETAIL c) = detail
  counted : t.cnt Cnt.DMA_HALTS = (s.cnt Cnt.DMA_HALTS + 1) % 2 ^ 64
  posted : t.posted = s.posted ++ [⟨0x0702, c⟩]
  chan : s.DmaBecomes c
    { s.chan c with rest := 0, src := [], dst := [], flight := [], held := false, signal := none } [] t
  errCq : (s.flag (Reg.DMA_CH_ERRCQ_EN c) && s.dmaCqOk c (s.fld (Reg.DMA_CH_ERRCQ_CQ c))) = false →
    t.queues = s.queues
  written : (s.flag (Reg.DMA_CH_ERRCQ_EN c) && s.dmaCqOk c (s.fld (Reg.DMA_CH_ERRCQ_CQ c))) = true →
    (t.q (s.fld (Reg.DMA_CH_ERRCQ_CQ c))).ready = (s.q (s.fld (Reg.DMA_CH_ERRCQ_CQ c))).ready ++
      [{ status := status, kind := 4, detail := detail, x8 := c }]
  frame : s.sameBut [.regs, .cnts, .posted, .queues, .dma] t

/-- No channel waits for anything that could let it go on. -/
def dmaQuiet (s : State) : Prop := ∀ k, k < 32 → s.chState k ≠ 3 ∧ (s.chan k).held = false

/-- The queue mailbox of function `fn` shows the end of operation `op`, or its state BUSY (R410, R411). -/
structure QmAnswers (fn op state result : Nat) (s t : State) : Prop where
  state : t.fld (Reg.QM_QCMD_STATUS_STATE.of fn) = state
  result : t.fld (Reg.QM_QCMD_STATUS_RESULT.of fn) = result
  op : t.fld (Reg.QM_QCMD_STATUS_OP.of fn) = op
  regs : s.regsBut [Reg.QM_QCMD_STATUS + fn * 0x4000000] t

/-- The entry of queue `qid` at position `pos` has its completion: its status and detail, for this one entry
(R391, R399). -/
def entryEnds (qid pos status detail : Nat) (t : State) : Prop :=
  ∃ e c, t.entryAt qid pos = some e ∧ e.phase = .done ∧ e.result = some c ∧
    c.qid = qid ∧ c.status = status ∧ c.detail = detail ∧ c.retires = 1

/-- Queue `qid` has halted on the entry at position `pos` (R413). -/
structure QueueHalted (qid pos status detail : Nat) (s t : State) : Prop where
  state : (t.q qid).state = 4 ∧ (t.q qid).haltStatus = status ∧ (t.q qid).haltIndex = pos % (s.q qid).n
  posted : t.posted = s.posted ++ [⟨0x1901, qid % 2 ^ 20 + status * 2 ^ 24 + pos % (s.q qid).n * 2 ^ 32⟩]
  ended : entryEnds qid pos status detail t
  frame : s.sameBut [.cnts, .posted, .queues] t

/-- Every queue but those of `l` is as in `s`. -/
def queuesBut (l : List Nat) (s t : State) : Prop := ∀ k, k ∉ l → t.q k = s.q k

/-- The bay has entered state `v` (R479): shown and posted, slot power and indicators as its row gives them; without
power the cartridge's link and controller are gone, and with it they stand as in `s`. -/
structure BayEnters (v : Nat) (s t : State) : Prop where
  state : t.bay = v
  posted : t.posted = s.posted ++ [⟨0x0601, v⟩]
  lamps : t.cart.power = bayPower v ∧ t.cart.pwrInd = bayInd v ∧ t.cart.attnInd = bayAttn v
  off : bayPower v = false → t.cart.cmds = [] ∧ t.cart.ready = false ∧ t.cart.label = none ∧ t.cart.writing = none ∧
    t.cart.perst = true ∧ t.flag Reg.SLOT_STATUS_DLLA = false
  on : bayPower v = true → t.cart = { s.cart with
    power := true, pwrInd := bayInd v, attnInd := bayAttn v, closed := t.cart.closed
    poweredAt := if s.cart.power then s.cart.poweredAt else s.tb.uptime } ∧ t.rd Reg.SLOT_STATUS = s.rd Reg.SLOT_STATUS
  segments : t.cart.closed.map (fun g => { g with ride := false }) = s.cart.closed.map (fun g => { g with ride := false }) ∧
    t.cart.opened = s.cart.opened
  regs : s.regsBut [Reg.SLOT_STATE, Reg.SLOT_STATUS] t

/-- The recorder has issued one command, for `op`, after the commands `l` (R480). -/
def issues (op : NvmeOp) (again : Bool) (l : List NvmeCmd) (s t : State) : Prop :=
  t.cart.cmds = l ++ [{ id := s.cart.nextCmd, op := op, again := again, since := s.tb.uptime }] ∧
    t.cart.nextCmd = s.cart.nextCmd + 1

end State

/-- The commands at which a transition of R118 can happen; GLB_MODE is written by no other. -/
def movesMode (c : Instr) : Bool :=
  match c with
  | .auxPgFall | .auxPgRise | .busMasterEnableChange _ _ | .checkedFault _ _ _ | .ctrlMissed | .ctrlStall _
  | .d0Return _ | .d3hotEntry _ | .dieLost _ | .engineHardFailure _ | .engineKatDone _
  | .epochTrailer _ _ _ _ _ | .flr _ _ | .guardOscCheck _ | .handoverRefused | .hotReset _ _ _
  | .imageLoaded _ | .imposed _ | .l2Entry | .ledgerPoint _ | .mainPgFall | .mainPgRise | .migrationDone _
  | .now _ | .paceLowTimeout _ | .paceMonitorSample _ _ | .perstAssert | .perstDeassert _ | .quireReset _
  | .quireResetDone _ _ _ | .railMonitorSample _ _ | .registerWrite _ _ _ _ _ | .reimpDone | .reimpLoaded _ _
  | .reimpVerified _ | .selfTest _ | .takeoverDone _ | .thermalThresholdCross _ _ | .vfEnable _ _ _ => true
  | _ => false

/-- The commands that can make a fundamental reset (R118, R123, R560). -/
def resetsAll (c : Instr) : Bool :=
  match c with
  | .auxPgFall | .auxPgRise | .hotReset _ _ _ | .l2Entry | .mainPgFall | .mainPgRise | .perstAssert
  | .perstDeassert _ => true
  | _ => false

end Sys2Proof.Machine
end

