-- ==== Sys2Proof/Certificates/Slice0/Obligations.lean ====
section
/-! DEFINITION. The statements about the machine that the provers are given: groups of command rules first, family
by family, then rules of the whole machine. Each clause of a group is a rule of its own; a clause names the
commands, the state they meet and the whole of the next state that is fixed. -/

open Sys2Proof Sys2Proof.Machine

/-- R118, R119, R121, R124, R129, R557, R558, R560: what the rails, PERST_N and L2 entry do. Where a clause follows
a choice of the model, the log names it: entries 13, 35, 42. -/
def Obligations.PowerPinsStartAndStopTheDevice : Prop :=
  (∀ s : State, s.pwr.aux = false → s.pwr.main = false →
    ∃ t, exec .auxPgRise s = .next t ∧ t.pwr = { s.pwr with aux := true } ∧
      t.regs = (s.wr Reg.GLB_WAKE_CAUSE 0).regs ∧ s.sameBut [.regs, .pwr] t) ∧
  (∀ s : State, s.pwr.aux = false → s.pwr.main = true → s.pwr.perst = false →
    ∃ t, exec .auxPgRise s = .next t ∧ t.pwr.aux = true ∧ s.fuses = t.fuses ∧
      State.BootEntered s.pwr.bootsel s.pwr.startCause (s.wr Reg.GLB_WAKE_CAUSE 0) t) ∧
  (∀ s : State, ∃ t, exec .auxPgFall s = .next t ∧ t.regs = [] ∧ t.host = {} ∧ t.posted = [] ∧
    t.boot = {} ∧ State.Cleared {} { t with fuses := {} } ∧ t.fuses = s.fuses ∧
    t.pwr = { s.pwr with aux := false, startCause := 0x01, wake := false, armed := 0 }) ∧
  (∀ s : State, s.mode = 6 → ∃ t, exec .mainPgFall s = .next t ∧
    t.pwr = { s.pwr with main := false } ∧ s.sameBut [.pwr] t) ∧
  (∀ s : State, s.mode ≠ 6 → ∃ t, exec .mainPgFall s = .next t ∧
    t.pwr = { s.pwr with main := false, startCause := 0x01 } ∧ State.Cleared s t ∧ t.mode = 0 ∧
    t.rd Reg.GLB_WAKE_CAUSE = s.rd Reg.GLB_WAKE_CAUSE) ∧
  (∀ s : State, s.pwr.main = false → s.running = false → s.pwr.perst = true →
    (s.mode = 6 → s.pwr.wake = true) →
    ∃ t, exec .mainPgRise s = .next t ∧ t.pwr = { s.pwr with main := true } ∧ s.sameBut [.pwr] t) ∧
  (∀ s : State, s.pwr.main = false → s.pwr.perst = true → s.mode = 6 → s.pwr.wake = false →
    ∃ t, exec .mainPgRise s = .next t ∧ t.pwr = { s.pwr with main := true } ∧
      t.regs = (s.setFlag Reg.GLB_WAKE_CAUSE_MAIN true).regs ∧ s.sameBut [.regs, .pwr] t) ∧
  (∀ s : State, s.running = true → s.mode ≠ 6 → ∃ t, exec .perstAssert s = .next t ∧ State.Cleared s t ∧
    t.mode = 0 ∧ t.fld Reg.GLB_MODE_CAUSE = 0x02 ∧ t.posted.map (·.code) = [0x02] ∧
    t.pwr = { s.pwr with perst := true, startCause := 0x02 } ∧
    t.rd Reg.GLB_WAKE_CAUSE = s.rd Reg.GLB_WAKE_CAUSE) ∧
  (∀ (s : State) (b : BitVec 2), s.pwr.perst = true → s.pwr.main = true → s.pwr.aux = true →
    ∃ t, exec (.perstDeassert b) s = .next t ∧ State.BootEntered b s.pwr.startCause s t ∧
      t.pwr = { s.pwr with perst := false, bootsel := b, startCause := 0x02, armed := 0, wake := false }) ∧
  (∀ (s : State) (b : BitVec 2), s.pwr.perst = true → s.pwr.main = false →
    ∃ t, exec (.perstDeassert b) s = .next t ∧ t.pwr = { s.pwr with perst := false, bootsel := b } ∧
      s.sameBut [.pwr] t) ∧
  (∀ s : State, s.mode = 5 → s.pwr.aux = true → ∃ t, exec .l2Entry s = .next t ∧ t.mode = 6 ∧
    t.fld Reg.GLB_MODE_CAUSE = 0x0D ∧ s.posts [0x0D] t ∧ State.Cleared s t ∧
    t.pwr = { s.pwr with perst := true, main := false, startCause := 0x12, armed := patternPorts s, wake := false })

/-- R88, R100 to R104, R109, R118, R131: the steps of the boot chain that go on, and a refused header of slot A.
Where a clause follows a choice of the model, the log names it: entries 36, 37, 39, 58, 180, 181, 183. -/
def Obligations.BootChainAdvancesStageByStage : Prop :=
  (∀ (s : State) (slot : Fin 2) (d : Nat) (h : SlotHeader), s.mode = 0 → s.bootStage = 0 →
    s.boot.slot = slot.val → h.magic = 0x46534C54 → h.format = 1 → h.binderOff % 4096 = 0 → h.imageOff % 4096 = 0 →
    ∃ t, exec (.bootSlotRead slot (some d) (some h)) s = .next t ∧
      t.regs = ((s.setFld Reg.IMP_BOOT_STRAPS_FLASH_LOG2 d).setFld Reg.IMP_BOOT_STATUS_STAGE 1).regs ∧
      t.boot = { s.boot with header := some h, base := if slot.val = 0 then 0 else 2 ^ d / 2 } ∧ s.sameBut [.regs, .boot] t) ∧
  (∀ (s : State) (d : Nat) (h : SlotHeader), s.mode = 0 → s.bootStage = 0 → s.boot.slot = 0 → s.boot.mb = none →
    h.magic ≠ 0x46534C54 → ∃ t, exec (.bootSlotRead 0 (some d) (some h)) s = .next t ∧
      t.fld Reg.IMP_BOOT_STATUS_REASON_A = 0x30 ∧ t.bootStage = 0 ∧ t.boot.slot = 1 ∧ t.boot.binder = false ∧
      s.posts [0x0130] t ∧ s.sameBut [.regs, .posted, .free, .boot] t) ∧
  (∀ (s : State) (d : Option Nat), s.mode = 0 → s.bootStage = 0 → s.boot.slot = 1 → s.boot.mb = none →
    ∃ t, exec (.bootSlotRead 1 d none) s = .next t ∧
      t.fld Reg.IMP_BOOT_STATUS_REASON_B = 0x31 ∧ t.bootStage = 6 ∧ t.boot.slot = 2 ∧ t.boot.binder = false ∧
      s.posts [0x0131] t ∧ s.sameBut [.regs, .posted, .free, .boot] t) ∧
  (∀ (s : State) (f : BinderFw), s.mode = 0 → s.bootStage = 1 → s.boot.slot < 2 → s.boot.mb = none →
    f.magic = 0x46424E44 → s.sourceLen false ≤ 2097152 → s.sourceLen false = 16 + (f.codeLen + 7) / 8 * 8 + 304 →
    f.pubkeyDigest = Config.rootDigest → f.sigOk = true → ∃ t, exec (.binderLoaded (some f)) s = .next t ∧
      t.regs = ((s.wrN Reg.GLB_BINDER_VER f.version).setFld Reg.IMP_BOOT_STATUS_STAGE 2).regs ∧
      t.boot = { s.boot with binder := true, binderHostFed := false, binderDigest := f.digest } ∧
      s.sameBut [.regs, .boot] t) ∧
  (∀ (s : State) (n : Nat), s.mode = 0 → s.bootStage = 2 → s.boot.binder = true →
    ∃ t, exec (.dramTrainingDone (some n)) s = .next t ∧ t.boot = { s.boot with dramBytes := n } ∧
      t.regs = (s.setFld Reg.IMP_BOOT_STATUS_STAGE (if s.boot.binderHostFed then 6 else 3)).regs ∧
      s.sameBut [.regs, .boot] t) ∧
  (∀ (s : State) (i : Image), s.mode = 0 → s.bootStage = 3 → s.boot.binder = true → s.boot.mb = none →
    s.boot.slot < 2 → imageReason i (s.sourceLen true) s.boot.dramBytes (s.rd Reg.GLB_BINDER_VER).toNat s.fuses = 0 →
    ∃ t, exec (.imageLoaded (some i)) s = .next t ∧ t.mode = 1 ∧ t.fld Reg.GLB_MODE_CAUSE = 0x03 ∧
      t.bootStage = 4 ∧ t.imp = { s.imp with
        pending := some i, pendingSource := s.boot.slot + 1, pendingOwner := decide (s.fuses.ownerDigest = some i.pubkeyDigest) } ∧
      s.posts [0x0003] t ∧ s.regsBut [Reg.GLB_MODE, Reg.IMP_BOOT_STATUS] t ∧
      s.sameBut [.regs, .mode, .posted, .free, .imp] t) ∧
  (∀ (s : State) (i : Image) (r : Nat), s.mode = 0 → s.bootStage = 3 → s.boot.binder = true → s.boot.slot = 0 →
    s.boot.binderHostFed = false → s.boot.mb = none →
    imageReason i (s.sourceLen true) s.boot.dramBytes (s.rd Reg.GLB_BINDER_VER).toNat s.fuses = r →
    r ≠ 0 → r < 256 → ∃ t, exec (.imageLoaded (some i)) s = .next t ∧ t.mode = 0 ∧
      t.fld Reg.IMP_BOOT_STATUS_REASON_A = r ∧ t.bootStage = 0 ∧ t.boot.slot = 1 ∧ t.boot.binder = false ∧
      t.rd Reg.GLB_BINDER_VER = 0 ∧ s.posts [0x0100 + r] t ∧ t.imp = s.imp)

/-- R85, R106 to R108, R114, R116, R132, R567: the four mailbox commands start, and end with their transfer. Where a
clause follows a choice of the model, the log names it: entries 26, 38, 41, 58, 59, 181, 182. -/
def Obligations.MailboxCommandsStartAndEnd : Prop :=
  (∀ s : State, s.boot.mb = none → s.mode = 0 → s.bootStage = 6 → (s.rd Reg.IMP_MB_LEN).toNat ≤ 2097152 →
    ∃ t, exec .loadBinder s = .next t ∧ t.boot = { s.boot with mb := some (s.mbOp 1) } ∧
      t.regs = (((s.setFld Reg.IMP_MB_STATUS_STATE 1).setFld Reg.IMP_MB_STATUS_LAST_CMD 1).setFld
        Reg.IMP_MB_STATUS_REASON 0).regs ∧ s.sameBut [.regs, .boot] t) ∧
  (∀ s : State, s.boot.mb = none → s.hostFedReady = true → (s.rd Reg.IMP_MB_LEN).toNat ≤ 67108864 →
    ∃ t, exec .loadImage s = .next t ∧ t.boot = { s.boot with mb := some (s.mbOp 2) } ∧
      t.regs = (((s.setFld Reg.IMP_MB_STATUS_STATE 1).setFld Reg.IMP_MB_STATUS_LAST_CMD 2).setFld
        Reg.IMP_MB_STATUS_REASON 0).regs ∧ s.sameBut [.regs, .boot] t) ∧
  (∀ (s : State) (r : EnrolRecord) (mv : Nat), s.boot.mb = none → s.hostFedReady = true →
    (s.rd Reg.IMP_MB_LEN).toNat = 336 → ∃ t, exec (.enrol r mv) s = .next t ∧
      t.boot = { s.boot with mb := some { s.mbOp 3 with enrol := some r, vppMv := mv } } ∧
      t.regs = (((s.setFld Reg.IMP_MB_STATUS_STATE 1).setFld Reg.IMP_MB_STATUS_LAST_CMD 3).setFld
        Reg.IMP_MB_STATUS_REASON 0).regs ∧ s.sameBut [.regs, .boot] t) ∧
  (∀ (s : State) (n : BitVec 256), s.boot.mb = none → s.mode = 0 ∧ s.boot.binder = true ∨ 1 ≤ s.mode ∧ s.mode ≤ 4 →
    544 ≤ (s.rd Reg.IMP_MB_LEN).toNat → ∃ t, exec (.attest n) s = .next t ∧
      t.boot = { s.boot with mb := some { s.mbOp 4 with nonce := n } } ∧
      t.regs = (((s.setFld Reg.IMP_MB_STATUS_STATE 1).setFld Reg.IMP_MB_STATUS_LAST_CMD 4).setFld
        Reg.IMP_MB_STATUS_REASON 0).regs ∧ s.sameBut [.regs, .boot] t) ∧
  (∀ (s : State) (r : EnrolRecord) (mv : Nat) (n : BitVec 256), s.boot.mb ≠ none →
    ∀ c ∈ [Instr.loadBinder, .loadImage, .enrol r mv, .attest n],
    ∃ t, exec c s = .next t ∧ s.posts [0x0137] t ∧ s.sameBut [.posted, .free] t) ∧
  (∀ (s : State) (op : MbOp), s.boot.mb = some op → op.transferred = false → op.cmd = 1 ∨ op.cmd = 2 ∧ s.bootStage = 6 →
    ∃ t, exec (.mbTransferDone true) s = .next t ∧ t.boot = { s.boot with mb := some { op with transferred := true } } ∧
      t.regs = (s.setFld Reg.IMP_BOOT_STATUS_STAGE (if op.cmd = 1 then 1 else 3)).regs ∧ s.sameBut [.regs, .boot] t) ∧
  (∀ (s : State) (op : MbOp), s.boot.mb = some op → op.transferred = false → op.cmd = 4 →
    ∃ t, exec (.mbTransferDone true) s = .next t ∧ t.out = s.out ++ [.hostWrite op.addr (s.attestReport op.nonce)] ∧
      t.boot = { s.boot with mb := none, attested := s.boot.attested + 1 } ∧ t.fld Reg.IMP_MB_STATUS_STATE = 2 ∧
      t.fld Reg.IMP_MB_STATUS_REASON = 0 ∧ t.fld Reg.IMP_MB_STATUS_LAST_CMD = 4 ∧ s.posts [0x0140] t ∧
      s.regsBut [Reg.IMP_MB_STATUS] t ∧ s.sameBut [.regs, .boot, .out, .posted, .free] t) ∧
  (∀ (s : State) (op : MbOp) (r : EnrolRecord), s.boot.mb = some op → op.transferred = false → op.cmd = 3 →
    op.enrol = some r → 1746 ≤ op.vppMv → op.vppMv ≤ 1854 → r.deviceId = Config.identityId → r.sealOk = true →
    s.fuses.ownerDigest = none → ∃ t, exec (.mbTransferDone true) s = .next t ∧
      t.fuses = { ownerDigest := some r.ownerDigest, exclusive := r.exclusive } ∧ t.boot = { s.boot with mb := none } ∧
      t.flag Reg.IMP_RUN_KEY_OWNER_ENROLLED = true ∧ t.flag Reg.IMP_RUN_KEY_EXCLUSIVE = r.exclusive ∧
      t.fld Reg.IMP_MB_STATUS_STATE = 2 ∧ s.posts [0x0140] t) ∧
  (∀ (s : State) (op : MbOp), s.boot.mb = some op → op.transferred = false → op.cmd < 256 →
    ∃ t, exec (.mbTransferDone false) s = .next t ∧ t.boot = { s.boot with mb := none } ∧
      t.fld Reg.IMP_MB_STATUS_STATE = 3 ∧ t.fld Reg.IMP_MB_STATUS_REASON = 0x38 ∧
      t.fld Reg.IMP_MB_STATUS_LAST_CMD = op.cmd ∧
      (op.cmd ≤ 2 → t.fld Reg.IMP_BOOT_STATUS_REASON_HF = 0x38) ∧ s.posts [0x0138] t ∧ s.fuses = t.fuses ∧
      s.sameBut [.regs, .boot, .posted, .free] t)

/-- R86, R90, R91, R93, R95, R96, R112, R118: Imposing ends, and the phases of a partial re-imposition. Where a
clause follows a choice of the model, the log names it: entries 50, 51, 55, 56, 57, 58, 185, 186, 187. -/
def Obligations.ImpositionAndReimpositionAdvance : Prop :=
  (∀ (s : State) (i : Image) (out : BitVec 160), s.mode = 1 → s.imp.pending = some i →
    ∃ t, exec (.imposed out) s = .next t ∧ t.imp.image = some i ∧ t.imp.pending = none ∧
      t.imp.locked = 0xFFFF#16 ∧ t.mode ≠ 1 ∧
      s.sameBut [.regs, .mode, .cnts, .posted, .lastPost, .out, .free, .imp, .units, .spine, .dram, .poison,
        .ports, .flows, .items, .ring, .engines, .evt, .cart, .guard, .tb, .ptp] t) ∧
  (∀ s : State, s.mode = 2 ∨ s.mode = 3 → s.reimpState = 0 ∨ 5 ≤ s.reimpState →
    ∃ t, exec .reimpGo s = .next t ∧
      t.regs = (((s.setFld Reg.IMP_REIMP_STATUS_STATE 1).setFld Reg.IMP_REIMP_STATUS_REASON 0).setFld
        Reg.IMP_REIMP_STATUS_DONE_QUIRES 0).regs ∧ s.sameBut [.regs] t) ∧
  (∀ s : State, 1 ≤ s.reimpState → s.reimpState ≤ 4 → ∃ t, exec .reimpGo s = .next t ∧
      t.regs = (s.setFld Reg.IMP_REIMP_STATUS_REASON 0x11).regs ∧ s.posts [0x0111] t ∧
      s.sameBut [.regs, .posted, .free] t) ∧
  (∀ s : State, s.reimpState = 1 → ∃ t, exec .abandon s = .next t ∧
      t.regs = (s.setFld Reg.IMP_REIMP_STATUS_STATE 6).regs ∧ s.sameBut [.regs] t) ∧
  (∀ (s : State) (i : Image), s.reimpState = 1 → s.reimpReason i = 0 →
    (∀ q, q < 16 → s.bit Reg.IMP_REIMP_QUIRES_QUIRES q = true → s.holdsControl q = false) →
    ∃ t, exec (.reimpVerified i) s = .next t ∧ t.mode = 4 ∧ t.fld Reg.GLB_MODE_CAUSE = 0x09 ∧ t.reimpState = 2 ∧
      t.imp = { s.imp with reimp := {
        image := some i, named := BitVec.ofNat 16 (s.fld Reg.IMP_REIMP_QUIRES_QUIRES)
        migratingOut := BitVec.ofNat 16 (s.fld Reg.IMP_REIMP_QUIRES_QUIRES) } } ∧
      s.posts [0x0009] t ∧ s.regsBut [Reg.GLB_MODE, Reg.IMP_REIMP_STATUS] t ∧
      s.sameBut [.regs, .mode, .posted, .free, .out, .imp, .units] t) ∧
  (∀ (s : State) (i : Image) (r : Nat), s.reimpState = 1 → s.reimpReason i = r → r ≠ 0 →
    ∃ t, exec (.reimpVerified i) s = .next t ∧ s.posts [0x0100 + r] t ∧
      t.regs = ((s.setFld Reg.IMP_REIMP_STATUS_STATE 6).setFld Reg.IMP_REIMP_STATUS_REASON r).regs ∧
      s.sameBut [.regs, .posted, .free] t) ∧
  (∀ (s : State) (q : Fin 16) (i : Image), s.mode = 4 → s.imp.reimp.migratingOut.getLsbD q = true →
    s.holdsControl q = false → s.reimpHandsOver = false → s.guardState ≠ 2 → s.quireSafe q = true →
    s.imp.reimp.image = some i → ∃ t, exec (.reimpMigratedOut q) s = .next t ∧
      t.imp = { s.imp with
        locked := s.imp.locked &&& ~~~(1#16 <<< q.val)
        reimp := { s.imp.reimp with
          migratingOut := s.imp.reimp.migratingOut &&& ~~~(1#16 <<< q.val)
          loading := s.imp.reimp.loading ||| 1#16 <<< q.val } } ∧
      t.units = { s.units with carried := s.units.carried ||| 1#16 <<< q.val } ∧
      t.reimpState = (if s.imp.reimp.migratingOut &&& ~~~(1#16 <<< q.val) ≠ 0 then 2 else 3) ∧ t.mode = 4) ∧
  (∀ (s : State) (q : Fin 16) (i : Image) (l : List CodeRec), s.mode = 4 → s.imp.reimp.loading.getLsbD q = true →
    s.imp.reimp.image = some i → State.recordsOk i l = true →
    { s with imp := { s.imp with loaded := Table.set (fun _ => []) s.imp.loaded q l } }.codeMatches q = true →
    ∃ t, exec (.reimpLoaded q l) s = .next t ∧
      t.imp = { s.imp with
        locked := s.imp.locked ||| 1#16 <<< q.val
        loaded := Table.set (fun _ => []) s.imp.loaded q l
        bundle := ((s.imposeFolio i.struct (2 * q)).imposeFolio i.struct (2 * q + 1)).imp.bundle
        reimp := { s.imp.reimp with
          loading := s.imp.reimp.loading &&& ~~~(1#16 <<< q.val)
          migratingBack := s.imp.reimp.migratingBack ||| 1#16 <<< q.val } } ∧
      t.reimpState = (if s.imp.reimp.migratingOut ≠ 0 then 2
        else if s.imp.reimp.loading &&& ~~~(1#16 <<< q.val) ≠ 0 then 3 else 4) ∧ s.sameBut [.regs, .imp] t) ∧
  (∀ (s : State) (i : Image), s.mode = 4 → s.imp.reimp.image = some i → s.imp.reimp.migratingOut = 0 →
    s.imp.reimp.loading = 0 → ∃ t, exec .reimpDone s = .next t ∧
      t.imp = { s.imp with image := some i, reimp := {} } ∧ t.mode ≠ 4 ∧ s.guard = t.guard ∧ s.tb = t.tb)

/-- R43, R64, R91, R126 to R128: quire resets, engine resets and credit returns. Where a clause follows a choice of
the model, the log names it: entries 53, 54, 134, 159, 185, 188. -/
def Obligations.ResetsOfQuiresAndEnginesAndCredits : Prop :=
  (∀ (s : State) (q : Fin 16), s.quireResetRefusal q = 0 → s.holdsControl q = false →
    ∃ t, exec (.quireReset (1#16 <<< q.val)) s = .next t ∧ t.bit Reg.GLB_RESET_STATUS_QUIRE_BUSY q = true ∧
      t.flag Reg.GLB_MODE_DEGRADED = true ∧ t.mode = s.mode ∧
      t.units = { s.units with carried := s.units.carried ||| 1#16 <<< q.val } ∧
      (∀ p ∈ t.engines.quire, p.1 / 2 ^ 22 ≠ q) ∧
      s.sameBut [.regs, .mode, .cnts, .posted, .free, .units, .spine, .dram, .poison, .flows, .items, .engines] t) ∧
  (∀ (s : State) (q : Fin 16) (r : Nat), s.quireResetRefusal q = r → r ≠ 0 →
    ∃ t, exec (.quireReset (1#16 <<< q.val)) s = .next t ∧
      t.regs = (s.setFld Reg.GLB_RESET_STATUS_REFUSAL r).regs ∧ s.sameBut [.regs] t) ∧
  (∀ (s : State) (q : Fin 16), s.bit Reg.GLB_RESET_STATUS_QUIRE_BUSY q = true → s.holdsControl q = false →
    s.units.folioOut.getLsbD (2 * q) = false → s.units.folioOut.getLsbD (2 * q + 1) = false → s.mode ≠ 7 →
    ∃ t, exec (.quireResetDone q true 0) s = .next t ∧ t.bit Reg.GLB_RESET_STATUS_QUIRE_BUSY q = false ∧
      t.units = { s.units with
        quireIso := s.units.quireIso &&& ~~~(1#16 <<< q.val), carried := s.units.carried &&& ~~~(1#16 <<< q.val) }) ∧
  (∀ (s : State) (e : BitVec 8), e.toNat < 160 → s.engineResetRefusal e.toNat = 0 → ∃ t, exec (.engineReset e) s = .next t ∧
      t.eng e.toNat = {} ∧ t.engState e.toNat = 6 ∧ t.units = { s.units with ereset := some e.toNat } ∧
      t.regs = ((s.setEngState e.toNat 6).setFlag Reg.GLB_RESET_STATUS_ENGINE_BUSY true).regs ∧
      s.sameBut [.regs, .units, .engines] t) ∧
  (∀ (s : State) (e : BitVec 8) (r : Nat), e.toNat < 160 → s.engineResetRefusal e.toNat = r → r ≠ 0 →
    ∃ t, exec (.engineReset e) s = .next t ∧ t.regs = (s.setFld Reg.GLB_RESET_STATUS_REFUSAL r).regs ∧
      s.sameBut [.regs] t) ∧
  (∀ (s : State) (e : BitVec 8), 160 ≤ e.toNat → exec (.engineReset e) s = .next s) ∧
  (∀ (s : State) (e : Nat), s.units.ereset = some e → e < 160 → ∃ t, exec (.engineKatDone true) s = .next t ∧
      t.engState e = 3 ∧ t.fld (Reg.ENG_ROLE_SLOT e) = 4 ∧ t.fld (Reg.ENG_ROLE_ROLE e) = 1 ∧
      t.flag (Reg.ENG_FOLIO_SPARE_USED (folioOf e)) = false ∧ t.flag Reg.GLB_RESET_STATUS_ENGINE_BUSY = false ∧
      t.cnt Cnt.HLTH_KAT_RUN = (s.cnt Cnt.HLTH_KAT_RUN + 1) % 2 ^ 64 ∧
      t.units = { s.units with
        ereset := none, engOut := s.units.engOut &&& ~~~(1#160 <<< e)
        spareUsed := s.units.spareUsed &&& ~~~(1#32 <<< folioOf e) } ∧
      s.sameBut [.regs, .mode, .cnts, .posted, .out, .free, .units] t) ∧
  (∀ (s : State) (link vc : Fin 4) (dir : Fin 2) (n : Fin 17), s.items = [] →
    s.units.dieLost.getLsbD link = false → n.val ≤ (s.credit (spineKey link vc dir)).returning →
    ∃ t, exec (.creditReturn link vc dir n) s = .next t ∧
      t.credit (spineKey link vc dir) = { s.credit (spineKey link vc dir) with
        held := (s.credit (spineKey link vc dir)).held + n
        returning := (s.credit (spineKey link vc dir)).returning - n } ∧
      (∀ k, k ≠ spineKey link vc dir → t.credit k = s.credit k) ∧ s.sameBut [.spine] t)

/-- R45, R254, R359, R375, R510, R511, R122: checked faults, the loss of a die, a failed spare engine, and a work
item that waits in its folio's dispatch queue. Where a clause follows a choice of the model, the log names it:
entries 43, 52, 90, 134, 184, 206. -/
def Obligations.FaultsAreRecordedAndAnswered : Prop :=
  (∀ (s : State) (code : BitVec 8) (unit : BitVec 16) (item : FaultItem),
    s.mode ≠ 6 → 1 ≤ code.toNat → code.toNat ≤ 0x13 → code.toNat ≠ 0x0D → s.mode = 7 → s.guard.faultAt ≠ s.tb.uptime + 1 →
    ∃ t, exec (.checkedFault code unit item) s = .next t ∧
      t.regs = ((s.setFld Reg.HLTH_FAULT_CODE code.toNat).setFld Reg.HLTH_FAULT_WHERE unit.toNat).regs ∧
      t.posted = s.posted ++ [⟨0x0302, code.toNat + unit.toNat * 2 ^ 16⟩] ∧
      t.cnt Cnt.HLTH_CHECKED_FAULTS = (s.cnt Cnt.HLTH_CHECKED_FAULTS + 1) % 2 ^ 64 ∧
      t.guard = { s.guard with faultAt := s.tb.uptime + 1 } ∧ s.countsBut [Cnt.HLTH_CHECKED_FAULTS] t ∧
      s.sameBut [.regs, .cnts, .posted, .guard] t) ∧
  (∀ (s : State) (code : BitVec 8) (unit : BitVec 16) (item : FaultItem),
    s.mode < 6 → code = 0x0B ∨ code = 0x0E ∨ code = 0x0F ∨ code = 0x11 ∨ code = 0x12 →
    ∃ t, exec (.checkedFault code unit item) s = .next t ∧ t.mode = 7 ∧ t.fld Reg.GLB_MODE_CAUSE = 0x0E ∧
      t.guard.faultAt = s.tb.uptime + 1 ∧
      s.sameBut [.regs, .mode, .cnts, .posted, .out, .free, .imp, .units, .ports, .flows, .ring, .engines, .evt, .cart,
        .guard, .tb] t) ∧
  (∀ (s : State) (code : BitVec 8) (unit : BitVec 16) (item : FaultItem), s.mode = 6 ∨ code = 0 ∨ 0x13 < code.toNat →
    exec (.checkedFault code unit item) s = .next s) ∧
  (∀ (s : State) (d : Fin 4), s.mode < 6 → s.units.dieLost.getLsbD d = false → dieOf (quireOf s.ctrlActive) ≠ d →
    s.guard.handover = none → s.units.ereset = none → ∃ t, exec (.dieLost d) s = .next t ∧
      t.units = { s.units with
        dieLost := s.units.dieLost ||| 1#4 <<< d.val
        carried := s.units.carried ||| 1#16 <<< (4 * d.val) ||| 1#16 <<< (4 * d.val + 1) ||| 1#16 <<< (4 * d.val + 2) |||
          1#16 <<< (4 * d.val + 3) } ∧ t.mode ≠ 2 ∧
      (∀ q : Fin 4, t.bit Reg.GLB_RESET_STATUS_QUIRE_BUSY (4 * d + q) = false)) ∧
  (∀ (s : State) (e : Fin 160), s.mode < 6 → s.engState e = 3 → quireOf (folioOf e) ≠ quireOf s.ctrlActive →
    s.imp.reimp.loading.getLsbD (quireOf (folioOf e)) = false →
    ∃ t, exec (.engineHardFailure e) s = .next t ∧ t.engState e = 4 ∧ t.fld (Reg.ENG_ROLE_SLOT e) = 7 ∧ t.eng e = {} ∧
      t.mode = (if s.mode = 2 then 3 else s.mode) ∧
      t.units = { s.units with engOut := s.units.engOut ||| 1#160 <<< e.val } ∧
      t.cnt Cnt.HLTH_CHECKED_FAULTS = (s.cnt Cnt.HLTH_CHECKED_FAULTS + 1) % 2 ^ 64 ∧
      s.sameBut [.regs, .mode, .cnts, .posted, .out, .free, .units, .engines, .guard] t) ∧
  (∀ (s : State) (f : Fin 32) (it : WorkItem),
    s.nextOnLink f = some it → s.servingFolio it.folio = f → s.dispatchInvalid f it = false → (∀ e ∈ State.folioEngines f, s.engIdle e = false) →
    ∃ t, exec (.workItemArrival f) s = .next t ∧ t.items = s.items.erase it ∧
      t.folioQueue f = s.folioQueue f ++ [{ it with link := none }] ∧
      t.fld (Reg.ENG_FOLIO_DEPTH f) = (s.folioQueue f).length + 1 ∧
      s.sameBut [.regs, .spine, .items, .engines] t) ∧
  (∀ (s : State) (f : Fin 32), 256 ≤ (s.folioQueue f).length → exec (.workItemArrival f) s = .next s)

/-- R50 to R52, R63, R565, R578: cell releases and the pace and rail loops. Where a clause follows a choice of the
model, the log names it: entries 88, 165, 166, 167. -/
def Obligations.CellsAndPaceAndRailsFollowTheirRules : Prop :=
  (∀ (s : State) (h : Nat), (s.frame h).cells ≠ 0 → (s.frame h).copies = 0 →
    ∃ t, exec (.cellRelease h) s = .next t ∧ t.frame h = {} ∧
      t.cells = { s.cells with
        free := s.cells.free + (s.frame h).cells, allocated := s.cells.allocated - (s.frame h).cells } ∧
      ((s.frame h).port = none → t.ports = s.ports) ∧ (∀ k, k ≠ h → t.frame k = s.frame k) ∧
      s.sameBut [.cells, .frames, .ports] t) ∧
  (∀ (s : State) (h : Nat), (s.frame h).copies ≠ 0 → exec (.cellRelease h) s = .next s) ∧
  (∀ (s : State) (q : Fin 16) (p : BitVec 16), 2 ≤ s.mode → s.mode ≠ 6 → 1050 ≤ p.toNat →
    ∃ t, exec (.paceMonitorSample q p) s = .next t ∧ t.fld (Reg.ENG_PACE_PACE q) = p.toNat ∧
      t.fld (Reg.ENG_PACE_MIN q) = min p.toNat (s.fld (Reg.ENG_PACE_MIN q)) ∧
      t.pace = { s.pace with
        colophonLow := Table.set (fun _ => 0xFFFF) s.pace.colophonLow q
          (min p.toNat (Table.get (fun _ => 0xFFFF) s.pace.colophonLow q))
        lowSince := Table.set (fun _ => 0) s.pace.lowSince q 0 } ∧
      s.regsBut [Reg.ENG_PACE q] t ∧ s.sameBut [.regs, .pace] t) ∧
  (∀ (s : State) (q : Fin 16) (p : BitVec 16), 2 ≤ s.mode → s.mode < 6 → p.toNat < 1050 → s.railMv (dieOf q) = 840 →
    s.quireOut q = false → Table.get (fun _ => 0) s.pace.lowSince q = 0 →
    ∃ t, exec (.paceMonitorSample q p) s = .next t ∧
      Table.get (fun _ => 0) t.pace.lowSince q = s.tb.uptime + 1 ∧
      t.cnt Cnt.HLTH_PACE_LOW = (s.cnt Cnt.HLTH_PACE_LOW + 1) % 2 ^ 64 ∧
      t.cnt Cnt.HLTH_CHECKED_FAULTS = (s.cnt Cnt.HLTH_CHECKED_FAULTS + 1) % 2 ^ 64 ∧
      s.posts [0x0302, 0x0303] t ∧ t.mode = s.mode ∧ s.sameBut [.regs, .cnts, .posted, .pace, .guard] t) ∧
  (∀ (s : State) (q : Fin 16), Table.get (fun _ => 0) s.pace.lowSince q ≠ 0 →
    Table.get (fun _ => 0) s.pace.lowSince q + 10000000 ≤ s.tb.uptime + 1 → s.operating = true →
    s.units.quireIso.getLsbD q = false → ∃ t, exec (.paceLowTimeout q) s = .next t ∧ t.units.quireIso = s.units.quireIso ||| 1#16 <<< q.val ∧
      Table.get (fun _ => 0) t.pace.lowSince q = 0 ∧ t.mode ≠ 2) ∧
  (∀ (s : State) (q : Fin 16), s.tb.uptime + 1 < Table.get (fun _ => 0) s.pace.lowSince q + 10000000 →
    exec (.paceLowTimeout q) s = .next s) ∧
  (∀ (s : State) (d : Fin 4), s.operating = true → s.mode ≠ 5 → (∀ q : Fin 4, s.quireOut (4 * d + q) = false) →
    Table.get (fun _ => 0) s.pace.lastAdjust d + 100000 ≤ s.tb.uptime + 1 → s.railMv d < 840 →
    (∃ q : Fin 4, s.fld (Reg.ENG_PACE_PACE (4 * d + q)) < ((s.imp.image.map fun i => i.struct.pace.getD d 120).getD 120) * 10) →
    ∃ t, exec (.railAdjust d) s = .next t ∧
      t.pace = { s.pace with
        railMv := Table.set (fun _ => 800) s.pace.railMv d (min 840 (s.railMv d + 5))
        lastAdjust := Table.set (fun _ => 0) s.pace.lastAdjust d (s.tb.uptime + 1) } ∧ s.sameBut [.pace] t) ∧
  (∀ (s : State) (d : Fin 4), s.mode = 5 → (∀ q : Fin 4, s.quireOut (4 * d + q) = false) →
    Table.get (fun _ => 0) s.pace.lastAdjust d + 100000 ≤ s.tb.uptime + 1 → 610 < s.railMv d →
    (∀ q : Fin 4, 1050 < s.fld (Reg.ENG_PACE_PACE (4 * d + q))) →
    ∃ t, exec (.railAdjust d) s = .next t ∧
      t.pace = { s.pace with
        railMv := Table.set (fun _ => 800) s.pace.railMv d (max 610 (s.railMv d - 5))
        lastAdjust := Table.set (fun _ => 0) s.pace.lastAdjust d (s.tb.uptime + 1) } ∧ s.sameBut [.pace] t) ∧
  (∀ (s : State) (d : Fin 4), s.operating = true → s.mode ≠ 5 → (∀ q : Fin 4, s.quireOut (4 * d + q) = false) →
    Table.get (fun _ => 0) s.pace.lastAdjust d + 100000 ≤ s.tb.uptime + 1 → 610 < s.railMv d →
    (∀ q : Fin 4, ((s.imp.image.map fun i => i.struct.pace.getD d 120).getD 120) * 10 < s.fld (Reg.ENG_PACE_PACE (4 * d + q))) →
    ((s.imp.image.map fun i => i.struct.pace.getD d 120).getD 120) * 10 < 65535 →
    ∃ t, exec (.railAdjust d) s = .next t ∧
      t.pace = { s.pace with
        railMv := Table.set (fun _ => 800) s.pace.railMv d (max 610 (s.railMv d - 5))
        lastAdjust := Table.set (fun _ => 0) s.pace.lastAdjust d (s.tb.uptime + 1) } ∧ s.sameBut [.pace] t) ∧
  (∀ (s : State) (d : Fin 4) (v : BitVec 16), 6000 ≤ v.toNat → v.toNat ≤ 8500 →
    ∃ t, exec (.railMonitorSample (.eng d) v) s = .next t ∧
      t.pace = { s.pace with railRead := Table.set (fun _ => 0) s.pace.railRead d v.toNat } ∧ s.sameBut [.pace] t) ∧
  (∀ (s : State) (v : BitVec 16), 7125 ≤ v.toNat → v.toNat ≤ 7875 → exec (.railMonitorSample .hub v) s = .next s) ∧
  (∀ (s : State) (v : BitVec 16), v.toNat < 7125 ∨ 7875 < v.toNat → s.mode < 6 →
    ∃ t, exec (.railMonitorSample .hub v) s = .next t ∧ t.mode = 7 ∧ t.fld Reg.GLB_MODE_CAUSE = 0x0E)

/-- R529 to R541: ledger points and their holds, and the records of the trace. Where a clause follows a choice of
the model, the log names it: entries 168, 169. -/
def Obligations.LedgerAndTraceRecordTheirPoints : Prop :=
  (∀ (s : State), s.mode ≠ 6 → s.latestSnap.num = 0 ∨ s.latestSnap.time + 2000 < s.tb.uptime → s.badBooks = [] →
    s.obs.hold = none → ∃ t, exec (.now []) s = .next t ∧ t.latestSnap = {
        num := (s.latestSnap.num + 1) % 2 ^ 32, time := s.tb.uptime, counters := (s.count Cnt.OBS_LEDGER_POINTS).cnts
        books := s.bookTerms, outOfBalance := 0 } ∧
      t.obs.latest = (!s.obs.latest) ∧ t.rd Reg.OBS_LEDGER_NUM = BitVec.ofNat 32 (s.latestSnap.num + 1) ∧
      t.cnt Cnt.OBS_LEDGER_POINTS = (s.cnt Cnt.OBS_LEDGER_POINTS + 1) % 2 ^ 64 ∧
      s.regsBut [Reg.OBS_LEDGER_NUM] t ∧ s.sameBut [.regs, .cnts, .free, .obs] t) ∧
  (∀ (s : State) (out : List BookOut), s.latestSnap.num ≠ 0 → s.tb.uptime ≤ s.latestSnap.time + 2000 →
    exec (.now out) s = .next s) ∧
  (∀ (s : State), s.mode ≠ 6 → s.tb.uptime % (s.fld Reg.OBS_LEDGER_PERIOD_PERIOD_US * 1000) = 0 →
    s.latestSnap.num = 0 ∨ s.latestSnap.time + 2000 < s.tb.uptime → s.badBooks = [] →
    ∃ t, exec (.ledgerPoint []) s = .next t ∧ t.latestSnap.num = (s.latestSnap.num + 1) % 2 ^ 32 ∧
      t.latestSnap.time = s.tb.uptime ∧ t.latestSnap.books = s.bookTerms ∧
      (∀ b u, s.obs.hold = some (b, u) → (if b then t.obs.bank1 = s.obs.bank1 else t.obs.bank0 = s.obs.bank0)) ∧
      s.sameBut [.regs, .cnts, .free, .obs] t) ∧
  (∀ (s : State) (out : List BookOut), s.tb.uptime % (s.fld Reg.OBS_LEDGER_PERIOD_PERIOD_US * 1000) ≠ 0 →
    exec (.ledgerPoint out) s = .next s) ∧
  (∀ (s : State), ∃ t, exec .ledgerNumRead s = .next t ∧
    t.obs = { s.obs with hold := some (s.obs.latest, s.tb.uptime + 10000000) } ∧
    t.out = s.out ++ [.completion 3 (leBytes 4 (s.rd Reg.OBS_LEDGER_NUM).toNat) false] ∧ s.sameBut [.out, .obs] t) ∧
  (∀ (s : State), ∃ t, exec .release s = .next t ∧ t.obs = { s.obs with hold := none } ∧ s.sameBut [.obs] t) ∧
  (∀ (s : State) (b : Bool) (u : Nat), s.obs.hold = some (b, u) → u ≤ s.tb.uptime →
    ∃ t, exec .holdExpired s = .next t ∧ t.obs = { s.obs with hold := none } ∧ s.posts [0x0402] t ∧
      s.sameBut [.posted, .free, .obs] t) ∧
  (∀ (s : State) (b : Bool) (u : Nat), s.obs.hold = some (b, u) → s.tb.uptime < u → exec .holdExpired s = .next s) ∧
  (∀ (s : State) (code : BitVec 16) (data : BitVec 48) (age : Nat), s.traceOn = true → age ≤ s.tb.uptime →
    s.flag Reg.OBS_TRACE_SRC_EVENT = true → s.obs.fifo = [] → s.obs.lostSpine = 0 → s.obs.lostFifo = 0 →
    ∃ t, exec (.traceRecord (.event code data) age) s = .next t ∧
      t.obs.fifo = [{ type := 0x40, len := 16, seq := s.obs.seq, ts := s.statusAt age, uptime := s.tb.uptime - age
                      payload := code.toNat + data.toNat * 2 ^ 16 }] ∧
      t.obs.seq = (s.obs.seq + 1) % 2 ^ 16 ∧ s.sameBut [.obs] t) ∧
  (∀ (s : State) (code : BitVec 16) (data : BitVec 48) (age : Nat), s.traceOn = true →
    s.flag Reg.OBS_TRACE_SRC_EVENT = true → s.traceNow = s → 4096 < s.traceUsed + 4 →
    ∃ t, exec (.traceRecord (.event code data) age) s = .next t ∧ t.obs = { s.obs with lostFifo := s.obs.lostFifo + 1 } ∧
      t.cnt Cnt.OBS_TRACE_DISCARD_FIFO = (s.cnt Cnt.OBS_TRACE_DISCARD_FIFO + 1) % 2 ^ 64 ∧
      s.sameBut [.cnts, .posted, .lastPost, .free, .obs] t) ∧
  (∀ (s : State) (item : TraceItem) (age : Nat), s.traceOn = false → exec (.traceRecord item age) s = .next s) ∧
  (∀ (s : State), s.traceOn = true → s.tb.uptime % 1000000 = 0 → s.obs.fifo = [] → s.obs.lostSpine = 0 → s.obs.lostFifo = 0 →
    ∃ t, exec .traceSync s = .next t ∧
      t.obs.fifo = [{ type := 0x01, len := 32, seq := s.obs.seq, ts := s.statusAt 0, uptime := s.tb.uptime
                      payload := s.tb.uptime % 2 ^ 64 + s.now.image * 2 ^ 64 }] ∧
      t.obs.seq = (s.obs.seq + 1) % 2 ^ 16 ∧ s.sameBut [.obs] t)

/-- R56, R141, R144 to R147, R167: the copies are realigned, and steps of time are accepted, refused, applied, put
on the slew or dropped. Where a clause follows a choice of the model, the log names it: entries 60, 61, 191, 192,
193, 202. -/
def Obligations.StepsAreAcceptedRefusedAndAuthorised : Prop :=
  (∀ s : State, s.tb.realigned + 1000 ≤ s.tb.uptime → s.tb.due = none → ∃ t, exec .foreEdgeRealign s = .next t ∧
    t.tb = { s.tb with realigned := s.tb.uptime, due := s.tb.step, step := none } ∧ s.sameBut [.tb] t) ∧
  (∀ s : State, s.tb.uptime < s.tb.realigned + 1000 → exec .foreEdgeRealign s = .next s) ∧
  (∀ (s : State) (v : Full), v.ok = true → s.timeStatus = 0 → ∃ t, exec (.tbSet v) s = .next t ∧
    t.regs = (s.wrFull Reg.TB_SET_LO v).regs ∧
    t.tb = { s.tb with step := some (s.tb.step.getD 0 + ((v.ticks : Int) * 65536 - s.tb.time)) } ∧
    s.sameBut [.regs, .tb] t) ∧
  (∀ (s : State) (v : Full), s.timeStatus ≠ 0 → s.flag Reg.PTP_CTRL_STACK = false ∨ s.flag Reg.TB_STATUS_DUAL = true →
    ∃ t, exec (.tbSet v) s = .next t ∧ s.posts [0x0906] t ∧ s.sameBut [.posted, .free] t) ∧
  (∀ (s : State) (v : BitVec 64), s.flag Reg.PTP_CTRL_STACK = true → s.flag Reg.TB_STATUS_DUAL = false →
    v.toInt.natAbs ≤ s.fld Reg.TB_JUMP_JUMP_NS → ∃ t, exec (.tbStep v) s = .next t ∧
      t.tb = { s.tb with step := some (s.tb.step.getD 0 + v.toInt * 2 ^ 32) } ∧
      t.regs = (s.wr64 Reg.TB_STEP_LO v.toNat).regs ∧ s.sameBut [.regs, .tb] t) ∧
  (∀ (s : State) (v : BitVec 64), s.flag Reg.PTP_CTRL_STACK = true → s.flag Reg.TB_STATUS_DUAL = false →
    s.timeStatus ≠ 0 → s.fld Reg.TB_JUMP_JUMP_NS < v.toInt.natAbs → ∃ t, exec (.tbStep v) s = .next t ∧
      t.flag Reg.TB_STATUS_STEP_PENDING = true ∧ t.rd64 Reg.TB_PENDING_LO = v.toNat ∧ t.rd64 Reg.TB_STEP_LO = v.toNat ∧
      s.posts [0x0903] t ∧ s.sameBut [.regs, .posted, .free] t) ∧
  (∀ (s : State) (v : BitVec 64), s.flag Reg.PTP_CTRL_STACK = false ∨ s.flag Reg.TB_STATUS_DUAL = true →
    ∃ t, exec (.tbStep v) s = .next t ∧ s.posts [0x0906] t ∧ s.sameBut [.posted, .free] t) ∧
  (∀ s : State, s.flag Reg.TB_STATUS_STEP_PENDING = true → ∃ t, exec .apply s = .next t ∧
    t.regs = ((s.setFlag Reg.TB_STATUS_STEP_PENDING false).wr64 Reg.TB_PENDING_LO 0).regs ∧
    t.tb = { s.tb with step := some (s.tb.step.getD 0 + s.pendingNs * 2 ^ 32) } ∧ s.sameBut [.regs, .tb] t) ∧
  (∀ s : State, s.flag Reg.TB_STATUS_STEP_PENDING = true → ∃ t, exec .slew s = .next t ∧
    t.tb = { s.tb with residual := s.tb.residual + s.pendingNs * 2 ^ 32, slewAuth := true } ∧
    t.flag Reg.TB_STATUS_SLEWING =
      (decide (s.tb.residual + s.pendingNs * 2 ^ 32 ≠ 0) || s.flag Reg.TB_STATUS_SLEWING) ∧
    t.flag Reg.TB_STATUS_STEP_PENDING = false ∧ t.rd64 Reg.TB_PENDING_LO = 0 ∧ s.sameBut [.regs, .tb] t) ∧
  (∀ s : State, s.flag Reg.TB_STATUS_STEP_PENDING = true → ∃ t, exec .reject s = .next t ∧
    t.regs = ((s.setFlag Reg.TB_STATUS_STEP_PENDING false).wr64 Reg.TB_PENDING_LO 0).regs ∧
    t.tb = { s.tb with rejected := true } ∧ s.sameBut [.regs, .tb] t) ∧
  (∀ s : State, s.flag Reg.TB_STATUS_STEP_PENDING = false →
    exec .apply s = .next s ∧ exec .slew s = .next s ∧ exec .reject s = .next s)

/-- R134, R137, R140, R143, R167: a slew that has absorbed its residual ends, and under the host stack software sets
the rate and moves the time status. Where a clause follows a choice of the model, the log names it: entries 63, 179,
192. -/
def Obligations.SlewsEndAndTheHostSteers : Prop :=
  (∀ s : State, s.flag Reg.TB_STATUS_SLEWING = true → s.tb.residual = 0 → ∃ t, exec .slewDone s = .next t ∧
    t.regs = (s.setFlag Reg.TB_STATUS_SLEWING false).regs ∧ s.posts [0x0907] t ∧
    t.tb = { s.tb with slewAuth := false } ∧ s.sameBut [.regs, .posted, .free, .tb] t) ∧
  (∀ s : State, s.flag Reg.TB_STATUS_SLEWING = false ∨ s.tb.residual ≠ 0 → exec .slewDone s = .next s) ∧
  (∀ (s : State) (v : BitVec 32), s.flag Reg.PTP_CTRL_STACK = true → s.flag Reg.TB_STATUS_DUAL = false →
    ∃ t, exec (.tbRate v) s = .next t ∧ t.tb = { s.tb with rate := clampInt (-500000000) 500000000 v.toInt } ∧
      t.rd Reg.TB_RATE = BitVec.ofInt 32 (clampInt (-500000000) 500000000 v.toInt) ∧
      s.regsBut [Reg.TB_RATE] t ∧ s.sameBut [.regs, .tb] t) ∧
  (∀ (s : State) (v : BitVec 32), s.flag Reg.PTP_CTRL_STACK = false ∨ s.flag Reg.TB_STATUS_DUAL = true →
    exec (.tbRate v) s = .next s) ∧
  (∀ (s : State) (v : BitVec 2), s.flag Reg.PTP_CTRL_STACK = true → v.toNat ≠ s.timeStatus →
    hostStatusAllowed s.timeStatus v.toNat = true →
    ∃ t, exec (.tbHostStatusWrite v) s = .next t ∧ t.timeStatus = v.toNat ∧ s.posts [0x0901] t ∧
      t.fld Reg.TB_HOST_STATUS_STATUS = v.toNat ∧
      t.tb = { s.tb with
        inBound := 0, outBound := 0, ppsOut := if t.ppsAllowed = true then s.tb.ppsOut else none } ∧
      s.sameBut [.regs, .posted, .free, .tb] t) ∧
  (∀ (s : State) (v : BitVec 2), s.flag Reg.PTP_CTRL_STACK = false ∨ hostStatusAllowed s.timeStatus v.toNat = false →
    exec (.tbHostStatusWrite v) s = .next s)

/-- R135, R137, R138, R148, R160, R161, R166, R169: PTP control and messages. Where a clause follows a choice of the
model, the log names it: entries 63, 64, 65, 66, 195, 196, 197. -/
def Obligations.NetworkTimeFollowsItsMessages : Prop :=
  (∀ (s : State) (v : Word), s.flag Reg.PTP_CTRL_ENABLE = false → s.flag Reg.TB_STATUS_DUAL = false →
    v.getLsbD 0 = false → (∀ i, i < 4 → (s.dom i).slavePort = none) →
    ∃ t, exec (.ptpCtrlWrite v) s = .next t ∧ t.flag Reg.PTP_CTRL_ENABLE = false ∧
      t.flag Reg.PTP_CTRL_STACK = v.getLsbD 1 ∧ t.flag Reg.PTP_CTRL_AUTO_SWITCH = v.getLsbD 4 ∧
      t.fld Reg.PTP_CTRL_PORT_EN = bits v.toNat 8 6 ∧ t.flag Reg.TB_STATUS_HOST_STACK = v.getLsbD 1 ∧
      (v.getLsbD 1 = true → t.fld Reg.TB_STATUS_REF = 3) ∧
      (∀ p, p < 6 → t.fld (Reg.PTP_PORT_CFG_STATE p) = 0) ∧ s.sameBut [.regs, .posted, .free] t) ∧
  (∀ (s : State) (v : Word), s.flag Reg.PTP_CTRL_ENABLE = true → s.flag Reg.TB_STATUS_DUAL = false →
    v.getLsbD 1 ≠ s.flag Reg.PTP_CTRL_STACK → exec (.ptpCtrlWrite v) s = .next s) ∧
  (∀ (s : State), s.secondLocked = true → ∃ t, exec .ptpSwitchGo s = .next t ∧
    t.dom 0 = s.dom 1 ∧ t.dom 1 = s.dom 0 ∧
    t.fld (Reg.PTP_DOM_CFG_DOMAIN 0) = s.fld (Reg.PTP_DOM_CFG_DOMAIN 1) ∧
    t.fld (Reg.PTP_DOM_CFG_DOMAIN 1) = s.fld (Reg.PTP_DOM_CFG_DOMAIN 0) ∧
    t.fld (Reg.PTP_DOM_CFG_STATE 0) = s.fld (Reg.PTP_DOM_CFG_STATE 1) ∧
    t.rd (Reg.PTP_DOM_OFFSET 0) = s.rd (Reg.PTP_DOM_OFFSET 1) ∧
    t.tb = { s.tb with
      residual := signed 32 (s.rd (Reg.PTP_DOM_OFFSET 1)).toNat * 2 ^ 32, slewAuth := false, refLost := false } ∧
    t.fld Reg.TB_STATUS_REF = 1 ∧ (t.posted.getLast?.map (·.code)) = some 0x0A03 ∧ s.sameBut [.regs, .posted, .free, .tb, .ptp] t) ∧
  (∀ (s : State), s.secondLocked = false → ∃ t, exec .ptpSwitchGo s = .next t ∧ s.posts [0x0A06] t ∧
    s.sameBut [.posted, .free] t) ∧
  (∀ (s : State) (p : Fin 12) (d n : Nat) (o : Full) (c : Int) (rx : Full), d ≤ 127 →
    (s.domSlot? d).isSome = true → s.ptpPort p = true → ∃ t, exec (.sync p d n true o c rx) s = .next t ∧
      t.ptp = { s.ptp with waiting := ⟨p, d, n, rx, c⟩ :: s.ptp.waiting.filter fun w => !(Nat.beq w.port p && Nat.beq w.domain d) } ∧
      s.sameBut [.ptp] t) ∧
  (∀ (s : State) (p : Fin 12) (d n i : Nat) (o : Full) (c : Int) (rx : Full), d ≤ 127 →
    s.domSlot? d = some i → i ≠ 0 → s.slaveOn i p = true → s.servoRuns = true →
    s.tb.refLost = false → ∃ t, exec (.sync p d n false o c rx) s = .next t ∧
      t.rd (Reg.PTP_DOM_OFFSET i) = BitVec.ofNat 32 (saturated 32 2147483647
        ((((o.ticks : Int) + c) + (s.rd (Reg.PTP_PORT_MLD p)).toNat * 4096 - rx.ticks) / 65536)) ∧
      (t.dom i).lastSync = s.tb.uptime ∧ (t.dom i).lastT1 = (o.ticks : Int) + c ∧ (t.dom i).lastT2 = rx.ticks ∧
      (∀ k, k ≠ i → t.dom k = s.dom k) ∧ s.sameBut [.regs, .posted, .free, .ptp] t) ∧
  (∀ (s : State) (p : Fin 12) (d n : Nat) (o : Full) (c : Int) (rx : Full), d ≤ 127 →
    (s.domSlot? d).isSome = true → s.ptpPort p = false → exec (.sync p d n true o c rx) s = .next s) ∧
  (∀ (s : State) (p : Fin 12) (d n : Nat) (b : Bool) (o : Full) (c : Int) (rx : Full), d ≤ 127 → s.domSlot? d = none →
    p.val < 2 → s.ptpPort 0 = true → s.ptpPort 1 = true → ∃ t, exec (.sync p d n b o c rx) s = .next t ∧
      t.out = s.out ++ [.ptpForward (1 - p.val) 0 d n (c + (s.freeVal.toNat : Int))] ∧ s.sameBut [.out, .free] t) ∧
  (∀ (s : State) (p : Fin 12) (d n i : Nat) (o : Full) (c : Int) (w : SyncWait),
    (s.ptp.waiting.find? fun w => Nat.beq w.port p.val && Nat.beq w.domain d && Nat.beq w.seq n) = some w →
    d ≤ 127 → s.domSlot? d = some i → s.slaveOn i p = false → s.tb.refLost = false →
    ∃ t, exec (.followUp p d n o c) s = .next t ∧
      t.ptp = { s.ptp with waiting := s.ptp.waiting.filter fun x => decide (x ≠ w) } ∧ s.sameBut [.ptp] t) ∧
  (∀ (s : State) (p : Fin 12) (d n i : Nat) (o : Full) (c : Int) (w : SyncWait),
    (s.ptp.waiting.find? fun w => Nat.beq w.port p.val && Nat.beq w.domain d && Nat.beq w.seq n) = some w →
    d ≤ 127 → s.domSlot? d = some i → i ≠ 0 → s.slaveOn i p = true → s.servoRuns = true →
    s.tb.refLost = false → ∃ t, exec (.followUp p d n o c) s = .next t ∧
      t.ptp.waiting = (s.ptp.waiting.filter fun x => decide (x ≠ w)) ∧
      t.rd (Reg.PTP_DOM_OFFSET i) = BitVec.ofNat 32 (saturated 32 2147483647
        ((((o.ticks : Int) + (w.correction + c)) + (s.rd (Reg.PTP_PORT_MLD p)).toNat * 4096 - w.rx.ticks) / 65536)) ∧
      (t.dom i).lastT1 = (o.ticks : Int) + (w.correction + c) ∧ (t.dom i).lastT2 = w.rx.ticks ∧
      (∀ k, k ≠ i → t.dom k = s.dom k) ∧ s.sameBut [.regs, .posted, .free, .ptp] t) ∧
  (∀ (s : State) (p : Fin 12) (d i : Nat) (gm : BitVec 64) (ds : List Nat) (utc : BitVec 16) (ok : Bool),
    d ≤ 127 → s.domSlot? d = some i → i ≠ 0 → s.ptpPort p = true → s.servoRuns = true → (s.dom i).best = none →
    2 ≤ i ∨ dataSetBetter s.ptp.own ds = false →
    ∃ t, exec (.announce p d gm ds utc ok) s = .next t ∧
      t.dom i = { s.dom i with
        best := some ds, slavePort := some p.val, heard := s.tb.uptime, utc := utc.toNat, utcValid := ok
        slaveSince := if (s.dom i).slavePort = some p.val then (s.dom i).slaveSince else s.tb.uptime } ∧ t.rd64 (Reg.PTP_DOM_GM_LO i) = gm.toNat ∧
      s.posts [0x0A04] t ∧ t.fld (Reg.PTP_DOM_CFG_STATE i) = (if s.fld (Reg.PTP_DOM_CFG_STATE i) = 2 then 2 else 1) ∧
      s.sameBut [.regs, .posted, .free, .ptp] t) ∧
  (∀ (s : State) (p : Fin 12) (d n i : Nat) (rx : Full), d ≤ 127 → s.domSlot? d = some i → i < 2 → s.ptpPort p = true →
    s.masterOn i p = true → s.flag Reg.PTP_CTRL_PEER_DELAY = false → s.servoRuns = true →
    ∃ t, exec (.delayReq p d n rx) s = .next t ∧ t.out = s.out ++ [.ptp p 9 d n rx] ∧ s.sameBut [.out] t) ∧
  (∀ (s : State) (p : Fin 12) (d i : Nat) (t3 t4 : Full), s.domSlot? d = some i → s.slaveOn i p = true →
    s.flag Reg.PTP_CTRL_PEER_DELAY = false → s.servoRuns = true →
    ∃ t, exec (.delayResp p d t3 t4) s = .next t ∧
      t.rd (Reg.PTP_PORT_MLD p) = BitVec.ofNat 32 (unsigned 32
        ((((s.dom i).lastT2 - (s.dom i).lastT1) + ((t4.ticks : Int) - t3.ticks)) / 2 / 4096)) ∧
      s.regsBut [Reg.PTP_PORT_MLD p] t ∧ s.sameBut [.regs] t) ∧
  (∀ (s : State) (p : Fin 12) (n : Nat) (rx : Full), s.ptpPort p = true → s.flag Reg.PTP_CTRL_PEER_DELAY = true →
    s.servoRuns = true → ∃ t, exec (.pdelayReq p n rx) s = .next t ∧ t.out = s.out ++ [.ptp p 3 0 n rx] ∧ s.sameBut [.out] t) ∧
  (∀ (s : State) (p : Fin 12) (t1 t2 t3 t4 : Full), s.ptpPort p = true → s.flag Reg.PTP_CTRL_PEER_DELAY = true →
    s.servoRuns = true → ∃ t, exec (.pdelayResp p t1 t2 t3 t4) s = .next t ∧
      t.rd (Reg.PTP_PORT_MLD p) = BitVec.ofNat 32 (unsigned 32
        ((((t4.ticks : Int) - t1.ticks) - ((t3.ticks : Int) - t2.ticks)) / 2 / 4096)) ∧
      s.regsBut [Reg.PTP_PORT_MLD p] t ∧ s.sameBut [.regs] t) ∧
  (∀ (s : State) (p : Fin 12), ∃ t, exec (.ptpUnsupportedMessage p) s = .next t ∧
    t.ptp = { s.ptp with discarded := s.ptp.discarded + 1 } ∧ s.sameBut [.ptp] t) ∧
  (∀ (s : State) (i : Fin 4), i ≠ 0 → s.fld (Reg.PTP_DOM_CFG_STATE i) = 1 ∨ s.fld (Reg.PTP_DOM_CFG_STATE i) = 2 →
    s.referenceDue i true = true → s.flag Reg.PTP_CTRL_STACK = false → s.servoRuns = true → ∃ t, exec (.domainLost i true) s = .next t ∧ t.fld (Reg.PTP_DOM_CFG_STATE i) = 3 ∧
      t.dom i = { s.dom i with inBound := 0, outBound := 0, best := none, slavePort := none } ∧
      s.posts [0x0A02] t ∧ s.sameBut [.regs, .posted, .free, .ptp] t) ∧
  (∀ (s : State), s.fld (Reg.PTP_DOM_CFG_STATE 0) = 2 → s.flag Reg.PTP_CTRL_AUTO_SWITCH = false → s.timeStatus = 2 →
    s.fld Reg.TB_STATUS_REF ≠ 2 → s.referenceDue 0 false = true → s.flag Reg.PTP_CTRL_STACK = false → s.servoRuns = true →
    ∃ t, exec (.domainLost 0 false) s = .next t ∧ t.timeStatus = 3 ∧ t.tb.refLost = true ∧ t.fld Reg.TB_STATUS_REF = 0 ∧
      t.tb.inBound = 0 ∧ t.tb.outBound = 0 ∧ s.posts [0x0A02, 0x0901] t) ∧
  (∀ (s : State) (i : Fin 4) (b : Bool), s.referenceDue i b = false → exec (.domainLost i b) s = .next s)

/-- R138, R139, R163 to R166: the external timing signals. Where a clause follows a choice of the model, the log
names it: entries 62, 190, 194, 199. -/
def Obligations.TimingSignalsStampAndLoseTheirReferences : Prop :=
  (∀ (s : State) (falling : Bool) (stamp : Full), falling = s.flag Reg.TB_PPS_CTRL_IN_EDGE → s.flag Reg.PTP_CTRL_STACK = true →
    stamp.ns ≤ 100000000 ∨ (900000000 ≤ stamp.ns ∧ stamp.ns < 1000000000) → ∃ t, exec (.ppsInEdge falling stamp) s = .next t ∧
      t.rd Reg.TB_PPS_IN_TS_LO = BitVec.ofNat 32 stamp.ns ∧ t.rd (Reg.TB_PPS_IN_TS_LO + 4) = BitVec.ofNat 32 stamp.sec ∧
      t.tb = { s.tb with ppsEdges := (s.tb.uptime :: s.tb.ppsEdges).take 3 } ∧
      t.fld Reg.TB_REF_STATUS_PPS_PHASE = saturated 16 32767
        (if stamp.ns < 500000000 then (stamp.ns : Int) else (stamp.ns : Int) - 1000000000) ∧ s.sameBut [.regs, .tb] t) ∧
  (∀ (s : State) (falling : Bool) (stamp : Full), falling = s.flag Reg.TB_PPS_CTRL_IN_EDGE → 100000000 < stamp.ns →
    stamp.ns < 900000000 → ∃ t, exec (.ppsInEdge falling stamp) s = .next t ∧
      t.rd Reg.TB_PPS_IN_TS_LO = BitVec.ofNat 32 stamp.ns ∧ s.sameBut [.regs] t) ∧
  (∀ (s : State) (falling : Bool) (stamp : Full), falling ≠ s.flag Reg.TB_PPS_CTRL_IN_EDGE →
    exec (.ppsInEdge falling stamp) s = .next s) ∧
  (∀ (s : State) (e : Nat) (l : List Nat), s.tb.ppsEdges = e :: l → e + 3000000000 ≤ s.tb.uptime →
    s.fld Reg.TB_STATUS_REF ≠ 2 → ∃ t, exec .ppsInLost s = .next t ∧ s.posts [0x0904] t ∧
    t.tb = { s.tb with ppsEdges := [] } ∧ s.sameBut [.posted, .free, .tb] t) ∧
  (∀ (s : State) (e : Nat) (l : List Nat), s.tb.ppsEdges = e :: l → s.tb.uptime < e + 3000000000 →
    exec .ppsInLost s = .next s) ∧
  (∀ (s : State) (e : Nat) (l : List Nat), s.tb.ppsEdges = e :: l → e + 3000000000 ≤ s.tb.uptime →
    s.fld Reg.TB_STATUS_REF = 2 → s.timeStatus = 2 → s.flag Reg.PTP_CTRL_STACK = false → s.servoRuns = true →
    s.flag Reg.PTP_CTRL_AUTO_SWITCH = false → ∃ t, exec .ppsInLost s = .next t ∧
    t.timeStatus = 3 ∧ s.posts [0x0904, 0x0901] t ∧ t.flag Reg.TB_STATUS_REF10M_USED =
      (s.timeSheet.flags.testBit 3 && s.flag Reg.TB_REF_STATUS_REF10M_LOCKED) ∧ s.sameBut [.regs, .posted, .free, .tb] t) ∧
  (∀ s : State, s.operating = true → s.flag Reg.TB_PPS_CTRL_OUT_EN = true → s.tb.ppsOut = none → s.atSecond = true →
    s.tb.lastPps ≠ some s.now.sec →
    (if s.flag Reg.TB_PPS_CTRL_OUT_ANY then s.timeStatus ≠ 0 else s.timeStatus = 2 ∨ s.timeStatus = 3) →
    ∃ t, exec .ppsOutRise s = .next t ∧ t.tb = { s.tb with
      ppsOut := some (s.tb.uptime + s.fld Reg.TB_PPS_CTRL_WIDTH_US * 1000), lastPps := some s.now.sec } ∧
      s.sameBut [.tb] t) ∧
  (∀ s : State, s.timeStatus = 0 ∨ (s.timeStatus = 1 ∧ s.flag Reg.TB_PPS_CTRL_OUT_ANY = false) →
    exec .ppsOutRise s = .next s) ∧
  (∀ (s : State) (u : Nat), s.tb.ppsOut = some u → s.tb.uptime < u → exec .ppsOutFall s = .next s) ∧
  (∀ (s : State) (u : Nat), s.tb.ppsOut = some u → u ≤ s.tb.uptime → ∃ t, exec .ppsOutFall s = .next t ∧ t.tb = { s.tb with ppsOut := none } ∧ s.sameBut [.tb] t) ∧
  (∀ s : State, s.flag Reg.TB_STATUS_REF10M_USED = true → ∃ t, exec .ref10mLost s = .next t ∧
    t.regs = (((s.setFlag Reg.TB_REF_STATUS_REF10M_PRESENT false).setFlag Reg.TB_REF_STATUS_REF10M_LOCKED false).setFlag
      Reg.TB_STATUS_REF10M_USED false).regs ∧ s.posts [0x0905] t ∧ s.sameBut [.regs, .posted, .free] t) ∧
  (∀ s : State, s.flag Reg.TB_STATUS_REF10M_USED = false → ∃ t, exec .ref10mLost s = .next t ∧
    t.regs = ((s.setFlag Reg.TB_REF_STATUS_REF10M_PRESENT false).setFlag Reg.TB_REF_STATUS_REF10M_LOCKED false).regs ∧
    s.sameBut [.regs] t) ∧
  (∀ (s : State) (r : Int), s.timeSheet.flags.testBit 3 = true → ∃ t, exec (.ref10mLocked (some r)) s = .next t ∧
    t.tb = { s.tb with rate10M := clampInt (-500000000) 500000000 r } ∧
    t.flag Reg.TB_REF_STATUS_REF10M_PRESENT = true ∧ t.flag Reg.TB_REF_STATUS_REF10M_LOCKED = true ∧
    t.flag Reg.TB_STATUS_REF10M_USED = (s.flag Reg.TB_STATUS_REF10M_USED || decide (s.timeStatus = 3)) ∧
    s.sameBut [.regs, .tb] t) ∧
  (∀ s : State, s.timeSheet.flags.testBit 3 = true → ∃ t, exec (.ref10mLocked none) s = .next t ∧
    t.regs = (s.setFlag Reg.TB_REF_STATUS_REF10M_PRESENT true).regs ∧ s.sameBut [.regs] t) ∧
  (∀ (s : State) (r : Option Int), s.timeSheet.flags.testBit 3 = false → exec (.ref10mLocked r) s = .next s)

/-- R176 to R183, R192, R203, R204, R207, R213: gate lists, holds and shaper slopes. Where a clause follows a choice
of the model, the log names it: entries 28, 67, 68, 71, 72, 202, 203. -/
def Obligations.GateListsHoldsAndSlopesChange : Prop :=
  (∀ (s : State) (p : Fin 12), s.fld (Reg.PORT_GATE_STATUS_STATE p) = 0 → ∃ t, exec (.gclGo p) s = .next t ∧
    t.regs = (s.setFld (Reg.PORT_GATE_STATUS_STATE p) 1).regs ∧ s.sameBut [.regs] t) ∧
  (∀ (s : State) (p : Fin 12), s.fld (Reg.PORT_GATE_STATUS_STATE p) ≠ 0 → ∃ t, exec (.gclGo p) s = .next t ∧
    t.regs = (s.setFld (Reg.PORT_GATE_STATUS_ERROR p) 6).regs ∧ s.posts [(0x0C + p) * 256 + 0x02] t ∧
    s.sameBut [.regs, .posted, .free] t) ∧
  (∀ (s : State) (p : Fin 12), s.fld (Reg.PORT_GATE_STATUS_STATE p) = 1 → ∃ t, exec (.gclCancel p) s = .next t ∧
    t.regs = (s.setFld (Reg.PORT_GATE_STATUS_STATE p) 0).regs ∧ s.sameBut [.regs] t) ∧
  (∀ (s : State) (p : Fin 12) (c : Nat), s.pendingChange p = some c → exec (.gclCancel p) s =
    .next (if s.portTicks p < c then s.setFld (Reg.PORT_GATE_STATUS_STATE p) 0 else s)) ∧
  (∀ (s : State) (p : Fin 12), s.fld (Reg.PORT_GATE_STATUS_STATE p) = 1 → s.adminError p = none →
    ∃ t, exec (.gclValidated p) s = .next t ∧
      t.regs = ((s.wrFull (Reg.PORT_CHANGE_TIME_LO p) (Full.ofTicks (State.changeTime
        (s.rdFull (Reg.PORT_ADMIN_BASE_LO p)).ticks (s.fld (Reg.PORT_ADMIN_CYCLE_CYCLE_NS p) * 65536)
        (s.nowTicks + s.fld Reg.TB_SETUP_MARGIN_MARGIN_NS * 65536)))).setFld (Reg.PORT_GATE_STATUS_STATE p) 2).regs ∧
      t.port p = { s.port p with pendedAt := s.portTicks p } ∧ s.sameBut [.regs, .ports] t) ∧
  (∀ (s : State) (p : Fin 12) (e k : Nat), s.fld (Reg.PORT_GATE_STATUS_STATE p) = 1 → s.adminError p = some (e, k) →
    ∃ t, exec (.gclValidated p) s = .next t ∧ t.fld (Reg.PORT_GATE_STATUS_STATE p) = 0 ∧
      t.fld (Reg.PORT_GATE_STATUS_ERROR p) = e ∧ s.posts [(0x0C + p) * 256 + 0x02] t ∧
      s.sameBut [.regs, .posted, .free] t) ∧
  (∀ (s : State) (p : Fin 12), s.canonical = true → s.gclDue p = true → s.fld (Reg.PORT_ADMIN_LEN_LEN p) ≠ 0 →
    ∃ t, exec (.gclChanged p) s = .next t ∧ t.fld (Reg.PORT_OPER_LEN_LEN p) = s.fld (Reg.PORT_ADMIN_LEN_LEN p) ∧
      t.rd (Reg.PORT_OPER_CYCLE p) = s.rd (Reg.PORT_ADMIN_CYCLE p) ∧ t.flag (Reg.PORT_GATE_STATUS_ACTIVE p) = true ∧
      (∀ k, k < 1024 → t.rd64 (Reg.PORT_OPER_GCL_LO p 0 + 8 * k) = s.rd64 (Reg.PORT_ADMIN_GCL_LO p 0 + 8 * k)) ∧
      (t.port p).copying = true ∧ (t.port p).awaiting = false) ∧
  (∀ (s : State) (p : Fin 12), s.gclDue p = false → exec (.gclChanged p) s = .next s) ∧
  (∀ (s : State) (p : Fin 12), s.canonical = true → (s.port p).copying = true → ∃ t, exec (.adminCopyDone p) s = .next t ∧
    t.fld (Reg.PORT_GATE_STATUS_STATE p) = 0 ∧ t.port p = { s.port p with copying := false } ∧
    (∀ k, k < 1024 → t.rd64 (Reg.PORT_ADMIN_GCL_LO p 0 + 8 * k) = s.rd64 (Reg.PORT_OPER_GCL_LO p 0 + 8 * k)) ∧
    s.sameBut [.regs, .ports] t) ∧
  (∀ (s : State) (p : Fin 12), (s.port p).cur = none → s.operList p = none → (s.port p).awaiting = false →
    (s.port p).hub = [] → (∀ f ∈ (s.port p).fe, f.cls < 8) →
    ∃ t, exec (.gateEntryStart p) s = .next t ∧ t.fld (Reg.PORT_GATE_STATUS_GATES p) = 255 ∧
      t.fld (Reg.PORT_GATE_STATUS_OPER_ENTRY p) = 0 ∧ (t.port p).fe = (s.port p).fe ∧ s.sameBut [.regs, .ports] t) ∧
  (∀ (s : State) (p : Fin 12), s.preemptReady p = true → s.holdDue p = true → s.held p = false → (s.port p).cur = none →
    ∃ t, exec (.holdAssert p) s = .next t ∧ t.held p = true ∧
      t.cnt (Cnt.PORT_MM_HOLD p) = (s.cnt (Cnt.PORT_MM_HOLD p) + 1) % 2 ^ 64 ∧ s.regsBut [Reg.PORT_GATE_STATUS p] t ∧
      s.sameBut [.regs, .cnts, .ports] t) ∧
  (∀ (s : State) (p : Fin 12), s.preemptReady p = false ∨ s.holdDue p = false ∨ s.held p = true →
    exec (.holdAssert p) s = .next s) ∧
  (∀ (s : State) (p : Fin 12), s.preemptReady p = true → s.releaseDue p = true → s.held p = true →
    ∃ t, exec (.holdRelease p) s = .next t ∧ t.held p = false ∧
    (t.port p).fe = (s.port p).fe ∧ s.regsBut [Reg.PORT_GATE_STATUS p] t ∧ s.sameBut [.regs, .ports] t) ∧
  (∀ (s : State) (p : Fin 12), s.preemptReady p = false ∨ s.releaseDue p = false ∨ s.held p = false →
    exec (.holdRelease p) s = .next s) ∧
  (∀ (s : State) (p : Fin 12), ∃ t, exec (.cbsCreditRecovered p) s = .next t ∧ (t.port p).settled = s.tb.uptime ∧
    (∀ c, c < 8 → Table.get (fun _ => 0) (t.port p).credit c = s.creditNow p c) ∧ s.sameBut [.ports] t) ∧
  (∀ (s : State) (p : Fin 12) (c : Fin 8) (v : BitVec 25), (∀ k, k < 8 → k ≠ c → s.fld (Reg.PORT_CBS_SLOPE_IDLE_SLOPE p k) = 0) →
    s.rate p * 3 < v.toNat * 4 → ∃ t, exec (.cbsSlopeWrite p c v) s = .next t ∧
      t.cnt (Cnt.PORT_SLOPE_REFUSED p) = (s.cnt (Cnt.PORT_SLOPE_REFUSED p) + 1) % 2 ^ 64 ∧ s.sameBut [.cnts] t) ∧
  (∀ (s : State) (p : Fin 12) (c : Fin 8) (v : BitVec 25), (∀ k, k < 8 → k ≠ c → s.fld (Reg.PORT_CBS_SLOPE_IDLE_SLOPE p k) = 0) →
    v.toNat * 4 ≤ s.rate p * 3 → (s.port p).cur = none → (s.port p).susp = none → ∃ t, exec (.cbsSlopeWrite p c v) s = .next t ∧
      t.fld (Reg.PORT_CBS_SLOPE_IDLE_SLOPE p c) = v.toNat ∧ Table.get (fun _ => 0) (t.port p).slope c = v.toNat ∧
      (v = 0 → t.rd (Reg.PORT_CBS_LO p c) = 0 ∧ Table.get (fun _ => 0) (t.port p).credit c = 0) ∧
      (t.port p).fe = (s.port p).fe ∧ s.sameBut [.regs, .ports] t)

/-- R60, R172, R173, R191, R193, R196 to R198, R223, R236: frames of a port from the hub to the medium. Where a
clause follows a choice of the model, the log names it: entries 68, 69, 70, 74, 81, 193, 200, 201. -/
def Obligations.FramesReachTheForeEdgeAndTheMedium : Prop :=
  (∀ (s : State) (p : Fin 12) (c : Fin 8) (f : TxFrame), s.nextHeader p c = some f → s.ringHolds p = false →
    s.feRoom p f = true → f.launch = none → ∃ u, exec (.headerArrival p c) s =
        .next (u.testHead p c ((s.port p).fe.length + 1)) ∧
      (u.port p).fe = (s.port p).fe ++ [f] ∧ (u.port p).hub = (s.port p).hub.erase f ∧
      Table.get (fun _ => 0) (u.port p).served c = State.hubSource f ∧ s.sameBut [.ports] u) ∧
  (∀ (s : State) (p : Fin 12) (c : Fin 8) (f : TxFrame) (l : Nat), s.nextHeader p c = some f → s.ringHolds p = false →
    s.feRoom p f = true → f.launch = some l → s.fld (Reg.PORT_LEAD_LEAD_NS p) ≤ shortDiff l (s.portShort p) →
    ∃ u, exec (.headerArrival p c) s = .next (u.testHead p c ((s.port p).fe.length + 1)) ∧
      (u.port p).fe = (s.port p).fe ++ [{ f with launch := some (s.launchInstant p l) }] ∧ s.sameBut [.ports] u) ∧
  (∀ (s : State) (p : Fin 12) (c : Fin 8) (f : TxFrame) (l : Nat), s.nextHeader p c = some f → s.ringHolds p = false →
    s.feRoom p f = true → f.launch = some l → shortDiff l (s.portShort p) < s.fld (Reg.PORT_LEAD_LEAD_NS p) →
    ∃ u, exec (.headerArrival p c) s = .next (u.testHead p c ((s.port p).fe.length + 1)) ∧
      (u.port p).fe = (s.port p).fe ++ [{ f with launch := some (s.launchInstant p l) }] ∧
      u.cnt (Cnt.PORT_LEAD_MISS p) = (s.cnt (Cnt.PORT_LEAD_MISS p) + 1) % 2 ^ 64 ∧
      s.sameBut [.cnts, .posted, .lastPost, .free, .ports] u) ∧
  (∀ (s : State) (p : Fin 12) (c : Fin 8), s.nextHeader p c = none ∨
      (∃ f, s.nextHeader p c = some f ∧ s.ringHolds p = false ∧ s.feRoom p f = false) →
    exec (.headerArrival p c) s = .next s) ∧
  (∀ (s : State) (p : Fin 12), (∀ c f, s.head p c = some f → s.everFits p c f.len f.oneStep = true) →
    exec (.launchTimeDue p) s = .next s) ∧
  (∀ (s : State) (p : Fin 12) (f : TxFrame), (s.port p).fe = [f] → f.cls < 8 → f.launch = none → f.owner = none → f.flow = none →
    s.everFits p f.cls f.len f.oneStep = false → ∃ t, exec (.launchTimeDue p) s = .next t ∧
      (t.port p).fe = [] ∧ t.cnt (Cnt.PORT_NEVER_OPENS p) = (s.cnt (Cnt.PORT_NEVER_OPENS p) + 1) % 2 ^ 64 ∧
      s.sameBut [.cnts, .posted, .lastPost, .free, .frames, .ports] t) ∧
  (∀ (s : State) (p : Fin 12) (w : Nat) (f : TxFrame), (s.port p).fe = [f] → s.tooLate p w f = true → f.owner = none → f.flow = none →
    ∃ t, exec (.lateDropped p w) s = .next t ∧ (t.port p).fe = [] ∧
      t.cnt (Cnt.PORT_LATE_DROPPED p) = (s.cnt (Cnt.PORT_LATE_DROPPED p) + 1) % 2 ^ 64 ∧
      s.sameBut [.cnts, .posted, .lastPost, .free, .frames, .ports] t) ∧
  (∀ (s u x v : State) (p : Fin 12) (w : Nat) (f : TxFrame), s.sends p = true → (s.port p).cur = none →
    (s.port p).susp = none → (s.port p).gapEnd ≤ s.tb.uptime → s.hasTurn p = true → u = s.dropAllLate p w →
    x = (u.setPort p { u.port p with preempt := s.fld (Reg.PORT_PREEMPT_CLASS_PREEMPTABLE p) }).testHeads p →
    (x.setPort p { x.port p with burst := if x.inBurst p then (x.port p).burst + 1 else 0 }).choose p
      [7, 6, 5, 4, 3, 2, 1, 0] = (v, .frame f) →
    ∃ t m, exec (.frameTransmitStart p w) s = .next t ∧ (t.port p).cur = some m ∧ m.tx.frame = f.frame ∧
      m.tx.bytes = f.bytes ∧ m.startUp = s.tb.uptime ∧ m.tx.ts = s.timeStatus ∧
      m.tx.stamp = Full.ofTicks (((s.portTicks p : Int) + signed 32 (s.rd (Reg.TB_LAT_TX p)).toNat).toNat) ∧
      (t.port p).fe = (v.port p).fe.erase f ∧
      s.sameBut [.cnts, .posted, .lastPost, .free, .frames, .queues, .ports, .flows] t) ∧
  (∀ (s : State) (p : Fin 12) (w : Nat), s.sends p = false ∨ ((s.port p).cur = none ∧ s.tb.uptime < (s.port p).gapEnd) →
    exec (.frameTransmitStart p w) s = .next s) ∧
  (∀ (s : State) (p : Fin 12) (m : OnMedium) (f : FlowControl), (s.port p).cur = some m → s.mediumDone p m = true →
    m.control = some f → ∃ t, exec (.frameTransmitEnd p) s = .next t ∧ (t.port p).cur = none ∧
      t.out = s.out ++ [State.lastOut p m] ∧
      Table.get (fun _ => 0) (t.port p).fcSent f.prio = s.tb.uptime ∧ (t.port p).lastEnd = s.tb.uptime ∧
      t.cnt (Cnt.PORT_TX_PAUSE p) = (s.cnt (Cnt.PORT_TX_PAUSE p) + 1) % 2 ^ 64 ∧
      s.sameBut [.regs, .cnts, .out, .ports] t) ∧
  (∀ (s : State) (p : Fin 12) (m : OnMedium), (s.port p).cur = some m → s.mediumDone p m = true → m.control = none →
    m.tx.owner = none → m.tx.flow = none → (s.port p).fe = [] → ∃ t, exec (.frameTransmitEnd p) s = .next t ∧
      (t.port p).cur = none ∧ (t.port p).lastEnd = s.tb.uptime ∧ t.out = s.out ++ [State.lastOut p m] ∧
      (if m.tx.poisoned then t.cnt (Cnt.PORT_TX_STOMPED p) = (s.cnt (Cnt.PORT_TX_STOMPED p) + 1) % 2 ^ 64
        else t.cnt (Cnt.PORT_TX_OK p) = (s.cnt (Cnt.PORT_TX_OK p) + 1) % 2 ^ 64) ∧
      t.cnt (Cnt.PORT_TX_BYTES p) = (s.cnt (Cnt.PORT_TX_BYTES p) + max 64 m.tx.len) % 2 ^ 64 ∧
      s.sameBut [.cnts, .out, .frames, .ports] t) ∧
  (∀ (s : State) (p : Fin 12), (∀ m, (s.port p).cur = some m → s.mediumDone p m = false) →
    exec (.frameTransmitEnd p) s = .next s)

/-- R216 to R219, R226, R238, R239, R552: links, the verify protocol, PLCA and MDIO. Where a clause follows a choice
of the model, the log names it: entries 31, 76, 201. -/
def Obligations.LinksComeUpAndGoDown : Prop :=
  (∀ (s : State) (p : Fin 12) (r : PcsReport), s.inBand p = false → s.fld (Reg.PORT_MEDIA_FEC p) = 0 →
    s.fld (Reg.PORT_MEDIA_MEDIA p) ≠ 3 →
    ∃ t, exec (.pcsLockChange p r) s = .next t ∧ t.flag (Reg.PORT_LINK_STATUS_PCS_LOCK p) = r.lock ∧
      t.flag (Reg.PORT_LINK_STATUS_FEC_LOCK p) = false ∧ t.flag (Reg.PORT_LINK_STATUS_SPEED_MISMATCH p) = false ∧
      t.flag (Reg.PORT_LINK_STATUS_UP p) = s.flag (Reg.PORT_LINK_STATUS_UP p) ∧
      t.port p = { s.port p with
        locked := r.lock, condition := r.lock
        lockSince := if t.linkLocked p = s.linkLocked p then (s.port p).lockSince else s.tb.uptime
        readySince := if t.linkReady p = s.linkReady p then (s.port p).readySince else s.tb.uptime } ∧ s.regsBut [Reg.PORT_LINK_STATUS p] t ∧
      s.sameBut [.regs, .ports] t) ∧
  (∀ (s : State) (p : Fin 12) (r : PcsReport), s.inBand p = true → r.anDone = true →
    r.speed.toNat ≠ s.fld (Reg.PORT_MEDIA_SPEED p) → s.flag (Reg.PORT_LINK_STATUS_UP p) = true → p ≠ 6 → p ≠ 7 →
    s.flag (Reg.PORT_LINK_STATUS_SPEED_MISMATCH p) = false → ∃ t, exec (.pcsLockChange p r) s = .next t ∧
      t.flag (Reg.PORT_LINK_STATUS_SPEED_MISMATCH p) = true ∧ t.flag (Reg.PORT_LINK_STATUS_UP p) = false ∧
      s.posts [(0x0C + p) * 256 + 0x12, (0x0C + p) * 256 + 0x11] t ∧
      t.cnt (Cnt.PORT_LINK_DOWN p) = (s.cnt (Cnt.PORT_LINK_DOWN p) + 1) % 2 ^ 64 ∧
      s.sameBut [.regs, .cnts, .posted, .free, .ports] t) ∧
  (∀ (s : State) (p : Fin 12) (m : OnMedium), s.linkLocked p = false →
    (s.port p).lockSince + s.fld (Reg.PORT_LINK_CTRL_DOWN_HOLD_US p) * 1000 ≤ s.tb.uptime → s.flag (Reg.PORT_LINK_STATUS_UP p) = true → p ≠ 6 → p ≠ 7 →
    (s.port p).cur = some m → m.control = none → (s.port p).susp = none → ∃ t, exec (.linkDown p) s = .next t ∧
      t.flag (Reg.PORT_LINK_STATUS_UP p) = false ∧ (t.port p).cur = none ∧
      (t.port p).fe = { m.tx with late := false } :: (s.port p).fe ∧ s.posts [(0x0C + p) * 256 + 0x11] t ∧
      t.cnt (Cnt.PORT_TX_LINK_RESEND p) = (s.cnt (Cnt.PORT_TX_LINK_RESEND p) + 1) % 2 ^ 64 ∧
      s.regsBut [Reg.PORT_LINK_STATUS p] t ∧ s.sameBut [.regs, .cnts, .posted, .free, .ports] t) ∧
  (∀ (s : State) (p : Fin 12), s.linkLocked p = true ∨
      s.tb.uptime < (s.port p).lockSince + s.fld (Reg.PORT_LINK_CTRL_DOWN_HOLD_US p) * 1000 →
    exec (.linkDown p) s = .next s) ∧
  (∀ (s : State) (p : Fin 12), s.linkReady p = true → s.flag (Reg.PORT_LINK_STATUS_UP p) = false → s.operating = true →
    s.flag (Reg.PORT_LINK_CTRL_ADMIN_DOWN p) = false → s.flag (Reg.PORT_MEDIA_PREEMPT_CAP p) = false →
    (s.port p).readySince + s.fld (Reg.PORT_LINK_CTRL_UP_HOLD_MS p) * 1000000 ≤ s.tb.uptime → ∃ t, exec (.linkUp p) s = .next t ∧ t.flag (Reg.PORT_LINK_STATUS_UP p) = true ∧ s.posts [(0x0C + p) * 256 + 0x10] t ∧
      s.regsBut [Reg.PORT_LINK_STATUS p] t ∧ s.sameBut [.regs, .posted, .free, .ports] t) ∧
  (∀ (s : State) (p : Fin 12), s.linkReady p = false ∨ s.flag (Reg.PORT_LINK_CTRL_ADMIN_DOWN p) = true ∨
      s.tb.uptime < (s.port p).readySince + s.fld (Reg.PORT_LINK_CTRL_UP_HOLD_MS p) * 1000000 →
    exec (.linkUp p) s = .next s) ∧
  (∀ (s : State) (p : Fin 12) (v : Word), bits v.toNat 0 10 ≤ 1000 → bits v.toNat 16 10 ≤ 1000 →
    s.flag (Reg.PORT_LINK_CTRL_ADMIN_DOWN p) = false → v.getLsbD 31 = false ∨ s.flag (Reg.PORT_LINK_STATUS_UP p) = false →
    ∃ t, exec (.adminDownWrite p v) s = .next t ∧
      t.regs = (s.wr (Reg.PORT_LINK_CTRL p) (v &&& 0x83FF03FF#32)).regs ∧ s.sameBut [.regs] t) ∧
  (∀ (s : State) (p : Fin 12) (v : Word), bits v.toNat 0 10 ≤ 1000 → bits v.toNat 16 10 ≤ 1000 →
    s.flag (Reg.PORT_LINK_CTRL_ADMIN_DOWN p) = true → v.getLsbD 31 = false → ∃ t, exec (.adminDownWrite p v) s = .next t ∧
      t.regs = (s.wr (Reg.PORT_LINK_CTRL p) (v &&& 0x83FF03FF#32)).regs ∧
      t.port p = { s.port p with readySince := s.tb.uptime } ∧ s.sameBut [.regs, .ports] t) ∧
  (∀ (s : State) (p : Fin 12) (v : Word), bits v.toNat 0 10 ≤ 1000 → bits v.toNat 16 10 ≤ 1000 → v.getLsbD 31 = true →
    s.flag (Reg.PORT_LINK_STATUS_UP p) = true → p ≠ 6 → p ≠ 7 → ∃ t, exec (.adminDownWrite p v) s = .next t ∧
      t.rd (Reg.PORT_LINK_CTRL p) = v &&& 0x83FF03FF#32 ∧ t.flag (Reg.PORT_LINK_STATUS_UP p) = false ∧
      s.posts [(0x0C + p) * 256 + 0x11] t ∧ s.sameBut [.regs, .cnts, .posted, .free, .ports] t) ∧
  (∀ (s : State) (p : Fin 12) (v : Word), 1000 < bits v.toNat 0 10 ∨ 1000 < bits v.toNat 16 10 →
    exec (.adminDownWrite p v) s = .next s) ∧
  (∀ (s : State) (p : Fin 8), s.flag (Reg.PORT_MEDIA_PREEMPT_CAP p) = true → s.flag (Reg.PORT_MM_CTRL_ENABLE p) = true →
    s.receives p = true → s.flag (Reg.PORT_LINK_STATUS_UP p) = true → ∃ t, exec (.verifyReceive p) s = .next t ∧
      t.out = s.out ++ [.respond p] ∧ s.sameBut [.out] t) ∧
  (∀ (s : State) (p : Fin 8), s.fld (Reg.PORT_MM_STATUS_VSTATE p) = 2 → s.flag (Reg.PORT_LINK_STATUS_UP p) = true →
    s.receives p = true → s.verifyOver p = false → ∃ t, exec (.respondReceive p) s = .next t ∧ t.fld (Reg.PORT_MM_STATUS_VSTATE p) = 3 ∧
      s.posts [(0x0C + p) * 256 + 0x13] t ∧ s.regsBut [Reg.PORT_MM_STATUS p] t ∧ s.sameBut [.regs, .posted, .free, .ports] t) ∧
  (∀ (s : State) (p : Fin 8), s.fld (Reg.PORT_MM_STATUS_VSTATE p) = 2 → s.flag (Reg.PORT_LINK_STATUS_UP p) = true →
    s.verifyOver p = true → s.fld (Reg.PORT_MM_STATUS_ATTEMPTS p) < 3 → ∃ t, exec (.verifyTimeout p) s = .next t ∧
      t.regs = (s.setFld (Reg.PORT_MM_STATUS_ATTEMPTS p) (s.fld (Reg.PORT_MM_STATUS_ATTEMPTS p) + 1)).regs ∧
      t.out = s.out ++ [.verify p] ∧ t.port p = { s.port p with verifyAt := s.tb.uptime } ∧
      s.sameBut [.regs, .out, .ports] t) ∧
  (∀ (s : State) (p : Fin 8), s.fld (Reg.PORT_MM_STATUS_VSTATE p) = 2 → s.flag (Reg.PORT_LINK_STATUS_UP p) = true →
    s.verifyOver p = true → s.fld (Reg.PORT_MM_STATUS_ATTEMPTS p) = 3 → ∃ t, exec (.verifyTimeout p) s = .next t ∧
      t.regs = (s.setFld (Reg.PORT_MM_STATUS_VSTATE p) 4).regs ∧ s.posts [(0x0C + p) * 256 + 0x14] t ∧
      s.sameBut [.regs, .posted, .free] t) ∧
  (∀ (s : State) (p : Fin 8), s.fld (Reg.PORT_MM_STATUS_VSTATE p) ≠ 2 ∨ s.verifyOver p = false →
    exec (.verifyTimeout p) s = .next s) ∧
  (∀ (s : State) (p : Fin 8) (v : Word), s.flag (Reg.PORT_MEDIA_PREEMPT_CAP p) = true → 1 ≤ bits v.toNat 8 8 → bits v.toNat 8 8 ≤ 128 →
    s.fld (Reg.PORT_MM_STATUS_VSTATE p) = 4 → v.getLsbD 0 = false → ∃ t, exec (.mmEnableWrite p v) s = .next t ∧
      t.rd (Reg.PORT_MM_CTRL p) = v &&& 0xFF03#32 ∧ t.fld (Reg.PORT_MM_STATUS_VSTATE p) = 4 ∧ s.sameBut [.regs, .ports] t) ∧
  (∀ (s : State) (p : Fin 8) (v : Word), s.flag (Reg.PORT_MEDIA_PREEMPT_CAP p) = true → 1 ≤ bits v.toNat 8 8 → bits v.toNat 8 8 ≤ 128 →
    s.fld (Reg.PORT_MM_STATUS_VSTATE p) ≠ 4 → s.flag (Reg.PORT_MM_CTRL_ENABLE p) = true → v.getLsbD 0 = false → ∃ t, exec (.mmEnableWrite p v) s = .next t ∧
      t.rd (Reg.PORT_MM_CTRL p) = v &&& 0xFF03#32 ∧ t.fld (Reg.PORT_MM_STATUS_VSTATE p) = 0 ∧
      t.fld (Reg.PORT_MM_STATUS_ATTEMPTS p) = 0 ∧ s.sameBut [.regs, .ports] t) ∧
  (∀ (s : State) (p : Fin 8) (v : Word), s.flag (Reg.PORT_MEDIA_PREEMPT_CAP p) = true → 1 ≤ bits v.toNat 8 8 → bits v.toNat 8 8 ≤ 128 →
    s.flag (Reg.PORT_MM_CTRL_ENABLE p) = false → v.getLsbD 0 = true → v.getLsbD 1 = false → s.flag (Reg.PORT_LINK_STATUS_UP p) = true →
    ∃ t, exec (.mmEnableWrite p v) s = .next t ∧ t.fld (Reg.PORT_MM_STATUS_VSTATE p) = 2 ∧
      t.fld (Reg.PORT_MM_STATUS_ATTEMPTS p) = 1 ∧ t.out = s.out ++ [.verify p] ∧ s.sameBut [.regs, .out, .ports] t) ∧
  (∀ (s : State) (up : BitVec 6), ∃ t, exec (.mdioPoll up) s = .next t ∧
    (∀ i : Fin 6, t.port (i + 2) = { s.port (i + 2) with mdioUp := up.getLsbD i }) ∧ s.sameBut [.ports] t) ∧
  (∀ (s : State) (k : Fin 4), bits (s.rd (Reg.PORT_PLCA_CTRL (8 + k))).toNat 0 8 ≠ 255 →
    ∃ t, exec (.plcaBeaconReceive k) s = .next t ∧ t.flag (Reg.PORT_PLCA_STATUS_ACTIVE (8 + k)) = true ∧
      (t.port (8 + k)).plcaCtrl = (s.rd (Reg.PORT_PLCA_CTRL (8 + k))).toNat ∧
      (t.port (8 + k)).plcaBurst = (s.rd (Reg.PORT_PLCA_BURST (8 + k))).toNat ∧ (t.port (8 + k)).beaconAt = s.tb.uptime ∧
      t.out = s.out ++ (if bits (s.rd (Reg.PORT_PLCA_CTRL (8 + k))).toNat 0 8 = 0 then
        [.beacon (8 + k.val) (bits (s.rd (Reg.PORT_PLCA_CTRL (8 + k))).toNat 8 8)] else []) ∧
      s.sameBut [.regs, .out, .ports] t) ∧
  (∀ (s : State) (k : Fin 4), s.plcaOn (8 + k) = true → bits (s.port (8 + k)).plcaCtrl 0 8 ≠ 0 →
    s.flag (Reg.PORT_PLCA_STATUS_ACTIVE (8 + k)) = true → s.beaconLate (8 + k) = true → ∃ t, exec (.plcaBeaconLoss k) s = .next t ∧
      t.regs = (s.setFlag (Reg.PORT_PLCA_STATUS_ACTIVE (8 + k)) false).regs ∧
      t.cnt (Cnt.PORT_PLCA_BEACON_LOSS (8 + k)) = (s.cnt (Cnt.PORT_PLCA_BEACON_LOSS (8 + k)) + 1) % 2 ^ 64 ∧
      s.posts [(0x14 + k) * 256 + 0x16] t ∧ s.sameBut [.regs, .cnts, .posted, .free, .ports] t) ∧
  (∀ (s : State) (k : Fin 4), s.beaconLate (8 + k) = false → exec (.plcaBeaconLoss k) s = .next s) ∧
  (∀ (s : State) (k : Fin 4) (m : OnMedium), (s.port (8 + k)).cur = some m → m.attempts < 15 →
    ∃ t, exec (.collisions k) s = .next t ∧ t.port (8 + k) = { s.port (8 + k) with cur := some { m with attempts := m.attempts + 1, startUp := s.tb.uptime } } ∧
      t.cnt (Cnt.PORT_COLLISIONS (8 + k)) = (s.cnt (Cnt.PORT_COLLISIONS (8 + k)) + 1) % 2 ^ 64 ∧ s.sameBut [.cnts, .ports] t) ∧
  (∀ (s : State) (k : Fin 4) (m : OnMedium), (s.port (8 + k)).cur = some m → m.attempts = 15 → m.control = none →
    (s.port (8 + k)).susp = none → ∃ t, exec (.collisions k) s = .next t ∧ (t.port (8 + k)).cur = none ∧
      (t.port (8 + k)).fe = { m.tx with late := false } :: (s.port (8 + k)).fe ∧ s.sameBut [.cnts, .ports] t)

/-- R222, R224, R230 to R237, R240: received frames and fragments, flow control and the wake detectors. Where a
clause follows a choice of the model, the log names it: entries 75, 77, 198, 200, 207. -/
def Obligations.ReceivedFramesAreCheckedAndFiltered : Prop :=
  (∀ (s : State) (p : Fin 12) (b : List Byte) (l : RxLine) (age : Nat), s.receives p = true →
    (s.rxView p age).flag (Reg.PORT_LINK_STATUS_UP p) = true → l.corrected = 0 → l.uncorrectable = 0 → b.length + 4 < 64 →
    ∃ t, exec (.frameReceive p b l age) s = .next t ∧
      t.cnt (Cnt.PORT_RX_RUNT p) = (s.cnt (Cnt.PORT_RX_RUNT p) + 1) % 2 ^ 64 ∧ s.sameBut [.cnts] t) ∧
  (∀ (s : State) (p : Fin 12) (b : List Byte) (l : RxLine) (age : Nat), s.receives p = true →
    (s.rxView p age).flag (Reg.PORT_LINK_STATUS_UP p) = true → l.corrected = 0 → l.uncorrectable = 0 → 64 ≤ b.length + 4 →
    b.length + 4 ≤ s.fld (Reg.PORT_MAC_CTRL_MAX_FRAME p) → l.fcs.toNat ≠ crc32 b →
    ∃ t, exec (.frameReceive p b l age) s = .next t ∧
      (if l.fcs.toNat = crc32 b ^^^ 0xFFFFFFFF then t.cnt (Cnt.PORT_RX_STOMPED p) = (s.cnt (Cnt.PORT_RX_STOMPED p) + 1) % 2 ^ 64
        else t.cnt (Cnt.PORT_RX_FCS_ERR p) = (s.cnt (Cnt.PORT_RX_FCS_ERR p) + 1) % 2 ^ 64) ∧ s.sameBut [.cnts] t) ∧
  (∀ (s : State) (p : Fin 12) (b : List Byte) (l : RxLine) (age : Nat), s.receives p = true →
    (s.rxView p age).flag (Reg.PORT_LINK_STATUS_UP p) = true → l.corrected = 0 → l.uncorrectable = 0 → 64 ≤ b.length + 4 →
    b.length + 4 ≤ s.fld (Reg.PORT_MAC_CTRL_MAX_FRAME p) → l.fcs.toNat = crc32 b → l.codeErr = false →
    (s.rxView p age).flag (Reg.PORT_RX_FILTER_MODE p) = false → (s.rxView p age).perfectPass p b = false →
    ∃ t, exec (.frameReceive p b l age) s = .next t ∧
      t.cnt (Cnt.PORT_RX_FILTERED p) = (s.cnt (Cnt.PORT_RX_FILTERED p) + 1) % 2 ^ 64 ∧ s.sameBut [.cnts] t) ∧
  (∀ (s : State) (p : Fin 12) (b : List Byte) (l : RxLine) (age : Nat), s.receives p = true →
    (s.rxView p age).flag (Reg.PORT_LINK_STATUS_UP p) = true → l.corrected = 0 → l.uncorrectable = 0 → 64 ≤ b.length + 4 →
    b.length + 4 ≤ s.fld (Reg.PORT_MAC_CTRL_MAX_FRAME p) → l.fcs.toNat = crc32 b → l.codeErr = false →
    (s.rxView p age).flag (Reg.PORT_RX_FILTER_MODE p) = false → (s.rxView p age).perfectPass p b = true → State.flowControlOp b = none →
    s.cells.free < State.cellsFor (b.length + 4) → ∃ t, exec (.frameReceive p b l age) s = .next t ∧
      t.cnt (Cnt.PORT_RX_NO_CELL p) = (s.cnt (Cnt.PORT_RX_NO_CELL p) + 1) % 2 ^ 64 ∧ s.sameBut [.cnts] t) ∧
  (∀ (s : State) (p : Fin 12) (b : List Byte) (l : RxLine) (age : Nat), s.receives p = true →
    (s.rxView p age).flag (Reg.PORT_LINK_STATUS_UP p) = true → l.corrected = 0 → l.uncorrectable = 0 → 64 ≤ b.length + 4 →
    b.length + 4 ≤ s.fld (Reg.PORT_MAC_CTRL_MAX_FRAME p) → l.fcs.toNat = crc32 b → l.codeErr = false →
    (s.rxView p age).flag (Reg.PORT_RX_FILTER_MODE p) = false → (s.rxView p age).perfectPass p b = true → State.flowControlOp b = none →
    State.cellsFor (b.length + 4) ≤ s.cells.free → p ≠ 6 → p ≠ 7 → (s.ptpRuns p && ptpFrame b) = false →
    ∃ t u, exec (.frameReceive p b l age) s = .next t ∧ t = u.classifyOrWait {
        frame := s.nextFrame, source := p, bytes := b, len := b.length + 4, ts := s.statusAt age
        stamp := Full.ofTicks (((s.portTicksAt p age : Int) - signed 32 (s.rd (Reg.TB_LAT_RX p)).toNat).toNat)
        rxUp := s.tb.uptime - age } ∧
      u.cells = { s.cells with
        free := s.cells.free - State.cellsFor (b.length + 4), allocated := s.cells.allocated + State.cellsFor (b.length + 4) } ∧
      u.cnt (Cnt.PORT_RX_OK p) = (s.cnt (Cnt.PORT_RX_OK p) + 1) % 2 ^ 64 ∧
      u.cnt (Cnt.PORT_RX_BYTES p) = (s.cnt (Cnt.PORT_RX_BYTES p) + (b.length + 4)) % 2 ^ 64 ∧
      s.sameBut [.cnts, .cells, .frames, .nextFrame, .ports] u) ∧
  (∀ (s : State) (p : Fin 12) (b : List Byte) (l : RxLine) (age : Nat), s.operating = false ∨ s.flag (Reg.PORT_MAC_CTRL_RX_EN p) = false →
    exec (.frameReceive p b l age) s = .next s) ∧
  (∀ (s : State) (p : Fin 8) (c : BitVec 8) (b : List Byte) (m : BitVec 32) (l : RxLine) (age : Nat), s.receives p = true →
    (s.port p).assembly = none → State.mcrcGood b m.toNat = true →
    ∃ t, exec (.mmFragmentReceive p 0xE6 c b false m l age) s = .next t ∧
      t.port p = { s.port p with assembly := some ⟨b, 0, 0, s.tb.uptime - age⟩ } ∧
      t.cnt (Cnt.PORT_MM_FRAG_RX p) = (s.cnt (Cnt.PORT_MM_FRAG_RX p) + 1) % 2 ^ 64 ∧ s.sameBut [.cnts, .ports] t) ∧
  (∀ (s : State) (p : Fin 8) (b : List Byte) (m : BitVec 32) (l : RxLine) (age : Nat) (a : Reassembly), s.receives p = true →
    (s.port p).assembly = some a → a.seq = 0 → a.next = 0 → State.mcrcGood (a.bytes ++ b) m.toNat = true →
    ∃ t, exec (.mmFragmentReceive p 0x61 0xE6 b false m l age) s = .next t ∧
      t.port p = { s.port p with assembly := some { a with bytes := a.bytes ++ b, next := 1 } } ∧
      t.cnt (Cnt.PORT_MM_FRAG_RX p) = (s.cnt (Cnt.PORT_MM_FRAG_RX p) + 1) % 2 ^ 64 ∧ s.sameBut [.cnts, .ports] t) ∧
  (∀ (s : State) (p : Fin 8) (c : BitVec 8) (b : List Byte) (m : BitVec 32) (l : RxLine) (age : Nat) (last : Bool),
    s.receives p = true → ∃ t, exec (.mmFragmentReceive p 0x00 c b last m l age) s = .next t ∧
      t.cnt (Cnt.PORT_MM_SMD_ERR p) = (s.cnt (Cnt.PORT_MM_SMD_ERR p) + 1) % 2 ^ 64 ∧ s.sameBut [.cnts] t) ∧
  (∀ (s : State) (p : Fin 8) (smd c : BitVec 8) (b : List Byte) (m : BitVec 32) (l : RxLine) (age : Nat) (last : Bool),
    s.receives p = false → exec (.mmFragmentReceive p smd c b last m l age) s = .next s) ∧
  (∀ (s : State) (p : Fin 12) (q : BitVec 16), s.receives p = true → s.flag (Reg.PORT_LINK_STATUS_UP p) = true → p.val ≤ 5 → s.flag (Reg.PORT_FC_CTRL_RX_HONOUR p) = true → q ≠ 0 →
    0 < s.rate p →
    ∃ t, exec (.pauseReceive p q) s = .next t ∧ t.fld (Reg.PORT_FC_STATUS_STOPPED p) = 255 ∧
      (∀ c, c < 8 → Table.get (fun _ => 0) (t.port p).stop c =
        s.tb.uptime + (q.toNat * 512 * 1000000 + s.rate p - 1) / s.rate p) ∧
      t.cnt (Cnt.PORT_RX_PAUSE p) = (s.cnt (Cnt.PORT_RX_PAUSE p) + 1) % 2 ^ 64 ∧ s.regsBut [Reg.PORT_FC_STATUS p] t ∧
      s.sameBut [.regs, .cnts, .ports] t) ∧
  (∀ (s : State) (p : Fin 12) (q : BitVec 16), s.receives p = true → s.flag (Reg.PORT_LINK_STATUS_UP p) = true →
    5 < p.val ∨ s.flag (Reg.PORT_FC_CTRL_RX_HONOUR p) = false →
    ∃ t, exec (.pauseReceive p q) s = .next t ∧
      t.cnt (Cnt.PORT_RX_PAUSE p) = (s.cnt (Cnt.PORT_RX_PAUSE p) + 1) % 2 ^ 64 ∧ s.sameBut [.cnts] t) ∧
  (∀ (s : State) (p : Fin 12) (q : BitVec 128) (k : Fin 8), s.receives p = true →
    s.flag (Reg.PORT_LINK_STATUS_UP p) = true → p.val ≤ 5 → s.flag (Reg.PORT_FC_CTRL_RX_HONOUR p) = true →
    (s.rd (Reg.PORT_TC_MAP p)).toNat = 0xFAC688 → bits q.toNat (16 * k) 16 ≠ 0 →
    ∃ t, exec (.pfcReceive p (1#8 <<< k.val) q) s = .next t ∧ t.bit (Reg.PORT_FC_STATUS_STOPPED p) k = true ∧
      Table.get (fun _ => 0) (t.port p).stop k =
        s.tb.uptime + (bits q.toNat (16 * k) 16 * 512 * 1000000 + s.rate p - 1) / s.rate p ∧
      (∀ c, c < 8 → c ≠ k.val → Table.get (fun _ => 0) (t.port p).stop c = Table.get (fun _ => 0) (s.port p).stop c) ∧
      s.sameBut [.regs, .cnts, .ports] t) ∧
  (∀ (s : State) (p : Fin 12) (c : Fin 8), s.stopped p c = true → exec (.fcStopExpire p c) s = .next s) ∧
  (∀ (s : State) (p : Fin 12) (c : Fin 8), s.stopped p c = false → ∃ t, exec (.fcStopExpire p c) s = .next t ∧
    Table.get (fun _ => 0) (t.port p).stop c = 0 ∧ t.bit (Reg.PORT_FC_STATUS_STOPPED p) c = false ∧
    s.regsBut [Reg.PORT_FC_STATUS p] t ∧ s.sameBut [.regs, .ports] t) ∧
  (∀ (s : State) (p : Fin 12) (k : Fin 8), p.val ≤ 5 → s.fld (Reg.PORT_FC_CTRL_MODE p) = 2 →
    s.bit (Reg.PORT_FC_STATUS_XOFF_SENT p) k = true →
    s.fld (Reg.PORT_FC_WM_XON p k) ≤ Table.get (fun _ => 0) (s.port p).occupancy k →
    ∃ t, exec (.fcRefresh p k) s = .next t ∧ t.port p = { s.port p with
      fcWait := ((s.port p).fcWait.filter fun f => !(Nat.beq f.prio k)) ++ [⟨k, s.fld (Reg.PORT_FC_CTRL_PAUSE_TIME p), true⟩] } ∧
      s.sameBut [.ports] t) ∧
  (∀ (s : State) (k : Fin 6) (b : List Byte) (l : RxLine), s.mode = 6 → s.pwr.armed.getLsbD (6 + k) = true → 64 ≤ b.length + 4 →
    b.length + 4 ≤ s.fld (Reg.PORT_MAC_CTRL_MAX_FRAME (6 + k)) → (∃ j : Fin 8, s.patternMatches (6 + k) j b = true) →
    l.fcs.toNat = crc32 b → l.codeErr = false → l.uncorrectable = 0 → ∃ t, exec (.wakePatternMatch k ⟨b, l⟩) s = .next t ∧ t.bit Reg.GLB_WAKE_CAUSE_PORT (6 + k) = true ∧
      t.pwr = { s.pwr with wake := true } ∧ s.sameBut [.regs, .pwr] t) ∧
  (∀ (s : State) (k : Fin 6) (b : List Byte) (l : RxLine), s.mode ≠ 6 ∨ l.fcs.toNat ≠ crc32 b →
    exec (.wakePatternMatch k ⟨b, l⟩) s = .next s)

/-- R259, R278 to R284: the flow commands of the mailbox. Where a clause follows a choice of the model, the log
names it: entries 78, 82, 83, 84, 85, 86, 87, 204, 205. -/
def Obligations.FlowCommandsOfTheMailboxAnswer : Prop :=
  (∀ s : State, s.fld Reg.FLOW_CMD_STATUS_STATE ≠ 1 → ∀ b : Bool, ∃ t, exec (.flowCmdGo b) s = .next t ∧
    t.regs = (s.setFld Reg.FLOW_CMD_STATUS_STATE 1).regs ∧
    t.flows = { s.flows with cmdFunc := some (if b then 3 else 0) } ∧ s.sameBut [.regs, .flows] t) ∧
  (∀ s : State, s.fld Reg.FLOW_CMD_STATUS_STATE = 1 → ∀ b : Bool, exec (.flowCmdGo b) s = .next s) ∧
  (∀ (s : State) (b : FlowBlock) (fin : ReadEnd) (wb : Bool),
    (s.awaits .mailbox = true → fin ≠ .good → ∃ t, exec (.cmdBlockRead .mailbox fin b wb) s = .next t ∧
      t.regs = (s.setFld Reg.FLOW_CMD_STATUS_STATE 3).regs ∧ t.flows = { s.flows with cmdFunc := none } ∧
      s.posts [0x1801] t ∧ s.sameBut [.regs, .posted, .free, .flows] t) ∧
    (s.awaits .mailbox = false → exec (.cmdBlockRead .mailbox fin b wb) s = .next s)) ∧
  (∀ (s : State) (b : FlowBlock), s.awaits .mailbox = true → b.op = 0 →
    ∃ t n, exec (.cmdBlockRead .mailbox .good b true) s = .next t ∧ s.MailboxAnswers 0 9 n [] t ∧
      t.flows = { s.flows with cmdFunc := none } ∧ s.sameBut [.regs, .cnts, .posted, .out, .free, .flows] t) ∧
  (∀ (s : State) (part : BitVec 8) (p : FlowPart) (key ctx : BitVec 512) (i : Nat), s.awaits .mailbox = true →
    s.flowPart? part.toNat = some p → keyFieldsOk p.keyMask (leBytes 64 key.toNat) = true →
    keySourceOk p (leBytes 64 key.toNat) = true → key.toNat % 256 = part.toNat → part.toNat < 64 →
    s.lookupIn part.toNat p (s.fingerprint (leBytes 64 key.toNat)) = none → s.contextResult ctx.toNat = 0 →
    s.slotFor p (s.fingerprint (leBytes 64 key.toNat)) = some (i, false) →
    ∃ t, exec (.insert .mailbox part key ctx) s = .next t ∧ s.MailboxAnswers 1 0 i [] t ∧
      (t.flow i).has Ctx.valid = true ∧ (t.flow i).get Ctx.part = part.toNat ∧ (t.flow i).has Ctx.takeAny = true ∧
      (t.flow i).get Ctx.fingerprint = s.fingerprint (leBytes 64 key.toNat) ∧ (t.flow i).stats = 0 ∧ (t.flow i).lent = none ∧
      t.fld (Reg.FLOW_PART_COUNT_VALID_FLOWS part.toNat) =
        (s.fld (Reg.FLOW_PART_COUNT_VALID_FLOWS part.toNat) + 1) % 2 ^ 21 ∧
      (∀ k, k ≠ i → t.flow k = s.flow k) ∧ s.sameBut [.regs, .cnts, .posted, .out, .free, .flows, .dram, .poison] t) ∧
  (∀ (s : State) (part : BitVec 8) (p : FlowPart) (key ctx : BitVec 512) (i : Nat) (b : Bool), s.awaits .mailbox = true →
    s.flowPart? part.toNat = some p → keyFieldsOk p.keyMask (leBytes 64 key.toNat) = true →
    keySourceOk p (leBytes 64 key.toNat) = true → key.toNat % 256 = part.toNat →
    s.lookupIn part.toNat p (s.fingerprint (leBytes 64 key.toNat)) = some (i, b) → s.isDeleting i = false →
    ∃ t, exec (.insert .mailbox part key ctx) s = .next t ∧ s.MailboxAnswers 1 1 i [] t ∧
      t.flows = { s.flows with cmdFunc := none } ∧ s.sameBut [.regs, .cnts, .posted, .out, .flows] t) ∧
  (∀ (s : State) (part fl : BitVec 8) (idx : BitVec 32) (p : FlowPart) (key ctx : BitVec 512), s.awaits .mailbox = true →
    s.flowPart? part.toNat = some p → fl.getLsbD 0 = true → (s.flow idx.toNat).has Ctx.valid = true →
    (s.flow idx.toNat).get Ctx.part = part.toNat → s.isDeleting idx.toNat = false →
    (s.contextResult ctx.toNat = 0 →
        ((s.flow idx.toNat).takeFields ctx.toNat).get Ctx.frerProf = (s.flow idx.toNat).get Ctx.frerProf →
        ((s.flow idx.toNat).takeFields ctx.toNat).get Ctx.folio = (s.flow idx.toNat).get Ctx.folio →
        (s.flow idx.toNat).has Ctx.extLayout = ((s.flow idx.toNat).takeFields ctx.toNat).has Ctx.extLayout →
      ∃ t, exec (.flowModify .mailbox part fl idx key ctx) s = .next t ∧ s.MailboxAnswers 2 0 idx.toNat [] t ∧
        t.KeepsFlow idx.toNat (if fl.getLsbD 2 then ((s.flow idx.toNat).takeFields ctx.toNat).recoveryReset
          else (s.flow idx.toNat).takeFields ctx.toNat) ∧ (∀ k, k ≠ idx.toNat → t.flow k = s.flow k) ∧
        s.sameBut [.regs, .cnts, .posted, .out, .flows, .dram, .poison] t) ∧
    (∀ r, s.contextResult ctx.toNat = r → r ≠ 0 → ∃ t, exec (.flowModify .mailbox part fl idx key ctx) s = .next t ∧
        s.MailboxAnswers 2 r idx.toNat [] t ∧ t.flows = { s.flows with cmdFunc := none } ∧
        s.sameBut [.regs, .cnts, .posted, .out, .flows] t) ∧
    (s.inFlight idx.toNat = false →
      ∃ t, exec (.delete .mailbox part fl idx key) s = .next t ∧ s.MailboxAnswers 3 0 idx.toNat [] t ∧
        (t.flow idx.toNat).has Ctx.valid = false ∧ (t.flow idx.toNat).lent = none ∧
        (∀ k, k ≠ idx.toNat → t.flow k = s.flow k) ∧
        t.flows.cam = (s.flows.cam.filter fun e => !(Nat.beq e.flow idx.toNat)) ∧
        t.fld Reg.FLOW_CAM_STATUS_USED = t.flows.cam.length % 2 ^ 13 ∧
        ((s.flow idx.toNat).lent = none → t.flow idx.toNat = (s.flow idx.toNat).set Ctx.valid 0 ∧ t.spine = s.spine) ∧
        s.sameBut [.regs, .cnts, .posted, .out, .flows, .spine, .dram, .poison] t) ∧
    (s.inFlight idx.toNat = true → ∃ t, exec (.delete .mailbox part fl idx key) s = .next t ∧
        t.flows = { s.flows with
          deletes := s.flows.deletes ++ [⟨idx.toNat, .mailbox, s.rd64 Reg.FLOW_CMD_ADDR_LO, true⟩] } ∧
        t.cnt Cnt.FLOW_COMMANDS = (s.cnt Cnt.FLOW_COMMANDS + 1) % 2 ^ 64 ∧ s.sameBut [.cnts, .flows] t) ∧
    (fl.getLsbD 1 = false → ∃ t, exec (.read .mailbox part fl idx key) s = .next t ∧
        s.MailboxAnswers 4 0 idx.toNat (leBytes 64 (s.flow idx.toNat).fold.ctx ++ leBytes 64 (s.flow idx.toNat).fold.stats ++
          leBytes 128 (s.flow idx.toNat).fold.ext) t ∧ t.KeepsFlow idx.toNat (s.flow idx.toNat).fold ∧
        (∀ k, k ≠ idx.toNat → t.flow k = s.flow k) ∧ s.sameBut [.regs, .cnts, .posted, .out, .flows, .dram, .poison] t) ∧
    (fl.getLsbD 1 = true → ∃ t, exec (.read .mailbox part fl idx key) s = .next t ∧
        t.KeepsFlow idx.toNat { (s.flow idx.toNat).fold with
          stats := 0
          ext := if (s.flow idx.toNat).fold.has Ctx.extLayout then (s.flow idx.toNat).fold.ext
            else putBits (s.flow idx.toNat).fold.ext 0 512 0 } ∧ (∀ k, k ≠ idx.toNat → t.flow k = s.flow k)) ∧
    (∃ t, exec (.flowRecoveryReset .mailbox part fl idx key) s = .next t ∧ s.MailboxAnswers 5 0 idx.toNat [] t ∧
        t.KeepsFlow idx.toNat (s.flow idx.toNat).recoveryReset ∧ (∀ k, k ≠ idx.toNat → t.flow k = s.flow k) ∧
        s.sameBut [.regs, .cnts, .posted, .out, .flows, .dram, .poison] t) ∧
    (∃ t, exec (.genReset .mailbox part fl idx key) s = .next t ∧ s.MailboxAnswers 6 0 idx.toNat [] t ∧
        t.KeepsFlow idx.toNat (((s.flow idx.toNat).set Ctx.genSeq 0).addStat Stat.genRestarts 1) ∧
        (∀ k, k ≠ idx.toNat → t.flow k = s.flow k) ∧ s.sameBut [.regs, .cnts, .posted, .out, .flows, .dram, .poison] t)) ∧
  (∀ (s : State) (part fl : BitVec 8) (idx : BitVec 32) (key ctx : BitVec 512), s.awaits .mailbox = true →
    fl.getLsbD 0 = true →
    (s.flowPart? part.toNat = none → ∃ t, exec (.flowModify .mailbox part fl idx key ctx) s = .next t ∧
      s.MailboxAnswers 2 4 idx.toNat [] t ∧ t.flows = { s.flows with cmdFunc := none } ∧
      s.sameBut [.regs, .cnts, .posted, .out, .free, .flows] t) ∧
    ((s.flowPart? part.toNat).isSome = true → (s.flow idx.toNat).has Ctx.valid = false →
      ∃ t, exec (.genReset .mailbox part fl idx key) s = .next t ∧ s.MailboxAnswers 6 3 idx.toNat [] t ∧
      t.flows = { s.flows with cmdFunc := none } ∧ s.sameBut [.regs, .cnts, .posted, .out, .free, .flows] t))

/-- R253, R255, R272, R282, R283, R521: the flow cache, lent flows, sweeps, profiles and the pair link's copies.
Where a clause follows a choice of the model, the log names it: entries 79, 80, 82, 89, 204, 206. -/
def Obligations.FlowCacheLendingAndProfilesWork : Prop :=
  (∀ (s : State) (part : BitVec 6) (b : BitVec 18), s.flows.cache.contains (part.toNat, b.toNat) = false →
    (s.flows.wait.any fun r => (s.neededGroups r).contains (part.toNat, b.toNat)) = true →
    ∃ t u, exec (.flowCacheFill part b) s = .next t ∧ t = u.proceed ∧
      u.flows = { s.flows with cache := (part.toNat, b.toNat) :: s.flows.cache.take 65535 } ∧
      u.cnt Cnt.FLOW_CACHE_FILL = (s.cnt Cnt.FLOW_CACHE_FILL + 1) % 2 ^ 64 ∧ s.countsBut [Cnt.FLOW_CACHE_FILL] u ∧
      (s.flows.cache.length ≤ 65535 → u.dram = s.dram ∧ u.poison = s.poison) ∧
      s.sameBut [.cnts, .flows, .dram, .poison] u) ∧
  (∀ (s : State) (part : BitVec 6) (b : BitVec 18), (s.flows.cache.contains (part.toNat, b.toNat) = true ∨
      (s.flows.wait.any fun r => (s.neededGroups r).contains (part.toNat, b.toNat)) = false) →
    exec (.flowCacheFill part b) s = .next s) ∧
  (∀ (s : State) (i : BitVec 20) (q : Nat), (s.flow i.toNat).lent = some q →
    (s.flowMayCross (dieOf q) = true → ∃ t, exec (.flowCheckpoint i) s = .next t ∧
      t.flow i.toNat = { (s.flow i.toNat).fold with
        saved := ((s.flow i.toNat).fold.ctx, (s.flow i.toNat).fold.stats, (s.flow i.toNat).fold.ext), since := 0 } ∧
      (∀ k, k ≠ i.toNat → t.flow k = s.flow k) ∧
      (t.dramRead (s.flowBucket i.toNat + 64 * (i.toNat % 4)) 64).1 = leBytes 64 (s.flow i.toNat).fold.ctx ∧
      (t.dramRead (s.flowBucket i.toNat + 256 + 64 * (i.toNat % 4)) 64).1 = leBytes 64 (s.flow i.toNat).fold.stats ∧
      (t.dramRead (s.flowBucket i.toNat + 512 + 128 * (i.toNat % 4)) 128).1 = leBytes 128 (s.flow i.toNat).fold.ext ∧
      t.spine = (s.flowCrosses (dieOf q)).spine ∧ s.sameBut [.flows, .spine, .dram, .poison] t) ∧
    (s.flowMayCross (dieOf q) = false →
      exec (.flowCheckpoint i) s = .next s ∧ exec (.flowIdleReturn i) s = .next s)) ∧
  (∀ (s : State) (i : BitVec 20), (s.flow i.toNat).lent = none →
    exec (.flowCheckpoint i) s = .next s ∧ exec (.flowIdleReturn i) s = .next s) ∧
  (∀ (s : State) (i : BitVec 20) (q : Nat), (s.flow i.toNat).lent = some q → s.flowMayCross (dieOf q) = true →
    (s.flow i.toNat).lastItem + s.fld Reg.FLOW_LEND_IDLE_US * 1000 ≤ s.tb.uptime →
    ∃ t, exec (.flowIdleReturn i) s = .next t ∧ (t.flow i.toNat).lent = none ∧
      (t.flow i.toNat).ctx = (s.flow i.toNat).fold.ctx ∧ (t.flow i.toNat).stats = (s.flow i.toNat).fold.stats ∧
      t.cnt Cnt.FLOW_RETURN = (s.cnt Cnt.FLOW_RETURN + 1) % 2 ^ 64 ∧ (∀ k, k ≠ i.toNat → t.flow k = s.flow k) ∧
      t.spine = (s.flowCrosses (dieOf q)).spine ∧ s.sameBut [.cnts, .flows, .spine, .dram, .poison] t) ∧
  (∀ (s : State) (i : BitVec 20), s.tb.uptime < (s.flow i.toNat).lastItem + s.fld Reg.FLOW_LEND_IDLE_US * 1000 →
    exec (.flowIdleReturn i) s = .next s) ∧
  (∀ (s : State) (i : BitVec 20), ((s.flow i.toNat).has Ctx.valid = false ∨ (s.flows.wait.any fun r =>
      (s.keysOf r).contains ((s.flow i.toNat).get Ctx.part, (s.flow i.toNat).get Ctx.fingerprint)) = true) →
    exec (.flowSweep i) s = .next s) ∧
  (∀ (s : State) (i : BitVec 20), (s.flow i.toNat).has Ctx.valid = true → (s.flows.wait.any fun r =>
      (s.keysOf r).contains ((s.flow i.toNat).get Ctx.part, (s.flow i.toNat).get Ctx.fingerprint)) = false →
    ((s.flow i.toNat).has Ctx.rcv = false → ∃ t u, exec (.flowSweep i) s = .next t ∧ t = u.sendItems ∧
      u.items = s.items ++ [{
        folio := (s.flow i.toNat).get Ctx.folio, opcode := (s.flow i.toNat).get Ctx.opcode, kind := 3, key := i.toNat
        seq := s.itemSeq, arrivalUs := s.upUs, flow := some i.toNat }] ∧
      u.itemSeq = (s.itemSeq + 1) % 2 ^ 32 ∧ u.flow i.toNat = s.refill (s.flow i.toNat) ∧ s.sameBut [.flows, .items, .itemSeq] u) ∧
    ((s.flow i.toNat).has Ctx.rcv = true → s.recoveryTimeout (s.flow i.toNat) s.upUs = true →
      s.frerLatentEn ((s.flow i.toNat).get Ctx.frerProf) = false → ∃ t u, exec (.flowSweep i) s = .next t ∧ t = u.sendItems ∧
      u.flow i.toNat = s.refill (s.flow i.toNat).recoveryReset ∧ (∀ k, k ≠ i.toNat → u.flow k = s.flow k) ∧
      s.sameBut [.cnts, .posted, .lastPost, .flows, .items, .itemSeq] u)) ∧
  (∀ (s : State) (k : BitVec 8), s.frerStagedOk k.toNat = true → s.frerInUse k.toNat = false →
    ∃ t, exec (.frerProfileCommit k) s = .next t ∧
      (∀ j, j < 4 → t.rd (Reg.FLOW_FRER_PROF_W0 k.toNat + 4 * j) = s.staged (Reg.FLOW_FRER_PROF_W0 k.toNat + 4 * j) ∧
        Table.get (fun _ => none) t.stage (Reg.FLOW_FRER_PROF_W0 k.toNat + 4 * j) = none) ∧ s.sameBut [.regs, .stage] t) ∧
  (∀ (s : State) (k : BitVec 8), s.frerStagedOk k.toNat = true → s.frerInUse k.toNat = true →
    s.stagedBits (Reg.FLOW_FRER_PROF_W0 k.toNat) 0 13 ≠ bits (s.rd (Reg.FLOW_FRER_PROF_W0 k.toNat)).toNat 0 13 →
    ∃ t, exec (.frerProfileCommit k) s = .next t ∧ t.posted = s.posted ++ [⟨0x1807, k.toNat⟩] ∧
      t.cnt Cnt.FLOW_PROF_REFUSED = (s.cnt Cnt.FLOW_PROF_REFUSED + 1) % 2 ^ 64 ∧ s.sameBut [.stage, .cnts, .posted] t) ∧
  (∀ (s : State) (k : BitVec 12), s.stagedBits (Reg.FLOW_POL_PROF_W0 k.toNat) 0 25 ≤ s.stagedBits (Reg.FLOW_POL_PROF_W0 k.toNat + 4) 0 25 →
    s.stagedBits (Reg.FLOW_POL_PROF_W0 k.toNat + 4) 0 25 ≤ 25000000 →
    1522 ≤ s.stagedBits (Reg.FLOW_POL_PROF_W0 k.toNat + 8) 0 24 → 1522 ≤ s.stagedBits (Reg.FLOW_POL_PROF_W0 k.toNat + 12) 0 24 →
    s.stagedBits (Reg.FLOW_POL_PROF_W0 k.toNat + 12) 24 2 ≠ 3 → ∃ t, exec (.policerProfileCommit k) s = .next t ∧
      (∀ j, j < 4 → t.rd (Reg.FLOW_POL_PROF_W0 k.toNat + 4 * j) = s.staged (Reg.FLOW_POL_PROF_W0 k.toNat + 4 * j)) ∧
      s.sameBut [.regs, .stage] t) ∧
  (∀ (s : State) (k : BitVec 12), 25000000 < s.stagedBits (Reg.FLOW_POL_PROF_W0 k.toNat + 4) 0 25 →
    ∃ t, exec (.policerProfileCommit k) s = .next t ∧
      (∀ j, j < 4 → Table.get (fun _ => none) t.stage (Reg.FLOW_POL_PROF_W0 k.toNat + 4 * j) = none) ∧ s.sameBut [.stage] t) ∧
  (∀ (s : State) (lane : Fin 2) (b : List Byte) (age : Nat), s.operating = true → s.pairLink.lanes.getLsbD lane = true →
    s.flag Reg.GUARD_PAIR_CTRL_ENABLE = true → State.cellsFor (b.length + 4) ≤ s.cells.free →
    ∃ t u, exec (.pairLinkFrameReceive lane b age) s = .next t ∧ t = u.classifyOrWait {
        frame := s.nextFrame, source := 12, bytes := b, len := b.length + 4, ts := s.statusAt age
        stamp := Full.ofTicks ((s.pastAt age).1 / 2 ^ 16), rxUp := s.tb.uptime - age } ∧
      u.cells = { s.cells with
        free := s.cells.free - State.cellsFor (b.length + 4), allocated := s.cells.allocated + State.cellsFor (b.length + 4) } ∧
      u.frame s.nextFrame = { cells := State.cellsFor (b.length + 4), copies := 1 } ∧ u.nextFrame = s.nextFrame + 1 ∧
      s.sameBut [.cells, .frames, .nextFrame] u) ∧
  (∀ (s : State) (lane : Fin 2) (b : List Byte) (age : Nat), (s.operating = false ∨
      s.pairLink.lanes.getLsbD lane = false ∨ s.flag Reg.GUARD_PAIR_CTRL_ENABLE = false) →
    exec (.pairLinkFrameReceive lane b age) s = .next s) ∧
  (∀ (s : State) (c : PairCopy), s.pairLink.copies = [c] → c.since + 20000 ≤ s.tb.uptime → ∃ t, exec .pairCopyTimeout s = .next t ∧ t.pairLink = { s.pairLink with copies := [] } ∧
      t.frame c.frame = { s.frame c.frame with copies := (s.frame c.frame).copies - 1 } ∧
      (∀ i, c.flow = some i → t.flow i = (s.flow i).addStat Stat.dropped 1) ∧ (c.flow = none → t.flows = s.flows) ∧
      s.sameBut [.frames, .pairLink, .flows] t)

/-- R293, R301, R305, R308, R314, R317 to R320, R324, R325, R327: control of the ring, its table and its claim.
Where a clause follows a choice of the model, the log names it: entries 94, 95, 96, 97, 100, 101. -/
def Obligations.RingControlAndMastershipFollowTheirStates : Prop :=
  (∀ s : State, s.flag Reg.RING_CTRL_ENABLE = false → s.ringState = 0 → ∃ t, exec (.ringEnableWrite true) s = .next t ∧
    t.ringState = 1 ∧ t.flag Reg.RING_CTRL_ENABLE = true ∧ t.ringLine = false ∧ t.ringGrace = false ∧
    t.rd64 Reg.RING_BRIDGE_LO = 0 ∧ t.ring.bridge = 0 ∧ t.ring.c0 = none ∧
    t.ring.ethertype = s.fld Reg.RING_ETHERTYPE_ETHERTYPE ∧ s.posts [0x0B01] t ∧ s.sameBut [.regs, .posted, .free, .ring] t) ∧
  (∀ s : State, s.flag Reg.RING_CTRL_ENABLE = true → s.ringRuns = true → ∃ t, exec (.ringEnableWrite false) s = .next t ∧
    t.regs = (s.setFlag Reg.RING_CTRL_ENABLE false).regs ∧ t.ring = { s.ring with stopReq := true } ∧ s.sameBut [.regs, .ring] t) ∧
  (∀ s : State, s.flag Reg.RING_CTRL_ENABLE = true → s.ringState = 1 ∨ s.ringState = 2 ∨ s.ringState = 3 →
    ∃ t, exec (.ringEnableWrite false) s = .next t ∧ t.ringState = 0 ∧ t.flag Reg.RING_CTRL_ENABLE = false ∧
      t.ring.c0 = none ∧ t.ring.claiming = false ∧ s.posts [0x0B01] t ∧ s.sameBut [.regs, .posted, .free, .ring] t) ∧
  (∀ (s : State) (v : BitVec 16), v.toNat < 0x600 → exec (.ringEthertypeWrite v) s = .next s) ∧
  (∀ (s : State) (v : BitVec 16), 0x600 ≤ v.toNat → ∃ t, exec (.ringEthertypeWrite v) s = .next t ∧
    t.regs = (s.setFld Reg.RING_ETHERTYPE_ETHERTYPE v.toNat).regs ∧
    t.ring = { s.ring with ethertype := if s.ringState ≤ 2 then v.toNat else s.ring.ethertype } ∧ s.sameBut [.regs, .ring] t) ∧
  (∀ (s : State) (a : BitVec 8), ∃ t, exec (.ringReadmit a) s = .next t ∧ t.excluded a.toNat = false ∧
    t.stationRec a.toNat 2 8 8 = 0 ∧ (∀ b, b < 256 → b ≠ a.toNat → t.excluded b = s.excluded b) ∧ s.sameBut [.regs] t) ∧
  (∀ s : State, s.fld Reg.RING_TABLE_STATUS_STATE = 0 → ∃ t, exec .ringTableGo s = .next t ∧
    t.regs = (s.setFld Reg.RING_TABLE_STATUS_STATE 1).regs ∧ s.sameBut [.regs] t) ∧
  (∀ s : State, s.fld Reg.RING_TABLE_STATUS_STATE ≠ 0 → ∃ t, exec .ringTableGo s = .next t ∧
    t.regs = ((s.setFld Reg.RING_TABLE_STATUS_ERROR 8).setFld Reg.RING_TABLE_STATUS_ENTRY 0).regs ∧ s.posts [0x0B0A] t ∧
    s.sameBut [.regs, .posted, .free] t) ∧
  (∀ s : State, ∃ t, exec .ringTableCancel s = .next t ∧ t.regs = (s.setFld Reg.RING_TABLE_STATUS_STATE 0).regs ∧
    s.sameBut [.regs] t) ∧
  (∀ s : State, s.fld Reg.RING_TABLE_STATUS_STATE = 1 → ringTableError s.ringSheet (s.ringBank false) = none →
    ∃ t, exec .ringTableValidated s = .next t ∧ t.fld Reg.RING_TABLE_STATUS_STATE = 2 ∧
      (s.ringRuns = false → t.regs = (s.setFld Reg.RING_TABLE_STATUS_STATE 2).regs) ∧
      s.regsBut [Reg.RING_TABLE_STATUS_STATE.reg, Reg.RING_TABLE_CHANGE_CYCLE.reg] t ∧ t.ring = { s.ring with tableDue := s.nowNs + s.fld Reg.TB_SETUP_MARGIN_MARGIN_NS } ∧ s.sameBut [.regs, .ring] t) ∧
  (∀ (s : State) (e k : Nat), s.fld Reg.RING_TABLE_STATUS_STATE = 1 → ringTableError s.ringSheet (s.ringBank false) = some (e, k) →
    ∃ t, exec .ringTableValidated s = .next t ∧ t.regs = (((s.setFld Reg.RING_TABLE_STATUS_STATE 0).setFld
        Reg.RING_TABLE_STATUS_ERROR e).setFld Reg.RING_TABLE_STATUS_ENTRY k).regs ∧ s.posts [0x0B0A] t ∧
      s.sameBut [.regs, .posted, .free] t) ∧
  (∀ s : State, s.ringState = 1 → s.ring.since + 10000000 ≤ s.tb.uptime → ∃ t, exec .ringListenEnd s = .next t ∧ s.posts [0x0B01] t ∧
    t.ringState = (if s.ringMayMaster && s.systemActive then 2 else 3) ∧ t.ring.claiming = false ∧
    s.sameBut [.regs, .posted, .free, .ring] t) ∧
  (∀ s : State, s.ringState = 2 → s.ring.claiming = false → s.ring.since + State.holdoffNs ≤ s.tb.uptime →
    ∃ t, exec .ringHoldoffEnd s = .next t ∧
    t.ring = { s.ring with claiming := true, claims := 0, since := s.tb.uptime } ∧
    s.sameBut [.ring] t) ∧
  (∀ s : State, s.ringState = 2 → s.ring.claiming = true → s.ring.since + 100000 * s.ring.claims ≤ s.tb.uptime →
    s.ring.claims < 20 → s.sends 6 = true → s.sends 7 = true → ∃ t b c,
    exec .claimSend s = .next t ∧ t.out = s.out ++ [.frame 6 b false, .frame 7 c false] ∧
    (ringHdrOf b).type = 5 ∧ (ringHdrOf c).type = 5 ∧ (ringHdrOf b).flags = 0 ∧
    (ringPayloadOf b).getD 0 0 = BitVec.ofNat 8 (s.fld Reg.RING_PRIORITY_PRIORITY) ∧
    t.cnt Cnt.RING_CLAIMS = (s.cnt Cnt.RING_CLAIMS + 1) % 2 ^ 64 ∧
    t.ring = { s.ring with claims := s.ring.claims + 1 } ∧ s.sameBut [.cnts, .out, .free, .ring] t) ∧
  (∀ (s : State) (p : BitVec 8) (n : BitVec 64), s.ringState = 2 → s.lowerClaim p.toNat n.toNat = true →
    ∃ t, exec (.claimReceive p n) s = .next t ∧ t.ringState = 3 ∧ t.ring.claiming = false ∧ s.posts [0x0B01, 0x0B0C] t ∧
      t.cnt Cnt.RING_CLAIMS = (s.cnt Cnt.RING_CLAIMS + 1) % 2 ^ 64 ∧ s.sameBut [.regs, .cnts, .posted, .out, .free, .ring] t) ∧
  (∀ (s : State) (p : BitVec 8) (n : BitVec 64), s.ringState ≠ 2 ∨ s.lowerClaim p.toNat n.toNat = false →
    exec (.claimReceive p n) s = .next s) ∧
  (∀ s : State, s.ringState = 2 → s.ring.claiming = true → s.ring.since + 2000000 ≤ s.tb.uptime → s.ringLinksUp = true → ∃ t, exec .claimWon s = .next t ∧
    t.ringState = 4 ∧ t.ringGrace = true ∧ t.ring.n = 0 ∧ t.ring.measureReq = true ∧ t.ring.claiming = false ∧
    (∃ c, t.ring.c0 = some c ∧ s.rc + 1000000 ≤ c ∧ c % (max 1 s.ringCycleNs : Nat) = 0) ∧ s.posts [0x0B01, 0x0B0B] t ∧
    s.sameBut [.regs, .posted, .free, .ring] t) ∧
  (∀ s : State, (s.ringState = 1 → s.tb.uptime < s.ring.since + 10000000) → exec .ringListenEnd s = .next s) ∧
  (∀ s : State, (s.ringState = 2 → s.tb.uptime < s.ring.since) → exec .ringHoldoffEnd s = .next s ∧
    exec .claimSend s = .next s ∧ exec .claimWon s = .next s) ∧
  (∀ s : State, s.ringState = 2 → ∃ t, exec .foreignMaster s = .next t ∧ t.ringState = 3 ∧ s.posts [0x0B01] t ∧
    s.sameBut [.regs, .posted, .free, .ring] t) ∧
  (∀ s : State, s.ringRuns = true → ∃ t, exec .foreignMaster s = .next t ∧ t.ring = { s.ring with foreign := true } ∧
    s.posts [0x0B0D] t ∧ t.cnt Cnt.RING_FOREIGN = (s.cnt Cnt.RING_FOREIGN + 1) % 2 ^ 64 ∧
    s.sameBut [.cnts, .posted, .free, .ring] t) ∧
  (∀ s : State, ∃ t, exec .heal s = .next t ∧ t.ring = { s.ring with healReq := s.ring.healReq || s.ringLine } ∧
    s.sameBut [.ring] t) ∧
  (∀ s : State, ∃ t, exec .measure s = .next t ∧ t.ring = { s.ring with measureReq := s.ring.measureReq || s.ringRuns } ∧
    s.sameBut [.ring] t)

/-- R141, R142, R297 to R309, R313, R319, R324: ring cycles, replies, delays, marks and the standby's relay, and a
step of the time base. Where a clause follows a choice of the model, the log names it: entries 91, 92, 93, 98, 99,
175, 208, 209, 210, 211. -/
def Obligations.RingCyclesAndMarksRun : Prop :=
  (∀ (s : State) (c : BitVec 16), s.ringRuns = true → c.toNat = s.ring.n % 65536 → s.ring.built = [] → s.tableDueAt s.ring.n = false →
    (s.ringBank true).slots = [] → s.rc < s.cycleStartRc s.ring.n →
    s.rc ≤ s.cycleStartRc s.ring.n - s.fld (Reg.PORT_LEAD_LEAD_NS 6) → ∃ t, exec (.ringCycleBuild c) s = .next t ∧ t.ring = { s.ring with built := [⟨s.ring.n, []⟩] } ∧ s.sameBut [.ring] t) ∧
  (∀ (s : State) (c : BitVec 16), s.ringRuns = false → exec (.ringCycleBuild c) s = .next s) ∧
  (∀ (s : State) (side : Fin 2) (c : BitVec 16) (k : BitVec 12) (a fl : BitVec 8) (d : BitVec 32) (pl : List Byte) (age : Nat),
    s.ringRuns = true → s.ringLine = true → s.ring.polls = [] → ∃ t, exec (.reply side c k a fl d pl age) s = .next t ∧
      t.cnt Cnt.RING_BAD_FRAME = (s.cnt Cnt.RING_BAD_FRAME + 1) % 2 ^ 64 ∧ s.sameBut [.cnts] t) ∧
  (∀ (s : State) (side : Fin 2) (p : RingPoll) (c : BitVec 16) (k : BitVec 12) (a fl : BitVec 8) (d : BitVec 32) (pl : List Byte) (age : Nat),
    s.ringRuns = true → s.ringLine = true → s.ringGrace = true → s.ring.polls = [p] → p.cycle % 65536 = c.toNat → p.slot = k.toNat →
    p.station = a.toNat → p.ports = [6, 7] → pl.length ≤ p.replyLen → p.closed = false → p.noReply = false →
    (s.pollDeadline p < s.rcAt age → exec (.reply side c k a fl d pl age) s = .next s) ∧
    (s.rcAt age ≤ s.pollDeadline p → d.toNat ≤ p.dlim →
    ∃ t r, exec (.reply side c k a fl d pl age) s = .next t ∧ t.ring.polls = [{ p with replies := p.replies ++ [r] }] ∧
      r.accepted = true ∧ r.payload = pl ∧ r.flags = fl.toNat ∧ r.d = d.toNat ∧ r.port = 6 + side ∧ r.e = 0 ∧ s.sameBut [.ring] t)) ∧
  (∀ (s : State) (side : Fin 2) (c : BitVec 16) (k : BitVec 12) (a fl : BitVec 8) (d : BitVec 32) (pl : List Byte) (age : Nat),
    s.ringRuns = false → exec (.reply side c k a fl d pl age) s = .next s) ∧
  (∀ (s : State) (p : RingPoll) (c : BitVec 16) (k : BitVec 12), s.ring.polls = [p] → p.cycle % 65536 = c.toNat → p.slot = k.toNat →
    p.closed = false → s.pollDeadline p ≤ s.rc → p.noReply = true → ∃ t, exec (.ringSlotDeadline c k) s = .next t ∧
      t.ring = { s.ring with polls := [{ p with closed := true }] } ∧ s.sameBut [.ring] t) ∧
  (∀ (s : State) (p : RingPoll) (c : BitVec 16) (k : BitVec 12), s.ring.polls = [p] → p.cycle % 65536 = c.toNat → p.slot = k.toNat →
    p.closed = false → s.pollDeadline p ≤ s.rc → p.noReply = false → p.replies = [] → s.ringGrace = false → p.station < 256 → s.excluded p.station = false →
    s.stationRec p.station 2 8 8 < 255 → s.fld Reg.RING_MISS_LIMIT_LIMIT ≤ s.stationRec p.station 2 8 8 + 1 →
    ∃ t, exec (.ringSlotDeadline c k) s = .next t ∧ t.excluded p.station = true ∧
      t.stationRec p.station 2 8 8 = s.stationRec p.station 2 8 8 + 1 ∧ s.posts [0x0B06] t ∧
      t.cnt Cnt.RING_MISSED = (s.cnt Cnt.RING_MISSED + 1) % 2 ^ 64 ∧
      t.cnt Cnt.RING_EXCLUSIONS = (s.cnt Cnt.RING_EXCLUSIONS + 1) % 2 ^ 64 ∧
      s.sameBut [.regs, .cnts, .posted, .free, .ring] t) ∧
  (∀ (s : State) (p : RingPoll) (r : RingReply) (c : BitVec 16) (k : BitVec 12), s.ring.polls = [p] → p.cycle % 65536 = c.toNat →
    p.slot = k.toNat → p.closed = false → s.pollDeadline p ≤ s.rc → p.noReply = false → p.replies = [r] → r.accepted = true →
    s.rxqTakes p.rxq = false → ∃ t, exec (.ringSlotDeadline c k) s = .next t ∧ t.stationRec p.station 0 0 32 = r.d % 2 ^ 32 ∧
      t.cnt Cnt.RING_REPLIES_OK = (s.cnt Cnt.RING_REPLIES_OK + 1) % 2 ^ 64 ∧ t.ring.raised = s.ring.raised ++ [25] ∧
      t.ring.polls = [{ p with closed := true }] ∧ s.sameBut [.regs, .cnts, .ring] t) ∧
  (∀ (s : State) (c : BitVec 16) (k : BitVec 12), (s.ring.polls.all fun p => decide (s.rc < s.pollDeadline p)) = true →
    exec (.ringSlotDeadline c k) s = .next s) ∧
  (∀ (s : State) (m : RingMeasure) (t1 : Int) (seq : BitVec 16) (age : Nat), s.ring.measure = some m → m.t1 = [(0, t1)] → m.seq = seq.toNat →
    m.line = false → ∃ t, exec (.delayOutReceive 1 seq 0 false age) s = .next t ∧
      t.rd Reg.RING_LAMBDA_A = BitVec.ofNat 32 (unsigned 32 (s.rcAt age - t1)) ∧ t.rd Reg.RING_LAMBDA_B = 0 ∧
      s.regsBut [Reg.RING_LAMBDA_A, Reg.RING_LAMBDA_B] t ∧ s.sameBut [.regs, .cnts, .out] t) ∧
  (∀ (s : State) (m : RingMeasure) (t1 : Int) (seq : BitVec 16) (side : Fin 2) (age : Nat), s.ring.measure = some m →
    (m.t1.find? fun p => Nat.beq p.1 side) = some (side.val, t1) → m.seq = seq.toNat → m.line = true → m.value = [] →
    ∃ t, exec (.delayOutReceive side seq side true age) s = .next t ∧
      t.rd (if side = 0 then Reg.RING_LAMBDA_A else Reg.RING_LAMBDA_B) = BitVec.ofNat 32 (unsigned 32 (s.rcAt age - t1)) ∧
      t.ring = { s.ring with measure := some { m with value := [(side.val, s.rcAt age - t1)] } } ∧ s.sameBut [.regs, .ring] t) ∧
  (∀ (s : State) (m : RingMeasure) (t1 : Int) (seq : BitVec 16) (age : Nat), s.ring.measure = some m → m.t1 = [(0, t1)] → m.seq = seq.toNat →
    m.line = false → m.value = [] → ∃ t, exec (.delayBackReceive 0 seq 0 age) s = .next t ∧
      t.ring = { s.ring with measure := some { m with value := [(0, s.rcAt age - t1)] } } ∧ s.sameBut [.ring] t) ∧
  (∀ (s : State) (c : BitVec 16) (ret : Bool), s.ringRuns = true → s.ringLine = false → c.toNat = s.fld Reg.RING_STATUS_CYCLE →
    ∃ t, exec (.ringReturnFrame 1 1 c ret) s = .next t ∧ t.ring = { s.ring with returned := true } ∧ s.sameBut [.ring] t) ∧
  (∀ (s : State) (ty : BitVec 4) (c : BitVec 16), s.ringRuns = true → s.ringLine = false → s.ring.lineAt = none →
    ∃ t, exec (.ringReturnFrame 0 ty c true) s = .next t ∧ t.ringGrace = true ∧ s.posts [0x0B02] t ∧
      t.ring.lineAt = some (s.rc + s.fld (Reg.PORT_LEAD_LEAD_NS 6) + 10000) ∧
      t.cnt Cnt.RING_TOPOLOGY = (s.cnt Cnt.RING_TOPOLOGY + 1) % 2 ^ 64 ∧ s.sameBut [.regs, .cnts, .posted, .free, .ring] t) ∧
  (∀ (s : State) (k : Nat), s.ringRuns = true → s.ringLine = false → s.ring.testFrom = some k → k + 1 ≤ s.ring.n → s.ring.hold = false →
    s.ring.returned = false → s.ring.lineAt = none →
    s.cycleStartRc (s.ring.n - 1) + ((s.rd Reg.RING_LAMBDA_A).toNat : Int) + 2 * (s.fld Reg.RING_GUTTER_GUTTER_NS : Int) ≤ s.rc →
    ∃ t, exec .ringCycleReturnTimeout s = .next t ∧ t.ringGrace = true ∧
      s.posts [0x0B02] t ∧ t.ring.lineAt = some (s.rc + s.fld (Reg.PORT_LEAD_LEAD_NS 6) + 10000) ∧
      s.sameBut [.regs, .cnts, .posted, .free, .ring] t) ∧
  (∀ s : State, s.ring.returned = true ∨ s.ring.hold = true → exec .ringCycleReturnTimeout s = .next s) ∧
  (∀ (s : State) (side : Fin 2) (b : List Byte) (age : Nat), s.ringState = 3 → (ringHdrOf b).version ≠ 1 →
    ∃ t, exec (.standbyForward side b age) s = .next t ∧
      t.ring = { s.ring with relay := s.ring.relay ++ [⟨7 - side, b, s.tb.uptime - age + 13000⟩] } ∧ s.sameBut [.ring] t) ∧
  (∀ (s : State) (r : RingRelay) (l : List RingRelay), s.ring.relay = r :: l →
    (s.tb.uptime < r.due → exec .standbyRelayLaunch s = .next s) ∧
    (r.due ≤ s.tb.uptime → s.sends r.port = true → ∃ t, exec .standbyRelayLaunch s = .next t ∧ t.ring = { s.ring with relay := l } ∧
      t.out = s.out ++ [.frame r.port r.bytes false] ∧
      t.cnt (Cnt.PORT_TX_OK r.port) = (s.cnt (Cnt.PORT_TX_OK r.port) + 1) % 2 ^ 64 ∧ s.sameBut [.cnts, .out, .ring] t)) ∧
  (∀ s : State, s.cycleDue = true → s.ring.stopReq = true → s.guard.handover = none →
    ∃ t, exec .cycleStart s = .next t ∧ t.ringState = 0 ∧ t.ring.c0 = none ∧ t.ring.stopReq = false) ∧
  (∀ (s : State) (l : List BuiltPoll), s.cycleDue = true → s.ring.stopReq = false → s.ring.yieldReq = false → s.ring.foreign = false →
    s.operating = true → s.guard.handover = none →
    (s.ring.built = [] → ∃ t, exec .cycleStart s = .next t ∧
      t.ring.n = s.ring.n + 1 ∧ t.ring.hold = true ∧ t.ring.returned = false ∧
      t.fld Reg.RING_STATUS_CYCLE = s.ring.n % 2 ^ 16 ∧
      t.cnt Cnt.RING_HOLD_SENT = (s.cnt Cnt.RING_HOLD_SENT + 1) % 2 ^ 64) ∧
    (s.ring.built = [⟨s.ring.n, l⟩] → ∃ t, exec .cycleStart s = .next t ∧
      t.ring.n = s.ring.n + 1 ∧ t.ring.hold = false ∧ t.ring.unsent = l ∧ t.ring.delaying = true ∧ t.ring.built = [] ∧
      t.fld Reg.RING_STATUS_CYCLE = s.ring.n % 2 ^ 16 ∧
      t.cnt Cnt.RING_CYCLES = (s.cnt Cnt.RING_CYCLES + 1) % 2 ^ 64)) ∧
  (∀ s : State, s.cycleDue = false → exec .cycleStart s = .next s) ∧
  (∀ (s : State) (m : Fin 16) (k : RingMark), (s.ringBank true).marks[m.val]? = some k → s.ringRuns = true → k.enabled = true →
    s.ring.n ≠ s.ring.first → s.ring.marked.getLsbD m.val = false → s.cycleStartRc (s.ring.n - 1) + k.offset ≤ s.rc → k.irq = false → k.gate = false → k.send = false → k.event = true →
    ∃ t, exec (.ringMark m) s = .next t ∧ s.posts [0x0B40 + m] t ∧
      t.ring = { s.ring with marked := s.ring.marked ||| (1#16 <<< m.val) } ∧ s.sameBut [.posted, .free, .ring] t) ∧
  (∀ (s : State) (m : Fin 16), s.ringRuns = false ∨ s.ring.marked.getLsbD m.val = true → exec (.ringMark m) s = .next s) ∧
  (∀ (s : State) (d : Int), s.tb.due = some d → s.tb.realigned = s.tb.uptime → ∃ t, exec .stepApplied s = .next t ∧
    t.tb.time = (((s.tb.time : Int) + d) % (State.timeSpan : Int)).toNat ∧ t.tb.due = none ∧
    t.timeStatus = (if s.timeStatus = 0 then 1 else s.timeStatus) ∧
    t.ring.bridge = (if s.ringState = 0 then s.ring.bridge else s.ring.bridge + d)) ∧
  (∀ s : State, s.tb.due = none ∨ s.tb.realigned ≠ s.tb.uptime → exec .stepApplied s = .next s)

/-- R329 to R343: the event pins. Where a clause follows a choice of the model, the log names it: entries 102, 103,
104, 105, 106. -/
def Obligations.EventPinsStampCountAndPulse : Prop :=
  (∀ (s : State) (n : Fin 32) (b : Bool), s.operating = true → s.pinFunction n = 1 ∨ s.pinFunction n = 2 ∨ s.pinFunction n = 4 →
    b ≠ s.pinLevel n → (s.pin n).cand = none → ∃ t, exec (.evtInputChange n b) s = .next t ∧
      t.pin n = { s.pin n with cand := some (s.nowTicks, s.timeStatus, s.tb.uptime) } ∧
      t.pinLevel n = s.pinLevel n ∧ (∀ k, k ≠ n.val → t.pin k = s.pin k) ∧ s.sameBut [.regs, .evt] t) ∧
  (∀ (s : State) (n : Fin 32), s.operating = true → s.pinFunction n = 1 ∨ s.pinFunction n = 2 ∨ s.pinFunction n = 4 →
    ∃ t, exec (.evtInputChange n (s.pinLevel n)) s = .next t ∧ t.pin n = { s.pin n with cand := none } ∧ s.sameBut [.regs, .evt] t) ∧
  (∀ (s : State) (n : Fin 32) (b : Bool), s.operating = false ∨ (s.pinFunction n ≠ 1 ∧ s.pinFunction n ≠ 2 ∧ s.pinFunction n ≠ 4) →
    exec (.evtInputChange n b) s = .next s) ∧
  (∀ (s : State) (n : Fin 32) (t16 ts up : Nat), (s.pin n).cand = some (t16, ts, up) → up + s.pinFilter n ≤ s.tb.uptime →
    s.pinFunction n = 4 → ∃ u, exec (.evtEdgeAccept n) s = .next u.settleAll ∧ u.pinLevel n = !s.pinLevel n ∧
      u.pin n = { s.pin n with cand := none } ∧ s.sameBut [.regs, .evt] u) ∧
  (∀ (s : State) (n : Fin 32) (t16 ts up : Nat), (s.pin n).cand = some (t16, ts, up) → up + s.pinFilter n ≤ s.tb.uptime →
    s.pinFunction n = 1 → s.fld (Reg.EVT_PIN_CFG_POLARITY n) = 2 → (s.pin n).lastEdge = none → s.flag (Reg.EVT_PIN_CTRL_ARM n) = true →
    s.flag (Reg.EVT_PIN_CTRL_POST n) = false → ∃ u, exec (.evtEdgeAccept n) s = .next (u.dmaLine (32 + n)).settleAll ∧
      u.pinLevel n = !s.pinLevel n ∧ (u.pin n).lastEdge = some up ∧ (u.pin n).cand = none ∧
      u.fld (Reg.EVT_PIN_STATUS_SEQ n) = (s.fld (Reg.EVT_PIN_STATUS_SEQ n) + 1) % 2 ^ 8 ∧
      u.rdFull (Reg.EVT_PIN_LAST_LO n) = ((s.wrFull (Reg.EVT_PIN_LAST_LO n) (Full.ofTicks t16)).rdFull (Reg.EVT_PIN_LAST_LO n)) ∧
      u.cnt Cnt.EVT_CAPTURES = (s.cnt Cnt.EVT_CAPTURES + 1) % 2 ^ 64 ∧ s.sameBut [.regs, .cnts, .evt] u) ∧
  (∀ (s : State) (n : Fin 32) (t16 ts up : Nat), (s.pin n).cand = some (t16, ts, up) → up + s.pinFilter n ≤ s.tb.uptime →
    s.pinFunction n = 2 → s.fld (Reg.EVT_PIN_CFG_POLARITY n) = 2 → (s.pin n).lastEdge = none → s.flag (Reg.EVT_PIN_CTRL_ARM n) = true →
    s.fld (Reg.EVT_PIN_CTRL_SNAP_EVERY n) = 0 → ∃ u, exec (.evtEdgeAccept n) s = .next (u.dmaLine (32 + n)).settleAll ∧
      u.rd (Reg.EVT_PIN_COUNT n) = s.rd (Reg.EVT_PIN_COUNT n) + 1 ∧ s.sameBut [.regs, .evt] u) ∧
  (∀ (s : State) (n : Fin 32), (s.pin n).cand = none → exec (.evtEdgeAccept n) s = .next s.settleAll) ∧
  (∀ (s : State) (n : Fin 32) (c : EvtSched), (s.pin n).sched = some c → s.pinTarget n c ≤ s.nowTicks →
    (c.align = 2 → s.ring.c0.isSome = true) → s.pinFunction n = 3 →
    s.flag (Reg.EVT_PIN_CTRL_REQ_SYNC n) = false → (s.pin n).active = false → c.run = none → c.count = 0 →
    s.flag (Reg.EVT_PIN_CTRL_POST n) = false → ∃ u, exec (.evtTarget n) s = .next (u.dmaLine (32 + n)).settleAll ∧
      (u.pin n).active = true ∧ (u.pin n).pulseEnd = s.tb.uptime + (c.width + 1) / 2 * 2 ∧
      (u.pin n).sched = some { c with done := c.done + 1, j := c.j + State.pinStride c } ∧
      u.pinLevel n = Nat.beq (s.fld (Reg.EVT_PIN_CFG_POLARITY n)) 0 ∧
      u.cnt Cnt.EVT_PULSES = (s.cnt Cnt.EVT_PULSES + 1) % 2 ^ 64 ∧ s.sameBut [.regs, .cnts, .evt] u) ∧
  (∀ (s : State) (n : Fin 32) (c : EvtSched), (s.pin n).sched = some c → s.pinTarget n c ≤ s.nowTicks →
    (c.align = 2 → s.ring.c0.isSome = true) → s.pinFunction n = 2 →
    s.flag (Reg.EVT_PIN_CTRL_REQ_SYNC n) = false → (s.pin n).active = false → c.run = none → c.count = 0 →
    ∃ u, exec (.evtTarget n) s = .next u.settleAll ∧ (u.pin n).snaps = (s.pin n).snaps ++
        [((s.pinTarget n c).toNat, s.timeStatus, s.tb.uptime + s.fld (Reg.EVT_PIN_CFG_FILTER_NS n) + 100)] ∧
      s.sameBut [.regs, .evt] u) ∧
  (∀ (s : State) (n : Fin 32), (s.pin n).sched = none → exec (.evtTarget n) s = .next s.settleAll) ∧
  (∀ (s : State) (n : Fin 32), (s.pin n).active = true → (s.pin n).pulseEnd ≤ s.tb.uptime → ∃ t, exec (.evtPulseEnd n) s = .next t ∧
    t.pin n = { s.pin n with active := false } ∧ t.pinLevel n = !(Nat.beq (s.fld (Reg.EVT_PIN_CFG_POLARITY n)) 0) ∧
    s.sameBut [.regs, .evt] t) ∧
  (∀ (s : State) (n : Fin 32), s.tb.uptime < (s.pin n).pulseEnd → exec (.evtPulseEnd n) s = .next s) ∧
  (∀ (s : State) (n : Fin 32) (t16 ts due : Nat) (l : List (Nat × Nat × Nat)), (s.pin n).snaps = (t16, ts, due) :: l → due ≤ s.tb.uptime →
    s.flag (Reg.EVT_PIN_CTRL_POST n) = false → ∃ t, exec (.evtSnapshotForm n) s = .next t ∧ (t.pin n).snaps = l ∧
      (t.rd (Reg.EVT_PIN_LAST_COUNT n)).toNat =
        ((s.rd (Reg.EVT_PIN_COUNT n)).toNat + 2 ^ 32 - ((s.pin n).recent.filter fun x => Nat.blt t16 x).length) % 2 ^ 32 ∧
      t.cnt Cnt.EVT_SNAPSHOTS = (s.cnt Cnt.EVT_SNAPSHOTS + 1) % 2 ^ 64 ∧ s.sameBut [.regs, .cnts, .evt] t) ∧
  (∀ (s : State) (n : Fin 32) (v : BitVec 32), s.pinFunction n = 0 → (s.pin n).fifo.length < 64 → s.evtQueueOk = true →
    ∃ t, exec (.evtScheduleCommit n v) s = .next t ∧ t.fld (Reg.EVT_PIN_STATUS_ERROR n) = 1 ∧
      (t.pin n).fifo = (s.pin n).fifo ++ [(0x0806, n.val * 2 ^ 48 + 2 ^ 56)] ∧ (t.pin n).sched = (s.pin n).sched ∧
      t.rd (Reg.EVT_PIN_REPEAT n) = v ∧ s.sameBut [.regs, .stage, .evt] t) ∧
  (∀ (s : State) (n : Fin 32) (v : BitVec 32), s.pinFunction n = 2 → s.fld (Reg.EVT_PIN_CFG_ALIGN n) = 1 →
    (s.pinGate n).2 = 1000000 * 65536 → (s.staged (Reg.EVT_PIN_START n)).toNat < 1000000 →
    (v.toNat / 2 ^ 16) % 2 ^ 16 = 1 → (s.pin n).sched = none →
    ∃ t, exec (.evtScheduleCommit n v) s = .next t ∧ t.rd (Reg.EVT_PIN_REPEAT n) = v ∧
      t.rd (Reg.EVT_PIN_START n) = s.staged (Reg.EVT_PIN_START n) ∧ s.sameBut [.regs, .stage, .evt] t ∧
      (s.flag (Reg.EVT_PIN_CTRL_ARM n) = false → (t.pin n).sched = none) ∧
      (s.flag (Reg.EVT_PIN_CTRL_ARM n) = true → ∃ c, (t.pin n).sched = some c ∧ c.align = 1 ∧ c.every = 1 ∧ c.done = 0 ∧
        c.start = (s.staged (Reg.EVT_PIN_START n)).toNat ∧ c.count = v.toNat % 2 ^ 16 ∧
        (s.nowTicks : Int) + (s.fld Reg.TB_SETUP_MARGIN_MARGIN_NS * 65536 : Nat) ≤ s.pinTarget n c)) ∧
  (∀ (s : State) (n : Fin 32), ∃ t, exec (.clear n) s = .next t ∧ t.rd (Reg.EVT_PIN_COUNT n) = 0 ∧
    t.pin n = { s.pin n with recent := [] } ∧ s.sameBut [.regs, .evt] t) ∧
  (∀ (s : State) (n : Fin 32), ∃ t, exec (.evtArmWrite n true) s = .next t ∧ t.flag (Reg.EVT_PIN_CTRL_ARM n) = true ∧
    t.flag (Reg.EVT_PIN_CTRL_POST n) = s.flag (Reg.EVT_PIN_CTRL_POST n) ∧
    t.fld (Reg.EVT_PIN_CTRL_SNAP_EVERY n) = s.fld (Reg.EVT_PIN_CTRL_SNAP_EVERY n) ∧ s.sameBut [.regs] t) ∧
  (∀ (s : State) (n : Fin 32) (c : EvtSched), (s.pin n).sched = some c → c.run = none → ∃ t, exec (.evtArmWrite n false) s = .next t ∧
    t.flag (Reg.EVT_PIN_CTRL_ARM n) = false ∧ t.pin n = { s.pin n with sched := none } ∧ s.sameBut [.regs, .evt] t) ∧
  (∀ (s : State) (v : BitVec 32), ∃ t, exec (.evtLevelOutWrite v) s = .next t ∧ t.rd Reg.EVT_LEVEL_OUT = v ∧
    (∀ n : Fin 32, t.pinLevel n = if s.pinFunction n = 5 then v.getLsbD n else s.pinLevel n) ∧
    s.regsBut [Reg.EVT_LEVEL_OUT, Reg.EVT_LEVEL_IN] t ∧ s.sameBut [.regs] t) ∧
  (∀ (s : State) (n : Fin 32) (code data : Nat) (l : List (Nat × Nat)), (s.pin n).fifo = (code, data) :: l → s.evtQueueOk = true →
    (s.q (s.fld Reg.EVT_CTRL_EQ)).events.length < 16 → ∃ u, exec (.evtRecordDeliver n) s =
        .next (u.eventTo (s.fld Reg.EVT_CTRL_EQ) code data) ∧ u.pin n = { s.pin n with fifo := l } ∧ s.sameBut [.regs, .evt] u) ∧
  (∀ (s : State) (n : Fin 32), (s.pin n).fifo = [] ∨ s.evtQueueOk = false → exec (.evtRecordDeliver n) s = .next s)

/-- R349, R352, R353: each ALU operation gives its result, which waits for the end of the word, and ALU0 sets the
flags where the word asks for them; C and V of those flags are free values, and so is the step function of CRC32.
Where a clause follows a choice of the model, the log names it: entries 119, 120, 121. -/
def Obligations.AluOperationsGiveTheirResults : Prop :=
  ∀ (s : State) (e : Fin 160) (k : Fin 2) (w : Nat) (a b : BitVec 64), s.UnitReady e k w →
    (s.eng e).opA w k = a → (s.eng e).opB w k = b →
  (∀ p ∈ [(Instr.add e k, 0x01, a + b), (.sub e k, 0x02, a - b), (.and e k, 0x03, a &&& b), (.or e k, 0x04, a ||| b),
      (.xor e k, 0x05, a ^^^ b), (.shl e k, 0x06, a <<< (b.toNat % 64)), (.shr e k, 0x07, a >>> (b.toNat % 64)),
      (.sar e k, 0x08, a.sshiftRight (b.toNat % 64)), (.rol e k, 0x09, a.rotateLeft (b.toNat % 64)), (.mov e k, 0x0A, a),
      (.min e k, 0x0D, if a.toInt ≤ b.toInt then a else b), (.max e k, 0x0E, if a.toInt ≤ b.toInt then b else a),
      (.add16 e k, 0x0F, (a + b) &&& 0xFFFF#64), (.sub16s e k, 0x10, ((a - b).setWidth 16).signExtend 64),
      (.sub32s e k, 0x11, ((a - b).setWidth 32).signExtend 64), (.mul e k, 0x12, a * b),
      (.mulhi e k, 0x13, BitVec.ofNat 64 (a.toNat * b.toNat / 2 ^ 64)),
      (.bswap e k, 0x14, (a.extractLsb' 0 8 ++ a.extractLsb' 8 8 ++ a.extractLsb' 16 8 ++ a.extractLsb' 24 8 ++
        a.extractLsb' 32 8 ++ a.extractLsb' 40 8 ++ a.extractLsb' 48 8 ++ a.extractLsb' 56 8)),
      (.popcnt e k, 0x15, BitVec.ofNat 64 ((List.range 64).countP fun i => a.getLsbD i)),
      (.clz e k, 0x16, BitVec.ofNat 64 (if a = 0 then 64 else 63 - Nat.log2 a.toNat)),
      (.crc32 e k, 0x17, Config.crc32Step a (b.setWidth 8))],
    Mw.aluOp w k = p.2.1 → ∃ t, exec p.1 s = .next t ∧
      s.EngineBecomes e { s.unitRan e k with
        results := (s.eng e).results ++ [(k.val, Mw.aluDst w k, p.2.2)]
        flags := if k = 0 ∧ Mw.setf w = true then some (aluFlags p.2.2 s.freeVal) else (s.eng e).flags } t ∧
      t.free = s.free + (if k = 0 ∧ Mw.setf w = true then 1 else 0) ∧ s.sameBut [.free, .engines] t) ∧
  (Mw.aluOp w k = 0x0C → ∃ t, exec (.cmp e k) s = .next t ∧
    s.EngineBecomes e { s.unitRan e k with
      flags := if k = 0 ∧ Mw.setf w = true then some (aluFlags (a - b) s.freeVal) else (s.eng e).flags } t ∧
    s.sameBut [.free, .engines] t) ∧
  (Mw.aluOp w k = 0x0B → k = 0 → ∃ t, exec (.ldi64 e) s = .next t ∧
    s.EngineBecomes e { s.unitRan e 0 with
      results := (s.eng e).results ++ [(0, Mw.aluDst w 0, BitVec.ofNat 64 (Mw.imm w))]
      flags := if Mw.setf w = true then some (aluFlags (BitVec.ofNat 64 (Mw.imm w)) s.freeVal) else (s.eng e).flags } t ∧
    s.sameBut [.free, .engines] t) ∧
  exec (.nop e k) s = .next s ∧ (Mw.aluOp w k ≠ 0x01 → exec (.add e k) s = .next s)

/-- R349, R354, R355, R363, R364, R370, R372: the field unit and the memory unit of an engine. Where a clause
follows a choice of the model, the log names it: entries 119, 122, 125, 127. -/
def Obligations.FieldAndMemoryUnitsReadAndStage : Prop :=
  (∀ (s : State) (e : Fin 160) (w : Nat), s.UnitReady e 2 w → Mw.fop w = 1 → State.fieldFault w = false →
    ∃ t, exec (.extract e) s = .next t ∧ s.EngineBecomes e { s.unitRan e 2 with
      results := (s.eng e).results ++ [(2, Mw.freg w, BitVec.ofNat 64 (bits (beNat (s.viewBytes (s.view e 0) (Mw.fbyte w) 8))
        (64 - Mw.fbit w - (Mw.fwidth w + 1)) (Mw.fwidth w + 1)))] } t ∧ s.sameBut [.free, .engines] t) ∧
  (∀ (s : State) (e : Fin 160) (w : Nat), s.UnitReady e 2 w → Mw.fop w = 2 → State.fieldFault w = false →
    256 ≤ 8 * Mw.fbyte w + Mw.fbit w → (s.eng e).memShadow.length < 64 →
    ∃ t, exec (.fieldInsert e) s = .next t ∧ s.EngineBecomes e ((s.unitRan e 2).setShadow ((s.eng e).memShadow ++
      [{ op := 6, space := 0, addr := 8 * Mw.fbyte w + Mw.fbit w, size := Mw.fwidth w + 1
         data := ((s.eng e).x (Mw.freg w)).toNat }]) (s.eng e).hubShadow) t ∧ s.sameBut [.engines] t) ∧
  (∀ (s : State) (e : Fin 160) (w : Nat), s.UnitReady e 3 w → Mw.mop w = 1 → (s.eng e).memFault w = none →
    ∃ t, exec (.load e) s = .next t ∧ s.EngineBecomes e { s.unitRan e 3 with
      results := (s.eng e).results ++ [(3, Mw.data w,
        BitVec.ofNat 64 (leNat (s.viewBytes (s.view e (Mw.space w)) ((s.eng e).memAddr w) (Mw.size w))))] } t ∧
      s.sameBut [.free, .engines] t) ∧
  (∀ (s : State) (e : Fin 160) (w : Nat), s.UnitReady e 3 w → (s.eng e).memFault w = none → Mw.space w < 3 →
    (s.eng e).memShadow.length < 64 →
    ∀ p ∈ [(Instr.store e, 2, ((s.eng e).x (Mw.data w)).toNat), (.addm e, 3, ((s.eng e).x (Mw.data w)).toNat),
        (.bitset e, 4, s.freeVal.toNat % (8 * Mw.size w)), (.bitclr e, 5, s.freeVal.toNat % (8 * Mw.size w))],
      Mw.mop w = p.2.1 → ∃ t, exec p.1 s = .next t ∧ s.EngineBecomes e ((s.unitRan e 3).setShadow ((s.eng e).memShadow ++
        [{ op := p.2.1, space := Mw.space w, addr := (s.eng e).memAddr w, size := Mw.size w, data := p.2.2 }])
        (s.eng e).hubShadow) t ∧ s.sameBut [.free, .engines] t) ∧
  (∀ (s : State) (e : Fin 160) (w : Nat), s.UnitReady e 3 w → Mw.mop w = 2 → (s.eng e).memFault w = none → Mw.space w = 3 →
    ∃ t, exec (.store e) s = .next t ∧ (t.eng e).memShadow = (s.eng e).memShadow ∧
      (∀ i, i < Mw.size w → t.view e 3 ((s.eng e).memAddr w + i) =
        some (BitVec.ofNat 8 (((s.eng e).x (Mw.data w)).toNat / 2 ^ (8 * i)))) ∧
      (∀ k, k < (s.eng e).memAddr w ∨ (s.eng e).memAddr w + Mw.size w ≤ k → t.view e 3 k = s.view e 3 k) ∧
      s.sameBut [.free, .engines] t) ∧
  (∀ (s : State) (e : Fin 160) (w c : Nat), s.UnitReady e 3 w → (s.eng e).memFault w = some c →
    ∀ p ∈ [(Instr.load e, 1), (.store e, 2), (.addm e, 3), (.bitset e, 4), (.bitclr e, 5)], Mw.mop w = p.2 →
      exec p.1 s = .next ((s.setEng e (s.unitRan e 3)).abort e c)) ∧
  (∀ (s : State) (e : Fin 160) (w : Nat), s.UnitReady e 3 w → (s.eng e).memFault w = none → Mw.space w < 3 → Mw.mop w = 2 →
    64 ≤ (s.eng e).memShadow.length → exec (.store e) s = .next (((s.setEng e (s.unitRan e 3)).draw).abort e 2)) ∧
  (∀ (s : State) (e : Fin 160) (w : Nat), s.engRuns e = true → s.mustStop e = false → s.fetchWord e (s.eng e).pc = some w →
    Mw.valid w = false → exec (.load e) s = .next (s.abort e 6)) ∧
  (∀ (s : State) (e : Fin 160), s.engRuns e = true → s.mustStop e = false → s.fetchWord e (s.eng e).pc = none →
    exec (.load e) s = .next (s.abort e 8))

/-- R356, R363, R364, R367, R370: the hub unit stages its operations with their arguments, and a read gives a reply
whose value is free. Where a clause follows a choice of the model, the log names it: entries 123, 131, 132, 133,
134, 212. -/
def Obligations.HubOperationsAreStagedOrAnswered : Prop :=
  (∀ (s : State) (e : Fin 160) (w : Nat), s.UnitReady e 4 w → (s.eng e).hubShadow.length < 16 →
    ∀ p ∈ [(Instr.emitRxq e, 0x01), (.emitPort e, 0x02), (.emitRec e, 0x03), (.emitPair e, 0x04), (.drop e, 0x05), (.complete e, 0x06),
        (.event e, 0x07), (.cmdReply e, 0x0D)],
      Mw.hop w = p.2 → ∃ t, exec p.1 s = .next t ∧ s.EngineBecomes e ((s.unitRan e 4).setShadow (s.eng e).memShadow
        ((s.eng e).hubShadow ++ [{ code := p.2, args := (List.range (Mw.hcnt w + 1)).map fun k =>
          ((s.eng e).x ((Mw.harg w + k) % 32)).toNat }])) t ∧ s.sameBut [.free, .engines] t) ∧
  (∀ (s : State) (e : Fin 160) (w : Nat), s.UnitReady e 4 w → (s.eng e).hubShadow.length < 16 → s.engPriv e = true →
    ∀ p ∈ [(Instr.foreEdge e, 0x0E), (.timeAdj e, 0x0F)],
      Mw.hop w = p.2 → ∃ t, exec p.1 s = .next t ∧ s.EngineBecomes e ((s.unitRan e 4).setShadow (s.eng e).memShadow
        ((s.eng e).hubShadow ++ [{ code := p.2, args := (List.range (Mw.hcnt w + 1)).map fun k =>
          ((s.eng e).x ((Mw.harg w + k) % 32)).toNat }])) t ∧ s.sameBut [.free, .engines] t) ∧
  (∀ (s : State) (e : Fin 160) (w : Nat), s.UnitReady e 4 w → (s.eng e).hubShadow.length < 16 →
    ∀ p ∈ [(Instr.dramWrite e, 0x0A), (.frameWrite e, 0x0C)],
      Mw.hop w = p.2 → ∃ t b, exec p.1 s = .next t ∧ b.length = 64 ∧ s.EngineBecomes e ((s.unitRan e 4).setShadow (s.eng e).memShadow
        ((s.eng e).hubShadow ++ [{ code := p.2, bytes := b, args := (List.range (Mw.hcnt w + 1)).map fun k =>
          ((s.eng e).x ((Mw.harg w + k) % 32)).toNat }])) t ∧ s.sameBut [.free, .engines] t) ∧
  (∀ (s : State) (e : Fin 160) (w : Nat), s.UnitReady e 4 w → Mw.hop w = 0x08 →
    (s.mayAsk e = false → exec (.readHub e) s = .next s) ∧
    (s.mayAsk e = true → ∃ t, exec (.readHub e) s = .next t ∧
    s.EngineBecomes e { s.unitRan e 4 with
      results := (s.eng e).results ++ [(4, Mw.hres w, s.freeVal)], reply := some (decide (s.freeAt 1 % 2 = 1)) } t ∧
    t.spine = (s.readCrosses e).spine ∧ s.sameBut [.free, .spine, .engines] t)) ∧
  (∀ (s : State) (e : Fin 160) (w : Nat), s.UnitReady e 4 w → ∀ p ∈ [(Instr.dramRead e, 0x09), (.frameRead e, 0x0B)],
    Mw.hop w = p.2 → (s.mayAsk e = false → exec p.1 s = .next s) ∧ (s.mayAsk e = true → ∃ t, exec p.1 s = .next t ∧
      s.EngineBecomes e { s.unitRan e 4 with
        results := (s.eng e).results ++ [(4, Mw.hres w, s.freeVal)], reply := some (decide (s.freeAt 1 % 2 = 1)), loc := [] } t ∧
      t.spine = (s.readCrosses e).spine ∧ s.sameBut [.free, .spine, .engines] t)) ∧
  (∀ (s : State) (e : Fin 160) (w : Nat), s.UnitReady e 4 w → s.engPriv e = false → Mw.hop w = 0x0F →
    exec (.timeAdj e) s = .next ((s.setEng e (s.unitRan e 4)).abort e 3)) ∧
  (∀ (s : State) (e : Fin 160) (w : Nat), s.UnitReady e 4 w → 16 ≤ (s.eng e).hubShadow.length → Mw.hop w = 0x05 →
    exec (.drop e) s = .next ((s.setEng e (s.unitRan e 4)).abort e 2))

/-- R349, R351, R352, R362, R363, R365 to R369, R371, R372, R374, R377: the sequencer, commit, safe points, bounds,
interrupts and the sparing of an engine. Where a clause follows a choice of the model, the log names it: entries
118, 119, 124, 126, 128, 129, 189. -/
def Obligations.WordsEndAndEnginesAreSequenced : Prop :=
  (∀ (s : State) (e : Fin 160) (w : Nat), s.WordRan e w → Mw.next w = 0 → ∃ t, exec (.seq e) s = .next t ∧
    (t.eng e).pc = ((s.eng e).pc + 1) % 2 ^ 15 ∧ (t.eng e).ran = 0 ∧ (t.eng e).results = [] ∧
    (∀ k, (t.eng e).x k = (s.eng e).applyResults.x k) ∧ (t.eng e).safe = Mw.safe w ∧
    ((t.eng e).z, (t.eng e).n, (t.eng e).c, (t.eng e).v) =
      (s.eng e).flags.getD ((s.eng e).z, (s.eng e).n, (s.eng e).c, (s.eng e).v) ∧
    (t.eng e).words = (s.eng e).words + (if (s.eng e).handler then 0 else 1) ∧ s.sameBut [.engines] t) ∧
  (∀ (s : State) (e : Fin 160) (w : Nat), s.WordRan e w → Mw.next w = 1 → ∃ t, exec (.br e) s = .next t ∧
    ((s.eng e).condHolds w = false → (t.eng e).pc = ((s.eng e).pc + 1) % 2 ^ 15 ∧ s.sameBut [.engines] t) ∧
    ((s.eng e).condHolds w = true → s.branchAllowed e (Mw.target w) = true →
      (t.eng e).pc = Mw.target w ∧ (t.eng e).stack = (s.eng e).stack ∧ s.sameBut [.engines] t) ∧
    ((s.eng e).condHolds w = true → s.branchAllowed e (Mw.target w) = false → t = s.abort e 4)) ∧
  (∀ (s : State) (e : Fin 160) (w : Nat), s.WordRan e w → Mw.next w = 2 → (s.eng e).condHolds w = true →
    s.branchAllowed e (Mw.target w) = true → ∃ t, exec (.call e) s = .next t ∧
      ((s.eng e).stack.length < 8 → (t.eng e).pc = Mw.target w ∧
        (t.eng e).stack = ((s.eng e).pc + 1) % 2 ^ 15 :: (s.eng e).stack ∧ s.sameBut [.engines] t) ∧
      (8 ≤ (s.eng e).stack.length → t = s.abort e 5)) ∧
  (∀ (s : State) (e : Fin 160) (w a : Nat) (l : List Nat), s.WordRan e w → Mw.next w = 3 → (s.eng e).handler = false →
    (s.eng e).stack = a :: l → ∃ t, exec (.ret e) s = .next t ∧ (t.eng e).pc = a % 2 ^ 15 ∧ (t.eng e).stack = l ∧
      s.sameBut [.engines] t) ∧
  (∀ (s : State) (e : Fin 160) (w : Nat), s.WordRan e w → Mw.next w = 3 → (s.eng e).handler = false → (s.eng e).stack = [] →
    exec (.ret e) s = .next (s.abort e 5)) ∧
  (∀ (s : State) (e : Fin 160) (w : Nat), s.WordRan e w → Mw.next w = 4 → s.folioQueue (folioOf e) = [] → s.flows.deletes = [] →
    (s.eng e).handler = false → (s.mayRespond e 1 = false → exec (.dispatch e) s = .next s) ∧
    (s.mayRespond e 1 = true → ∃ t, exec (.dispatch e) s = .next t ∧ (t.eng e).item = none ∧ (t.eng e).shadow = [] ∧
      (t.eng e).safe = true ∧ t.engState e = 0 ∧
      (∀ it, (s.eng e).item = some it → (t.frame it.frame).copies = (s.frame it.frame).copies - 1 ∧
        (it.owed = false → t.flows = s.flows)) ∧ t.spine = (s.respondHub e 1).spine ∧
      s.sameBut [.regs, .spine, .frames, .flows, .engines] t)) ∧
  (∀ (s : State) (e : Fin 160) (w : Nat), s.WordRan e w → Mw.next w = 5 → ∃ t, exec (.wait e) s = .next t ∧
    (Engine.condHolds { s.eng e with gate := false } w = true → (t.eng e).pc = ((s.eng e).pc + 1) % 2 ^ 15 ∧
      (t.eng e).waiting = none ∧ s.sameBut [.engines] t) ∧
    (Engine.condHolds { s.eng e with gate := false } w = false → (t.eng e).pc = (s.eng e).pc % 2 ^ 15 ∧
      (t.eng e).waiting = some (Mw.cond w) ∧ t.engState e = 2 ∧ s.sameBut [.regs, .engines] t)) ∧
  (∀ (s : State) (e : Fin 160) (w : Nat), s.WordRan e w → (Mw.units w).testBit 5 = false → (Mw.units w).testBit 6 = false →
    exec (.commit e) s = .next s ∧ exec (.prog e) s = .next s) ∧
  (∀ (s : State) (e : Fin 160) (w : Nat), s.UnitReady e 5 w → State.unitsRan (s.eng e) w = true → (s.eng e).memShadow = [] →
    (s.eng e).hubShadow = [] → (s.mayCommit e = false → exec (.commit e) s = .next s) ∧
    (s.mayCommit e = true → ∃ t, exec (.commit e) s = .next t ∧ s.EngineBecomes e ((s.unitRan e 5).setShadow [] []) t ∧
      t.spine = ((s.spineCross (spineKey (dieOf (quireOf (folioOf e))) 0 1) 0).respondHub e 1).spine ∧
      s.sameBut [.spine, .engines] t)) ∧
  (∀ (s : State) (e : Fin 160) (w : Nat) (it : WorkItem), s.UnitReady e 5 w → State.unitsRan (s.eng e) w = true → (s.eng e).memShadow = [] →
    (s.eng e).hubShadow = [⟨0x06, [], []⟩] → s.hubBlocked e = false → (s.eng e).item = some it → it.entry = none →
    s.mayCommit e = true → ∃ t, exec (.commit e) s = .next t ∧ s.EngineBecomes e ((s.unitRan e 5).setShadow [] []) t ∧
      t.spine = ((s.spineCross (spineKey (dieOf (quireOf (folioOf e))) 0 1) 0).respondHub e 2).spine ∧
      s.sameBut [.spine, .engines] t) ∧
  (∀ (s : State) (e : Fin 160) (w : Nat) (it : WorkItem), s.UnitReady e 6 w → State.unitsRan (s.eng e) w = true → (s.eng e).memShadow = [] →
    (s.eng e).hubShadow = [] → (s.eng e).item = some it → s.mayCommit e = true →
    ∃ t, exec (.prog e) s = .next t ∧
      (t.eng e).item = some { it with progress := ((s.eng e).applyResults.x 29).toNat % 2 ^ 32 } ∧
      (t.eng e).ran = (s.eng e).ran ||| 1#8 <<< 6 ∧
      t.spine = ((s.spineCross (spineKey (dieOf (quireOf (folioOf e))) 0 1) 0).respondHub e 1).spine ∧
      s.sameBut [.spine, .engines] t) ∧
  (∀ (s : State) (e : Fin 160), s.operating = true → s.engActive e = true → s.engState e ≠ 5 → (s.eng e).ran = 0 → (s.eng e).migrate = true →
    (s.eng e).safe = true → ∃ t, exec (.safePoint e) s = .next t ∧ t.regs = (s.setEngState e 5).regs ∧ s.sameBut [.regs] t) ∧
  (∀ (s : State) (e : Fin 160) (op v : Nat), s.operating = true → s.engActive e = true → s.engState e ≠ 5 → (s.eng e).ran = 0 → (s.eng e).migrate = false →
    (s.eng e).safe = true → (s.eng e).handler = false → lowestBit 16 (s.eng e).ints.toNat = some op →
    v = s.dispatchEntry (folioOf e) op → entryValid v = true → entryHandler v = true → (s.eng e).item.isSome = true →
    ∃ t, exec (.safePoint e) s = .next t ∧ (t.eng e).handler = true ∧ (t.eng e).pc = entryAddr v ∧ (t.eng e).hret = (s.eng e).pc ∧
      (t.eng e).ints = (s.eng e).ints &&& ~~~(1#16 <<< op) ∧ t.engState e = 1 ∧
      t.cnt Cnt.ENG_HANDLERS = (s.cnt Cnt.ENG_HANDLERS + 1) % 2 ^ 64 ∧ s.sameBut [.regs, .cnts, .engines] t) ∧
  (∀ (s : State) (e : Fin 160), s.engRuns e = true → s.mustStop e = false → State.atBound (s.eng e) = true →
    (s.eng e).waiting = none → exec (.boundExceeded e) s = .next (s.abort e 1)) ∧
  (∀ (s : State) (e : Fin 160), State.atBound (s.eng e) = false → exec (.boundExceeded e) s = .next s) ∧
  (∀ (s : State) (e : Fin 160), ((s.eng e).timer = none ∨ s.operating = false ∨ s.engActive e = false →
      exec (.roleTimerExpire e) s = .next s) ∧
    (∀ v, (s.eng e).timer = some v →
      (s.tb.uptime < v → exec (.roleTimerExpire e) s = .next s) ∧
      (s.operating = true → s.engActive e = true → v ≤ s.tb.uptime → ∃ t, exec (.roleTimerExpire e) s = .next t ∧
        s.EngineBecomes e { s.eng e with timer := none, ints := (s.eng e).ints ||| 8#16 } t ∧ s.sameBut [.engines] t))) ∧
  (∀ (s : State) (e : BitVec 8), s.spareRefusal e.toNat = 0 → ∃ t, exec (.engineSpareGo e) s = .next t ∧
    t.flag Reg.ENG_SPARE_STATUS_BUSY = true ∧ t.fld Reg.ENG_SPARE_STATUS_ENGINE = e.toNat ∧ t.fld Reg.ENG_SPARE_STATUS_REFUSAL = 0 ∧
    s.EngineBecomes e.toNat { s.eng e.toNat with migrate := true } t ∧
    t.engState e.toNat = (if s.engIdle e.toNat = true then 5 else s.engState e.toNat) ∧ s.sameBut [.regs, .engines] t) ∧
  (∀ (s : State) (e : BitVec 8) (r : Nat), s.spareRefusal e.toNat = r → r ≠ 0 → ∃ t, exec (.engineSpareGo e) s = .next t ∧
    t.fld Reg.ENG_SPARE_STATUS_REFUSAL = r ∧ t.posted = s.posted ++ [⟨0x1A05, e.toNat⟩] ∧ s.sameBut [.regs, .posted] t) ∧
  (∀ (s : State) (e : Fin 160) (it : WorkItem), s.operating = true → s.engState e = 5 → s.spareFree (folioOf e) = true → (s.eng e).item = some it →
    (s.eng e).handler = false → (s.eng e).parked = none → ∃ t, exec (.migrationDone e) s = .next t ∧
      t.eng (s.spareOf (folioOf e)) = { s.eng e with migrate := false } ∧ t.eng e = {} ∧ t.engState e = 4 ∧
      t.engState (s.spareOf (folioOf e)) = 1 ∧ t.engRole (s.spareOf (folioOf e)) = s.engRole e ∧
      t.fld (Reg.ENG_ROLE_SLOT e) = 7 ∧ t.flag Reg.ENG_SPARE_STATUS_BUSY = false ∧
      t.mode = (if s.mode = 2 then 3 else s.mode) ∧
      t.units = { s.units with
        engOut := s.units.engOut ||| 1#160 <<< e.val, spareUsed := s.units.spareUsed ||| 1#32 <<< folioOf e } ∧
      t.cnt Cnt.ENG_MIGRATIONS_PLANNED = (s.cnt Cnt.ENG_MIGRATIONS_PLANNED + 1) % 2 ^ 64)

/-- R420 to R428, R431, R435 to R437: the instructions of a DMA channel, and how they fail. Where a clause follows a
choice of the model, the log names it: entries 136, 137, 138, 139, 141. -/
def Obligations.DmaProgramsRunTheirInstructions : Prop :=
  (∀ (s : State) (ch : Fin 32) (f : DmaFetch) (w : Nat) (l : List (BitVec 128)) (r : ReadEnd), s.DmaAt ch f w → ∀ p ∈ [(Instr.dmaMove ch f, 1),
    (.dmaGather ch f l r, 2), (.dmaScatter ch f l r, 3), (.dmaLoop ch f, 4), (.dmaWaitRequest ch f, 5), (.dmaWaitTime ch f, 5),
    (.dmaWaitFlag ch f, 5), (.dmaSignalCompletion ch f, 6), (.dmaSignalFlag ch f, 6), (.dmaFence ch f, 7), (.dmaHalt ch f, 8)],
    dmaOp w ≠ p.2 → exec p.1 s = .next s) ∧
  (∀ (s : State) (ch : Fin 32) (f : DmaFetch) (l : List (BitVec 128)) (r : ReadEnd), (s.chan ch).held = false → ∀ i ∈ [Instr.dmaMove ch f,
    .dmaGather ch f l r, .dmaScatter ch f l r, .dmaLoop ch f, .dmaWaitRequest ch f, .dmaWaitTime ch f, .dmaWaitFlag ch f,
    .dmaSignalCompletion ch f, .dmaFence ch f, .dmaHalt ch f],
    (s.dmaReady ch = false → exec i s = .next s) ∧
    (s.dmaReady ch = true → 65535 < (s.chan ch).next → ∃ t, exec i s = .next t ∧ s.DmaHalted ch 8 5 t) ∧
    (s.dmaReady ch = true → (s.chan ch).next ≤ 65535 → (s.dmaWord ch f).2 = .refused →
      ∃ t, exec i s = .next t ∧ s.DmaHalted ch 7 3 t) ∧
    (s.dmaReady ch = true → (s.chan ch).next ≤ 65535 → (s.dmaWord ch f).2 = .poisoned →
      ∃ t, exec i s = .next t ∧ s.DmaHalted ch 7 4 t) ∧
    (s.dmaReady ch = true → (s.chan ch).next ≤ 65535 → (s.dmaWord ch f).2 = .good →
      dmaWordOk (s.dmaWord ch f).1 (s.chan ch).next = false → ∃ t, exec i s = .next t ∧ s.DmaHalted ch 8 5 t)) ∧
  (∀ (s : State) (ch : Fin 32) (f : DmaFetch) (w : Nat), s.DmaAt ch f w → dmaOp w = 1 → ∃ t u, exec (.dmaMove ch f) s = .next t ∧
    t = u.advanceChan ch ∧ s.DmaBecomes ch { s.dmaNow ch w f with
      src := [⟨w.testBit 8, dmaOffset w 22 (s.chan ch).offA (dmaQ w 1), dmaLen w⟩]
      dst := [⟨w.testBit 9, dmaOffset w 23 (s.chan ch).offB (dmaQ w 2), dmaLen w⟩], rest := dmaLen w } [] u ∧
    u.fld (Reg.DMA_CH_PC_INDEX ch) = (s.chan ch).next ∧ s.sameBut [.regs, .dma] u) ∧
  (∀ (s : State) (ch : Fin 32) (f : DmaFetch) (w a b : Nat), s.DmaAt ch f w → dmaOp w = 1 → dmaPaced w = false →
    w.testBit 8 = true → w.testBit 9 = true → a = dmaOffset w 22 (s.chan ch).offA (dmaQ w 1) →
    b = dmaOffset w 23 (s.chan ch).offB (dmaQ w 2) → s.reservedChan ch = false → s.segAllowed ⟨true, a, dmaLen w⟩ = true →
    s.segAllowed ⟨true, b, dmaLen w⟩ = true → dmaLen w ≤ s.fld (Reg.DMA_CH_CFG_BURST ch) → (s.dramRead a (dmaLen w)).2 = false →
    ∃ t, exec (.dmaMove ch f) s = .next t ∧ (∀ k, k < dmaLen w → t.dramByte (b + k) = s.dramByte (a + k)) ∧
      (∀ k, k < b ∨ b + dmaLen w ≤ k → t.dramByte k = s.dramByte k) ∧
      s.DmaBecomes ch { s.dmaNow ch w f with src := [], dst := [], rest := 0, nextBurst := (s.chan ch).nextBurst + 1 } [] t ∧
      t.cnt Cnt.DMA_BURSTS = (s.cnt Cnt.DMA_BURSTS + 1) % 2 ^ 64 ∧ s.sameBut [.regs, .cnts, .dram, .poison, .dma] t) ∧
  (∀ (s : State) (ch : Fin 32) (f : DmaFetch) (w : Nat) (l : List (BitVec 128)) (segs : List Seg), s.DmaAt ch f w → w.testBit 18 = false →
    (l.take (dmaLen w)).all dmaEntryOk = true →
    (dmaOp w = 2 → segs = (l.take (dmaLen w)).map (fun e => ⟨w.testBit 8, dmaOffset w 22 (s.chan ch).offA (bits e.toNat 0 64), bits e.toNat 64 32⟩) →
      ∃ t u, exec (.dmaGather ch f l .good) s = .next t ∧ t = u.advanceChan ch ∧ s.DmaBecomes ch { s.dmaNow ch w f with
        src := segs, dst := [⟨w.testBit 9, dmaOffset w 23 (s.chan ch).offB (dmaQ w 2), (segs.map (·.len)).foldl (· + ·) 0⟩]
        rest := (segs.map (·.len)).foldl (· + ·) 0 } [] u ∧ s.sameBut [.regs, .dma] u) ∧
    (dmaOp w = 3 → segs = (l.take (dmaLen w)).map (fun e => ⟨w.testBit 9, dmaOffset w 23 (s.chan ch).offB (bits e.toNat 0 64), bits e.toNat 64 32⟩) →
      ∃ t u, exec (.dmaScatter ch f l .good) s = .next t ∧ t = u.advanceChan ch ∧ s.DmaBecomes ch { s.dmaNow ch w f with
        src := [⟨w.testBit 8, dmaOffset w 22 (s.chan ch).offA (dmaQ w 1), (segs.map (·.len)).foldl (· + ·) 0⟩], dst := segs
        rest := (segs.map (·.len)).foldl (· + ·) 0 } [] u ∧ s.sameBut [.regs, .dma] u)) ∧
  (∀ (s : State) (ch : Fin 32) (f : DmaFetch) (w : Nat) (l : List (BitVec 128)), s.DmaAt ch f w → w.testBit 18 = false →
    ∀ p ∈ [(2, Instr.dmaGather ch f l .refused, 7, 3), (3, .dmaScatter ch f l .refused, 7, 3), (2, .dmaGather ch f l .poisoned, 7, 4),
      (3, .dmaScatter ch f l .poisoned, 7, 4)],
    dmaOp w = p.1 → ∃ t u, exec p.2.1 s = .next t ∧ s.DmaBecomes ch (s.dmaNow ch w f) [] u ∧ s.sameBut [.regs, .dma] u ∧
      u.DmaHalted ch p.2.2.1 p.2.2.2 t) ∧
  (∀ (s : State) (ch : Fin 32) (f : DmaFetch) (w n : Nat), s.DmaAt ch f w → dmaOp w = 4 →
    n = (if Table.get (fun _ => 0) (s.chan ch).ctr (bits w 20 2) = 0 then dmaLen w
      else Table.get (fun _ => 0) (s.chan ch).ctr (bits w 20 2)) - 1 → ∃ t, exec (.dmaLoop ch f) s = .next t ∧
      (n = 0 → s.DmaBecomes ch { s.dmaNow ch w f with ctr := Table.set (fun _ => 0) (s.chan ch).ctr (bits w 20 2) n } [] t) ∧
      (n ≠ 0 → s.DmaBecomes ch { s.dmaNow ch w f with
        ctr := Table.set (fun _ => 0) (s.chan ch).ctr (bits w 20 2) n, next := dmaQ w 1
        offA := ((s.chan ch).offA + dmaQ w 2) % 2 ^ 64, offB := ((s.chan ch).offB + dmaQ w 3) % 2 ^ 64 } [] t) ∧
      s.sameBut [.regs, .dma] t) ∧
  (∀ (s : State) (ch : Fin 32) (f : DmaFetch) (w : Nat), s.DmaAt ch f w → dmaOp w = 5 → dmaSub w = 0 →
    ∃ t, exec (.dmaWaitRequest ch f) s = .next t ∧
      ((s.chan ch).line = some (dmaReq w) → s.dmaPending ch ≠ 0 → s.DmaBecomes ch (s.dmaNow ch w f) [] t ∧ t.chState ch = 1 ∧
        t.dmaPending ch = s.dmaPending ch - 1) ∧
      ((s.chan ch).line ≠ some (dmaReq w) ∨ s.dmaPending ch = 0 → s.DmaBecomes ch { s.dmaNow ch w f with held := true } [] t ∧
        t.chState ch = 2 ∧ t.dmaPending ch = 0) ∧ s.sameBut [.regs, .dma] t) ∧
  (∀ (s : State) (ch : Fin 32) (f : DmaFetch) (w : Nat), s.DmaAt ch f w → dmaOp w = 5 → dmaSub w = 1 →
    ∃ t, exec (.dmaWaitTime ch f) s = .next t ∧
      (shortDue (dmaQ w 1) s.nowShort = true → s.DmaBecomes ch (s.dmaNow ch w f) [] t ∧ t.chState ch = 1) ∧
      (shortDue (dmaQ w 1) s.nowShort = false → s.DmaBecomes ch { s.dmaNow ch w f with held := true } [] t ∧ t.chState ch = 2) ∧
      s.sameBut [.regs, .dma] t) ∧
  (∀ (s : State) (ch : Fin 32) (f : DmaFetch) (w : Nat), s.DmaAt ch f w → dmaOp w = 5 → dmaSub w = 2 →
    ∃ t, exec (.dmaWaitFlag ch f) s = .next t ∧
      ((s.rd Reg.DMA_FLAGS).getLsbD (dmaFlag w) = true → s.DmaBecomes ch (s.dmaNow ch w f) [Reg.DMA_FLAGS] t ∧ t.chState ch = 1 ∧
        t.rd Reg.DMA_FLAGS = s.rd Reg.DMA_FLAGS &&& ~~~(1#32 <<< dmaFlag w)) ∧
      ((s.rd Reg.DMA_FLAGS).getLsbD (dmaFlag w) = false → s.DmaBecomes ch { s.dmaNow ch w f with held := true } [] t ∧ t.chState ch = 2) ∧
      s.sameBut [.regs, .dma] t) ∧
  (∀ (s : State) (ch : Fin 32) (f : DmaFetch) (w : Nat), s.DmaAt ch f w → (s.chan ch).flight ≠ [] →
    ∀ p ∈ [(6, 0, Instr.dmaSignalCompletion ch f), (7, dmaSub w, .dmaFence ch f), (8, dmaSub w, .dmaHalt ch f)],
    dmaOp w = p.1 → dmaSub w = p.2.1 → ∃ t, exec p.2.2 s = .next t ∧ s.DmaBecomes ch { s.dmaNow ch w f with held := true } [] t ∧
      s.sameBut [.regs, .dma] t) ∧
  (∀ (s : State) (ch : Fin 32) (f : DmaFetch) (w cq : Nat), s.DmaAt ch f w → dmaOp w = 6 → dmaSub w = 0 → (s.chan ch).flight = [] →
    cq = dmaQ w 1 % 2 ^ 20 → s.dmaCqOk ch cq = true → ∃ t, exec (.dmaSignalCompletion ch f) s = .next t ∧
      t.q cq = { s.q cq with ready := (s.q cq).ready ++ [{
        status := if (s.chan ch).poisoned then 5 else 0, kind := 4, detail := min 255 (s.chan ch).retries, x8 := ch
        body := dmaQ w 2 % 2 ^ 32 * 2 ^ 32, stampValid := true, stamp := s.now, ts := s.timeStatus }] } ∧
      s.DmaBecomes ch { s.dmaNow ch w f with held := true, signal := some cq, poisoned := false, retries := 0 } [] t ∧
      t.posted = s.posted ++ (if dmaPost w then [⟨0x0701, ch + dmaQ w 2 % 2 ^ 32 * 2 ^ 32⟩] else []) ∧
      s.sameBut [.regs, .posted, .queues, .dma] t) ∧
  (∀ (s : State) (ch : Fin 32) (f : DmaFetch) (w : Nat), s.DmaAt ch f w → dmaOp w = 6 → dmaSub w = 0 → (s.chan ch).flight = [] →
    s.dmaCqOk ch (dmaQ w 1 % 2 ^ 20) = false → ∃ t u, exec (.dmaSignalCompletion ch f) s = .next t ∧
      s.DmaBecomes ch { s.dmaNow ch w f with held := true } [] u ∧ s.sameBut [.regs, .dma] u ∧ u.DmaHalted ch 8 5 t) ∧
  (∀ (s : State) (ch : Fin 32) (f : DmaFetch) (w : Nat), s.DmaAt ch f w → dmaOp w = 6 → dmaSub w = 1 → (s.chan ch).flight = [] →
    ∃ t u, exec (.dmaSignalFlag ch f) s = .next t ∧ t = u.settleAll ∧
      u.rd Reg.DMA_FLAGS = s.rd Reg.DMA_FLAGS ||| 1#32 <<< dmaFlag w ∧
      s.DmaBecomes ch { s.dmaNow ch w f with poisoned := false, retries := 0 } [Reg.DMA_FLAGS] u ∧ s.sameBut [.regs, .posted, .dma] u) ∧
  (∀ (s : State) (ch : Fin 32) (f : DmaFetch) (w : Nat), s.DmaAt ch f w → dmaOp w = 7 → (s.chan ch).flight = [] →
    ∃ t, exec (.dmaFence ch f) s = .next t ∧ s.DmaBecomes ch (s.dmaNow ch w f) [] t ∧ s.sameBut [.regs, .dma] t) ∧
  (∀ (s : State) (ch : Fin 32) (f : DmaFetch) (w : Nat), s.DmaAt ch f w → dmaOp w = 8 → (s.chan ch).flight = [] →
    ∃ t, exec (.dmaHalt ch f) s = .next t ∧ s.DmaBecomes ch (s.dmaNow ch w f) [] t ∧ t.chState ch = 0 ∧
      t.posted = s.posted ++ (if dmaPost w then [⟨0x0704, ch⟩] else []) ∧ s.sameBut [.regs, .posted, .dma] t)

/-- R66, R418, R423, R424, R428, R429, R431 to R433, R438, R456, R457: control of DMA channels, their request lines,
flags and read completions, and the deadlines of reads. Where a clause follows a choice of the model, the log names
it: entries 29, 135, 137, 140, 199. -/
def Obligations.DmaChannelsStartStopAndAnswer : Prop :=
  (∀ (s : State) (ch : Fin 32) (r : Bool), s.reservedChan ch ≠ r →
    ∀ i ∈ [Instr.dmaStart ch r, .dmaStop ch r, .clearReq ch r], exec i s = .next s) ∧
  (∀ (s : State) (ch : Fin 32), s.chState ch = 0 ∨ s.chState ch = 4 → (s.rd (Reg.DMA_CH_PROG_LO ch)).toNat % 32 = 0 →
    ∃ t, exec (.dmaStart ch (s.reservedChan ch)) s = .next t ∧ t.chState ch = 1 ∧ t.dmaPending ch = 0 ∧
      t.fld (Reg.DMA_CH_PC_INDEX ch) = 0 ∧
      s.DmaBecomes ch { nextBurst := (s.chan ch).nextBurst, inst := (s.chan ch).inst + 1 } [] t ∧ s.sameBut [.regs, .dma] t) ∧
  (∀ (s : State) (ch : Fin 32), s.chState ch = 0 ∨ s.chState ch = 4 → (s.rd (Reg.DMA_CH_PROG_LO ch)).toNat % 32 ≠ 0 →
    ∃ t u, exec (.dmaStart ch (s.reservedChan ch)) s = .next t ∧ u.DmaHalted ch 8 5 t ∧
      s.DmaBecomes ch { nextBurst := (s.chan ch).nextBurst, inst := (s.chan ch).inst + 1 } [] u ∧ s.sameBut [.regs, .dma] u) ∧
  (∀ (s : State) (ch : Fin 32) (r : Bool), s.chState ch ≠ 0 → s.chState ch ≠ 4 → exec (.dmaStart ch r) s = .next s) ∧
  (∀ (s : State) (ch : Fin 32), s.chState ch = 2 → ∃ t, exec (.dmaStop ch (s.reservedChan ch)) s = .next t ∧ s.DmaHalted ch 3 0 t) ∧
  (∀ (s : State) (ch : Fin 32), s.chState ch = 1 → ∃ t u, exec (.dmaStop ch (s.reservedChan ch)) s = .next t ∧ u.chState ch = 3 ∧
    s.DmaBecomes ch { s.chan ch with rest := 0, src := [], dst := [] } [] u ∧ s.sameBut [.regs, .dma] u ∧
    ((s.chan ch).flight ≠ [] → t = u) ∧
    ((s.chan ch).flight = [] → (s.chan ch).signal = none → u.DmaHalted ch 3 0 t)) ∧
  (∀ (s : State) (ch : Fin 32) (r : Bool), s.chState ch ≠ 1 → s.chState ch ≠ 2 → exec (.dmaStop ch r) s = .next s) ∧
  (∀ (s : State) (ch : Fin 32), ∃ t, exec (.clearReq ch (s.reservedChan ch)) s = .next t ∧
    t.regs = (s.setFld (Reg.DMA_CH_STATUS_PENDING ch) 0).regs ∧ s.sameBut [.regs] t) ∧
  (∀ (s : State) (v : Word), ∃ t u, exec (.dmaFlagsWrite v) s = .next t ∧ t = u.settleAll ∧
    u.rd Reg.DMA_FLAGS = s.rd Reg.DMA_FLAGS ||| v ∧ s.regsBut [Reg.DMA_FLAGS] u ∧ s.sameBut [.regs] u ∧ (s.dmaQuiet → t = u)) ∧
  (∀ (s : State) (k : BitVec 6), (s.lineRaised k.toNat).2 = false → exec (.dmaRequest k) s = .next s) ∧
  (∀ (s : State) (k : BitVec 6), k.toNat < 12 → s.flows.raised.contains k.toNat = true → s.dmaQuiet →
    (∀ c, c < 32 → (s.chan c).line ≠ some k.toNat) → ∃ t, exec (.dmaRequest k) s = .next t ∧
      t.flows = { s.flows with raised := s.flows.raised.erase k.toNat } ∧ s.sameBut [.flows] t) ∧
  (∀ (s : State) (k : BitVec 6) (ch : Fin 32), (s.lineRaised k.toNat).2 = true → s.dmaQuiet → (∀ c, c < 32 → c ≠ ch → (s.chan c).line ≠ some k.toNat) →
    (s.chan ch).line = some k.toNat → (s.chan ch).rest = 0 → s.dmaPending ch < 255 →
    ∃ t, exec (.dmaRequest k) s = .next t ∧ t.dmaPending ch = s.dmaPending ch + 1 ∧ s.regsBut [Reg.DMA_CH_STATUS ch] t ∧
      t.chState ch = s.chState ch ∧ t.flows = (s.lineRaised k.toNat).1.flows ∧ t.ring = (s.lineRaised k.toNat).1.ring ∧
      s.sameBut [.regs, .flows, .ring] t) ∧
  (∀ (s : State) (k : BitVec 6) (ch : Fin 32), (s.lineRaised k.toNat).2 = true → s.dmaQuiet → (∀ c, c < 32 → c ≠ ch → (s.chan c).line ≠ some k.toNat) →
    (s.chan ch).line = some k.toNat → (s.chan ch).rest = 0 → s.dmaPending ch = 255 →
    Table.get (fun _ => 0) s.lastPost (0x070300 + ch) = 0 →
    ∃ t, exec (.dmaRequest k) s = .next t ∧ t.cnt Cnt.DMA_REQ_OVERRUN = (s.cnt Cnt.DMA_REQ_OVERRUN + 1) % 2 ^ 64 ∧
      t.posted = s.posted ++ [⟨0x0703, ch⟩] ∧ s.sameBut [.cnts, .posted, .lastPost, .flows, .ring] t) ∧
  (∀ (s : State) (k : BitVec 6) (ch : Fin 32), (s.lineRaised k.toNat).2 = true → (∀ c, c < 32 → c ≠ ch → (s.chan c).line ≠ some k.toNat ∧ s.chState c ≠ 3 ∧ (s.chan c).held = false) →
    (s.chan ch).line = some k.toNat → (s.chan ch).held = true → (s.chan ch).signal = none → dmaOp (s.chan ch).word = 5 →
    dmaSub (s.chan ch).word = 0 → s.chState ch = 2 → s.dmaPending ch = 0 →
    ∃ t, exec (.dmaRequest k) s = .next t ∧ t.chState ch = 1 ∧ t.dmaPending ch = 0 ∧
      s.DmaBecomes ch { s.chan ch with held := false } [] t ∧ s.sameBut [.regs, .flows, .ring, .dma] t) ∧
  (∀ (s : State) (k : Fin 4), s.crossed (s.fld (Reg.DMA_TIMER_PERIOD_NS k)) 0 = false → exec (.dmaTimer k) s = .next s) ∧
  (∀ (s : State) (k : Fin 4) (ch : Fin 32), s.crossed (s.fld (Reg.DMA_TIMER_PERIOD_NS k)) 0 = true → s.dmaQuiet →
    (∀ c, c < 32 → c ≠ ch → (s.chan c).line ≠ some (28 + k.val)) → (s.chan ch).line = some (28 + k.val) → (s.chan ch).rest = 0 →
    s.dmaPending ch < 255 → ∃ t, exec (.dmaTimer k) s = .next t ∧ t.dmaPending ch = s.dmaPending ch + 1 ∧
      s.regsBut [Reg.DMA_CH_STATUS ch] t ∧ t.chState ch = s.chState ch ∧ s.sameBut [.regs] t) ∧
  (∀ (s : State) (ch : Fin 32) (id off : Nat) (d : List Byte), s.dmaQuiet → s.burstAt ch id = none →
    ∀ f ∈ [ReadEnd.good, .poisoned, .refused], exec (.dmaReadCompletion ch id off d f) s = .next s) ∧
  (∀ (s : State) (ch : Fin 32) (id off a : Nat) (d : List Byte) (b : DmaBurst), s.dmaQuiet → s.burstAt ch id = some b →
    b.dst = [⟨true, a, b.len⟩] → off + d.length ≤ b.len → 0 < d.length → d.length < b.count →
    ∃ t, exec (.dmaReadCompletion ch id off d .good) s = .next t ∧
      (∀ k, k < d.length → t.dramByte (a + off + k) = d.getD k 0) ∧
      (∀ k, k < a + off ∨ a + off + d.length ≤ k → t.dramByte k = s.dramByte k) ∧
      s.DmaBecomes ch { s.chan ch with
        flight := (s.chan ch).flight.map fun k => if k.id = id then { k with count := b.count - d.length } else k } [] t ∧
      s.sameBut [.regs, .dram, .poison, .dma] t) ∧
  (∀ (s : State) (ch : Fin 32) (id off : Nat) (d : List Byte) (b : DmaBurst), s.burstAt ch id = some b →
    off + d.length ≤ b.len → d.length = b.count → ∃ t u, exec (.dmaReadCompletion ch id off d .good) s = .next t ∧
      t = (u.advanceChan ch).settleAll ∧ u.cnt Cnt.DMA_BURSTS = (s.cnt Cnt.DMA_BURSTS + 1) % 2 ^ 64 ∧
      s.DmaBecomes ch { s.chan ch with flight := (s.chan ch).flight.filter fun k => !(Nat.beq k.id id) } [] u ∧
      s.sameBut [.regs, .cnts, .out, .dram, .poison, .dma] u) ∧
  (∀ (s : State) (ch : Fin 32) (id off : Nat) (d : List Byte) (b : DmaBurst), s.burstAt ch id = some b →
    s.fld (Reg.DMA_CH_CFG_RETRY_LIMIT ch) ≤ b.retries →
    ∃ t, exec (.dmaReadCompletion ch id off d .refused) s = .next t ∧ s.DmaHalted ch 0x0D 2 t) ∧
  (∀ (s : State) (ch : Fin 32) (id off : Nat) (d : List Byte) (b : DmaBurst), s.burstAt ch id = some b →
    b.retries < s.fld (Reg.DMA_CH_CFG_RETRY_LIMIT ch) → s.chState ch ≠ 3 →
    ∃ t, exec (.dmaReadCompletion ch id off d .refused) s = .next t ∧
      s.DmaBecomes ch { s.chan ch with
        flight := (s.chan ch).flight.map fun k => if k.id = id then
          { b with id := (s.chan ch).nextBurst, count := b.len, retries := b.retries + 1 } else k
        nextBurst := (s.chan ch).nextBurst + 1, retries := (s.chan ch).retries + 1 } [] t ∧
      t.cnt Cnt.DMA_RETRIES = (s.cnt Cnt.DMA_RETRIES + 1) % 2 ^ 64 ∧ s.sameBut [.regs, .cnts, .dma] t) ∧
  (∀ (s : State) (p : ReadPath) (fn : BitVec 6) (g : BitVec 10), Table.get (fun _ => 0) s.lastPost 0x0502 = 0 →
    (s.pathWaits p = false ∨ s.tagHeld fn.toNat g.toNat = true → exec (.cplTimeout p fn g) s = .next s) ∧
    (s.pathWaits p = true → s.tagHeld fn.toNat g.toNat = false → ∃ t u, exec (.cplTimeout p fn g) s = .next t ∧ t = u.pathTimeout p ∧
      u.host = { s.host with quarantine := s.host.quarantine ++ [{
        func := fn.toNat, tag := g.toNat, path := p, expires := s.tb.uptime + s.cplTimeoutNs fn.toNat }] } ∧
      u.cnt Cnt.PCIE_CPL_TIMEOUT = (s.cnt Cnt.PCIE_CPL_TIMEOUT + 1) % 2 ^ 64 ∧ s.posts [0x0502] u ∧
      s.sameBut [.cnts, .posted, .lastPost, .free, .host] u ∧ (p = .flowCmd → t.fld Reg.FLOW_CMD_STATUS_STATE = 3) ∧
      (∀ c : Fin 32, p = .dmaFetch c → u.DmaHalted c 7 2 t))) ∧
  (∀ (s : State) (fn : BitVec 6) (g : BitVec 10),
    (s.host.quarantine.find? fun x => Nat.beq x.func fn.toNat && Nat.beq x.tag g.toNat) = none →
    exec (.lateCompletion fn g) s = .next s) ∧
  (∀ (s : State) (fn : BitVec 6) (g : BitVec 10), (s.host.quarantine.find? fun x =>
      Nat.beq x.func fn.toNat && Nat.beq x.tag g.toNat && Nat.ble x.expires s.tb.uptime) = none →
    exec (.tagQuarantineExpire fn g) s = .next s) ∧
  (∀ (s : State) (fn : BitVec 6) (g : BitVec 10) (x : Quarantine),
    (s.host.quarantine.find? fun x => Nat.beq x.func fn.toNat && Nat.beq x.tag g.toNat) = some x → x.byReset = true →
    ∃ t, exec (.lateCompletion fn g) s = .next t ∧ t.host = { s.host with quarantine := s.host.quarantine.erase x } ∧
      t.cnt Cnt.PCIE_RESET_DISCARD = (s.cnt Cnt.PCIE_RESET_DISCARD + 1) % 2 ^ 64 ∧ s.countsBut [Cnt.PCIE_RESET_DISCARD] t ∧
      s.sameBut [.cnts, .host] t) ∧
  (∀ (s : State) (fn : BitVec 6) (g : BitVec 10) (x : Quarantine) (c id : Nat),
    (s.host.quarantine.find? fun x => Nat.beq x.func fn.toNat && Nat.beq x.tag g.toNat) = some x → x.byReset = false →
    x.path = .dma c id ∨ x.path = .dmaFetch c →
    ∃ t, exec (.lateCompletion fn g) s = .next t ∧ t.host = { s.host with quarantine := s.host.quarantine.erase x } ∧
      t.cnt Cnt.PCIE_LATE_COMPLETION = (s.cnt Cnt.PCIE_LATE_COMPLETION + 1) % 2 ^ 64 ∧
      t.cnt Cnt.DMA_LATE_COMPLETION = (s.cnt Cnt.DMA_LATE_COMPLETION + 1) % 2 ^ 64 ∧
      s.countsBut [Cnt.PCIE_LATE_COMPLETION, Cnt.DMA_LATE_COMPLETION] t ∧ s.sameBut [.cnts, .posted, .lastPost, .free, .host] t) ∧
  (∀ (s : State) (fn : BitVec 6) (g : BitVec 10) (x : Quarantine),
    (s.host.quarantine.find? fun x =>
      Nat.beq x.func fn.toNat && Nat.beq x.tag g.toNat && Nat.ble x.expires s.tb.uptime) = some x →
    ∃ t, exec (.tagQuarantineExpire fn g) s = .next t ∧ t.host = { s.host with quarantine := s.host.quarantine.erase x } ∧
      s.sameBut [.host] t)

/-- R385 to R396, R403 to R408, R413, R581: doorbells, reads of entries, tables and bodies, completions, events and
receive delivery. Where a clause follows a choice of the model, the log names it: entries 107, 108, 109, 112, 113,
114, 115, 116, 117. -/
def Obligations.QueuesTakeCompleteAndDeliver : Prop :=
  (∀ (s : State), ∃ t, exec .dbBadWidth s = .next t ∧ t.cnt Cnt.QM_DB_BAD_WIDTH = (s.cnt Cnt.QM_DB_BAD_WIDTH + 1) % 2 ^ 64 ∧
    s.countsBut [Cnt.QM_DB_BAD_WIDTH] t ∧ s.sameBut [.cnts] t) ∧
  (∀ (s : State) (fn : BitVec 6) (v : BitVec 64), s.dmaQuiet → s.doorbellOk fn.toNat v.toNat = false →
    ∃ t, exec (.doorbell fn v) s = .next t ∧ t.cnt Cnt.QM_DOORBELLS = (s.cnt Cnt.QM_DOORBELLS + 1) % 2 ^ 64 ∧
      t.cnt Cnt.QM_DB_REJECT = (s.cnt Cnt.QM_DB_REJECT + 1) % 2 ^ 64 ∧
      (Table.get (fun _ => 0) s.lastPost 0x1905 = 0 → t.posted = s.posted ++ [⟨0x1905, v.toNat % 2 ^ 20⟩]) ∧
      s.sameBut [.cnts, .posted, .lastPost] t) ∧
  (∀ (s : State) (fn : BitVec 6) (v : BitVec 64) (k new : Nat), s.dmaQuiet → s.doorbellOk fn.toNat v.toNat = true → k = v.toNat % 2 ^ 20 →
    new = bits v.toNat 48 1 * (s.q k).n + bits v.toNat 32 16 →
    ∃ t, exec (.doorbell fn v) s = .next t ∧
      ((s.q k).isWork = true → (s.q k).fetched = [] → t.q k = { s.q k with
        pi := new, holdStart := if new = (s.q k).pi ∨ (s.q k).state ≠ 2 then (s.q k).holdStart else none } ∧
        s.queuesBut [k] t ∧ s.sameBut [.cnts, .queues] t) ∧
      ((s.q k).isWork = false → (s.q k).waiting = [] → (s.q k).events = [] → (s.q k).overflow = false → t.q k = { s.q k with
        ci := new, armed := (s.q k).armed || (v.getLsbD 20 && (s.q k).irqEn) } ∧ s.queuesBut [k] t ∧ s.sameBut [.cnts, .queues] t)) ∧
  (∀ (s : State) (k : BitVec 20), (s.q k.toNat).kind ≠ 3 → exec (.completionWrite k) s = .next s) ∧
  (∀ (s : State) (k : BitVec 20) (c : Cpl) (l : List Cpl), s.dmaQuiet → s.host.pmeEn = 0 → (s.q k.toNat).kind = 3 → (s.q k.toNat).ready = c :: l →
    (s.q k.toNat).waiting = [] → s.ringOpen (s.q k.toNat) = true → (s.q k.toNat).loc = false → (s.q k.toNat).armed = false →
    c.retires = 0 → c.hist = none → ∃ t, exec (.completionWrite k) s = .next t ∧
      t.out = s.out ++ [.hostWrite ((s.q k.toNat).entryAddr (s.q k.toNat).pi)
        (leBytes 32 (putBits c.image 255 1 (ownFor (s.q k.toNat).pi (s.q k.toNat).n)))] ∧
      t.q k.toNat = { s.q k.toNat with ready := l, pi := (s.q k.toNat).step (s.q k.toNat).pi 1 } ∧
      s.queuesBut [k.toNat] t ∧ s.sameBut [.out, .queues] t) ∧
  (∀ (s : State) (k : BitVec 20) (c : Cpl) (l : List Cpl), s.dmaQuiet → s.host.pmeEn = 0 → (s.q k.toNat).kind = 3 → (s.q k.toNat).ready = c :: l →
    s.ringOpen (s.q k.toNat) = false → (s.q k.toNat).waiting.length < 7 → ∃ t, exec (.completionWrite k) s = .next t ∧
      t.q k.toNat = { s.q k.toNat with ready := l, waiting := (s.q k.toNat).waiting ++ [c] } ∧ s.queuesBut [k.toNat] t ∧
      s.sameBut [.queues] t) ∧
  (∀ (s : State) (k : BitVec 20) (c : Cpl) (l : List Cpl), s.canonical = true → s.dmaQuiet → s.host.pmeEn = 0 → (s.q k.toNat).kind = 3 →
    (s.q k.toNat).ready = c :: l → s.ringOpen (s.q k.toNat) = false → (s.q k.toNat).waiting.length = 7 →
    ∃ t, exec (.completionWrite k) s = .next t ∧ (t.q k.toNat).overflow = true ∧ (t.q k.toNat).waiting = (s.q k.toNat).waiting ++ [c] ∧
      (∀ j, (s.q j).isWork = true → (s.q j).link = k.toNat → (s.q j).state = 2 → (t.q j).state = 3) ∧
      t.cnt Cnt.QM_CQ_OVERFLOW = (s.cnt Cnt.QM_CQ_OVERFLOW + 1) % 2 ^ 64 ∧ t.posted = s.posted ++ [⟨0x1902, k.toNat⟩] ∧
      s.sameBut [.cnts, .posted, .queues] t) ∧
  (∀ (s : State) (k : BitVec 20) (f : ReadEnd) (l : List (BitVec 256)), (s.q k.toNat).isWork = false ∨ ((s.q k.toNat).state ≠ 2 ∧ (s.q k.toNat).state ≠ 3) →
    exec (.workEntryFetch k f l) s = .next s) ∧
  (∀ (s : State) (k : BitVec 20) (l : List (BitVec 256)), (s.q k.toNat).isWork = true → (s.q k.toNat).state = 2 → (s.q k.toNat).entries = [] →
    (s.q k.toNat).fetched = [] → (s.q k.toNat).rxWait = [] → (s.q k.toNat).taken < 2 * (s.q k.toNat).n →
    ∀ p ∈ [(ReadEnd.refused, 3), (.poisoned, 4)], ∃ t u, exec (.workEntryFetch k p.1 l) s = .next t ∧
      s.sameBut [.free, .queues] u ∧ u.QueueHalted k.toNat (s.q k.toNat).taken 7 p.2 t ∧
      t.cnt Cnt.QM_FETCH_ERROR = (s.cnt Cnt.QM_FETCH_ERROR + 1) % 2 ^ 64) ∧
  (∀ (s : State) (k : BitVec 20) (v : BitVec 256), (s.q k.toNat).isWork = true → (s.q k.toNat).state = 3 → (s.q k.toNat).fetched = [] →
    (s.q k.toNat).failed = [] → 1 ≤ State.readable (s.q k.toNat) → (s.q k.toNat).taken < 2 * (s.q k.toNat).n →
    v.getLsbD 255 = Nat.beq (ownFor (s.q k.toNat).taken (s.q k.toNat).n) 1 → ∃ t, exec (.workEntryFetch k .good [v]) s = .next t ∧
      t.q k.toNat = { s.q k.toNat with fetched := [Entry.ofBits (s.q k.toNat).taken v] } ∧ s.queuesBut [k.toNat] t ∧ s.sameBut [.queues] t) ∧
  (∀ (s : State) (k : BitVec 20) (v : BitVec 256), (s.q k.toNat).kind = 5 → (s.q k.toNat).state = 2 → (s.q k.toNat).fetched = [] →
    (s.q k.toNat).failed = [] → 1 ≤ State.readable (s.q k.toNat) → (s.q k.toNat).taken < 2 * (s.q k.toNat).n →
    (s.q k.toNat).below (s.q k.toNat).taken = true → cmdFault (Entry.ofBits (s.q k.toNat).taken v) = none →
    v.getLsbD 255 = Nat.beq (ownFor (s.q k.toNat).taken (s.q k.toNat).n) 1 → ∃ t, exec (.workEntryFetch k .good [v]) s = .next t ∧
      t.q k.toNat = { s.q k.toNat with
        entries := (s.q k.toNat).entries ++ [Entry.ofBits (s.q k.toNat).taken v], taken := (s.q k.toNat).step (s.q k.toNat).taken 1 } ∧
      s.queuesBut [k.toNat] t ∧ s.sameBut [.queues] t) ∧
  (∀ (s : State) (k : BitVec 20) (v : BitVec 256), (s.q k.toNat).isWork = true → (s.q k.toNat).state = 2 → (s.q k.toNat).fetched = [] →
    (s.q k.toNat).failed = [] → 1 ≤ State.readable (s.q k.toNat) → (s.q k.toNat).taken < 2 * (s.q k.toNat).n →
    (s.q k.toNat).below (s.q k.toNat).taken = true → v.getLsbD 255 = Nat.beq (ownFor (s.q k.toNat).taken (s.q k.toNat).n) 0 →
    ∃ t, exec (.workEntryFetch k .good [v]) s = .next t ∧
      t.q k.toNat = { s.q k.toNat with failed := [((s.q k.toNat).taken, 1, s.tb.uptime)] } ∧ s.queuesBut [k.toNat] t ∧ s.sameBut [.queues] t) ∧
  (∀ (s : State) (k : BitVec 20) (p : Nat) (f : ReadEnd) (l : List (BitVec 128)) (b : List Byte), s.entryAt k.toNat p = none →
    exec (.fragmentTableRead k p f l) s = .next s ∧ exec (.txBodyReadDone k p f b) s = .next s) ∧
  (∀ (s : State) (k : BitVec 20) (p : Nat) (l : List (BitVec 128)) (e : Entry), s.entryAt k.toNat p = some e → e.phase = .table →
    (s.q k.toNat).state = 2 → ∀ x ∈ [(ReadEnd.refused, 3), (.poisoned, 4)],
    ∃ t, exec (.fragmentTableRead k p x.1 l) s = .next t ∧ s.QueueHalted k.toNat p 7 x.2 t) ∧
  (∀ (s : State) (k : BitVec 20) (p : Nat) (v : BitVec 128) (e : Entry), s.entryAt k.toNat p = some e → e.phase = .table → e.left = 1 →
    v.getLsbD 96 = false → bits v.toNat 97 31 = 0 → 0 < bits v.toNat 64 32 → ∃ t, exec (.fragmentTableRead k p .good [v]) s = .next t ∧
      (e.sum + bits v.toNat 64 32 = e.len → t.entryAt k.toNat p = some { e with phase := .body, sum := e.len } ∧ s.sameBut [.queues] t) ∧
      (e.sum + bits v.toNat 64 32 ≠ e.len → State.entryEnds k.toNat p 8 2 t ∧ s.sameBut [.cnts, .queues] t)) ∧
  (∀ (s : State) (k : BitVec 20) (p : Nat) (v : BitVec 128) (e : Entry), s.entryAt k.toNat p = some e → e.phase = .table → e.left = 1 →
    v.getLsbD 96 = true → (s.q k.toNat).state = 2 → ∃ t, exec (.fragmentTableRead k p .good [v]) s = .next t ∧
      (s.fld Reg.QM_HOP_LIMIT_LIMIT < e.hops + 1 → s.QueueHalted k.toNat p 6 (min 255 e.hops) t) ∧
      (e.hops + 1 ≤ s.fld Reg.QM_HOP_LIMIT_LIMIT → bits v.toNat 97 31 = 0 → bits v.toNat 0 64 % 16 = 0 → 1 ≤ bits v.toNat 64 32 →
        bits v.toNat 64 32 ≤ 255 → t.entryAt k.toNat p = some { e with hops := e.hops + 1, left := bits v.toNat 64 32 } ∧
        s.sameBut [.queues] t)) ∧
  (∀ (s : State) (k : BitVec 20) (p : Nat) (b : List Byte) (e : Entry), s.entryAt k.toNat p = some e → (s.q k.toNat).kind = 1 → e.phase = .body →
    ∃ t, exec (.txBodyReadDone k p .refused b) s = .next t ∧ State.entryEnds k.toNat p 0x0D 0 t ∧ s.sameBut [.cnts, .queues] t) ∧
  (∀ (s : State) (k : BitVec 20) (p : Nat) (b : List Byte) (e : Entry), s.entryAt k.toNat p = some e → (s.q k.toNat).kind = 1 → e.phase = .body →
    s.payloadQueue k.toNat = true → ∃ t, exec (.txBodyReadDone k p .good b) s = .next t ∧
      t.ring = { s.ring with bodies := s.ring.bodies ++ [⟨k.toNat, p, b.take e.len, false⟩] } ∧
      t.entryAt k.toNat p = some { e with phase := .started } ∧ s.sameBut [.queues, .ring] t) ∧
  (∀ (s : State) (k : BitVec 20) (p : Nat) (b : List Byte) (e : Entry), s.entryAt k.toNat p = some e → (s.q k.toNat).kind = 1 → e.phase = .body →
    s.payloadQueue k.toNat = false → State.cellsFor ((b.take e.len).length + 4) ≤ s.cells.free → e.q1.testBit 26 = false → e.q1.testBit 27 = false →
    ∃ t u, exec (.txBodyReadDone k p .good b) s = .next t ∧
      t = u.toHub (s.q k.toNat).port (u.txOfEntry k.toNat p s.nextFrame (b.take e.len) false) ∧
      u.frame s.nextFrame = { cells := State.cellsFor ((b.take e.len).length + 4), copies := 1 } ∧
      u.entryAt k.toNat p = some { e with phase := .started, copies := 1 } ∧ u.nextFrame = s.nextFrame + 1 ∧
      s.sameBut [.cells, .frames, .nextFrame, .queues] u) ∧
  (∀ (s : State), s.posted = [] → exec .eventPost s = .next s) ∧
  (∀ (s : State) (e : Event) (l : List Event), s.posted = e :: l → s.eventRoute e = none → ∃ t, exec .eventPost s = .next t ∧
    t.posted = l ∧ t.cnt Cnt.QM_EVT_UNROUTED = (s.cnt Cnt.QM_EVT_UNROUTED + 1) % 2 ^ 64 ∧ s.sameBut [.posted, .cnts] t) ∧
  (∀ (s : State) (e : Event) (l : List Event) (k : Nat), s.posted = e :: l → s.eventRoute e = some k → s.host.pmeEn = 0 → (s.q k).state = 2 →
    (s.q k).kind = 4 → (s.q k).loc = false → (s.q k).armed = false → ∃ t, exec .eventPost s = .next t ∧ t.posted = l ∧
      ((s.q k).events = [] → s.ringOpen (s.q k) = true → t.q k = { s.q k with
        pi := (s.q k).step (s.q k).pi 1, seq := ((s.q k).seq + 1) % 65536 } ∧
        t.out = s.out ++ [.hostWrite ((s.q k).entryAddr (s.q k).pi) (leBytes 16 (putBits (e.data % 2 ^ 64 + e.code % 2 ^ 16 * 2 ^ 64 +
          (s.q k).seq % 2 ^ 16 * 2 ^ 80) 127 1 (ownFor (s.q k).pi (s.q k).n)))] ∧ s.sameBut [.posted, .out, .queues] t) ∧
      (s.ringOpen (s.q k) = false → (s.q k).events.length < 16 → t.q k = { s.q k with
        events := (s.q k).events ++ [(e.code, e.data, (s.q k).seq)], seq := ((s.q k).seq + 1) % 65536 } ∧ s.sameBut [.posted, .queues] t) ∧
      (s.ringOpen (s.q k) = false → 16 ≤ (s.q k).events.length → t.q k = { s.q k with seq := ((s.q k).seq + 1) % 65536 } ∧
        t.cnt Cnt.QM_EQ_DROPPED = (s.cnt Cnt.QM_EQ_DROPPED + 1) % 2 ^ 64 ∧ s.sameBut [.posted, .cnts, .queues] t)) ∧
  (∀ (s : State) (k : BitVec 20), (s.q k.toNat).kind ≠ 2 → exec (.rxDelivery k) s = .next s) ∧
  (∀ (s : State) (k : BitVec 20) (c : RxCopy) (e : Entry), (s.q k.toNat).kind = 2 → (s.q k.toNat).state = 2 → s.host.pmeEn = 0 →
    (s.q k.toNat).rxWait = [c] → c.used = 0 → c.written = 0 → c.reply = none → c.poisoned = false → c.hist = false → c.bytes ≠ [] →
    (s.q k.toNat).fetched = [e] → (s.q k.toNat).below e.pos = true → rxFault e = none → c.bytes.length ≤ e.len →
    (s.q k.toNat).entries = [] → (s.q k.toNat).link ≠ k.toNat → s.canRequest (s.q k.toNat).func = true →
    ∃ t x, exec (.rxDelivery k) s = .next t ∧ t.out = s.out ++ [.hostWrite e.q0 c.bytes] ∧ (t.q k.toNat).rxWait = [] ∧
      (t.q k.toNat).taken = (s.q k.toNat).step (s.q k.toNat).taken 1 ∧
      t.frame c.frame = { s.frame c.frame with copies := (s.frame c.frame).copies - 1 } ∧
      (t.q (s.q k.toNat).link).ready = (s.q (s.q k.toNat).link).ready ++ [x] ∧ x.status = 0 ∧ x.kind = 1 ∧ x.retires = 1 ∧
      x.qid = k.toNat ∧ x.stamp = c.stamp ∧ x.body = e.pos % (s.q k.toNat).n + 2 ^ 16 + c.source % 256 * 2 ^ 24 +
        c.bytes.length % 65536 * 2 ^ 32 ∧ s.sameBut [.out, .frames, .queues] t) ∧
  (∀ (s : State) (k : BitVec 20) (c : RxCopy), (s.q k.toNat).kind = 2 → (s.q k.toNat).state = 2 → s.host.pmeEn = 0 → (s.q k.toNat).rxWait = [c] →
    (s.q k.toNat).fetched = [] → (s.q k.toNat).holdStart = none → (s.q k.toNat).taken = (s.q k.toNat).pi →
    ∃ t, exec (.rxDelivery k) s = .next t ∧ t.q k.toNat = { s.q k.toNat with holdStart := some s.tb.uptime } ∧
      s.queuesBut [k.toNat] t ∧ s.sameBut [.queues] t) ∧
  (∀ (s : State) (k : BitVec 20) (c : RxCopy) (a : Nat), (s.q k.toNat).rxWait = [c] → (s.q k.toNat).holdStart = some a →
    s.tb.uptime < a + s.fld Reg.QM_RX_HOLD_HOLD_US * 1000 → exec (.rxHoldExpire k) s = .next s) ∧
  (∀ (s : State) (k : BitVec 20), (s.q k.toNat).rxWait = [] → exec (.rxHoldExpire k) s = .next s) ∧
  (∀ (s : State) (k : BitVec 20) (c : RxCopy) (a : Nat), (s.q k.toNat).rxWait = [c] → (s.q k.toNat).holdStart = some a →
    a + s.fld Reg.QM_RX_HOLD_HOLD_US * 1000 ≤ s.tb.uptime → c.used = 0 → c.flow = none → ∃ t, exec (.rxHoldExpire k) s = .next t ∧
      t.q k.toNat = { s.q k.toNat with rxWait := [], holdStart := none } ∧
      t.frame c.frame = { s.frame c.frame with copies := (s.frame c.frame).copies - 1 } ∧
      t.cnt Cnt.QM_RX_DROP_NOBUF = (s.cnt Cnt.QM_RX_DROP_NOBUF + 1) % 2 ^ 64 ∧ s.sameBut [.cnts, .frames, .queues] t)

/-- R410 to R412, R416: the operations of the queue mailboxes, and the end of a queue that drains. Where a clause
follows a choice of the model, the log names it: entries 110, 111. -/
def Obligations.QueueMailboxCreatesAndEndsQueues : Prop :=
  (∀ (s : State) (fn : BitVec 6), s.fld (Reg.QM_QCMD_STATUS_STATE.of fn.toNat) = 1 → ∀ i ∈ [Instr.qmCreate fn, .qmEnable fn, .qmShutdown fn,
    .qmReset fn, .qmDestroy fn, .qmModify fn, .qmQuery fn], exec i s = .next s) ∧
  (∀ (s : State) (fn : BitVec 6), s.fld (Reg.QM_QCMD_STATUS_STATE.of fn.toNat) ≠ 1 →
    s.ownerOf (s.qmQid fn.toNat) ≠ some fn.toNat → ∀ p ∈ [(Instr.qmCreate fn, 1), (.qmEnable fn, 2), (.qmShutdown fn, 3),
    (.qmReset fn, 4), (.qmDestroy fn, 5), (.qmModify fn, 6), (.qmQuery fn, 7)],
    ∃ t, exec p.1 s = .next t ∧ s.QmAnswers fn.toNat p.2 3 1 t ∧ s.sameBut [.regs] t) ∧
  (∀ (s : State) (fn : BitVec 6), s.fld (Reg.QM_QCMD_STATUS_STATE.of fn.toNat) ≠ 1 →
    s.ownerOf (s.qmQid fn.toNat) = some fn.toNat → ∀ p ∈ [(Instr.qmCreate fn, 1, [0]), (.qmEnable fn, 2, [1]),
    (.qmShutdown fn, 3, [2, 3, 4]), (.qmReset fn, 4, [1, 2, 3, 4]), (.qmDestroy fn, 5, [1]), (.qmModify fn, 6, [1, 2, 3, 4, 5])],
    (s.q (s.qmQid fn.toNat)).state ∉ p.2.2 → ∃ t, exec p.1 s = .next t ∧ s.QmAnswers fn.toNat p.2.1 3 2 t ∧ s.sameBut [.regs] t) ∧
  (∀ (s : State) (fn : BitVec 6) (k : Nat) (x : Queue), s.fld (Reg.QM_QCMD_STATUS_STATE.of fn.toNat) ≠ 1 → k = s.qmQid fn.toNat →
    s.ownerOf k = some fn.toNat → x = s.q k →
    (x.state = 0 → s.contextOk fn.toNat (s.qctx fn.toNat) = true → ∃ t, exec (.qmCreate fn) s = .next t ∧
      t.q k = { state := 1, kind := bits (s.qctx fn.toNat) 64 3, ringAddr := bits (s.qctx fn.toNat) 0 64
                loc := (s.qctx fn.toNat).testBit 67, log2 := bits (s.qctx fn.toNat) 68 5, irqEn := (s.qctx fn.toNat).testBit 76
                func := fn.toNat, link := bits (s.qctx fn.toNat) 96 20, linkEn := (s.qctx fn.toNat).testBit 127
                port := bits (s.qctx fn.toNat) 256 4, cls := bits (s.qctx fn.toNat) 260 3 } ∧
      s.queuesBut [k] t ∧ s.QmAnswers fn.toNat 1 2 0 t ∧ s.sameBut [.regs, .queues] t) ∧
    (x.state = 0 → s.contextOk fn.toNat (s.qctx fn.toNat) = false → ∃ t, exec (.qmCreate fn) s = .next t ∧
      s.QmAnswers fn.toNat 1 3 3 t ∧ s.sameBut [.regs] t) ∧
    (x.state = 1 → x.isWork = true → (s.q x.link).state ≠ 2 → ∃ t, exec (.qmEnable fn) s = .next t ∧
      s.QmAnswers fn.toNat 2 3 2 t ∧ s.sameBut [.regs] t) ∧
    (x.state = 1 → (x.isWork = true → (s.q x.link).state = 2) → x.fetched = [] → x.waiting = [] → x.events = [] → x.overflow = false →
      ∃ t, exec (.qmEnable fn) s = .next t ∧ t.q k = { x with state := 2 } ∧ s.queuesBut [k] t ∧ s.QmAnswers fn.toNat 2 2 0 t ∧
        s.sameBut [.regs, .queues] t) ∧
    (x.state = 2 ∨ x.state = 3 ∨ x.state = 4 → x.isWork = false → ∃ t, exec (.qmShutdown fn) s = .next t ∧
      s.QmAnswers fn.toNat 3 3 2 t ∧ s.sameBut [.regs] t) ∧
    (x.state = 2 ∨ x.state = 3 ∨ x.state = 4 → x.isWork = true → x.rxWait = [] → x.entries = [] → x.fetched = [] → x.taken = x.pi →
      x.pi < 2 * x.n → ∀ p ∈ [(Instr.qmShutdown fn, 3, false), (.qmReset fn, 4, true)],
      ∃ t, exec p.1 s = .next t ∧ t.q k = { x with state := 5, failed := [], resetAfter := p.2.2 } ∧ s.queuesBut [k] t ∧
        s.QmAnswers fn.toNat p.2.1 1 0 t ∧ s.sameBut [.regs, .queues] t) ∧
    (∀ e : Entry, x.state = 2 → x.kind = 1 → x.rxWait = [] → x.entries = [e] → x.fetched = [] → x.taken = x.pi → x.pi < 2 * x.n →
      e.phase = .body → e.offered = false → e.stamp = none → x.link ≠ k → ∃ t, exec (.qmShutdown fn) s = .next t ∧ State.entryEnds k e.pos 3 0 t ∧
        (t.q x.link).ready = (s.q x.link).ready ++ [{
          qid := k, status := 3, kind := 0, retires := 1, body := e.pos % x.n + e.tag * 2 ^ 32 }] ∧
        t.cnt Cnt.QM_ABORTED = (s.cnt Cnt.QM_ABORTED + 1) % 2 ^ 64 ∧ (t.q k).state = 5 ∧ s.QmAnswers fn.toNat 3 1 0 t) ∧
    (1 ≤ x.state → x.state ≤ 4 → x.isWork = false → s.ringBusy k x = true → ∃ t, exec (.qmReset fn) s = .next t ∧
      s.QmAnswers fn.toNat 4 3 4 t ∧ s.sameBut [.regs] t) ∧
    (1 ≤ x.state → x.state ≤ 4 → x.isWork = false → s.ringBusy k x = false → ∃ t, exec (.qmReset fn) s = .next t ∧
      t.q k = { x with
        state := 1, pi := 0, ci := 0, taken := 0, armed := false, events := [], seq := 0, ready := [], waiting := [], overflow := false } ∧
      s.queuesBut [k] t ∧ s.QmAnswers fn.toNat 4 2 0 t ∧ s.sameBut [.regs, .queues] t) ∧
    (x.state = 1 → s.ringBusy k x = true → ∃ t, exec (.qmDestroy fn) s = .next t ∧ s.QmAnswers fn.toNat 5 3 4 t ∧ s.sameBut [.regs] t) ∧
    (x.state = 1 → s.ringBusy k x = false → ∃ t, exec (.qmDestroy fn) s = .next t ∧ t.q k = {} ∧ s.queuesBut [k] t ∧
      s.QmAnswers fn.toNat 5 2 0 t ∧ s.sameBut [.regs, .queues] t) ∧
    (1 ≤ x.state → x.state ≤ 5 → bits (s.qctx fn.toNat) 288 27 ≤ 100000000 → State.qctxReserved (s.qctx fn.toNat) = true →
      ∃ t, exec (.qmModify fn) s = .next t ∧
        t.q k = { x with lateTol := bits (s.qctx fn.toNat) 288 27, irqEn := (s.qctx fn.toNat).testBit 76 } ∧ s.queuesBut [k] t ∧
        s.QmAnswers fn.toNat 6 2 0 t ∧ s.sameBut [.regs, .queues] t) ∧
    (1 ≤ x.state → x.state ≤ 5 → 100000000 < bits (s.qctx fn.toNat) 288 27 ∨ State.qctxReserved (s.qctx fn.toNat) = false →
      ∃ t, exec (.qmModify fn) s = .next t ∧ s.QmAnswers fn.toNat 6 3 3 t ∧ s.sameBut [.regs] t) ∧
    (x.state ≤ 5 → ∃ t, exec (.qmQuery fn) s = .next t ∧ t.fld (Reg.QM_QCMD_STATUS_STATE.of fn.toNat) = 2 ∧
      (∀ j, j < 16 → t.rd (Reg.QM_QCTX_W j + fn.toNat * 0x4000000) = BitVec.ofNat 32 (bits (s.qctxImage k) (32 * j) 32)) ∧ s.sameBut [.regs] t)) ∧
  (∀ (s : State) (k : BitVec 20), (s.q k.toNat).state ≠ 5 ∨ (s.q k.toNat).pi ≠ (s.q k.toNat).ci → exec (.drained k) s = .next s) ∧
  (∀ (s : State) (k : BitVec 20) (x : Queue), x = s.q k.toNat → x.state = 5 → x.pi = x.ci → ∃ t, exec (.drained k) s = .next t ∧
    t.q k.toNat = { x with
      state := 1, haltStatus := 0, haltIndex := 0, resetAfter := false, pi := if x.resetAfter then 0 else x.pi
      ci := if x.resetAfter then 0 else x.ci, taken := if x.resetAfter then 0 else x.taken, armed := !x.resetAfter && x.armed } ∧
    t.posted = s.posted ++ [⟨0x1904, k.toNat⟩] ∧ s.QmAnswers x.func (if x.resetAfter then 4 else 3) 2 0 t ∧ s.queuesBut [k.toNat] t ∧
    s.sameBut [.regs, .posted, .queues] t)

/-- R118, R123 to R125, R447, R451, R462, R464 to R467, R472: resets of functions, power states, Bus Master Enable,
virtual functions, the link and LTR. Where a clause follows a choice of the model, the log names it: entries 11, 40,
45, 46, 47, 48, 49. -/
def Obligations.FunctionsResetSleepAndReturn : Prop :=
  (∀ (s : State) (d : Bool) (b : BitVec 2) (l : List HostRead), s.mode = 6 ∨ s.running = false → exec (.hotReset d b l) s = .next s) ∧
  (∀ (s : State) (d : Bool) (b : BitVec 2) (l : List HostRead), s.mode ≠ 6 → s.running = true → s.flag Reg.GLB_RESET_CFG_HOT_FULL = true →
    ∃ t, exec (.hotReset d b l) s = .next t ∧ s.BootEntered b 0x11 t) ∧
  (∀ (s : State) (d : Bool) (b : BitVec 2) (l : List HostRead), s.mode ≠ 6 → s.running = true → s.flag Reg.GLB_RESET_CFG_HOT_FULL = false →
    ∃ t, exec (.hotReset d b l) s = .next t ∧ t.host.numVfs = 0 ∧
      (∀ f, f < 4 → t.fld (Reg.PCIE_FUNC_BME.of f) = 0 ∧ t.fld (Reg.PCIE_FUNC_DSTATE.of f) = 0 ∧ t.fld (Reg.PCIE_FUNC_IRQ_MODE.of f) = 0) ∧
      (∀ w, w < 4 → t.flag (Reg.PCIE_WIN_ACTIVE_EN w) = false) ∧ (∀ k, (s.q k).func < 4 → (t.q k).state = 0) ∧
      (d = true → t.flag Reg.PCIE_LINK_UP = false) ∧
      s.sameBut [.regs, .mode, .stage, .cnts, .posted, .out, .free, .boot, .frames, .queues, .host, .ports, .flows, .items, .ring,
        .engines, .dma, .evt, .obs] t) ∧
  (∀ (s : State) (fn : BitVec 6) (l : List HostRead), s.enabledFuncs.contains fn.toNat = false →
    ∀ i ∈ [Instr.flr fn l, .d3hotEntry fn, .d0Return fn, .busMasterEnableChange fn true, .busMasterEnableChange fn false],
    exec i s = .next s) ∧
  (∀ (s : State) (fn : BitVec 6) (l : List HostRead), s.enabledFuncs.contains fn.toNat = true → ∃ t u, exec (.flr fn l) s = .next t ∧
    t.posted = u ++ [⟨0x0507, fn.toNat⟩] ∧ t.fld (Reg.PCIE_FUNC_BME.of fn.toNat) = 0 ∧ t.fld (Reg.PCIE_FUNC_DSTATE.of fn.toNat) = 0 ∧
    t.fld (Reg.PCIE_FUNC_IRQ_MODE.of fn.toNat) = 0 ∧ (fn = 0 → t.host.numVfs = 0) ∧ (∀ k, (s.q k).func = fn.toNat → (t.q k).state = 0) ∧
    (∀ w, w < 4 → s.fld (Reg.PCIE_WIN_ACTIVE_OWNER w) = fn.toNat → t.flag (Reg.PCIE_WIN_ACTIVE_EN w) = false) ∧
    s.sameBut [.regs, .mode, .stage, .cnts, .posted, .out, .free, .boot, .frames, .queues, .host, .ports, .flows, .items, .ring,
      .engines, .dma, .evt, .obs] t) ∧
  (∀ (s : State) (fn : BitVec 6), s.enabledFuncs.contains fn.toNat = true → s.queues = [] → s.flows.deletes = [] → s.dmaQuiet → s.host.pmeEn = 0 →
    s.mode = 2 ∨ s.mode = 3 → (∀ f, f < 4 + s.host.numVfs → f ≠ fn.toNat → s.fld (Reg.PCIE_FUNC_DSTATE.of f) = 3) →
    ∃ t, exec (.d3hotEntry fn) s = .next t ∧ t.mode = 5 ∧ t.fld Reg.GLB_MODE_CAUSE = 0x0B ∧
      t.fld (Reg.PCIE_FUNC_DSTATE.of fn.toNat) = 3 ∧ s.posts [0x0B] t ∧
      t.out = s.out ++ (if s.host.ltrEnable then [.ltr (s.rd Reg.PCIE_LTR_QUIET).toNat] else []) ∧
      s.regsBut [Reg.GLB_MODE, Reg.PCIE_FUNC + fn.toNat * 0x4000000] t ∧ s.sameBut [.regs, .mode, .posted, .out, .free] t) ∧
  (∀ (s : State) (fn : BitVec 6), s.enabledFuncs.contains fn.toNat = true → s.queues = [] → s.flows.deletes = [] → s.dmaQuiet → s.host.pmeEn = 0 → s.mode = 5 →
    ∃ t, exec (.d0Return fn) s = .next t ∧ t.mode = s.workMode ∧ t.fld Reg.GLB_MODE_CAUSE = 0x0C ∧
      t.fld (Reg.PCIE_FUNC_DSTATE.of fn.toNat) = 0 ∧ s.posts [0x0C] t ∧
      t.out = s.out ++ (if s.host.ltrEnable then [.ltr (s.rd Reg.PCIE_LTR_ACTIVE).toNat] else []) ∧
      s.regsBut [Reg.GLB_MODE, Reg.PCIE_FUNC + fn.toNat * 0x4000000] t ∧ s.sameBut [.regs, .mode, .posted, .out, .free] t) ∧
  (∀ (s : State) (fn : BitVec 6) (b : Bool), s.enabledFuncs.contains fn.toNat = true → s.queues = [] → s.flows.deletes = [] → s.dmaQuiet → s.host.pmeEn = 0 →
    (s.mode = 2 ∨ s.mode = 3 → s.allD3hot = false) → (s.mode = 5 → s.allD3hot = true) →
    ∃ t, exec (.busMasterEnableChange fn b) s = .next t ∧ t.regs = (s.setFlag (Reg.PCIE_FUNC_BME.of fn.toNat) b).regs ∧ s.sameBut [.regs] t) ∧
  (∀ (s : State) (n : BitVec 16) (l : List HostRead), s.host.numVfs ≠ 0 ∨ n = 0 ∨
    (s.imp.image.map (·.struct.totalVfs)).getD 0 < n.toNat → exec (.vfEnable true n l) s = .next s) ∧
  (∀ (s : State) (n : BitVec 16) (l : List HostRead), s.host.numVfs = 0 → n ≠ 0 →
    n.toNat ≤ (s.imp.image.map (·.struct.totalVfs)).getD 0 → s.mode ≠ 5 → (s.mode = 2 ∨ s.mode = 3 → s.allD3hot = false) →
    ∃ t, exec (.vfEnable true n l) s = .next t ∧ t.host = { s.host with numVfs := n.toNat } ∧
      (∀ f, 4 ≤ f → f < 4 + n.toNat → t.flag (Reg.PCIE_FUNC_MSE.of f) = (s.rd State.cfgSriov).getLsbD 3) ∧
      (∀ a, (∀ f, a ≠ Reg.PCIE_FUNC + f * 0x4000000) → t.rd a = s.rd a) ∧ s.sameBut [.regs, .host] t) ∧
  (∀ (s : State) (n : BitVec 16) (l : List HostRead), ∃ t, exec (.vfEnable false n l) s = .next t ∧ t.host.numVfs = 0 ∧
    (∀ f, 4 ≤ f → f < 4 + s.host.numVfs → t.fld (Reg.PCIE_FUNC_BME.of f) = 0 ∧ t.fld (Reg.PCIE_FUNC_DSTATE.of f) = 0 ∧
      ∀ k, (s.q k).func = f → (t.q k).state = 0) ∧
    s.sameBut [.regs, .mode, .stage, .cnts, .posted, .out, .free, .boot, .frames, .queues, .host, .ports, .flows, .items, .ring,
      .engines, .dma, .evt, .obs] t) ∧
  (∀ (s : State) (v : BitVec 3) (w : BitVec 4) (e r : Bool) (l : BitVec 3), ∃ t, exec (.linkChange v w e r l) s = .next t ∧
    t.fld Reg.PCIE_LINK_SPEED = v.toNat ∧ t.fld Reg.PCIE_LINK_WIDTH = w.toNat ∧ t.flag Reg.PCIE_LINK_UP = true ∧
    t.flag Reg.PCIE_LINK_EQ_DONE = e ∧ t.flag Reg.PCIE_LINK_REVERSED = r ∧ t.fld Reg.PCIE_LINK_LSTATE = l.toNat ∧ s.posts [0x0501] t ∧
    s.regsBut [Reg.PCIE_LINK] t ∧ s.sameBut [.regs, .posted, .free] t) ∧
  (∀ (s : State) (q : Bool) (v : BitVec 16) (r : Nat), r = (if q then Reg.PCIE_LTR_QUIET else Reg.PCIE_LTR_ACTIVE) →
    ∃ t, exec (.ltrWrite q v) s = .next t ∧ (t.rd r).toNat = v.toNat &&& 0x9FFF ∧ s.regsBut [r] t ∧
      (s.host.ltrEnable = true → (if q then s.mode = 5 else s.mode = 2 ∨ s.mode = 3 ∨ s.mode = 4) →
        t.out = s.out ++ [.ltr (v.toNat &&& 0x9FFF)]) ∧
      (s.host.ltrEnable = false ∨ ¬ (if q then s.mode = 5 else s.mode = 2 ∨ s.mode = 3 ∨ s.mode = 4) → t.out = s.out) ∧
      s.sameBut [.regs, .out] t)

/-- R8, R450, R454, R458, R460, R461, R468 to R471: DRAM windows, unsupported requests and interrupt vectors. Where
a clause follows a choice of the model, the log names it: entries 24, 32, 33, 34. -/
def Obligations.WindowsAndVectorsServeTheHost : Prop :=
  (∀ (s : State) (m : BitVec 4), (∀ w, w < 4 → m.getLsbD w = true → s.windowOk w = true) → ∃ t, exec (.winCommit m) s = .next t ∧
    (∀ w, w < 4 → t.rd (Reg.PCIE_WIN_ACTIVE w) = if m.getLsbD w then s.rd (Reg.PCIE_WIN_STAGE w) else s.rd (Reg.PCIE_WIN_ACTIVE w)) ∧
    s.posts [0x0504] t ∧ s.regsBut ((List.range 4).map Reg.PCIE_WIN_ACTIVE) t ∧ s.sameBut [.regs, .posted, .free] t) ∧
  (∀ (s : State) (m : BitVec 4) (w : Nat), w < 4 → m.getLsbD w = true → s.windowOk w = false → ∃ t, exec (.winCommit m) s = .next t ∧
    (∀ k, k < 4 → t.bit Reg.PCIE_WIN_STATUS_REFUSED k = (m.getLsbD k && !s.windowOk k)) ∧ t.fld Reg.PCIE_WIN_STATUS_ERROR = 1 ∧
    s.posts [0x0505] t ∧ s.regsBut [Reg.PCIE_WIN_STATUS] t ∧ s.sameBut [.regs, .posted, .free] t) ∧
  (∀ (s : State) (w fn : Fin 4) (o : BitVec 23) (d : List (Option Byte)) (p u : Bool) (n : Fin 4097), s.served fn = false → ∀ i ∈ [Instr.windowWrite w fn o d p, .windowRead w fn o n u],
    (s.running = false ∨ s.mode = 6 → exec i s = .next s) ∧
    (s.running = true → s.mode ≠ 6 → ∃ t, exec i s = .next t ∧ t.out = s.out ++ [.unsupported fn] ∧
      t.cnt Cnt.PCIE_UR_SENT = (s.cnt Cnt.PCIE_UR_SENT + 1) % 2 ^ 64 ∧ s.countsBut [Cnt.PCIE_UR_SENT] t ∧ s.sameBut [.cnts, .out] t)) ∧
  (∀ (s : State) (w fn : Fin 4) (o : BitVec 23) (d : List (Option Byte)), s.served fn = true → s.windowOpen w fn = false →
    exec (.windowWrite w fn o d false) s = .next s) ∧
  (∀ (s : State) (w fn : Fin 4) (o : BitVec 23) (d : List (Option Byte)), s.served fn = true → s.windowOpen w fn = false →
    Table.get (fun _ => 0) s.lastPost 0x0506 = 0 → ∃ t, exec (.windowWrite w fn o d true) s = .next t ∧
      t.cnt Cnt.PCIE_POISONED_RX = (s.cnt Cnt.PCIE_POISONED_RX + 1) % 2 ^ 64 ∧ s.posts [0x0506] t ∧
      s.sameBut [.cnts, .posted, .lastPost, .free] t) ∧
  (∀ (s : State) (w fn : Fin 4) (o : BitVec 23) (d : List (Option Byte)), s.served fn = true → s.windowOpen w fn = true →
    s.flag (Reg.PCIE_WIN_ACTIVE_RDONLY w) = true → ∃ t, exec (.windowWrite w fn o d false) s = .next t ∧
      t.cnt Cnt.PCIE_WIN_RO_DROP = (s.cnt Cnt.PCIE_WIN_RO_DROP + 1) % 2 ^ 64 ∧ s.countsBut [Cnt.PCIE_WIN_RO_DROP] t ∧ s.sameBut [.cnts] t) ∧
  (∀ (s : State) (w fn : Fin 4) (o : BitVec 23) (d : List (Option Byte)) (a : Nat), s.served fn = true → s.windowOpen w fn = true →
    s.flag (Reg.PCIE_WIN_ACTIVE_RDONLY w) = false → o.toNat + d.length ≤ 0x800000 →
    a = s.fld (Reg.PCIE_WIN_ACTIVE_BASE w) * 4096 + o.toNat → ∃ t, exec (.windowWrite w fn o d false) s = .next t ∧
      (∀ k, t.dramByte k = if a ≤ k ∧ k < a + d.length then (d.getD (k - a) none).getD (s.dramByte k) else s.dramByte k) ∧
      s.sameBut [.dram, .poison] t) ∧
  (∀ (s : State) (w fn : Fin 4) (o : BitVec 23) (n : Fin 4097) (u : Bool), s.served fn = true → s.windowOpen w fn = false →
    ∃ t, exec (.windowRead w fn o n u) s = .next t ∧ t.out = s.out ++ [.completion fn (List.replicate n 0) false] ∧ s.sameBut [.out] t) ∧
  (∀ (s : State) (w fn : Fin 4) (o : BitVec 23) (n : Fin 4097) (u p : Bool) (a : Nat), s.served fn = true → s.windowOpen w fn = true →
    a = s.fld (Reg.PCIE_WIN_ACTIVE_BASE w) * 4096 + o.toNat → p = ((s.dramRead a n).2 || u) →
    ∃ t, exec (.windowRead w fn o n u) s = .next t ∧
      t.out = s.out ++ [.completion fn ((List.range n).map fun k => s.dramByte (a + k)) p] ∧
      (p = true → t.cnt Cnt.PCIE_POISONED_TX = (s.cnt Cnt.PCIE_POISONED_TX + 1) % 2 ^ 64) ∧ (p = false → t.cnts = s.cnts) ∧
      s.sameBut [.cnts, .out] t) ∧
  (∀ (s : State) (fn : BitVec 6), s.flag (Reg.PCIE_FUNC_MSE.of fn.toNat) = true → s.fld (Reg.PCIE_FUNC_DSTATE.of fn.toNat) = 0 →
    exec (.unsupportedRequest fn .memory) s = .next s) ∧
  (∀ (s : State) (fn : BitVec 6) (k : BadRequest), k ≠ .memory ∨ s.flag (Reg.PCIE_FUNC_MSE.of fn.toNat) = false ∨
    s.fld (Reg.PCIE_FUNC_DSTATE.of fn.toNat) ≠ 0 → ∃ t, exec (.unsupportedRequest fn k) s = .next t ∧
      t.out = s.out ++ [.unsupported fn.toNat] ∧ t.cnt Cnt.PCIE_UR_SENT = (s.cnt Cnt.PCIE_UR_SENT + 1) % 2 ^ 64 ∧
      s.countsBut [Cnt.PCIE_UR_SENT] t ∧ s.sameBut [.cnts, .out] t) ∧
  (∀ (s : State) (fn : BitVec 6) (v : BitVec 11), (s.vec fn.toNat v.toNat).requests = 0 ∨ s.tb.uptime <
    (s.vec fn.toNat v.toNat).first + s.fld ((Reg.PCIE_VEC_TIME_US v.toNat).of fn.toNat) * 1000 →
    exec (.vectorCoalesceTimeout fn v) s = .next s) ∧
  (∀ (s : State) (fn : BitVec 6) (v : BitVec 11) (x : Vector), x = s.vec fn.toNat v.toNat → 0 < x.requests →
    x.first + s.fld ((Reg.PCIE_VEC_TIME_US v.toNat).of fn.toNat) * 1000 ≤ s.tb.uptime → ∃ t, exec (.vectorCoalesceTimeout fn v) s = .next t ∧
      (s.vecMasked fn.toNat v.toNat = true → t.vec fn.toNat v.toNat = { x with requests := 0, first := 0, pendingBit := true } ∧
        s.sameBut [.host] t) ∧
      (s.vecMasked fn.toNat v.toNat = false → t.vec fn.toNat v.toNat = { x with requests := 0, first := 0, pendingBit := false } ∧
        (s.fld (Reg.PCIE_FUNC_IRQ_MODE.of fn.toNat) = 3 → t.out = s.out ++ [.message fn.toNat v.toNat] ∧ s.sameBut [.out, .host] t) ∧
        (s.fld (Reg.PCIE_FUNC_IRQ_MODE.of fn.toNat) = 2 → t.out = s.out ++ [.message fn.toNat
          (v.toNat % max 1 (Table.get (fun _ => 1) s.host.msiMessages fn.toNat))] ∧ s.sameBut [.out, .host] t) ∧
        (s.fld (Reg.PCIE_FUNC_IRQ_MODE.of fn.toNat) < 2 → (t.rd (Reg.PCIE_INTX_PEND + fn.toNat * 0x4000000)) =
          s.rd (Reg.PCIE_INTX_PEND + fn.toNat * 0x4000000) ||| 1#32 <<< (v.toNat % 32) ∧ s.sameBut [.regs, .host] t)) ∧
      (∀ f k, f ≠ fn.toNat → k < 2048 → t.vec f k = s.vec f k)) ∧
  (∀ (s : State) (fn : BitVec 6) (v : BitVec 11) (x : Vector), x = s.vec fn.toNat v.toNat → s.fld (Reg.PCIE_FUNC_IRQ_MODE.of fn.toNat) = 3 →
    ∃ t, exec (.vectorUnmask fn v) s = .next t ∧
      (x.pendingBit = true → s.host.fnMask.getLsbD fn.toNat = false → t.vec fn.toNat v.toNat = { x with unmasked := true, pendingBit := false } ∧
        t.out = s.out ++ [.message fn.toNat v.toNat] ∧ s.sameBut [.out, .host] t) ∧
      (x.pendingBit = false ∨ s.host.fnMask.getLsbD fn.toNat = true → t.vec fn.toNat v.toNat = { x with unmasked := true } ∧
        s.sameBut [.host] t)) ∧
  (∀ (s : State) (fn : BitVec 6) (v : BitVec 11) (x : Vector), x = s.vec fn.toNat v.toNat → s.fld (Reg.PCIE_FUNC_IRQ_MODE.of fn.toNat) = 2 →
    x.pendingBit = false → ∃ t, exec (.vectorUnmask fn v) s = .next t ∧ t.vec fn.toNat v.toNat = { x with msiMasked := false } ∧
      s.sameBut [.host] t) ∧
  (∀ (s : State) (fn m : BitVec 6) (a b c d : Bool), (∀ p ∈ s.host.vectors, p.1 / 2048 ≠ fn.toNat) →
    ∃ t, exec (.interruptModeChange fn a b c m d) s = .next t ∧
      t.fld (Reg.PCIE_FUNC_IRQ_MODE.of fn.toNat) = (if a then 3 else if 4 ≤ fn.toNat then 0 else if c then 2 else if d then 0 else 1) ∧
      t.host.fnMask.getLsbD fn.toNat = b ∧ t.host.intxDisable.getLsbD fn.toNat = d ∧
      Table.get (fun _ => 1) t.host.msiMessages fn.toNat = max 1 m.toNat ∧ s.sameBut [.regs, .host] t) ∧
  (∀ (s : State) (fn m : BitVec 6) (v : BitVec 11) (x : Vector) (c d : Bool), s.host.vectors = [(fn.toNat * 2048 + v.toNat, x)] →
    s.fld (Reg.PCIE_FUNC_IRQ_MODE.of fn.toNat) ≠ 3 → 0 < x.requests → x.unmasked = true →
    ∃ t, exec (.interruptModeChange fn true false c m d) s = .next t ∧ t.out = s.out ++ [.message fn.toNat v.toNat] ∧
      t.vec fn.toNat v.toNat = { x with requests := 0, first := 0, pendingBit := false } ∧ s.sameBut [.regs, .out, .host] t)

/-- R475, R477 to R479, R480, R490, R491: the recording bay: presence, latch, button, power, link and shutdown.
Where a clause follows a choice of the model, the log names it: entries 143, 144, 145, 148, 149. -/
def Obligations.BayFollowsTheCartridge : Prop :=
  (∀ (s : State), exec (.cartPresenceChange s.pwr.present) s = .next s ∧ exec (.cartLatchChange s.pwr.latchOpen) s = .next s) ∧
  (∀ (s : State) (b : Bool), s.operating = false → b ≠ s.pwr.present → ∃ t, exec (.cartPresenceChange b) s = .next t ∧
    t.pwr = { s.pwr with present := b } ∧ s.sameBut [.pwr] t) ∧
  (∀ (s : State) (b : Bool), s.operating = false → b ≠ s.pwr.latchOpen → ∃ t, exec (.cartLatchChange b) s = .next t ∧
    t.pwr = { s.pwr with latchOpen := b } ∧ s.sameBut [.pwr] t) ∧
  (∀ (s : State), s.operating = false → exec .cartButtonPress s = .next s ∧ exec .powerFault s = .next s) ∧
  (∀ (s : State) (b : Bool), s.operating = true → s.pwr.present ≠ b → b = true ∨ (s.slotAuto = true ∧ s.bay = 0) ∨
    (s.slotAuto = false ∧ s.cart.power = false) → ∃ t, exec (.cartPresenceChange b) s = .next t ∧
      t.pwr = { s.pwr with present := b } ∧ t.regs = (s.setFlag Reg.SLOT_STATUS_PDC true).regs ∧
      t.cart = { s.cart with insertSince := s.tb.uptime } ∧ s.sameBut [.regs, .pwr, .cart] t) ∧
  (∀ (s : State), s.operating = true → s.pwr.present = true → s.slotAuto = true → s.bay = 6 ∨ s.bay = 9 ∨ s.bay = 10 →
    ∃ t u, exec (.cartPresenceChange false) s = .next t ∧ u.BayEnters 0 t ∧ u.pwr = { s.pwr with present := false } ∧
      u.regs = (s.setFlag Reg.SLOT_STATUS_PDC true).regs ∧ u.cart = { s.cart with insertSince := s.tb.uptime } ∧
      s.sameBut [.regs, .pwr, .cart] u ∧ s.sameBut [.regs, .posted, .pwr, .cart] t) ∧
  (∀ (s : State), s.operating = true → s.slotAuto = true → s.bay = 3 → s.cart.power = true → s.cart.cmds = [] → s.pwr.latchOpen = false →
    s.pwr.present = true → ∀ i ∈ [Instr.cartPresenceChange false, .cartLatchChange true], ∃ t, exec i s = .next t ∧
      t.bay = 0 ∧ t.cart.power = false ∧ t.cart.writing = none ∧ t.cart.opened = s.cart.opened ∧
      t.cart.closed.map (·.seq) = s.cart.closed.map (·.seq) ∧ s.posts [0x0602, 0x0601] t ∧
      t.cnt Cnt.SLOT_SURPRISE_REMOVALS = (s.cnt Cnt.SLOT_SURPRISE_REMOVALS + 1) % 2 ^ 64 ∧
      s.regsBut [Reg.SLOT_STATE, Reg.SLOT_STATUS] t ∧ s.sameBut [.regs, .cnts, .posted, .pwr, .cart] t) ∧
  (∀ (s : State) (b : Bool), s.operating = true → s.pwr.latchOpen ≠ b → b = false ∨ s.cart.power = false →
    ∃ t, exec (.cartLatchChange b) s = .next t ∧ t.pwr = { s.pwr with latchOpen := b } ∧
      t.regs = (s.setFlag Reg.SLOT_STATUS_MRLSC true).regs ∧ t.cart = { s.cart with insertSince := s.tb.uptime } ∧
      s.sameBut [.regs, .pwr, .cart] t) ∧
  (∀ (s : State), s.operating = true → s.slotAuto = false → ∃ t, exec .cartButtonPress s = .next t ∧
    t.regs = (s.setFlag Reg.SLOT_STATUS_ABP true).regs ∧ s.sameBut [.regs] t) ∧
  (∀ (s : State), s.operating = true → s.slotAuto = true → s.bay = 3 ∨ s.bay = 7 ∨ s.bay = 8 → ∃ t, exec .cartButtonPress s = .next t ∧
    t.bay = 4 ∧ t.posted = s.posted ++ [⟨0x0601, 4⟩] ∧ t.cart.stopAt = s.tb.uptime ∧ t.cart.stopFrom = s.bay ∧ t.cart.pwrInd = 2 ∧
    t.cart.attnInd = 3 ∧ t.flag Reg.SLOT_STATUS_ABP = true ∧ s.regsBut [Reg.SLOT_STATE, Reg.SLOT_STATUS] t ∧
    s.sameBut [.regs, .posted, .cart] t) ∧
  (∀ (s : State), s.operating = true → s.slotAuto = true → s.bay = 4 → s.tb.uptime ≤ s.cart.stopAt + 5000000000 →
    s.cart.stopFrom < 16 → ∃ t u v, exec .cartButtonPress s = .next t ∧ t = v.cartKick ∧ u.BayEnters s.cart.stopFrom v ∧
      u.regs = (s.setFlag Reg.SLOT_STATUS_ABP true).regs ∧ s.sameBut [.regs] u) ∧
  (∀ (s : State), s.operating = true → s.slotAuto = true → s.bay = 6 → s.pwr.present = true → ∃ t u, exec .cartButtonPress s = .next t ∧
    u.BayEnters 1 t ∧ u.regs = (s.setFlag Reg.SLOT_STATUS_ABP true).regs ∧ s.sameBut [.regs] u ∧ s.sameBut [.regs, .posted, .cart] t) ∧
  (∀ (s : State), s.operating = true → s.slotAuto = true → s.bay = 0 ∨ s.bay = 1 ∨ s.bay = 2 ∨ s.bay = 5 ∨ s.bay = 9 ∨ s.bay = 10 →
    ∃ t, exec .cartButtonPress s = .next t ∧ t.cnt Cnt.SLOT_BUTTON_IGNORED = (s.cnt Cnt.SLOT_BUTTON_IGNORED + 1) % 2 ^ 64 ∧
      t.regs = (s.setFlag Reg.SLOT_STATUS_ABP true).regs ∧ s.sameBut [.regs, .cnts] t) ∧
  (∀ (s : State), s.operating = true → ∃ t, exec .powerFault s = .next t ∧ t.flag Reg.SLOT_STATUS_PFD = true ∧
    (s.cart.power = false → t.regs = (s.setFlag Reg.SLOT_STATUS_PFD true).regs ∧ s.sameBut [.regs] t) ∧
    (s.cart.power = true → s.slotAuto = true → t.bay = 10 ∧ t.cart.power = false ∧ s.posts [0x0602, 0x0601, 0x0603] t ∧
      s.regsBut [Reg.SLOT_STATE, Reg.SLOT_STATUS] t ∧ s.sameBut [.regs, .cnts, .posted, .cart] t)) ∧
  (∀ (s : State), s.operating = true → s.slotAuto = true → s.bay = 0 → s.pwr.present = true → s.pwr.latchOpen = false →
    s.cart.insertSince + 1000000000 ≤ s.tb.uptime → ∃ t, exec .cartInsertSettled s = .next t ∧ s.BayEnters 1 t ∧
      s.sameBut [.regs, .posted, .cart] t) ∧
  (∀ (s : State), s.bay ≠ 0 ∨ s.pwr.present = false ∨ s.pwr.latchOpen = true ∨ s.tb.uptime < s.cart.insertSince + 1000000000 →
    exec .cartInsertSettled s = .next s) ∧
  (∀ (s : State), s.cart.power = true → s.cart.perst = true → s.cart.poweredAt + 100000000 ≤ s.tb.uptime →
    ∃ t, exec .cartPerstRelease s = .next t ∧ t.cart = { s.cart with perst := false, perstAt := s.tb.uptime } ∧ s.sameBut [.cart] t) ∧
  (∀ (s : State), s.cart.power = false ∨ s.cart.perst = false ∨ s.tb.uptime < s.cart.poweredAt + 100000000 →
    exec .cartPerstRelease s = .next s) ∧
  (∀ (s : State) (v : BitVec 3) (w : BitVec 4), s.cart.power = true → s.cart.perst = false → s.flag Reg.SLOT_STATUS_DLLA = false →
    ∃ t, exec (.cartLinkUp v w) s = .next t ∧ t.flag Reg.SLOT_STATUS_DLLA = true ∧ t.flag Reg.SLOT_STATUS_DLLSC = true ∧
      t.fld Reg.SLOT_STATUS_SPEED = v.toNat ∧ t.fld Reg.SLOT_STATUS_WIDTH = w.toNat ∧ s.issues .enable false [] t ∧ t.cart.ready = false ∧
      (s.slotAuto = true → s.bay = 1 → t.bay = 2 ∧ t.posted = s.posted ++ [⟨0x0601, 2⟩]) ∧
      (s.slotAuto = false ∨ s.bay ≠ 1 → t.bay = s.bay ∧ t.posted = s.posted) ∧
      s.regsBut [Reg.SLOT_STATE, Reg.SLOT_STATUS] t ∧ s.sameBut [.regs, .posted, .cart] t) ∧
  (∀ (s : State) (v : BitVec 3) (w : BitVec 4), s.cart.power = false ∨ s.cart.perst = true ∨ s.flag Reg.SLOT_STATUS_DLLA = true →
    exec (.cartLinkUp v w) s = .next s) ∧
  (∀ (s : State), s.slotAuto = true → s.bay = 1 → s.cart.perst = false → s.cart.perstAt + 1000000000 ≤ s.tb.uptime →
    ∃ t, exec .cartLinkTimeout s = .next t ∧ s.BayEnters 10 t ∧ s.sameBut [.regs, .posted, .cart] t) ∧
  (∀ (s : State), s.bay ≠ 1 ∨ s.cart.perst = true ∨ s.tb.uptime < s.cart.perstAt + 1000000000 → exec .cartLinkTimeout s = .next s) ∧
  (∀ (s : State), s.flag Reg.SLOT_STATUS_DLLA = false → exec .cartLinkDown s = .next s) ∧
  (∀ (s : State), s.flag Reg.SLOT_STATUS_DLLA = true → ∃ t, exec .cartLinkDown s = .next t ∧ t.flag Reg.SLOT_STATUS_DLLA = false ∧
    t.cart.cmds = [] ∧ t.cart.ready = false ∧ t.cart.writing = none ∧
    (s.slotAuto = true → t.bay = 10 ∧ t.cart.power = false ∧ t.posted = s.posted ++ [⟨0x0601, 10⟩]) ∧
    (s.slotAuto = false → t.bay = s.bay ∧ t.posted = s.posted) ∧
    s.regsBut [Reg.SLOT_STATE, Reg.SLOT_STATUS] t ∧ s.sameBut [.regs, .posted, .cart] t) ∧
  (∀ (s : State), s.bay = 4 → s.cart.stopAt + 5000000000 < s.tb.uptime → s.cart.cmds = [] → s.cart.writing = none → s.cart.shutAt = none →
    ∃ t, exec .cartStopTimeout s = .next t ∧ t.bay = 5 ∧ s.issues .shutdown false [] t ∧ t.cart.shutAt = some s.tb.uptime ∧
      t.posted = s.posted ++ [⟨0x0601, 5⟩] ∧ s.sameBut [.regs, .posted, .cart] t) ∧
  (∀ (s : State) (g : RecSegment), s.bay = 4 → s.cart.stopAt + 5000000000 < s.tb.uptime → s.cart.closed = [g] → g.ride = false →
    s.cart.writing = none → 0 < s.rideSize → ∃ t, exec .cartStopTimeout s = .next t ∧ t.bay = 5 ∧
      t.cart.closed = [{ g with ride := true }] ∧ s.sameBut [.regs, .posted, .cart] t) ∧
  (∀ (s : State), s.bay ≠ 4 ∨ s.tb.uptime ≤ s.cart.stopAt + 5000000000 → exec .cartStopTimeout s = .next s) ∧
  (∀ (s : State), s.bay = 5 → s.cart.shutAt.isSome = true → ∃ t, exec .cartShutdownDone s = .next t ∧ s.BayEnters 6 t ∧
    s.sameBut [.regs, .posted, .cart] t) ∧
  (∀ (s : State) (a : Nat), s.bay = 5 → s.cart.shutAt = some a → a + 10000000000 ≤ s.tb.uptime →
    ∃ t, exec .cartShutdownTimeout s = .next t ∧ s.BayEnters 6 t ∧ s.sameBut [.regs, .posted, .cart] t) ∧
  (∀ (s : State), s.bay ≠ 5 ∨ s.cart.shutAt = none → exec .cartShutdownDone s = .next s ∧ exec .cartShutdownTimeout s = .next s)

/-- R476, R480 to R489: the recorder's commands, labels, segments and recording copies. Where a clause follows a
choice of the model, the log names it: entries 142, 143, 146, 147, 213. -/
def Obligations.RecorderWritesSegmentsAndLabels : Prop :=
  (∀ (s : State) (id : Nat) (b : Bool) (d : NvmeData), (s.cart.cmds.find? fun c => Nat.beq c.id id) = none →
    exec (.nvmeCompletion id b d) s = .next s ∧ exec (.nvmeTimeout id) s = .next s) ∧
  (∀ (s : State) (c : NvmeCmd) (k : Nat) (d : NvmeData), s.cart.cmds = [c] → ∀ p ∈ [(NvmeOp.enable, NvmeOp.identifyController), (.createCq, .createSq),
    (.createSq, .readLabel 0), (.freshLabel 1, .freshFlush), (.writeLabel k, .flush k)], c.op = p.1 →
    ∃ t, exec (.nvmeCompletion c.id true d) s = .next t ∧ s.issues p.2 false [] t ∧
      t.cart = { s.cart with cmds := t.cart.cmds, nextCmd := t.cart.nextCmd } ∧ s.sameBut [.cart] t) ∧
  (∀ (s : State) (c : NvmeCmd) (d : NvmeData), s.cart.cmds = [c] → State.nvmeRetried c.op = true → c.again = false →
    ∃ t, exec (.nvmeCompletion c.id false d) s = .next t ∧ s.issues c.op true [] t ∧
      t.cnt Cnt.SLOT_CMD_RETRY = (s.cnt Cnt.SLOT_CMD_RETRY + 1) % 2 ^ 64 ∧ s.sameBut [.cnts, .cart] t) ∧
  (∀ (s : State) (c : NvmeCmd) (d : NvmeData), s.cart.cmds = [c] → s.slotAuto = true → c.op = .enable → ∃ t, exec (.nvmeCompletion c.id false d) s = .next t ∧
    t.bay = 10 ∧ t.cart.power = false ∧ t.posted = s.posted ++ [⟨0x0601, 10⟩] ∧ s.sameBut [.regs, .posted, .cart] t) ∧
  (∀ (s : State) (c : NvmeCmd) (lba cap : Nat) (a : Bool), s.cart.cmds = [c] → c.op = .identifyNamespace → cap < 2 ^ 64 →
    ∃ t, exec (.nvmeCompletion c.id true (.namespaceInfo a lba 0 cap)) s = .next t ∧ t.rd64 Reg.SLOT_CAP_LO = cap ∧
      (a = true → lba = 512 ∨ lba = 4096 → s.cart.mdts = 0 ∨ 131072 ≤ s.cart.mdts → 16 ≤ s.slotCount cap →
        t.cart.lba = lba ∧ s.issues .createCq false [] t ∧ s.sameBut [.regs, .cart] t) ∧
      (a = false ∨ s.slotCount cap < 16 → s.slotAuto = true →
        t.bay = 9 ∧ t.cart.power = false ∧ s.posts [0x0601, 0x0607] t ∧ s.sameBut [.regs, .posted, .cart] t)) ∧
  (∀ (s : State) (c : NvmeCmd) (l : CartLabel), s.cart.cmds = [c] → c.op = .readLabel 1 → s.cart.copies = [some l] →
    l.created = Config.serial.toNat → l.segLog2 = s.fld Reg.SLOT_REC_CFG_SEG_LOG2 → s.slotAuto = true → s.bay = 2 → s.cart.writing = none →
    s.cart.closed = [] → ∃ t, exec (.nvmeCompletion c.id true .none) s = .next t ∧ t.bay = 3 ∧ t.cart.label = some l ∧ t.cart.copy = 1 ∧
      t.cart.ready = true ∧ t.cart.cmds = [] ∧ t.posted = s.posted ++ [⟨0x0601, 3⟩] ∧ s.sameBut [.regs, .posted, .cart] t) ∧
  (∀ (s : State) (c : NvmeCmd) (l : CartLabel), s.cart.cmds = [c] → c.op = .readLabel 1 → s.cart.copies = [some l] →
    l.segLog2 ≠ s.fld Reg.SLOT_REC_CFG_SEG_LOG2 → s.slotAuto = true → s.bay = 2 →
    ∃ t, exec (.nvmeCompletion c.id true .none) s = .next t ∧ t.bay = 8 ∧ t.cart.label = s.cart.label ∧ t.cart.cmds = [] ∧
      t.posted = s.posted ++ [⟨0x0601, 8⟩] ∧ s.sameBut [.regs, .posted, .cart] t) ∧
  (∀ (s : State) (c : NvmeCmd) (d : NvmeData) (l : CartLabel) (k slot : Nat), s.cart.cmds = [c] → c.op = .writeSegment k → s.cart.label = some l →
    s.cart.writing = some (k, slot, 0) → s.fld Reg.SLOT_REC_CTRL_VERIFY = 0 → ∃ t, exec (.nvmeCompletion c.id true d) s = .next t ∧
      t.out = s.out ++ [.cartWrite (524288 * s.cart.copy) ((s.nextLabel k slot l).image ++ List.replicate 4032 0)] ∧
      t.cart.label = some (s.nextLabel k slot l) ∧ t.cart.copy = 1 - s.cart.copy ∧ t.cart.written = s.cart.written + 1 ∧
      s.issues (.writeLabel k) false [] t ∧ t.cart.closed = s.cart.closed ∧ s.sameBut [.out, .cart] t) ∧
  (∀ (s : State) (c : NvmeCmd) (d : NvmeData) (k slot n : Nat), s.cart.cmds = [c] → c.op = .writeSegment k → s.cart.writing = some (k, slot, n + 1) →
    ∃ t, exec (.nvmeCompletion c.id true d) s = .next t ∧ t.cart.writing = some (k, slot, n) ∧ s.issues (.writeSegment k) false [] t ∧
      s.sameBut [.cart] t) ∧
  (∀ (s : State) (c : NvmeCmd) (d : NvmeData) (g : RecSegment) (l : CartLabel), s.cart.cmds = [c] → c.op = .flush g.seq → s.cart.closed = [g] →
    s.bay = 3 → s.cart.label = some l → l.nextSlot < l.slotCount → Table.get (fun _ => 0) s.lastPost 0x0608 = 0 →
    (∀ k, k < 32 → (s.chan k).line ≠ some 27) → ∃ t, exec (.nvmeCompletion c.id true d) s = .next t ∧ t.cart.closed = [] ∧
      t.cart.writing = none ∧ t.cart.cmds = [] ∧ t.fld Reg.SLOT_BACKLOG_SEGMENTS = 0 ∧
      t.cnt Cnt.SLOT_SEGMENTS_WRITTEN = (s.cnt Cnt.SLOT_SEGMENTS_WRITTEN + 1) % 2 ^ 64 ∧
      t.posted = s.posted ++ [⟨0x0608, 3 + g.seq % 2 ^ 32 * 2 ^ 32⟩] ∧ s.sameBut [.regs, .cnts, .posted, .lastPost, .cart] t) ∧
  (∀ (s : State) (c : NvmeCmd) (g : RecSegment) (b i : List Byte) (l : CartLabel) (slot n : Nat), s.cart.cmds = [c] →
    c.op = .readSegment g.seq → s.cart.closed = [g] → s.cart.writing = some (g.seq, slot, n) → s.cart.label = some l →
    i = s.segmentImage g → crc32 ((b.take (leNat ((i.drop 24).take 4))).drop 64) = leNat ((i.drop 56).take 4) →
    ∃ t, exec (.nvmeCompletion c.id true (.bytes b)) s = .next t ∧
      t.out = s.out ++ [.cartWrite (524288 * s.cart.copy) ((s.nextLabel g.seq slot l).image ++ List.replicate 4032 0)] ∧
      t.cart.label = some (s.nextLabel g.seq slot l) ∧ t.cart.copy = 1 - s.cart.copy ∧ s.issues (.writeLabel g.seq) false [] t ∧
      t.cart.closed = [g] ∧ s.sameBut [.out, .cart] t) ∧
  (∀ (s : State) (c : NvmeCmd) (g : RecSegment) (b i : List Byte) (slot n : Nat), s.cart.cmds = [c] → c.op = .readSegment g.seq →
    s.cart.closed = [g] → s.cart.writing = some (g.seq, slot, n) → i = s.segmentImage g →
    crc32 ((b.take (leNat ((i.drop 24).take 4))).drop 64) ≠ leNat ((i.drop 56).take 4) → g.rewrites < 2 →
    Table.get (fun _ => 0) s.lastPost 0x0605 = 0 → ∃ t u, exec (.nvmeCompletion c.id true (.bytes b)) s = .next t ∧ t = u.cartKick ∧
      u.cart = { s.cart with
        cmds := [], writing := none, closed := [{ g with rewrites := g.rewrites + 1 }]
        label := s.cart.label.map fun l => { l with
          nextSlot := if slot + 1 = l.slotCount ∧ s.flag Reg.SLOT_REC_CTRL_WRAP = true then 0 else slot + 1 } } ∧
      u.cnt Cnt.SLOT_VERIFY_FAIL = (s.cnt Cnt.SLOT_VERIFY_FAIL + 1) % 2 ^ 64 ∧ s.posts [0x0605] u ∧
      s.sameBut [.cnts, .posted, .lastPost, .cart] u ∧ s.sameBut [.cnts, .posted, .lastPost, .cart, .out] t) ∧
  (∀ (s : State) (c : NvmeCmd) (g : RecSegment), s.cart.cmds = [c] → c.op = .readSegment g.seq → s.cart.closed = [g] → g.rewrites = 2 →
    s.slotAuto = true → Table.get (fun _ => 0) s.lastPost 0x0605 = 0 → ∃ t, exec (.nvmeCompletion c.id false .none) s = .next t ∧
      t.bay = 10 ∧ t.cart.power = false ∧ t.cart.closed.map (·.rewrites) = [3] ∧
      t.cnt Cnt.SLOT_VERIFY_FAIL = (s.cnt Cnt.SLOT_VERIFY_FAIL + 1) % 2 ^ 64 ∧ s.posts [0x0605, 0x0601] t ∧
      s.sameBut [.regs, .cnts, .posted, .lastPost, .cart] t) ∧
  (∀ (s : State) (c : NvmeCmd), s.cart.cmds = [c] → s.tb.uptime < c.since + 5000000000 ∨ c.op = .shutdown →
    exec (.nvmeTimeout c.id) s = .next s) ∧
  (∀ (s : State) (c : NvmeCmd), s.cart.cmds = [c] → c.since + 5000000000 ≤ s.tb.uptime → c.op ≠ .shutdown → ∃ t, exec (.nvmeTimeout c.id) s = .next t ∧
    (s.cart.resets = 0 → t.cart.resets = 1 ∧ t.cart.ready = false ∧ t.cart.writing = none ∧ s.issues .enable false [] t ∧ s.sameBut [.cart] t) ∧
    (s.cart.resets ≠ 0 → s.slotAuto = true → s.BayEnters 10 t ∧ s.sameBut [.regs, .posted, .cart] t)) ∧
  (∀ (s : State), s.bay ≠ 8 ∨ s.cart.cmds ≠ [] → exec .label s = .next s) ∧
  (∀ (s : State), s.bay = 8 → s.cart.cmds = [] → ∃ t, exec .label s = .next t ∧ t.cart.label = some s.freshLabel ∧
    t.out = s.out ++ [.cartWrite 0 (s.freshLabel.image ++ List.replicate 4032 0)] ∧ s.issues (.freshLabel 0) false [] t ∧ s.sameBut [.out, .cart] t) ∧
  (∀ (s : State), s.recCopies = [] → s.dmaQuiet → exec .recordingCopy s = .next s) ∧
  (∀ (s : State) (c : RecCopy) (l : List RecCopy) (g : RecSegment), s.recCopies = c :: l → s.dmaQuiet → s.cart.opened = some g →
    (64 + g.body.length + 32 + c.bytes.length + 7) / 8 * 8 ≤ s.segBytes → ∃ t, exec .recordingCopy s = .next t ∧ t.recCopies = l ∧
      t.cart = { s.cart with opened := some { g with
        records := g.records + 1, body := g.body ++ recordBytes c c.rxUp, lastUp := c.rxUp
        firstUp := if g.records = 0 then c.rxUp else g.firstUp
        since := if g.records = 0 then s.tb.uptime else g.since } } ∧
      t.cnt Cnt.SLOT_RECORDS = (s.cnt Cnt.SLOT_RECORDS + 1) % 2 ^ 64 ∧
      t.frame c.frame = { s.frame c.frame with copies := (s.frame c.frame).copies - 1 } ∧ s.sameBut [.cnts, .frames, .recCopies, .cart] t) ∧
  (∀ (s : State) (c : RecCopy) (l : List RecCopy), s.recCopies = c :: l → s.dmaQuiet → s.cart.opened = none → s.cart.closed = [] → 0 < s.poolSize →
    ∃ t, exec .recordingCopy s = .next t ∧ t.rd64 Reg.SLOT_NEXT_SEQ_LO = (s.rd64 Reg.SLOT_NEXT_SEQ_LO + 1) % 2 ^ 64 ∧
      t.cart = { s.cart with dropped := false, opened := some {
        seq := s.rd64 Reg.SLOT_NEXT_SEQ_LO, flags := if s.cart.dropped then 2 else 0, records := 1, body := recordBytes c c.rxUp
        firstUp := c.rxUp, lastUp := c.rxUp, since := s.tb.uptime } } ∧
      t.cnt Cnt.SLOT_RECORDS = (s.cnt Cnt.SLOT_RECORDS + 1) % 2 ^ 64 ∧ s.sameBut [.regs, .cnts, .frames, .recCopies, .cart] t) ∧
  (∀ (s : State) (c : RecCopy) (l : List RecCopy), s.recCopies = c :: l → s.dmaQuiet → s.cart.opened = none → s.cart.closed = [] → s.poolSize = 0 →
    s.cart.ridePosted = false → ∃ t, exec .recordingCopy s = .next t ∧ t.cart = { s.cart with dropped := true, ridePosted := true } ∧
      t.cnt Cnt.SLOT_REC_DROPPED = (s.cnt Cnt.SLOT_REC_DROPPED + 1) % 2 ^ 64 ∧ t.posted = s.posted ++ [⟨0x0604, s.bay⟩] ∧
      s.sameBut [.cnts, .posted, .frames, .recCopies, .cart] t) ∧
  (∀ (s : State), s.cart.opened = none → exec .segmentCloseTimeout s = .next s) ∧
  (∀ (s : State) (g : RecSegment), s.cart.opened = some g →
    g.records = 0 ∨ s.tb.uptime < g.since + s.fld Reg.SLOT_REC_CFG_SEG_MAX_MS * 1000000 → exec .segmentCloseTimeout s = .next s) ∧
  (∀ (s : State) (g : RecSegment), s.cart.opened = some g → 0 < g.records → s.dmaQuiet → s.cart.closed = [] → s.direct = true → 1 < s.poolSize →
    s.cart.ready = false → s.bay = 3 → g.since + s.fld Reg.SLOT_REC_CFG_SEG_MAX_MS * 1000000 ≤ s.tb.uptime →
    (∀ k, k < 32 → (s.chan k).line ≠ some 26) → ∃ t, exec .segmentCloseTimeout s = .next t ∧
      t.cart = { s.cart with opened := none, closed := [{ g with flags := g.flags + 1 }] } ∧ t.fld Reg.SLOT_BACKLOG_SEGMENTS = 1 ∧
      s.regsBut [Reg.SLOT_BACKLOG] t ∧ s.sameBut [.regs, .cart] t) ∧
  (∀ (s : State) (a n : Nat), s.partOf 4 = none → s.partOf 5 = none → Table.get (fun _ => 0) s.lastPost 0x0606 = 0 →
    ∃ t, exec (.badInbound a n) s = .next t ∧ t.cnt Cnt.SLOT_BAD_INBOUND = (s.cnt Cnt.SLOT_BAD_INBOUND + 1) % 2 ^ 64 ∧
      t.posted = s.posted ++ [⟨0x0606, s.bay⟩] ∧ s.sameBut [.cnts, .posted, .lastPost] t) ∧
  (∀ (s : State) (p : Partition) (a n : Nat), s.partOf 4 = some p ∨ s.partOf 5 = some p → p.base ≤ a → a + n ≤ p.base + p.size →
    exec (.badInbound a n) s = .next s)

/-- R496 to R500, R503, R505 to R508, R512 to R514: the Guard: heartbeats, takeover, handover, state copy,
self-tests, spare rows. Where a clause follows a choice of the model, the log names it: entries 150, 151, 152, 153,
154, 155, 156, 157, 158, 159, 160, 161, 214. -/
def Obligations.GuardWatchesTakesOverAndTests : Prop :=
  (∀ (s : State) (b : Bool) (x y z : BitVec 16), s.guardState = 0 ∨ s.operating = false ∨
    s.hasLiaison (if b then s.ctrlStandby else s.ctrlActive) = false ∨ s.beatDue (if b then s.ctrlStandby else s.ctrlActive) = false →
    exec (.heartbeatSend b x y z) s = .next s) ∧
  (∀ (s : State) (b : Bool) (x y z : BitVec 16) (f : Nat), f = (if b then s.ctrlStandby else s.ctrlActive) → s.guardState ≠ 0 →
    s.operating = true → s.hasLiaison f = true → s.beatDue f = true → ∃ t, exec (.heartbeatSend b x y z) s = .next t ∧
      t.guard.beats = s.guard.beats ++ [{
        folio := f, seq := Table.get (fun _ => 0) s.guard.beatSeq f, alive := [x.toNat, y.toNat, z.toNat], ready := s.folioReady f
        act := decide (f = s.ctrlActive)
        epoch := if f = s.ctrlActive then s.guard.epoch - s.guard.copying.toNat else (s.rd Reg.GUARD_EPOCH_LAST).toNat }] ∧
      Table.get (fun _ => 0) t.guard.beatSeq f = (Table.get (fun _ => 0) s.guard.beatSeq f + 1) % 2 ^ 16 ∧ t.beatDue f = false ∧ s.sameBut [.guard] t) ∧
  (∀ (s : State), s.guard.beats = [] → exec .heartbeatReceive s = .next s) ∧
  (∀ (s : State) (b : Heartbeat) (l : List Heartbeat), s.guard.beats = b :: l → ∃ t, exec .heartbeatReceive s = .next t ∧ t.guard.beats = l ∧
    Table.get (fun _ => 0) t.guard.beat b.folio = s.tb.uptime + 1 ∧
    (b.folio = s.ctrlActive → s.guardState ≠ 2 → s.sameBut [.guard] t ∧
      ∀ k, k < 3 → (Table.get (fun _ => (0, 0)) t.guard.alive k).1 = b.alive.getD k 0 + 1) ∧
    (b.folio = s.ctrlActive → s.guardState = 2 → b.act = true → s.guard.resumed = false → t.guard.resumed = true ∧
      t.fld Reg.GUARD_LAST_GAP_US = min 65535 ((s.tb.uptime - s.guard.oldBeat) / 1000) ∧
      t.tb = { s.tb with rate := s.tb.saved.1, rates := s.tb.saved.2, inBound := 0, outBound := 0 } ∧ s.sameBut [.regs, .guard, .tb, .ptp] t) ∧
    (b.folio = s.ctrlStandby → b.folio ≠ s.ctrlActive → b.ready = true → t.guard.ready = true ∧ s.sameBut [.guard] t) ∧
    (b.folio = s.ctrlStandby → b.folio ≠ s.ctrlActive → b.ready = false → s.standbyValid = true →
      t.standbyValid = false ∧ s.posts [0x0205] t ∧ s.sameBut [.regs, .posted, .free, .guard] t)) ∧
  (∀ (s : State), s.guardWatches = false ∨ s.silent s.ctrlActive = false → exec .ctrlMissed s = .next s) ∧
  (∀ (s : State) (r : Fin 3), s.guardWatches = false ∨ (Table.get (fun _ => (0, 0)) s.guard.alive r).1 = 0 ∨
    s.tb.uptime < (Table.get (fun _ => (0, 0)) s.guard.alive r).2 + s.fld Reg.GUARD_STALL_STALL_US * 1000 →
    exec (.ctrlStall r) s = .next s) ∧
  (∀ (s : State), s.guardState = 1 → s.standbyValid = true → s.operating = true → s.guard.handover = none → s.imp.reimp.migratingOut = 0 →
    (s.silent s.ctrlActive = true → ∃ t l, exec .ctrlMissed s = .next t ∧ t.ctrlActive = s.ctrlStandby ∧ t.ctrlStandby = s.ctrlActive ∧
      t.guardState = 2 ∧ t.standbyValid = false ∧ t.fld Reg.GUARD_LAST_CAUSE = 1 ∧ t.mode = s.mode ∧
      t.posted = s.posted ++ ⟨0x0302, 7 + s.ctrlActive * 2 ^ 16⟩ :: ⟨0x0201, 1 + s.ctrlActive * 2 ^ 8 + s.ctrlStandby * 2 ^ 16⟩ :: l ∧
      t.cnt Cnt.GUARD_TAKEOVERS = (s.cnt Cnt.GUARD_TAKEOVERS + 1) % 2 ^ 64 ∧
      t.cnt Cnt.GUARD_HEARTBEATS_MISSED = (s.cnt Cnt.GUARD_HEARTBEATS_MISSED + 3) % 2 ^ 64 ∧
      s.sameBut [.regs, .cnts, .posted, .lastPost, .out, .free, .units, .spine, .frames, .queues, .flows, .items, .engines, .guard] t) ∧
    (∀ r : Fin 3, (Table.get (fun _ => (0, 0)) s.guard.alive r).1 ≠ 0 →
      (Table.get (fun _ => (0, 0)) s.guard.alive r).2 + s.fld Reg.GUARD_STALL_STALL_US * 1000 ≤ s.tb.uptime →
      ∃ t, exec (.ctrlStall r) s = .next t ∧ t.ctrlActive = s.ctrlStandby ∧ t.ctrlStandby = s.ctrlActive ∧ t.guardState = 2 ∧
        t.standbyValid = false ∧ t.fld Reg.GUARD_LAST_CAUSE = 3 ∧ t.cnt Cnt.GUARD_TAKEOVERS = (s.cnt Cnt.GUARD_TAKEOVERS + 1) % 2 ^ 64)) ∧
  (∀ (s : State), s.guardState = 1 → s.standbyValid = false → s.operating = true → s.silent s.ctrlActive = true →
    ∃ t, exec .ctrlMissed s = .next t ∧ t.mode = 7 ∧ t.fld Reg.GLB_MODE_CAUSE = 0x0E) ∧
  (∀ (s : State), s.guardWatches = true → s.standbyValid = true →
    (s.silent s.ctrlStandby = true ∨ s.guard.ready = false → ∃ t, exec .noStandby s = .next t ∧ t.standbyValid = false ∧ s.posts [0x0205] t ∧
      t.cnt Cnt.GUARD_HEARTBEATS_MISSED =
        (if s.silent s.ctrlStandby then (s.cnt Cnt.GUARD_HEARTBEATS_MISSED + 3) % 2 ^ 64 else s.cnt Cnt.GUARD_HEARTBEATS_MISSED) ∧
      s.regsBut [Reg.GUARD_STATUS] t ∧ s.sameBut [.regs, .cnts, .posted, .free] t) ∧
    (s.silent s.ctrlStandby = false → s.guard.ready = true → exec .noStandby s = .next s)) ∧
  (∀ (s : State), s.guardWatches = false ∨ s.standbyValid = false → exec .noStandby s = .next s) ∧
  (∀ (s : State) (m : BitVec 5), s.guardState ≠ 2 ∨ s.guard.resumed = false → exec (.takeoverDone m) s = .next s) ∧
  (∀ (s : State) (m : BitVec 5), s.guardState = 2 → s.guard.resumed = true → s.quireUp (quireOf s.ctrlStandby) = true →
    s.units.folioOut.getLsbD s.ctrlStandby = false → (∀ e ∈ State.folioEngines s.ctrlStandby, s.engState e ≠ 6) →
    ∃ t d, exec (.takeoverDone m) s = .next t ∧ t.guardState = (if m = 0 then 1 else 4) ∧ t.posted.getLast? = some ⟨0x0202, d⟩) ∧
  (∀ (s : State), s.operating = false → exec .guardHandoverWrite s = .next s) ∧
  (∀ (s : State), s.operating = true → ∃ t, exec .guardHandoverWrite s = .next t ∧
    (s.guardState = 1 → s.standbyValid = true → t.guardState = 3 ∧ t.guard = { s.guard with handover := some { since := s.tb.uptime } } ∧
      s.regsBut [Reg.GUARD_STATUS] t ∧ s.sameBut [.regs, .engines, .guard] t) ∧
    (s.guardState ≠ 1 ∨ s.standbyValid = false → s.posts [0x0204] t ∧
      t.cnt Cnt.GUARD_HANDOVER_REFUSED = (s.cnt Cnt.GUARD_HANDOVER_REFUSED + 1) % 2 ^ 64 ∧ s.sameBut [.cnts, .posted, .free] t)) ∧
  (∀ (s : State), s.guard.handover = none ∨ s.guardState ≠ 3 ∨ s.operating = false → exec .handoverRefused s = .next s) ∧
  (∀ (s : State) (h : Handover), s.guard.handover = some h →
    s.tb.uptime < h.since + 2 * s.guard.epochUs * 1000 + 2 * s.ringCycleNs → exec .handoverRefused s = .next s) ∧
  (∀ (s : State) (h : Handover), s.guard.handover = some h → s.guardState = 3 → s.operating = true → h.origin = 0 →
    h.since + 2 * s.guard.epochUs * 1000 + 2 * s.ringCycleNs ≤ s.tb.uptime → ∃ t, exec .handoverRefused s = .next t ∧ t.guardState = 1 ∧
      t.guard = { s.guard with handover := none } ∧ s.posts [0x0204] t ∧ s.sameBut [.regs, .cnts, .posted, .free, .guard] t) ∧
  (∀ (s : State), s.operating = false ∨ s.guardState = 0 ∨ s.tb.uptime % (s.guard.epochUs * 1000) ≠ 0 → exec .epochBoundary s = .next s) ∧
  (∀ (s : State), s.operating = true → s.guardState ≠ 0 → s.tb.uptime % (s.guard.epochUs * 1000) = 0 → ∃ t, exec .epochBoundary s = .next t ∧
    t.guard = { s.guard with
      epochUs := s.fld Reg.GUARD_EPOCH_EPOCH_US, epoch := (s.guard.epoch + 1) % 2 ^ 32
      copying := decide (s.guardState = 1 ∨ s.guardState = 3 ∨ s.guardState = 5)
      copyServo := if s.guardState = 1 ∨ s.guardState = 3 ∨ s.guardState = 5 then (s.tb.rate, s.tb.rates) else s.guard.copyServo
      copyRing := if s.guardState = 1 ∨ s.guardState = 3 ∨ s.guardState = 5 then
          if s.systemActive && s.pairOn then some s.ringEpoch else none
        else s.guard.copyRing } ∧
    (s.guard.copying = false → s.sameBut [.engines, .guard] t) ∧
    (s.guard.copying = true → t.cnt Cnt.GUARD_EPOCH_TORN = (s.cnt Cnt.GUARD_EPOCH_TORN + 1) % 2 ^ 64 ∧
      s.sameBut [.cnts, .posted, .lastPost, .free, .engines, .guard] t)) ∧
  (∀ (s : State) (n : BitVec 32) (a b : Bool) (l : List Replay), s.guard.copying = false ∨ n.toNat ≠ s.guard.epoch ∨ s.epochMayCross = false →
    exec (.epochTrailer n false a b l) s = .next s) ∧
  (∀ (s : State) (n : BitVec 32), s.guard.copying = true → n.toNat = s.guard.epoch → s.epochMayCross = true →
    ∀ p ∈ [(false, false), (false, true), (true, false)], ∃ t, exec (.epochTrailer n false p.1 p.2 []) s = .next t ∧
      t.guard = { s.guard with copying := false } ∧ t.cnt Cnt.GUARD_EPOCH_TORN = (s.cnt Cnt.GUARD_EPOCH_TORN + 1) % 2 ^ 64 ∧
      t.spine = s.epochCrosses.spine ∧ s.sameBut [.cnts, .posted, .lastPost, .free, .spine, .guard] t) ∧
  (∀ (s : State) (n : BitVec 32), s.guard.copying = true → n.toNat = s.guard.epoch → s.epochMayCross = true → ∃ t, exec (.epochTrailer n false true true []) s = .next t ∧
    t.guard = { s.guard with copying := false } ∧ t.rd Reg.GUARD_EPOCH_LAST = n ∧
    t.cnt Cnt.GUARD_EPOCHS = (s.cnt Cnt.GUARD_EPOCHS + 1) % 2 ^ 64 ∧
    t.standbyValid = (s.standbyValid || (decide (s.guardState = 1 ∨ s.guardState = 3) && s.guard.ready && !s.silent s.ctrlStandby)) ∧
    t.tb = { s.tb with saved := s.guard.copyServo } ∧ t.spine = s.epochCrosses.spine ∧
    (∀ e, s.guard.copyRing = some e → s.systemActive = true → s.pairOn = true → t.out = s.out ++ [.pairEpoch e]) ∧
    (s.guard.copyRing = none ∨ s.systemActive = false ∨ s.pairOn = false → t.out = s.out) ∧
    s.regsBut [Reg.GUARD_STATUS, Reg.GUARD_EPOCH_LAST] t ∧ s.sameBut [.regs, .cnts, .out, .spine, .guard, .tb] t) ∧
  (∀ (s : State) (n : BitVec 32) (h : Handover), s.guard.copying = true ∧ n.toNat = s.guard.epoch ∨
      s.guard.copying = false ∧ n.toNat = (s.guard.epoch + 1) % 2 ^ 32 → s.epochMayCross = true → s.guard.handover = some h → h.origin = 0 →
    s.guardState = 3 → s.ringRuns = false → ∃ t, exec (.epochTrailer n true true true []) s = .next t ∧ t.ctrlActive = s.ctrlStandby ∧
      t.ctrlStandby = s.ctrlActive ∧ t.guardState = 1 ∧ t.fld Reg.GUARD_LAST_CAUSE = 5 ∧ t.guard.handover = none ∧
      t.cnt Cnt.GUARD_HANDOVERS = (s.cnt Cnt.GUARD_HANDOVERS + 1) % 2 ^ 64) ∧
  (∀ (s : State) (x : SelfTest), s.standbyValid = false → exec (.selfTest x) s = .next s) ∧
  (∀ (s : State) (e : Fin 160), s.standbyValid = true → s.flag Reg.HLTH_TEST_CFG_KAT_EN = true → s.mayTest e = true →
    ∃ t, exec (.selfTest (.kat e true)) s = .next t ∧ t.cnt Cnt.HLTH_KAT_RUN = (s.cnt Cnt.HLTH_KAT_RUN + 1) % 2 ^ 64 ∧
      s.countsBut [Cnt.HLTH_KAT_RUN] t ∧ s.sameBut [.cnts] t) ∧
  (∀ (s : State) (a : RowArray), s.standbyValid = true → s.flag Reg.HLTH_TEST_CFG_MARCH_EN = true →
    s.rowsUsed (State.rowKey a).1 < (State.rowKey a).2 → Table.get (fun _ => 0) s.lastPost 0x0304 = 0 → Table.get (fun _ => 0) s.lastPost 0x0307 = 0 →
    ∃ t, exec (.selfTest (.march a false)) s = .next t ∧ t.rowsUsed (State.rowKey a).1 = s.rowsUsed (State.rowKey a).1 + 1 ∧
      s.posts [0x0307, 0x0304] t ∧ t.cnt Cnt.HLTH_MARCH_FAIL = (s.cnt Cnt.HLTH_MARCH_FAIL + 1) % 2 ^ 64 ∧
      t.cnt Cnt.HLTH_ROWS_SPARED = (s.cnt Cnt.HLTH_ROWS_SPARED + 1) % 2 ^ 64 ∧ s.sameBut [.cnts, .posted, .lastPost, .free, .guard] t) ∧
  (∀ (s : State), s.standbyValid = true → ∃ t, exec (.selfTest .passDone) s = .next t ∧
    t.guard = { s.guard with lastPass := s.tb.uptime / 1000000 % 2 ^ 32 } ∧ s.sameBut [.guard] t) ∧
  (∀ (s : State) (k : Nat), 99000 ≤ k → k ≤ 101400 → exec (.guardOscCheck k) s = .next s) ∧
  (∀ (s : State) (k : Nat), k < 99000 ∨ 101400 < k → s.mode < 6 → s.guardState ≠ 5 → ∃ t l, exec (.guardOscCheck k) s = .next t ∧
    t.guardState = 5 ∧ t.posted = s.posted ++ ⟨0x0302, 0x10⟩ :: l ∧ t.mode = s.mode ∧
    s.sameBut [.regs, .cnts, .posted, .free, .flows, .ring, .engines, .evt, .guard] t) ∧
  (∀ (s : State) (q : Fin 16) (c : BitVec 8), s.rowsUsed q < 64 → Table.get (fun _ => 0) s.lastPost 0x0304 = 0 →
    ∃ t, exec (.rowSpared (.quireStore q) c) s = .next t ∧ t.rowsUsed q = s.rowsUsed q + 1 ∧ (∀ k, k ≠ q.val → t.rowsUsed k = s.rowsUsed k) ∧
      t.cnt Cnt.HLTH_SRAM_CE = (s.cnt Cnt.HLTH_SRAM_CE + s.fld Reg.HLTH_ROW_CFG_CE_LIMIT) % 2 ^ 64 ∧ s.posts [0x0304] t ∧
      t.cnt Cnt.HLTH_ROWS_SPARED = (s.cnt Cnt.HLTH_ROWS_SPARED + 1) % 2 ^ 64 ∧ s.sameBut [.cnts, .posted, .lastPost, .free, .guard] t) ∧
  (∀ (s : State) (c : BitVec 8), 256 ≤ s.rowsUsed 208 → ∃ t, exec (.rowSpared .packetBuffer c) s = .next t ∧
    t.cells = { s.cells with
      free := s.cells.free - min c.toNat s.cells.free, allocated := s.cells.allocated + min c.toNat s.cells.free
      markedOut := s.cells.markedOut + min c.toNat s.cells.free } ∧ s.posts [0x0305] t ∧
    t.cnt Cnt.HLTH_ROW_SPARES_OUT = (s.cnt Cnt.HLTH_ROW_SPARES_OUT + 1) % 2 ^ 64 ∧ s.sameBut [.cnts, .posted, .free, .cells] t) ∧
  (∀ (s : State), s.guardState = 2 → s.guard.resumed = true → s.quireUp (quireOf s.ctrlStandby) = true →
    s.units.folioOut.getLsbD s.ctrlStandby = false → ∃ t d, exec (.takeoverDone 0) s = .next t ∧ t.guardState = 1 ∧
      t.posted = s.posted ++ [⟨0x0202, d⟩] ∧ (∀ e ∈ State.folioEngines s.ctrlStandby, t.engState e ≠ 6) ∧
      s.sameBut [.regs, .cnts, .posted, .free, .engines] t)

/-- R515 to R523, R552, R566: the bound pair and its link, the colophon, the thermal monitor and the SMBus target.
Where a clause follows a choice of the model, the log names it: entries 44, 164, 170, 171, 172, 173, 174, 214, 215,
216. -/
def Obligations.PairVotesAndHealthIsReported : Prop :=
  (∀ (s : State), s.pairOn = false ∨ s.tb.uptime / 100000 < s.pair.sentSlot → exec .pairHeartbeatSend s = .next s) ∧
  (∀ (s : State), s.pairOn = true → s.pair.sentSlot ≤ s.tb.uptime / 100000 → ∃ t, exec .pairHeartbeatSend s = .next t ∧
    t.out = s.out ++ [.pairHeartbeat s.ownVote Config.serial.toNat] ∧
    t.pair = { s.pair with sentSlot := s.tb.uptime / 100000 + 1 } ∧ s.sameBut [.out, .pair] t) ∧
  (∀ (s : State) (v : Fin 3) (n : BitVec 64) (p : BitVec 8) (a : Bool) (b c : BitVec 32) (d : BitVec 10) (e : PairEpoch) (k : Bool), s.pairOn = false →
    exec (.pairHeartbeatReceive v n p a b c d) s = .next s ∧ exec (.pairEpochReceive k e) s = .next s) ∧
  (∀ (s : State) (v : Fin 3) (n : BitVec 64) (p : BitVec 8) (a : Bool) (d : BitVec 10) (i : Image), s.pairOn = true → s.imp.image = some i →
    i.bundleSet < 2 ^ 32 → i.tipinSet < 2 ^ 32 → s.pairLink.copies = [] →
    ∃ t u, exec (.pairHeartbeatReceive v n p a (BitVec.ofNat 32 i.bundleSet) (BitVec.ofNat 32 i.tipinSet) d) s = .next t ∧ t = u.pairUpdate ∧
      u.pair = { s.pair with seen := some s.tb.uptime, bound := true, priority := p.toNat, active := a } ∧
      u.rd64 Reg.GUARD_PARTNER_LO = n.toNat ∧ u.fld Reg.GUARD_PAIR_STATUS_PARTNER_VOTE = v.val ∧
      u.flag Reg.GUARD_PAIR_STATUS_MISMATCH = false ∧ u.pairLink = { s.pairLink with credits := s.pairLink.credits + d.toNat } ∧
      s.posts (if s.pair.bound then [] else [0x020A]) u ∧
      s.regsBut [Reg.GUARD_PAIR_STATUS, Reg.GUARD_PARTNER_LO, Reg.GUARD_PARTNER_HI] u ∧
      s.sameBut [.regs, .posted, .free, .pairLink, .pair] u) ∧
  (∀ (s : State) (v : Fin 3) (n : BitVec 64) (p : BitVec 8) (a : Bool) (b c : BitVec 32) (d : BitVec 10), s.pairOn = true →
    (∀ i, s.imp.image = some i → i.bundleSet ≠ b.toNat ∨ i.tipinSet ≠ c.toNat) → s.pairLink.copies = [] → s.pair.bound = false →
    s.flag Reg.GUARD_PAIR_STATUS_MISMATCH = false →
    ∃ t u, exec (.pairHeartbeatReceive v n p a b c d) s = .next t ∧ t = u.pairUpdate ∧ u.flag Reg.GUARD_PAIR_STATUS_MISMATCH = true ∧
      s.posts [0x020B] u ∧ s.sameBut [.regs, .posted, .free, .pairLink] u) ∧
  (∀ (s : State), s.pair.seen = none ∨ s.pair.bound = false → exec .pairLost s = .next s) ∧
  (∀ (s : State) (a : Nat), s.pair.seen = some a → s.tb.uptime < a + 300000 → exec .pairLost s = .next s) ∧
  (∀ (s : State) (a : Nat), s.pair.seen = some a → s.pair.bound = true → a + 300000 ≤ s.tb.uptime → ∃ t u, exec .pairLost s = .next t ∧
    t = u.pairUpdate ∧ u.pair = { s.pair with bound := false, active := false } ∧ u.fld Reg.GUARD_PAIR_STATUS_PARTNER_VOTE = 0 ∧
    u.cnt Cnt.GUARD_PAIR_HB_MISSED = (s.cnt Cnt.GUARD_PAIR_HB_MISSED + 3) % 2 ^ 64 ∧ s.posts [0x0209] u ∧
    s.sameBut [.regs, .cnts, .posted, .free, .pair] u) ∧
  (∀ (s : State), ∃ t u, exec .arbVoteEdge s = .next t ∧ t = u.pairUpdate ∧ u.pair = { s.pair with
      arbEdge := some s.tb.uptime
      arbToggles := s.pair.arbEdge.any fun a => decide (a + 1000 ≤ s.tb.uptime ∧ s.tb.uptime ≤ a + 100000) } ∧ s.sameBut [.pair] u) ∧
  (∀ (s : State) (a : Nat), s.pair.arbEdge = some a → a + 1000 ≤ s.tb.uptime → s.tb.uptime ≤ a + 100000 →
    s.flag Reg.GUARD_PAIR_CTRL_ENABLE = true → s.flag Reg.GUARD_PAIR_CTRL_WITHDRAW = false → s.flag Reg.GUARD_PAIR_CTRL_ARB_SRC = false →
    s.operating = true → s.guardState ≠ 5 → s.pair.bound = false → s.fld Reg.GUARD_PAIR_STATUS_ROLE = 0 →
    ∃ t, exec .arbVoteEdge s = .next t ∧ t.fld Reg.GUARD_PAIR_STATUS_ROLE = 1 ∧ t.fld Reg.GUARD_PAIR_STATUS_OWN_VOTE = 1 ∧
      t.fld Reg.GUARD_PAIR_STATUS_VOTES = 2 ∧ t.flag Reg.GUARD_PAIR_STATUS_ARB_FOR = true ∧
      t.cnt Cnt.GUARD_PAIR_TAKEOVERS = (s.cnt Cnt.GUARD_PAIR_TAKEOVERS + 1) % 2 ^ 64 ∧ (∃ l, t.posted = s.posted ++ ⟨0x0208, 1⟩ :: l) ∧
      s.sameBut [.regs, .cnts, .posted, .free, .flows, .ring, .engines, .evt, .pair] t) ∧
  (∀ (s : State), s.pair.arbEdge = none → exec .arbVoteTimeout s = .next s) ∧
  (∀ (s : State) (a : Nat), s.pair.arbEdge = some a → s.tb.uptime ≤ a + 100000 → exec .arbVoteTimeout s = .next s) ∧
  (∀ (s : State) (a : Nat), s.pair.arbEdge = some a → a + 100000 < s.tb.uptime → ∃ t u, exec .arbVoteTimeout s = .next t ∧
    t = u.pairUpdate ∧ u.pair = { s.pair with arbToggles := false } ∧ s.sameBut [.pair] u) ∧
  (∀ (s : State) (e : PairEpoch), s.pairOn = true → ∃ t, exec (.pairEpochReceive true e) s = .next t ∧
    t.pair = { s.pair with epoch := some e } ∧ s.sameBut [.pair] t) ∧
  (∀ (s : State) (e : PairEpoch), s.pairOn = true → ∃ t, exec (.pairEpochReceive false e) s = .next t ∧
    t.cnt Cnt.GUARD_PAIR_EPOCH_TORN = (s.cnt Cnt.GUARD_PAIR_EPOCH_TORN + 1) % 2 ^ 64 ∧ s.sameBut [.cnts] t) ∧
  (∀ (s : State) (k : Fin 2), s.pairLink.copies = [] → ∃ t, exec (.pairLaneChange k true) s = .next t ∧
    t.pairLink.lanes = s.pairLink.lanes ||| 1#2 <<< k.val ∧
    t.pairLink.credits = (if s.pairLink.lanes = 0 then 512 else s.pairLink.credits) ∧
    t.fld Reg.GUARD_PAIR_STATUS_LANES = popCount 2 t.pairLink.lanes.toNat ∧ s.regsBut [Reg.GUARD_PAIR_STATUS] t ∧ s.sameBut [.regs, .pairLink] t) ∧
  (∀ (s : State) (k : Fin 2), s.pairLink.lanes &&& ~~~(1#2 <<< k.val) = 0 → s.pairLink.copies = [] → s.pair.bound = true →
    ∃ t u, exec (.pairLaneChange k false) s = .next t ∧ t = u.pairUpdate ∧ u.pairLink.lanes = 0 ∧ u.fld Reg.GUARD_PAIR_STATUS_LANES = 0 ∧
      u.pair = { s.pair with bound := false, active := false } ∧ s.posts [0x0209] u ∧ s.sameBut [.regs, .posted, .free, .pairLink, .pair] u) ∧
  (∀ (s : State) (v : Word), v.getLsbD 0 = true → ∃ t u, exec (.guardPairCtrlWrite v) s = .next t ∧ t = u.pairUpdate ∧
    u.rd Reg.GUARD_PAIR_CTRL = v &&& 0xFF0F#32 ∧ s.regsBut [Reg.GUARD_PAIR_CTRL] u ∧ s.sameBut [.regs] u) ∧
  (∀ (s : State) (v : Word), v.getLsbD 0 = false → s.pairLink.copies = [] → ∃ t, exec (.guardPairCtrlWrite v) s = .next t ∧
    t.rd Reg.GUARD_PAIR_CTRL = v &&& 0xFF0F#32 ∧ t.fld Reg.GUARD_PAIR_STATUS_ROLE = 0 ∧ t.fld Reg.GUARD_PAIR_STATUS_OWN_VOTE = 0 ∧
    t.pair = { s.pair with bound := false, active := false, seen := none } ∧
    s.sameBut [.regs, .cnts, .posted, .free, .flows, .ring, .engines, .evt, .pair] t) ∧
  (∀ (s : State), s.mode < 2 ∨ s.mode = 6 ∨ s.coloDue = false → exec .colophon s = .next s) ∧
  (∀ (s : State) (n : Nat), 2 ≤ s.mode → s.mode ≠ 6 → s.coloDue = true → n = ((s.rd Reg.HLTH_COLO_SEQ).toNat + 1) % 2 ^ 32 →
    ∃ t, exec .colophon s = .next t ∧ t.rd Reg.HLTH_COLO_SEQ = BitVec.ofNat 32 n ∧
      (∀ k, k < 128 → t.rd (Reg.HLTH_COLO_W k) = BitVec.ofNat 32 (leNat (((s.colophonBytes n).drop (4 * k)).take 4))) ∧
      t.pace = { s.pace with colophonLow := [] } ∧ t.cnt Cnt.HLTH_COLOPHONS = (s.cnt Cnt.HLTH_COLOPHONS + 1) % 2 ^ 64 ∧
      t.posted = s.posted ++ [⟨0x0301, n + (s.coloSlot n).getD 0xFFFF * 2 ^ 32⟩] ∧
      t.guard = { s.guard with coloAt := s.guard.coloAt.map (· + s.fld Reg.HLTH_COLO_CTRL_PERIOD_MS * 1000000) } ∧
      (s.coloSlot n = none → s.sameBut [.regs, .cnts, .posted, .pace, .guard] t) ∧
      (∀ k, s.coloSlot n = some k → s.flag Reg.HLTH_COLO_CTRL_LOC = false →
        t.out = s.out ++ [.hostWrite (s.rd64 Reg.HLTH_COLO_ADDR_LO / 512 * 512 + 512 * k) (s.colophonBytes n)] ∧
        s.sameBut [.regs, .cnts, .posted, .out, .pace, .guard] t) ∧
      (∀ k a, s.coloSlot n = some k → s.flag Reg.HLTH_COLO_CTRL_LOC = true →
        a = s.rd64 Reg.HLTH_COLO_ADDR_LO / 512 * 512 + 512 * k → (∀ b, t.dramByte b =
          if a ≤ b ∧ b < a + 512 then (s.colophonBytes n).getD (b - a) 0 else s.dramByte b) ∧
        s.sameBut [.regs, .cnts, .posted, .dram, .poison, .pace, .guard] t)) ∧
  (∀ (s : State) (d : Fin 5) (x : BitVec 16), s.mode = 6 → exec (.thermalThresholdCross d x) s = .next s) ∧
  (∀ (s : State) (d : Fin 5) (x : BitVec 16), s.mode ≠ 6 → ∃ t u, exec (.thermalThresholdCross d x) s = .next t ∧
    u.fld (Reg.HLTH_TEMP_TEMP d) = x.toNat ∧ u.fld (Reg.HLTH_TEMP_MAX d) =
      (if signed 16 (s.fld (Reg.HLTH_TEMP_MAX d)) < signed 16 x.toNat then x.toNat else s.fld (Reg.HLTH_TEMP_MAX d)) ∧
    u.posted = s.posted ++ (if signed 16 (s.fld (Reg.HLTH_TEMP_TEMP d)) < signed 16 (s.fld Reg.HLTH_TEMP_WARN_WARN) ∧
      signed 16 (s.fld Reg.HLTH_TEMP_WARN_WARN) ≤ signed 16 x.toNat then [⟨0x0308, d⟩] else []) ∧
    ((∃ k : Fin 5, State.junctionMax ≤ signed 16 (u.fld (Reg.HLTH_TEMP_TEMP k))) → u.pwr = { s.pwr with therm := true }) ∧
    ((∀ k : Fin 5, signed 16 (u.fld (Reg.HLTH_TEMP_TEMP k)) < State.junctionMax - 20) → u.pwr = { s.pwr with therm := false }) ∧
    s.regsBut [Reg.HLTH_TEMP d] u ∧ s.sameBut [.regs, .posted, .pwr] u ∧
    (signed 16 x.toNat ≤ State.junctionMax + 20 → t = u) ∧
    (State.junctionMax + 20 < signed 16 x.toNat → 2 ≤ s.mode → s.mode < 6 → t.mode = 7 ∧ t.fld Reg.GLB_MODE_CAUSE = 0x0E)) ∧
  (∀ (s : State), s.mode = 6 → exec .smbusRead s = .next s) ∧
  (∀ (s : State), s.mode ≠ 6 → ∃ t, exec .smbusRead s = .next t ∧ t.out = s.out ++ [.smbus s.colophonLatched] ∧ s.sameBut [.out] t) ∧
  (∀ (s : State) (o : BitVec 16) (d : BitVec 8), ∃ t, exec (.smbusWrite o d) s = .next t ∧ t = s)

/-- R5 to R10, R444 to R450, R454, R544, R545, R580: host reads and writes of the register space, the MSI-X table
and configuration space. Where a clause follows a choice of the model, the log names it: entries 11, 12, 18, 19, 20,
21, 22, 23, 24, 25, 27, 28. -/
def Obligations.HostReadsAndWritesRegisters : Prop :=
  (∀ (s : State) (fn : BitVec 6) (p : Space) (a : BitVec 26) (n : Fin 4097) (l : List Byte) (x : Bool), s.running = false ∨ s.mode = 6 ∨
    s.enabledFuncs.contains fn.toNat = false → p ≠ .config →
    exec (.groupReadLatch fn p a n) s = .next s ∧ exec (.registerWrite fn p a l x) s = .next s) ∧
  (∀ (s : State) (fn : BitVec 6) (p : Space) (a : BitVec 26) (n : Fin 4097) (l : List Byte) (x : Bool), s.running = true → s.mode ≠ 6 →
    s.enabledFuncs.contains fn.toNat = true → p ≠ .config →
    s.flag (Reg.PCIE_FUNC_MSE.of fn.toNat) = false ∨ s.fld (Reg.PCIE_FUNC_DSTATE.of fn.toNat) ≠ 0 →
    ∀ i ∈ [Instr.groupReadLatch fn p a n, .registerWrite fn p a l x], ∃ t, exec i s = .next t ∧
      t.out = s.out ++ [.unsupported fn.toNat] ∧ t.cnt Cnt.PCIE_UR_SENT = (s.cnt Cnt.PCIE_UR_SENT + 1) % 2 ^ 64 ∧ s.sameBut [.cnts, .out] t) ∧
  (∀ (s : State) (fn : BitVec 6) (a : BitVec 26), s.served fn.toNat = true → a.toNat % 4 = 0 → a.toNat < 0x2000000 →
    ∃ t, exec (.groupReadLatch fn .bar0 a 4) s = .next t ∧
      (s.decodes fn.toNat a.toNat false = false → t.out = s.out ++ [.completion fn.toNat [0, 0, 0, 0] false] ∧ s.sameBut [.out] t) ∧
      (s.decodes fn.toNat a.toNat false = true → latchGroup? a.toNat = none → a.toNat ≠ Reg.OBS_LEDGER_NUM → a.toNat ≠ Reg.PCIE_TAGS →
        a.toNat < 0xA1000 ∨ 0xA1800 ≤ a.toNat →
        t.out = s.out ++ [.completion fn.toNat (leBytes 4 (s.liveWord fn.toNat a.toNat)) false] ∧ s.sameBut [.out] t) ∧
      (s.decodes fn.toNat a.toNat false = true → ((latchGroup? a.toNat).map (·.1)) = some a.toNat → a.toNat < 0xA1000 ∨ 0xA1800 ≤ a.toNat →
        t.out = s.out ++ [.completion fn.toNat (leBytes 4 (s.liveWord fn.toNat a.toNat)) false] ∧
        (∀ j, j < ((latchGroup? a.toNat).map (·.2)).getD 0 → 1 ≤ j → Table.get (fun _ => none) t.latch (keyOf fn.toNat (a.toNat + 4 * j)) =
          some (BitVec.ofNat 32 (s.liveWord fn.toNat (a.toNat + 4 * j)))) ∧ s.sameBut [.latch, .out] t) ∧
      (s.decodes fn.toNat a.toNat false = true →
        ((latchGroup? a.toNat).any fun g => decide (a.toNat = g.1 + 4 * (g.2 - 1)) && decide (a.toNat ≠ g.1)) = true →
        a.toNat < 0xA1000 ∨ 0xA1800 ≤ a.toNat →
        t.out = s.out ++ [.completion fn.toNat (leBytes 4 (((Table.get (fun _ => none) s.latch (keyOf fn.toNat a.toNat)).map
          (·.toNat)).getD (s.liveWord fn.toNat a.toNat))) false] ∧
        Table.get (fun _ => none) t.latch (keyOf fn.toNat a.toNat) = none ∧ s.sameBut [.latch, .out] t)) ∧
  (∀ (s : State) (fn : BitVec 6) (a : BitVec 26), s.running = true → s.enabledFuncs.contains fn.toNat = true → a.toNat % 4 = 0 →
    ∃ t, exec (.groupReadLatch fn .config a 4) s = .next t ∧
      t.out = s.out ++ [.completion fn.toNat (leBytes 4 (s.cfgWord fn.toNat a.toNat)) false] ∧ s.sameBut [.out] t) ∧
  (∀ (s : State) (fn : BitVec 6) (a : BitVec 26) (v : Word), s.served fn.toNat = true → a.toNat < 0x2000000 →
    a.toNat % 4 ≠ 0 ∨ blockOpen fn.toNat a.toNat = false ∨ writeRight fn.toNat a.toNat = false ∨ s.present fn.toNat a.toNat = false ∨
    s.ignoresWrite fn.toNat a.toNat v.toNat = true → exec (.registerWrite fn .bar0 a (leBytes 4 v.toNat) false) s = .next s) ∧
  (∀ (s : State) (fn : BitVec 6) (a : BitVec 26) (l : List Byte), s.served fn.toNat = true → a.toNat < 0x2000000 →
    l.length < 4 → exec (.registerWrite fn .bar0 a l false) s = .next s) ∧
  (∀ (s : State) (fn : BitVec 6) (a : BitVec 26) (l : List Byte), s.served fn.toNat = true → a.toNat < 0x2000000 →
    Table.get (fun _ => 0) s.lastPost 0x0506 = 0 → ∃ t, exec (.registerWrite fn .bar0 a l true) s = .next t ∧
      t.cnt Cnt.PCIE_POISONED_RX = (s.cnt Cnt.PCIE_POISONED_RX + 1) % 2 ^ 64 ∧ s.posts [0x0506] t ∧
      s.sameBut [.cnts, .posted, .lastPost, .free] t) ∧
  (∀ (s : State) (v : Word), s.served 3 = true → s.operating = true → ∀ a ∈ [Reg.GLB_RESET_CFG, Reg.GUARD_EPOCH, Reg.GUARD_STALL,
    Reg.GUARD_REPLAY, Reg.HLTH_COLO_CTRL, Reg.HLTH_TEST_CFG, Reg.HLTH_TEMP_WARN, Reg.QM_RX_HOLD, Reg.QM_HOP_LIMIT, Reg.FLOW_LEND],
    ∀ d, regDef? a = some d → ∃ t, exec (.registerWrite 3 .bar0 (BitVec.ofNat 26 a) (leBytes 4 v.toNat) false) s = .next t ∧
      (d.inRange v.toNat = true → t.rd a = d.take (s.rd a) v) ∧ (d.inRange v.toNat = false → t = s) ∧ s.regsBut [a] t ∧ s.sameBut [.regs] t) ∧
  (∀ (s : State) (v w : Word), s.served 3 = true → s.boot.mb = none → s.mode ≠ 7 →
    ∃ t u, exec (.registerWrite 3 .bar0 0x10010 (leBytes 4 v.toNat) false) s = .next t ∧ s.sameBut [.stage] t ∧
      t.staged Reg.IMP_MB_ADDR_LO = v &&& BitVec.ofNat 32 (rwMask Reg.IMP_MB_ADDR_LO) ∧
      exec (.registerWrite 3 .bar0 0x10014 (leBytes 4 w.toNat) false) t = .next u ∧
      u.rd Reg.IMP_MB_ADDR_LO = v &&& BitVec.ofNat 32 (rwMask Reg.IMP_MB_ADDR_LO) ∧
      u.rd Reg.IMP_MB_ADDR_HI = w &&& BitVec.ofNat 32 (rwMask Reg.IMP_MB_ADDR_HI) ∧
      s.regsBut [Reg.IMP_MB_ADDR_LO, Reg.IMP_MB_ADDR_HI] u ∧ s.sameBut [.regs, .stage] u) ∧
  (∀ (s : State) (v : Word), s.served 3 = true → s.operating = true → ∀ p ∈ [(Reg.GLB_QRESET, Instr.quireReset (v.setWidth 16)),
    (Reg.GUARD_PAIR_CTRL, .guardPairCtrlWrite v), (Reg.PCIE_LTR_ACTIVE, .ltrWrite false (v.setWidth 16)),
    (Reg.PCIE_LTR_QUIET, .ltrWrite true (v.setWidth 16)), (Reg.PCIE_WIN_COMMIT, .winCommit (v.setWidth 4)), (Reg.DMA_FLAGS, .dmaFlagsWrite v),
    (Reg.TB_RATE, .tbRate v), (Reg.TB_HOST_STATUS, .tbHostStatusWrite (v.setWidth 2)), (Reg.PTP_CTRL, .ptpCtrlWrite v),
    (Reg.RING_ETHERTYPE, .ringEthertypeWrite (v.setWidth 16))],
    exec (.registerWrite 3 .bar0 (BitVec.ofNat 26 p.1) (leBytes 4 v.toNat) false) s = exec p.2 s) ∧
  (∀ (s : State) (fn : BitVec 6), s.served fn.toNat = true → s.operating = true → s.fld (Reg.QM_QCMD_STATUS_STATE.of fn.toNat) ≠ 1 →
    ∀ p ∈ [(1, Instr.qmCreate fn), (2, .qmEnable fn), (3, .qmShutdown fn), (4, .qmReset fn), (5, .qmDestroy fn), (6, .qmModify fn),
      (7, .qmQuery fn)],
    exec (.registerWrite fn .bar0 0x300004 (leBytes 4 p.1) false) s = exec p.2 s) ∧
  (∀ (s : State) (w f : Fin 4) (o : BitVec 23) (l : List Byte) (n : Fin 4097) (x : Bool), s.served f = true →
    exec (.registerWrite (BitVec.ofNat 6 f) .bar0 (BitVec.ofNat 26 (0x2000000 + w * 0x800000 + o.toNat)) l x) s =
      exec (.windowWrite w f o (l.map some) x) s ∧
    exec (.groupReadLatch (BitVec.ofNat 6 f) .bar0 (BitVec.ofNat 26 (0x2000000 + w * 0x800000 + o.toNat)) n) s =
      exec (.windowRead w f o n false) s)

/-- A step runs the command at the front of the queue with the rest still waiting. -/
def Obligations.StepRunsTheCommandAtTheFront : Prop :=
  ∀ (s : State) (c : Instr) (l : List Instr), s.pending = c :: l → step s = exec c { s with pending := l }

/-- R133, R134, R143 and log entry 2 (DESIGN CHOICE: an idle step is one 2 ns tick): on an empty queue the uptime
counter advances by 2 and the time base by 2 ns and its adjustment, and the frames of the device stack and of the
ring that are due leave; without power or in reset nothing changes. -/
def Obligations.AnIdleStepIsOneTickOfTheClock : Prop :=
  (∀ s : State, s.pending = [] → s.running = true → ∃ t u, step s = .next t ∧ t = u.ptpTick.ringTick ∧ t.tb = u.tb ∧
    u.tb.uptime = (s.tb.uptime + 2) % 2 ^ 64 ∧
    (∃ adjust : Int, -(2 * 2 ^ 32 * 500 / 1000000) ≤ adjust ∧ adjust ≤ 2 * 2 ^ 32 * 500 / 1000000 ∧
      (u.tb.time : Int) = (s.tb.time + 2 * 2 ^ 32 + adjust) % (State.timeSpan : Int)) ∧
    u.tb = { s.tb with
      uptime := u.tb.uptime, time := u.tb.time, residual := u.tb.residual
      past := (s.tb.uptime, s.tb.time, s.timeStatus) :: s.tb.past } ∧
    (s.tb.residual = 0 → s.baseRate.natAbs ≤ 500000000 → u.tb.residual = 0) ∧ s.sameBut [.tb] u ∧
    (s.flag Reg.PTP_CTRL_ENABLE = false → s.ring.delaying = false → s.ring.unsent = [] → t = u) ∧
    s.sameBut [.cnts, .posted, .out, .free, .queues, .ring, .tb] t) ∧
  (∀ s : State, s.pending = [] → s.running = false → step s = .next s)

/-- R97, R118, R529, R534 and log entry 1: what reset leaves. The device is in Boot by POWER_ON, its counters, times
and tables are empty, the queue is empty, and every table is in its canonical form. Where a clause follows a choice
of the model, the log names it: entries 1, 13, 15, 17. -/
def Obligations.ResetIsBootAfterPowerOn : Prop :=
  State.reset.canonical = true ∧ State.reset.mode = 0 ∧ State.reset.fld Reg.GLB_MODE_CAUSE = 0x01 ∧
    State.reset.tb.uptime = 0 ∧ State.reset.tb.time = 0 ∧ State.reset.timeStatus = 0 ∧ State.reset.pending = [] ∧
    State.reset.posted.map (·.code) = [0x0001] ∧ (∀ i, State.reset.cnt i = 0) ∧
    (∀ a, a ≠ Reg.GLB_MODE → State.reset.rd a = regReset a) ∧ State.reset.dram = [] ∧ State.reset.queues = []

/-- Every step keeps the canonical form of every table of the state: registers, counters, frames, DRAM, queues,
ports, channels and quire stores (INVENTORY.md, "Memory and ordering"). -/
def Obligations.EveryStepKeepsTheCanonicalForm : Prop :=
  ∀ s t : State, s.canonical = true → step s = .next t → t.canonical = true

/-- What every command leaves: the queue; what has left the device stays sent, and no free value is drawn twice. -/
def Obligations.CommandsKeepTheQueueAndWhatIsSent : Prop :=
  ∀ (c : Instr) (s t : State), exec c s = .next t → t.pending = s.pending ∧ s.out <+: t.out ∧ s.free ≤ t.free

/-- R118: GLB_MODE, the mode with its cause, is changed by no command but those at which a transition can happen,
and by no tick. -/
def Obligations.OnlyTransitionsChangeTheMode : Prop :=
  (∀ (c : Instr) (s t : State), movesMode c = false → exec c s = .next t → t.rd Reg.GLB_MODE = s.rd Reg.GLB_MODE) ∧
  (∀ s : State, s.tick.rd Reg.GLB_MODE = s.rd Reg.GLB_MODE)

/-- R133: the uptime counter advances by 2 on every tick, wraps at 2^64, starts at zero, and no command changes it
but a fundamental reset, which leaves it at zero. -/
def Obligations.OnlyTicksAdvanceTheUptime : Prop :=
  State.reset.tb.uptime = 0 ∧
  (∀ s : State, s.running = true → s.tick.tb.uptime = (s.tb.uptime + 2) % 2 ^ 64) ∧
  (∀ (c : Instr) (s t : State), exec c s = .next t →
    t.tb.uptime = s.tb.uptime ∨ resetsAll c = true ∧ t.tb.uptime = 0)

/-- R85, R567: the fuses are burnt by an ENROL command alone, once, by a good record and at a good voltage. -/
def Obligations.FusesAreBurntOnceByEnrolment : Prop :=
  (∀ (c : Instr) (s t : State), exec c s = .next t → t.fuses = s.fuses ∨
    (c = .mbTransferDone true ∧ s.fuses.ownerDigest = none ∧ ∃ op r, s.boot.mb = some op ∧ op.cmd = 3 ∧
      op.enrol = some r ∧ 1746 ≤ op.vppMv ∧ op.vppMv ≤ 1854 ∧ r.sealOk = true ∧ r.deviceId = Config.identityId ∧
      t.fuses = { ownerDigest := some r.ownerDigest, exclusive := r.exclusive })) ∧
  (∀ (s t : State) (d : Nat), s.fuses.ownerDigest = some d → step s = .next t → t.fuses = s.fuses)

/-- R567: an ENROL whose VPP_FUSE reading lies outside 1.746 V to 1.854 V ends with ERROR and MB_STATE, and the
fuses stay unchanged. -/
def Obligations.EnrolNeedsTheFuseVoltage : Prop :=
  ∀ (s : State) (op : MbOp) (r : EnrolRecord), s.boot.mb = some op → op.transferred = false → op.cmd = 3 →
    op.enrol = some r → op.vppMv < 1746 ∨ 1854 < op.vppMv → ∃ t, exec (.mbTransferDone true) s = .next t ∧
      t.fuses = s.fuses ∧ t.fld Reg.IMP_MB_STATUS_STATE = 3 ∧ t.fld Reg.IMP_MB_STATUS_REASON = 0x37 ∧
      t.fld Reg.IMP_MB_STATUS_LAST_CMD = 3 ∧ t.boot = { s.boot with mb := none } ∧ s.posts [0x0137] t ∧
      s.regsBut [Reg.IMP_MB_STATUS] t ∧ s.sameBut [.regs, .boot, .posted, .free] t

/-- R132: while a mailbox command is in progress, writes of its address and length are ignored and a further command
ends with MB_STATE, the command in progress unaffected. -/
def Obligations.ABusyMailboxIsUnaffected : Prop :=
  ∀ (s : State) (op : MbOp), s.boot.mb = some op → s.fld Reg.IMP_MB_STATUS_STATE = 1 → s.served 3 = true →
    (∀ a ∈ [Reg.IMP_MB_ADDR_LO, Reg.IMP_MB_ADDR_HI, Reg.IMP_MB_LEN], ∀ v : Word,
      exec (.registerWrite 3 .bar0 (BitVec.ofNat 26 a) (leBytes 4 v.toNat) false) s = .next s) ∧
    (∀ (r : EnrolRecord) (mv : Nat) (n : BitVec 256), ∀ c ∈ [Instr.loadBinder, .loadImage, .enrol r mv, .attest n],
      ∃ t, exec c s = .next t ∧ s.posts [0x0137] t ∧ s.sameBut [.posted, .free] t)

/-- R96: while a re-imposition is in progress, writes of its request registers are ignored and a GO is refused with
BUSY, the re-imposition unaffected. -/
def Obligations.AReimpositionInProgressIsUnaffected : Prop :=
  ∀ s : State, 1 ≤ s.fld Reg.IMP_REIMP_STATUS_STATE → s.fld Reg.IMP_REIMP_STATUS_STATE ≤ 4 →
    (s.served 3 = true → ∀ a ∈ [Reg.IMP_REIMP_ADDR_LO, Reg.IMP_REIMP_ADDR_HI, Reg.IMP_REIMP_LEN, Reg.IMP_REIMP_QUIRES],
      ∀ v : Word, exec (.registerWrite 3 .bar0 (BitVec.ofNat 26 a) (leBytes 4 v.toNat) false) s = .next s) ∧
    (∃ t, exec .reimpGo s = .next t ∧ t.fld Reg.IMP_REIMP_STATUS_REASON = 0x11 ∧
      t.fld Reg.IMP_REIMP_STATUS_STATE = s.fld Reg.IMP_REIMP_STATUS_STATE ∧ s.posts [0x0111] t ∧
      s.regsBut [Reg.IMP_REIMP_STATUS] t ∧ s.sameBut [.regs, .posted, .free] t)

/-- R467, R66: a reset quarantines the reads outstanding in its scope; the completion of such a read is discarded
and counted in RESET_DISCARD, and its Tag value becomes free. -/
def Obligations.AResetQuarantinesItsReads : Prop :=
  (∀ (s : State) (fn : BitVec 6) (l : List HostRead), s.enabledFuncs.contains fn.toNat = true →
    ∃ t, exec (.flr fn l) s = .next t ∧ ∀ r ∈ l, r.func = fn.toNat ∨ fn = 0 ∧ r.func ∈ s.vfs →
      { func := r.func, tag := r.tag, path := r.path, byReset := true
        expires := s.tb.uptime - r.ageNs + 2 * s.cplTimeoutNs r.func } ∈ t.host.quarantine) ∧
  (∀ (s : State) (d : Bool) (b : BitVec 2) (l : List HostRead), s.running = true → s.mode ≠ 6 →
    s.flag Reg.GLB_RESET_CFG_HOT_FULL = false → ∃ t, exec (.hotReset d b l) s = .next t ∧
    ∀ r ∈ l, r.func < 4 ∨ r.func ∈ s.vfs →
      { func := r.func, tag := r.tag, path := r.path, byReset := true
        expires := s.tb.uptime - r.ageNs + 2 * s.cplTimeoutNs r.func } ∈ t.host.quarantine) ∧
  (∀ (s : State) (fn : BitVec 6) (g : BitVec 10) (x : Quarantine), x.byReset = true →
    (s.host.quarantine.find? fun x => Nat.beq x.func fn.toNat && Nat.beq x.tag g.toNat) = some x →
    ∃ t, exec (.lateCompletion fn g) s = .next t ∧
      t.cnt Cnt.PCIE_RESET_DISCARD = (s.cnt Cnt.PCIE_RESET_DISCARD + 1) % 2 ^ 64 ∧
      t.cnt Cnt.PCIE_LATE_COMPLETION = s.cnt Cnt.PCIE_LATE_COMPLETION ∧
      t.host = { s.host with quarantine := s.host.quarantine.erase x } ∧
      s.countsBut [Cnt.PCIE_RESET_DISCARD] t ∧ s.sameBut [.cnts, .host] t)

/-- R15: a short-form target lies in the future when the signed difference of target and now is positive, and is due
when it is not; a target that equals now is due. -/
def Obligations.ShortTargetsAreDueBySignedDifference : Prop :=
  (∀ target now : BitVec 32, shortDue target.toNat now.toNat = true ↔ (target - now).toInt ≤ 0) ∧
  (∀ target now : BitVec 32, shortDiff target.toNat now.toNat = (target - now).toInt) ∧
  (∀ now : Nat, shortDue now now = true)

/-- R177: the change time is the smallest base + n cycles at or after the earliest instant. -/
def Obligations.TheChangeTimeIsTheSmallest : Prop :=
  ∀ base cycle earliest : Nat, 0 < cycle → (∃ n, State.changeTime base cycle earliest = base + n * cycle) ∧
    earliest ≤ State.changeTime base cycle earliest ∧
    ∀ n, earliest ≤ base + n * cycle → State.changeTime base cycle earliest ≤ base + n * cycle

/-- No row of the opcode table gives bits: no word spells a command, and placing one changes nothing. -/
def Obligations.NoWordSpellsACommand : Prop :=
  ∀ (s : State) (n w : Nat), decodeTableWord n w = none ∧ s.withFetchWord n w = s
end

