-- ==== Sys2Proof/Laws/Table.lean ====
section
/-! SUPPORT. What reading and writing a sparse table do, and that every operation keeps the
canonical form. -/

namespace Sys2Proof.Machine

variable {α : Type}

theorem Table.get_insert_same (d : Nat → α) (t : Table α) (k : Nat) (v : α) :
    Table.get d (Table.insert t k v) k = v := by
  induction t with
  | nil => simp [Table.insert, Table.get]
  | cons p t ih =>
    simp only [Table.insert]
    split
    · simp [Table.get]
    · split
      · simp [Table.get]
      · rename_i h1 h2
        simp [Table.get, Ne.symm h2, ih]

theorem Table.get_insert_other (d : Nat → α) (t : Table α) {k j : Nat} (v : α) (h : k ≠ j) :
    Table.get d (Table.insert t k v) j = Table.get d t j := by
  induction t with
  | nil => simp [Table.insert, Table.get, h]
  | cons p t ih =>
    simp only [Table.insert]
    split
    · simp [Table.get, h]
    · split
      · rename_i h1 h2
        subst h2
        simp [Table.get, h]
      · simp [Table.get, ih]

theorem Table.get_erase_same (d : Nat → α) (t : Table α) (k : Nat) :
    Table.get d (Table.erase t k) k = d k := by
  induction t with
  | nil => rfl
  | cons p t ih =>
    simp only [Table.erase]
    split
    · exact ih
    · rename_i h
      simp [Table.get, h, ih]

theorem Table.get_erase_other (d : Nat → α) (t : Table α) {k j : Nat} (h : k ≠ j) :
    Table.get d (Table.erase t k) j = Table.get d t j := by
  induction t with
  | nil => rfl
  | cons p t ih =>
    simp only [Table.erase]
    split
    · rename_i hp
      rw [ih]
      simp [Table.get, hp, h]
    · simp [Table.get, ih]

variable [DecidableEq α]

/-- A read of the key just set gives the value set. -/
@[simp] theorem Table.get_set_same (d : Nat → α) (t : Table α) (k : Nat) (v : α) :
    Table.get d (Table.set d t k v) k = v := by
  unfold Table.set
  split
  · rename_i h
    rw [Table.get_erase_same, h]
  · exact Table.get_insert_same d t k v

/-- Setting one key leaves every other key as it was. -/
theorem Table.get_set_other (d : Nat → α) (t : Table α) {k j : Nat} (v : α) (h : k ≠ j) :
    Table.get d (Table.set d t k v) j = Table.get d t j := by
  unfold Table.set
  split
  · exact Table.get_erase_other d t h
  · exact Table.get_insert_other d t v h

theorem Table.wfFrom_mono (d : Nat → α) (t : Table α) {b c : Nat} (h : b ≤ c)
    (hw : Table.wfFrom d c t = true) : Table.wfFrom d b t = true := by
  cases t with
  | nil => rfl
  | cons p t =>
    simp only [Table.wfFrom, Bool.and_eq_true, Nat.ble_eq] at hw ⊢
    exact ⟨⟨by omega, hw.1.2⟩, hw.2⟩

theorem Table.wfFrom_erase (d : Nat → α) (k : Nat) (t : Table α) (b : Nat)
    (hw : Table.wfFrom d b t = true) : Table.wfFrom d b (Table.erase t k) = true := by
  induction t generalizing b with
  | nil => rfl
  | cons p t ih =>
    simp only [Table.wfFrom, Bool.and_eq_true, Nat.ble_eq] at hw
    simp only [Table.erase]
    split
    · exact ih b (Table.wfFrom_mono d t (by omega) hw.2)
    · simp only [Table.wfFrom, Bool.and_eq_true, Nat.ble_eq]
      exact ⟨hw.1, ih _ hw.2⟩

theorem Table.wfFrom_insert (d : Nat → α) (k : Nat) (v : α) (hv : v ≠ d k) (t : Table α) (b : Nat)
    (hb : b ≤ k) (hw : Table.wfFrom d b t = true) :
    Table.wfFrom d b (Table.insert t k v) = true := by
  induction t generalizing b with
  | nil => simp [Table.insert, Table.wfFrom, hb, hv]
  | cons p t ih =>
    simp only [Table.wfFrom, Bool.and_eq_true, Nat.ble_eq] at hw
    simp only [Table.insert]
    split
    · simp only [Table.wfFrom, Bool.and_eq_true, Nat.ble_eq]
      refine ⟨⟨hb, by simp [hv]⟩, ⟨by omega, hw.1.2⟩, hw.2⟩
    · split
      · rename_i h2
        simp only [Table.wfFrom, Bool.and_eq_true, Nat.ble_eq]
        refine ⟨⟨hb, by simp [hv]⟩, ?_⟩
        rw [h2]; exact hw.2
      · simp only [Table.wfFrom, Bool.and_eq_true, Nat.ble_eq]
        exact ⟨hw.1, ih _ (by omega) hw.2⟩

/-- Setting a key keeps the canonical form. -/
theorem Table.wf_set (d : Nat → α) (t : Table α) (k : Nat) (v : α) (hw : Table.wf d t = true) :
    Table.wf d (Table.set d t k v) = true := by
  unfold Table.set Table.wf at *
  split
  · exact Table.wfFrom_erase d k t 0 hw
  · rename_i h
    exact Table.wfFrom_insert d k v h t 0 (Nat.zero_le k) hw

theorem Table.wfFrom_filter (d : Nat → α) (p : Nat × α → Bool) (t : Table α) (b : Nat)
    (hw : Table.wfFrom d b t = true) : Table.wfFrom d b (t.filter p) = true := by
  induction t generalizing b with
  | nil => rfl
  | cons q t ih =>
    simp only [Table.wfFrom, Bool.and_eq_true, Nat.ble_eq] at hw
    simp only [List.filter]
    split
    · simp only [Table.wfFrom, Bool.and_eq_true, Nat.ble_eq]
      exact ⟨hw.1, ih _ hw.2⟩
    · exact ih b (Table.wfFrom_mono d t (by omega) hw.2)

/-- Dropping entries keeps the canonical form. -/
theorem Table.wf_filter (d : Nat → α) (p : Nat × α → Bool) (t : Table α) (hw : Table.wf d t = true) :
    Table.wf d (t.filter p) = true := Table.wfFrom_filter d p t 0 hw

theorem Table.wfFrom_mapVals (d : Nat → α) (f : α → α) (t : Table α) (b : Nat)
    (hw : Table.wfFrom d b t = true) : Table.wfFrom d b (Table.mapVals d f t) = true := by
  induction t generalizing b with
  | nil => rfl
  | cons q t ih =>
    simp only [Table.wfFrom, Bool.and_eq_true, Nat.ble_eq] at hw
    simp only [Table.mapVals]
    split
    · exact ih b (Table.wfFrom_mono d t (by omega) hw.2)
    · rename_i h
      simp only [Table.wfFrom, Bool.and_eq_true, Nat.ble_eq]
      exact ⟨⟨hw.1.1, by simp [h]⟩, ih _ hw.2⟩

/-- Changing every listed value keeps the canonical form. -/
theorem Table.wf_mapVals (d : Nat → α) (f : α → α) (t : Table α) (hw : Table.wf d t = true) :
    Table.wf d (Table.mapVals d f t) = true := Table.wfFrom_mapVals d f t 0 hw

/-- Setting the keys of a list one after the other keeps the canonical form. -/
theorem Table.wf_foldl_set {β : Type} (d : Nat → α) (k : β → Nat) (v : β → α) (l : List β) (t : Table α)
    (hw : Table.wf d t = true) : Table.wf d (l.foldl (fun t x => Table.set d t (k x) (v x)) t) = true := by
  induction l generalizing t with
  | nil => exact hw
  | cons x l ih => exact ih _ (Table.wf_set d t (k x) (v x) hw)

/-- A filter by key keeps what it does not drop. -/
theorem Table.get_filter (d : Nat → α) (g : Nat → Bool) (t : Table α) {k : Nat} (h : g k = true) :
    Table.get d (t.filter fun p => g p.1) k = Table.get d t k := by
  induction t with
  | nil => rfl
  | cons q t ih =>
    by_cases hq : g q.1 = true
    · simp [hq, Table.get, ih]
    · have hk : q.1 ≠ k := fun e => hq (e ▸ h)
      simp [hq, Table.get, ih, hk]

/-- Setting other keys leaves a key. -/
theorem Table.get_foldl_set_other {β : Type} (d : Nat → α) (k : β → Nat) (v : β → α) (l : List β) (t : Table α)
    {j : Nat} (h : ∀ x, k x ≠ j) :
    Table.get d (l.foldl (fun t x => Table.set d t (k x) (v x)) t) j = Table.get d t j := by
  induction l generalizing t with
  | nil => rfl
  | cons x l ih => exact (ih _).trans (Table.get_set_other d t _ (h x))

@[simp] theorem Table.wf_nil (d : Nat → α) : Table.wf d ([] : Table α) = true := rfl

end Sys2Proof.Machine
end

