-- ==== Sys2Proof/Laws/State.lean ====
section
/-! SUPPORT. What the operations that update one part of the state leave: one equation for each part and each
operation, and what reading a register, a counter, a queue, a frame, a port, a flow or an engine gives after it. -/

namespace Sys2Proof.Machine

@[simp] theorem State.wr_pending (s : State) (a : Nat) (v : Word) : (s.wr a v).pending = s.pending := (rfl)
@[simp] theorem State.wr_stage (s : State) (a : Nat) (v : Word) : (s.wr a v).stage = s.stage := (rfl)
@[simp] theorem State.wr_latch (s : State) (a : Nat) (v : Word) : (s.wr a v).latch = s.latch := (rfl)
@[simp] theorem State.wr_cnts (s : State) (a : Nat) (v : Word) : (s.wr a v).cnts = s.cnts := (rfl)
@[simp] theorem State.wr_posted (s : State) (a : Nat) (v : Word) : (s.wr a v).posted = s.posted := (rfl)
@[simp] theorem State.wr_lastPost (s : State) (a : Nat) (v : Word) : (s.wr a v).lastPost = s.lastPost := (rfl)
@[simp] theorem State.wr_out (s : State) (a : Nat) (v : Word) : (s.wr a v).out = s.out := (rfl)
@[simp] theorem State.wr_free (s : State) (a : Nat) (v : Word) : (s.wr a v).free = s.free := (rfl)
@[simp] theorem State.wr_pwr (s : State) (a : Nat) (v : Word) : (s.wr a v).pwr = s.pwr := (rfl)
@[simp] theorem State.wr_fuses (s : State) (a : Nat) (v : Word) : (s.wr a v).fuses = s.fuses := (rfl)
@[simp] theorem State.wr_boot (s : State) (a : Nat) (v : Word) : (s.wr a v).boot = s.boot := (rfl)
@[simp] theorem State.wr_imp (s : State) (a : Nat) (v : Word) : (s.wr a v).imp = s.imp := (rfl)
@[simp] theorem State.wr_units (s : State) (a : Nat) (v : Word) : (s.wr a v).units = s.units := (rfl)
@[simp] theorem State.wr_spine (s : State) (a : Nat) (v : Word) : (s.wr a v).spine = s.spine := (rfl)
@[simp] theorem State.wr_cells (s : State) (a : Nat) (v : Word) : (s.wr a v).cells = s.cells := (rfl)
@[simp] theorem State.wr_frames (s : State) (a : Nat) (v : Word) : (s.wr a v).frames = s.frames := (rfl)
@[simp] theorem State.wr_nextFrame (s : State) (a : Nat) (v : Word) : (s.wr a v).nextFrame = s.nextFrame := (rfl)
@[simp] theorem State.wr_dram (s : State) (a : Nat) (v : Word) : (s.wr a v).dram = s.dram := (rfl)
@[simp] theorem State.wr_poison (s : State) (a : Nat) (v : Word) : (s.wr a v).poison = s.poison := (rfl)
@[simp] theorem State.wr_queues (s : State) (a : Nat) (v : Word) : (s.wr a v).queues = s.queues := (rfl)
@[simp] theorem State.wr_host (s : State) (a : Nat) (v : Word) : (s.wr a v).host = s.host := (rfl)
@[simp] theorem State.wr_ports (s : State) (a : Nat) (v : Word) : (s.wr a v).ports = s.ports := (rfl)
@[simp] theorem State.wr_flows (s : State) (a : Nat) (v : Word) : (s.wr a v).flows = s.flows := (rfl)
@[simp] theorem State.wr_items (s : State) (a : Nat) (v : Word) : (s.wr a v).items = s.items := (rfl)
@[simp] theorem State.wr_itemSeq (s : State) (a : Nat) (v : Word) : (s.wr a v).itemSeq = s.itemSeq := (rfl)
@[simp] theorem State.wr_pairLink (s : State) (a : Nat) (v : Word) : (s.wr a v).pairLink = s.pairLink := (rfl)
@[simp] theorem State.wr_recCopies (s : State) (a : Nat) (v : Word) : (s.wr a v).recCopies = s.recCopies := (rfl)
@[simp] theorem State.wr_ring (s : State) (a : Nat) (v : Word) : (s.wr a v).ring = s.ring := (rfl)
@[simp] theorem State.wr_engines (s : State) (a : Nat) (v : Word) : (s.wr a v).engines = s.engines := (rfl)
@[simp] theorem State.wr_dma (s : State) (a : Nat) (v : Word) : (s.wr a v).dma = s.dma := (rfl)
@[simp] theorem State.wr_evt (s : State) (a : Nat) (v : Word) : (s.wr a v).evt = s.evt := (rfl)
@[simp] theorem State.wr_cart (s : State) (a : Nat) (v : Word) : (s.wr a v).cart = s.cart := (rfl)
@[simp] theorem State.wr_guard (s : State) (a : Nat) (v : Word) : (s.wr a v).guard = s.guard := (rfl)
@[simp] theorem State.wr_pair (s : State) (a : Nat) (v : Word) : (s.wr a v).pair = s.pair := (rfl)
@[simp] theorem State.wr_pace (s : State) (a : Nat) (v : Word) : (s.wr a v).pace = s.pace := (rfl)
@[simp] theorem State.wr_obs (s : State) (a : Nat) (v : Word) : (s.wr a v).obs = s.obs := (rfl)
@[simp] theorem State.wr_tb (s : State) (a : Nat) (v : Word) : (s.wr a v).tb = s.tb := (rfl)
@[simp] theorem State.wr_ptp (s : State) (a : Nat) (v : Word) : (s.wr a v).ptp = s.ptp := (rfl)
@[simp] theorem State.wr_cnt (s : State) (a : Nat) (v : Word) (k : Nat) : (s.wr a v).cnt k = s.cnt k := (rfl)
@[simp] theorem State.wr_q (s : State) (a : Nat) (v : Word) (k : Nat) : (s.wr a v).q k = s.q k := (rfl)
@[simp] theorem State.wr_frame (s : State) (a : Nat) (v : Word) (k : Nat) : (s.wr a v).frame k = s.frame k := (rfl)
@[simp] theorem State.wr_port (s : State) (a : Nat) (v : Word) (k : Nat) : (s.wr a v).port k = s.port k := (rfl)
@[simp] theorem State.wr_flow (s : State) (a : Nat) (v : Word) (k : Nat) : (s.wr a v).flow k = s.flow k := (rfl)
@[simp] theorem State.wr_eng (s : State) (a : Nat) (v : Word) (k : Nat) : (s.wr a v).eng k = s.eng k := (rfl)

@[simp] theorem State.wrN_pending (s : State) (a v : Nat) : (s.wrN a v).pending = s.pending := (rfl)
@[simp] theorem State.wrN_stage (s : State) (a v : Nat) : (s.wrN a v).stage = s.stage := (rfl)
@[simp] theorem State.wrN_latch (s : State) (a v : Nat) : (s.wrN a v).latch = s.latch := (rfl)
@[simp] theorem State.wrN_cnts (s : State) (a v : Nat) : (s.wrN a v).cnts = s.cnts := (rfl)
@[simp] theorem State.wrN_posted (s : State) (a v : Nat) : (s.wrN a v).posted = s.posted := (rfl)
@[simp] theorem State.wrN_lastPost (s : State) (a v : Nat) : (s.wrN a v).lastPost = s.lastPost := (rfl)
@[simp] theorem State.wrN_out (s : State) (a v : Nat) : (s.wrN a v).out = s.out := (rfl)
@[simp] theorem State.wrN_free (s : State) (a v : Nat) : (s.wrN a v).free = s.free := (rfl)
@[simp] theorem State.wrN_pwr (s : State) (a v : Nat) : (s.wrN a v).pwr = s.pwr := (rfl)
@[simp] theorem State.wrN_fuses (s : State) (a v : Nat) : (s.wrN a v).fuses = s.fuses := (rfl)
@[simp] theorem State.wrN_boot (s : State) (a v : Nat) : (s.wrN a v).boot = s.boot := (rfl)
@[simp] theorem State.wrN_imp (s : State) (a v : Nat) : (s.wrN a v).imp = s.imp := (rfl)
@[simp] theorem State.wrN_units (s : State) (a v : Nat) : (s.wrN a v).units = s.units := (rfl)
@[simp] theorem State.wrN_spine (s : State) (a v : Nat) : (s.wrN a v).spine = s.spine := (rfl)
@[simp] theorem State.wrN_cells (s : State) (a v : Nat) : (s.wrN a v).cells = s.cells := (rfl)
@[simp] theorem State.wrN_frames (s : State) (a v : Nat) : (s.wrN a v).frames = s.frames := (rfl)
@[simp] theorem State.wrN_nextFrame (s : State) (a v : Nat) : (s.wrN a v).nextFrame = s.nextFrame := (rfl)
@[simp] theorem State.wrN_dram (s : State) (a v : Nat) : (s.wrN a v).dram = s.dram := (rfl)
@[simp] theorem State.wrN_poison (s : State) (a v : Nat) : (s.wrN a v).poison = s.poison := (rfl)
@[simp] theorem State.wrN_queues (s : State) (a v : Nat) : (s.wrN a v).queues = s.queues := (rfl)
@[simp] theorem State.wrN_host (s : State) (a v : Nat) : (s.wrN a v).host = s.host := (rfl)
@[simp] theorem State.wrN_ports (s : State) (a v : Nat) : (s.wrN a v).ports = s.ports := (rfl)
@[simp] theorem State.wrN_flows (s : State) (a v : Nat) : (s.wrN a v).flows = s.flows := (rfl)
@[simp] theorem State.wrN_items (s : State) (a v : Nat) : (s.wrN a v).items = s.items := (rfl)
@[simp] theorem State.wrN_itemSeq (s : State) (a v : Nat) : (s.wrN a v).itemSeq = s.itemSeq := (rfl)
@[simp] theorem State.wrN_pairLink (s : State) (a v : Nat) : (s.wrN a v).pairLink = s.pairLink := (rfl)
@[simp] theorem State.wrN_recCopies (s : State) (a v : Nat) : (s.wrN a v).recCopies = s.recCopies := (rfl)
@[simp] theorem State.wrN_ring (s : State) (a v : Nat) : (s.wrN a v).ring = s.ring := (rfl)
@[simp] theorem State.wrN_engines (s : State) (a v : Nat) : (s.wrN a v).engines = s.engines := (rfl)
@[simp] theorem State.wrN_dma (s : State) (a v : Nat) : (s.wrN a v).dma = s.dma := (rfl)
@[simp] theorem State.wrN_evt (s : State) (a v : Nat) : (s.wrN a v).evt = s.evt := (rfl)
@[simp] theorem State.wrN_cart (s : State) (a v : Nat) : (s.wrN a v).cart = s.cart := (rfl)
@[simp] theorem State.wrN_guard (s : State) (a v : Nat) : (s.wrN a v).guard = s.guard := (rfl)
@[simp] theorem State.wrN_pair (s : State) (a v : Nat) : (s.wrN a v).pair = s.pair := (rfl)
@[simp] theorem State.wrN_pace (s : State) (a v : Nat) : (s.wrN a v).pace = s.pace := (rfl)
@[simp] theorem State.wrN_obs (s : State) (a v : Nat) : (s.wrN a v).obs = s.obs := (rfl)
@[simp] theorem State.wrN_tb (s : State) (a v : Nat) : (s.wrN a v).tb = s.tb := (rfl)
@[simp] theorem State.wrN_ptp (s : State) (a v : Nat) : (s.wrN a v).ptp = s.ptp := (rfl)
@[simp] theorem State.wrN_cnt (s : State) (a v : Nat) (k : Nat) : (s.wrN a v).cnt k = s.cnt k := (rfl)
@[simp] theorem State.wrN_q (s : State) (a v : Nat) (k : Nat) : (s.wrN a v).q k = s.q k := (rfl)
@[simp] theorem State.wrN_frame (s : State) (a v : Nat) (k : Nat) : (s.wrN a v).frame k = s.frame k := (rfl)
@[simp] theorem State.wrN_port (s : State) (a v : Nat) (k : Nat) : (s.wrN a v).port k = s.port k := (rfl)
@[simp] theorem State.wrN_flow (s : State) (a v : Nat) (k : Nat) : (s.wrN a v).flow k = s.flow k := (rfl)
@[simp] theorem State.wrN_eng (s : State) (a v : Nat) (k : Nat) : (s.wrN a v).eng k = s.eng k := (rfl)

@[simp] theorem State.setFld_pending (s : State) (f : Field) (v : Nat) : (s.setFld f v).pending = s.pending := (rfl)
@[simp] theorem State.setFld_stage (s : State) (f : Field) (v : Nat) : (s.setFld f v).stage = s.stage := (rfl)
@[simp] theorem State.setFld_latch (s : State) (f : Field) (v : Nat) : (s.setFld f v).latch = s.latch := (rfl)
@[simp] theorem State.setFld_cnts (s : State) (f : Field) (v : Nat) : (s.setFld f v).cnts = s.cnts := (rfl)
@[simp] theorem State.setFld_posted (s : State) (f : Field) (v : Nat) : (s.setFld f v).posted = s.posted := (rfl)
@[simp] theorem State.setFld_lastPost (s : State) (f : Field) (v : Nat) : (s.setFld f v).lastPost = s.lastPost := (rfl)
@[simp] theorem State.setFld_out (s : State) (f : Field) (v : Nat) : (s.setFld f v).out = s.out := (rfl)
@[simp] theorem State.setFld_free (s : State) (f : Field) (v : Nat) : (s.setFld f v).free = s.free := (rfl)
@[simp] theorem State.setFld_pwr (s : State) (f : Field) (v : Nat) : (s.setFld f v).pwr = s.pwr := (rfl)
@[simp] theorem State.setFld_fuses (s : State) (f : Field) (v : Nat) : (s.setFld f v).fuses = s.fuses := (rfl)
@[simp] theorem State.setFld_boot (s : State) (f : Field) (v : Nat) : (s.setFld f v).boot = s.boot := (rfl)
@[simp] theorem State.setFld_imp (s : State) (f : Field) (v : Nat) : (s.setFld f v).imp = s.imp := (rfl)
@[simp] theorem State.setFld_units (s : State) (f : Field) (v : Nat) : (s.setFld f v).units = s.units := (rfl)
@[simp] theorem State.setFld_spine (s : State) (f : Field) (v : Nat) : (s.setFld f v).spine = s.spine := (rfl)
@[simp] theorem State.setFld_cells (s : State) (f : Field) (v : Nat) : (s.setFld f v).cells = s.cells := (rfl)
@[simp] theorem State.setFld_frames (s : State) (f : Field) (v : Nat) : (s.setFld f v).frames = s.frames := (rfl)
@[simp] theorem State.setFld_nextFrame (s : State) (f : Field) (v : Nat) : (s.setFld f v).nextFrame = s.nextFrame := (rfl)
@[simp] theorem State.setFld_dram (s : State) (f : Field) (v : Nat) : (s.setFld f v).dram = s.dram := (rfl)
@[simp] theorem State.setFld_poison (s : State) (f : Field) (v : Nat) : (s.setFld f v).poison = s.poison := (rfl)
@[simp] theorem State.setFld_queues (s : State) (f : Field) (v : Nat) : (s.setFld f v).queues = s.queues := (rfl)
@[simp] theorem State.setFld_host (s : State) (f : Field) (v : Nat) : (s.setFld f v).host = s.host := (rfl)
@[simp] theorem State.setFld_ports (s : State) (f : Field) (v : Nat) : (s.setFld f v).ports = s.ports := (rfl)
@[simp] theorem State.setFld_flows (s : State) (f : Field) (v : Nat) : (s.setFld f v).flows = s.flows := (rfl)
@[simp] theorem State.setFld_items (s : State) (f : Field) (v : Nat) : (s.setFld f v).items = s.items := (rfl)
@[simp] theorem State.setFld_itemSeq (s : State) (f : Field) (v : Nat) : (s.setFld f v).itemSeq = s.itemSeq := (rfl)
@[simp] theorem State.setFld_pairLink (s : State) (f : Field) (v : Nat) : (s.setFld f v).pairLink = s.pairLink := (rfl)
@[simp] theorem State.setFld_recCopies (s : State) (f : Field) (v : Nat) : (s.setFld f v).recCopies = s.recCopies := (rfl)
@[simp] theorem State.setFld_ring (s : State) (f : Field) (v : Nat) : (s.setFld f v).ring = s.ring := (rfl)
@[simp] theorem State.setFld_engines (s : State) (f : Field) (v : Nat) : (s.setFld f v).engines = s.engines := (rfl)
@[simp] theorem State.setFld_dma (s : State) (f : Field) (v : Nat) : (s.setFld f v).dma = s.dma := (rfl)
@[simp] theorem State.setFld_evt (s : State) (f : Field) (v : Nat) : (s.setFld f v).evt = s.evt := (rfl)
@[simp] theorem State.setFld_cart (s : State) (f : Field) (v : Nat) : (s.setFld f v).cart = s.cart := (rfl)
@[simp] theorem State.setFld_guard (s : State) (f : Field) (v : Nat) : (s.setFld f v).guard = s.guard := (rfl)
@[simp] theorem State.setFld_pair (s : State) (f : Field) (v : Nat) : (s.setFld f v).pair = s.pair := (rfl)
@[simp] theorem State.setFld_pace (s : State) (f : Field) (v : Nat) : (s.setFld f v).pace = s.pace := (rfl)
@[simp] theorem State.setFld_obs (s : State) (f : Field) (v : Nat) : (s.setFld f v).obs = s.obs := (rfl)
@[simp] theorem State.setFld_tb (s : State) (f : Field) (v : Nat) : (s.setFld f v).tb = s.tb := (rfl)
@[simp] theorem State.setFld_ptp (s : State) (f : Field) (v : Nat) : (s.setFld f v).ptp = s.ptp := (rfl)
@[simp] theorem State.setFld_cnt (s : State) (f : Field) (v : Nat) (k : Nat) : (s.setFld f v).cnt k = s.cnt k := (rfl)
@[simp] theorem State.setFld_q (s : State) (f : Field) (v : Nat) (k : Nat) : (s.setFld f v).q k = s.q k := (rfl)
@[simp] theorem State.setFld_frame (s : State) (f : Field) (v : Nat) (k : Nat) : (s.setFld f v).frame k = s.frame k := (rfl)
@[simp] theorem State.setFld_port (s : State) (f : Field) (v : Nat) (k : Nat) : (s.setFld f v).port k = s.port k := (rfl)
@[simp] theorem State.setFld_flow (s : State) (f : Field) (v : Nat) (k : Nat) : (s.setFld f v).flow k = s.flow k := (rfl)
@[simp] theorem State.setFld_eng (s : State) (f : Field) (v : Nat) (k : Nat) : (s.setFld f v).eng k = s.eng k := (rfl)

@[simp] theorem State.setFlag_pending (s : State) (f : Field) (b : Bool) : (s.setFlag f b).pending = s.pending := (rfl)
@[simp] theorem State.setFlag_stage (s : State) (f : Field) (b : Bool) : (s.setFlag f b).stage = s.stage := (rfl)
@[simp] theorem State.setFlag_latch (s : State) (f : Field) (b : Bool) : (s.setFlag f b).latch = s.latch := (rfl)
@[simp] theorem State.setFlag_cnts (s : State) (f : Field) (b : Bool) : (s.setFlag f b).cnts = s.cnts := (rfl)
@[simp] theorem State.setFlag_posted (s : State) (f : Field) (b : Bool) : (s.setFlag f b).posted = s.posted := (rfl)
@[simp] theorem State.setFlag_lastPost (s : State) (f : Field) (b : Bool) : (s.setFlag f b).lastPost = s.lastPost := (rfl)
@[simp] theorem State.setFlag_out (s : State) (f : Field) (b : Bool) : (s.setFlag f b).out = s.out := (rfl)
@[simp] theorem State.setFlag_free (s : State) (f : Field) (b : Bool) : (s.setFlag f b).free = s.free := (rfl)
@[simp] theorem State.setFlag_pwr (s : State) (f : Field) (b : Bool) : (s.setFlag f b).pwr = s.pwr := (rfl)
@[simp] theorem State.setFlag_fuses (s : State) (f : Field) (b : Bool) : (s.setFlag f b).fuses = s.fuses := (rfl)
@[simp] theorem State.setFlag_boot (s : State) (f : Field) (b : Bool) : (s.setFlag f b).boot = s.boot := (rfl)
@[simp] theorem State.setFlag_imp (s : State) (f : Field) (b : Bool) : (s.setFlag f b).imp = s.imp := (rfl)
@[simp] theorem State.setFlag_units (s : State) (f : Field) (b : Bool) : (s.setFlag f b).units = s.units := (rfl)
@[simp] theorem State.setFlag_spine (s : State) (f : Field) (b : Bool) : (s.setFlag f b).spine = s.spine := (rfl)
@[simp] theorem State.setFlag_cells (s : State) (f : Field) (b : Bool) : (s.setFlag f b).cells = s.cells := (rfl)
@[simp] theorem State.setFlag_frames (s : State) (f : Field) (b : Bool) : (s.setFlag f b).frames = s.frames := (rfl)
@[simp] theorem State.setFlag_nextFrame (s : State) (f : Field) (b : Bool) : (s.setFlag f b).nextFrame = s.nextFrame := (rfl)
@[simp] theorem State.setFlag_dram (s : State) (f : Field) (b : Bool) : (s.setFlag f b).dram = s.dram := (rfl)
@[simp] theorem State.setFlag_poison (s : State) (f : Field) (b : Bool) : (s.setFlag f b).poison = s.poison := (rfl)
@[simp] theorem State.setFlag_queues (s : State) (f : Field) (b : Bool) : (s.setFlag f b).queues = s.queues := (rfl)
@[simp] theorem State.setFlag_host (s : State) (f : Field) (b : Bool) : (s.setFlag f b).host = s.host := (rfl)
@[simp] theorem State.setFlag_ports (s : State) (f : Field) (b : Bool) : (s.setFlag f b).ports = s.ports := (rfl)
@[simp] theorem State.setFlag_flows (s : State) (f : Field) (b : Bool) : (s.setFlag f b).flows = s.flows := (rfl)
@[simp] theorem State.setFlag_items (s : State) (f : Field) (b : Bool) : (s.setFlag f b).items = s.items := (rfl)
@[simp] theorem State.setFlag_itemSeq (s : State) (f : Field) (b : Bool) : (s.setFlag f b).itemSeq = s.itemSeq := (rfl)
@[simp] theorem State.setFlag_pairLink (s : State) (f : Field) (b : Bool) : (s.setFlag f b).pairLink = s.pairLink := (rfl)
@[simp] theorem State.setFlag_recCopies (s : State) (f : Field) (b : Bool) : (s.setFlag f b).recCopies = s.recCopies := (rfl)
@[simp] theorem State.setFlag_ring (s : State) (f : Field) (b : Bool) : (s.setFlag f b).ring = s.ring := (rfl)
@[simp] theorem State.setFlag_engines (s : State) (f : Field) (b : Bool) : (s.setFlag f b).engines = s.engines := (rfl)
@[simp] theorem State.setFlag_dma (s : State) (f : Field) (b : Bool) : (s.setFlag f b).dma = s.dma := (rfl)
@[simp] theorem State.setFlag_evt (s : State) (f : Field) (b : Bool) : (s.setFlag f b).evt = s.evt := (rfl)
@[simp] theorem State.setFlag_cart (s : State) (f : Field) (b : Bool) : (s.setFlag f b).cart = s.cart := (rfl)
@[simp] theorem State.setFlag_guard (s : State) (f : Field) (b : Bool) : (s.setFlag f b).guard = s.guard := (rfl)
@[simp] theorem State.setFlag_pair (s : State) (f : Field) (b : Bool) : (s.setFlag f b).pair = s.pair := (rfl)
@[simp] theorem State.setFlag_pace (s : State) (f : Field) (b : Bool) : (s.setFlag f b).pace = s.pace := (rfl)
@[simp] theorem State.setFlag_obs (s : State) (f : Field) (b : Bool) : (s.setFlag f b).obs = s.obs := (rfl)
@[simp] theorem State.setFlag_tb (s : State) (f : Field) (b : Bool) : (s.setFlag f b).tb = s.tb := (rfl)
@[simp] theorem State.setFlag_ptp (s : State) (f : Field) (b : Bool) : (s.setFlag f b).ptp = s.ptp := (rfl)
@[simp] theorem State.setFlag_cnt (s : State) (f : Field) (b : Bool) (k : Nat) : (s.setFlag f b).cnt k = s.cnt k := (rfl)
@[simp] theorem State.setFlag_q (s : State) (f : Field) (b : Bool) (k : Nat) : (s.setFlag f b).q k = s.q k := (rfl)
@[simp] theorem State.setFlag_frame (s : State) (f : Field) (b : Bool) (k : Nat) : (s.setFlag f b).frame k = s.frame k := (rfl)
@[simp] theorem State.setFlag_port (s : State) (f : Field) (b : Bool) (k : Nat) : (s.setFlag f b).port k = s.port k := (rfl)
@[simp] theorem State.setFlag_flow (s : State) (f : Field) (b : Bool) (k : Nat) : (s.setFlag f b).flow k = s.flow k := (rfl)
@[simp] theorem State.setFlag_eng (s : State) (f : Field) (b : Bool) (k : Nat) : (s.setFlag f b).eng k = s.eng k := (rfl)

@[simp] theorem State.putBit_pending (s : State) (f : Field) (i : Nat) (b : Bool) : (s.putBit f i b).pending = s.pending := (rfl)
@[simp] theorem State.putBit_stage (s : State) (f : Field) (i : Nat) (b : Bool) : (s.putBit f i b).stage = s.stage := (rfl)
@[simp] theorem State.putBit_latch (s : State) (f : Field) (i : Nat) (b : Bool) : (s.putBit f i b).latch = s.latch := (rfl)
@[simp] theorem State.putBit_cnts (s : State) (f : Field) (i : Nat) (b : Bool) : (s.putBit f i b).cnts = s.cnts := (rfl)
@[simp] theorem State.putBit_posted (s : State) (f : Field) (i : Nat) (b : Bool) : (s.putBit f i b).posted = s.posted := (rfl)
@[simp] theorem State.putBit_lastPost (s : State) (f : Field) (i : Nat) (b : Bool) : (s.putBit f i b).lastPost = s.lastPost := (rfl)
@[simp] theorem State.putBit_out (s : State) (f : Field) (i : Nat) (b : Bool) : (s.putBit f i b).out = s.out := (rfl)
@[simp] theorem State.putBit_free (s : State) (f : Field) (i : Nat) (b : Bool) : (s.putBit f i b).free = s.free := (rfl)
@[simp] theorem State.putBit_pwr (s : State) (f : Field) (i : Nat) (b : Bool) : (s.putBit f i b).pwr = s.pwr := (rfl)
@[simp] theorem State.putBit_fuses (s : State) (f : Field) (i : Nat) (b : Bool) : (s.putBit f i b).fuses = s.fuses := (rfl)
@[simp] theorem State.putBit_boot (s : State) (f : Field) (i : Nat) (b : Bool) : (s.putBit f i b).boot = s.boot := (rfl)
@[simp] theorem State.putBit_imp (s : State) (f : Field) (i : Nat) (b : Bool) : (s.putBit f i b).imp = s.imp := (rfl)
@[simp] theorem State.putBit_units (s : State) (f : Field) (i : Nat) (b : Bool) : (s.putBit f i b).units = s.units := (rfl)
@[simp] theorem State.putBit_spine (s : State) (f : Field) (i : Nat) (b : Bool) : (s.putBit f i b).spine = s.spine := (rfl)
@[simp] theorem State.putBit_cells (s : State) (f : Field) (i : Nat) (b : Bool) : (s.putBit f i b).cells = s.cells := (rfl)
@[simp] theorem State.putBit_frames (s : State) (f : Field) (i : Nat) (b : Bool) : (s.putBit f i b).frames = s.frames := (rfl)
@[simp] theorem State.putBit_nextFrame (s : State) (f : Field) (i : Nat) (b : Bool) : (s.putBit f i b).nextFrame = s.nextFrame := (rfl)
@[simp] theorem State.putBit_dram (s : State) (f : Field) (i : Nat) (b : Bool) : (s.putBit f i b).dram = s.dram := (rfl)
@[simp] theorem State.putBit_poison (s : State) (f : Field) (i : Nat) (b : Bool) : (s.putBit f i b).poison = s.poison := (rfl)
@[simp] theorem State.putBit_queues (s : State) (f : Field) (i : Nat) (b : Bool) : (s.putBit f i b).queues = s.queues := (rfl)
@[simp] theorem State.putBit_host (s : State) (f : Field) (i : Nat) (b : Bool) : (s.putBit f i b).host = s.host := (rfl)
@[simp] theorem State.putBit_ports (s : State) (f : Field) (i : Nat) (b : Bool) : (s.putBit f i b).ports = s.ports := (rfl)
@[simp] theorem State.putBit_flows (s : State) (f : Field) (i : Nat) (b : Bool) : (s.putBit f i b).flows = s.flows := (rfl)
@[simp] theorem State.putBit_items (s : State) (f : Field) (i : Nat) (b : Bool) : (s.putBit f i b).items = s.items := (rfl)
@[simp] theorem State.putBit_itemSeq (s : State) (f : Field) (i : Nat) (b : Bool) : (s.putBit f i b).itemSeq = s.itemSeq := (rfl)
@[simp] theorem State.putBit_pairLink (s : State) (f : Field) (i : Nat) (b : Bool) : (s.putBit f i b).pairLink = s.pairLink := (rfl)
@[simp] theorem State.putBit_recCopies (s : State) (f : Field) (i : Nat) (b : Bool) : (s.putBit f i b).recCopies = s.recCopies := (rfl)
@[simp] theorem State.putBit_ring (s : State) (f : Field) (i : Nat) (b : Bool) : (s.putBit f i b).ring = s.ring := (rfl)
@[simp] theorem State.putBit_engines (s : State) (f : Field) (i : Nat) (b : Bool) : (s.putBit f i b).engines = s.engines := (rfl)
@[simp] theorem State.putBit_dma (s : State) (f : Field) (i : Nat) (b : Bool) : (s.putBit f i b).dma = s.dma := (rfl)
@[simp] theorem State.putBit_evt (s : State) (f : Field) (i : Nat) (b : Bool) : (s.putBit f i b).evt = s.evt := (rfl)
@[simp] theorem State.putBit_cart (s : State) (f : Field) (i : Nat) (b : Bool) : (s.putBit f i b).cart = s.cart := (rfl)
@[simp] theorem State.putBit_guard (s : State) (f : Field) (i : Nat) (b : Bool) : (s.putBit f i b).guard = s.guard := (rfl)
@[simp] theorem State.putBit_pair (s : State) (f : Field) (i : Nat) (b : Bool) : (s.putBit f i b).pair = s.pair := (rfl)
@[simp] theorem State.putBit_pace (s : State) (f : Field) (i : Nat) (b : Bool) : (s.putBit f i b).pace = s.pace := (rfl)
@[simp] theorem State.putBit_obs (s : State) (f : Field) (i : Nat) (b : Bool) : (s.putBit f i b).obs = s.obs := (rfl)
@[simp] theorem State.putBit_tb (s : State) (f : Field) (i : Nat) (b : Bool) : (s.putBit f i b).tb = s.tb := (rfl)
@[simp] theorem State.putBit_ptp (s : State) (f : Field) (i : Nat) (b : Bool) : (s.putBit f i b).ptp = s.ptp := (rfl)
@[simp] theorem State.putBit_cnt (s : State) (f : Field) (i : Nat) (b : Bool) (k : Nat) : (s.putBit f i b).cnt k = s.cnt k := (rfl)
@[simp] theorem State.putBit_q (s : State) (f : Field) (i : Nat) (b : Bool) (k : Nat) : (s.putBit f i b).q k = s.q k := (rfl)
@[simp] theorem State.putBit_frame (s : State) (f : Field) (i : Nat) (b : Bool) (k : Nat) : (s.putBit f i b).frame k = s.frame k := (rfl)
@[simp] theorem State.putBit_port (s : State) (f : Field) (i : Nat) (b : Bool) (k : Nat) : (s.putBit f i b).port k = s.port k := (rfl)
@[simp] theorem State.putBit_flow (s : State) (f : Field) (i : Nat) (b : Bool) (k : Nat) : (s.putBit f i b).flow k = s.flow k := (rfl)
@[simp] theorem State.putBit_eng (s : State) (f : Field) (i : Nat) (b : Bool) (k : Nat) : (s.putBit f i b).eng k = s.eng k := (rfl)

@[simp] theorem State.wr64_pending (s : State) (a v : Nat) : (s.wr64 a v).pending = s.pending := (rfl)
@[simp] theorem State.wr64_stage (s : State) (a v : Nat) : (s.wr64 a v).stage = s.stage := (rfl)
@[simp] theorem State.wr64_latch (s : State) (a v : Nat) : (s.wr64 a v).latch = s.latch := (rfl)
@[simp] theorem State.wr64_cnts (s : State) (a v : Nat) : (s.wr64 a v).cnts = s.cnts := (rfl)
@[simp] theorem State.wr64_posted (s : State) (a v : Nat) : (s.wr64 a v).posted = s.posted := (rfl)
@[simp] theorem State.wr64_lastPost (s : State) (a v : Nat) : (s.wr64 a v).lastPost = s.lastPost := (rfl)
@[simp] theorem State.wr64_out (s : State) (a v : Nat) : (s.wr64 a v).out = s.out := (rfl)
@[simp] theorem State.wr64_free (s : State) (a v : Nat) : (s.wr64 a v).free = s.free := (rfl)
@[simp] theorem State.wr64_pwr (s : State) (a v : Nat) : (s.wr64 a v).pwr = s.pwr := (rfl)
@[simp] theorem State.wr64_fuses (s : State) (a v : Nat) : (s.wr64 a v).fuses = s.fuses := (rfl)
@[simp] theorem State.wr64_boot (s : State) (a v : Nat) : (s.wr64 a v).boot = s.boot := (rfl)
@[simp] theorem State.wr64_imp (s : State) (a v : Nat) : (s.wr64 a v).imp = s.imp := (rfl)
@[simp] theorem State.wr64_units (s : State) (a v : Nat) : (s.wr64 a v).units = s.units := (rfl)
@[simp] theorem State.wr64_spine (s : State) (a v : Nat) : (s.wr64 a v).spine = s.spine := (rfl)
@[simp] theorem State.wr64_cells (s : State) (a v : Nat) : (s.wr64 a v).cells = s.cells := (rfl)
@[simp] theorem State.wr64_frames (s : State) (a v : Nat) : (s.wr64 a v).frames = s.frames := (rfl)
@[simp] theorem State.wr64_nextFrame (s : State) (a v : Nat) : (s.wr64 a v).nextFrame = s.nextFrame := (rfl)
@[simp] theorem State.wr64_dram (s : State) (a v : Nat) : (s.wr64 a v).dram = s.dram := (rfl)
@[simp] theorem State.wr64_poison (s : State) (a v : Nat) : (s.wr64 a v).poison = s.poison := (rfl)
@[simp] theorem State.wr64_queues (s : State) (a v : Nat) : (s.wr64 a v).queues = s.queues := (rfl)
@[simp] theorem State.wr64_host (s : State) (a v : Nat) : (s.wr64 a v).host = s.host := (rfl)
@[simp] theorem State.wr64_ports (s : State) (a v : Nat) : (s.wr64 a v).ports = s.ports := (rfl)
@[simp] theorem State.wr64_flows (s : State) (a v : Nat) : (s.wr64 a v).flows = s.flows := (rfl)
@[simp] theorem State.wr64_items (s : State) (a v : Nat) : (s.wr64 a v).items = s.items := (rfl)
@[simp] theorem State.wr64_itemSeq (s : State) (a v : Nat) : (s.wr64 a v).itemSeq = s.itemSeq := (rfl)
@[simp] theorem State.wr64_pairLink (s : State) (a v : Nat) : (s.wr64 a v).pairLink = s.pairLink := (rfl)
@[simp] theorem State.wr64_recCopies (s : State) (a v : Nat) : (s.wr64 a v).recCopies = s.recCopies := (rfl)
@[simp] theorem State.wr64_ring (s : State) (a v : Nat) : (s.wr64 a v).ring = s.ring := (rfl)
@[simp] theorem State.wr64_engines (s : State) (a v : Nat) : (s.wr64 a v).engines = s.engines := (rfl)
@[simp] theorem State.wr64_dma (s : State) (a v : Nat) : (s.wr64 a v).dma = s.dma := (rfl)
@[simp] theorem State.wr64_evt (s : State) (a v : Nat) : (s.wr64 a v).evt = s.evt := (rfl)
@[simp] theorem State.wr64_cart (s : State) (a v : Nat) : (s.wr64 a v).cart = s.cart := (rfl)
@[simp] theorem State.wr64_guard (s : State) (a v : Nat) : (s.wr64 a v).guard = s.guard := (rfl)
@[simp] theorem State.wr64_pair (s : State) (a v : Nat) : (s.wr64 a v).pair = s.pair := (rfl)
@[simp] theorem State.wr64_pace (s : State) (a v : Nat) : (s.wr64 a v).pace = s.pace := (rfl)
@[simp] theorem State.wr64_obs (s : State) (a v : Nat) : (s.wr64 a v).obs = s.obs := (rfl)
@[simp] theorem State.wr64_tb (s : State) (a v : Nat) : (s.wr64 a v).tb = s.tb := (rfl)
@[simp] theorem State.wr64_ptp (s : State) (a v : Nat) : (s.wr64 a v).ptp = s.ptp := (rfl)
@[simp] theorem State.wr64_cnt (s : State) (a v : Nat) (k : Nat) : (s.wr64 a v).cnt k = s.cnt k := (rfl)
@[simp] theorem State.wr64_q (s : State) (a v : Nat) (k : Nat) : (s.wr64 a v).q k = s.q k := (rfl)
@[simp] theorem State.wr64_frame (s : State) (a v : Nat) (k : Nat) : (s.wr64 a v).frame k = s.frame k := (rfl)
@[simp] theorem State.wr64_port (s : State) (a v : Nat) (k : Nat) : (s.wr64 a v).port k = s.port k := (rfl)
@[simp] theorem State.wr64_flow (s : State) (a v : Nat) (k : Nat) : (s.wr64 a v).flow k = s.flow k := (rfl)
@[simp] theorem State.wr64_eng (s : State) (a v : Nat) (k : Nat) : (s.wr64 a v).eng k = s.eng k := (rfl)

@[simp] theorem State.wrFull_pending (s : State) (a : Nat) (v : Full) : (s.wrFull a v).pending = s.pending :=
  (State.wrN_pending ..).trans ((State.wrN_pending ..).trans (State.wrN_pending ..))
@[simp] theorem State.wrFull_stage (s : State) (a : Nat) (v : Full) : (s.wrFull a v).stage = s.stage :=
  (State.wrN_stage ..).trans ((State.wrN_stage ..).trans (State.wrN_stage ..))
@[simp] theorem State.wrFull_latch (s : State) (a : Nat) (v : Full) : (s.wrFull a v).latch = s.latch :=
  (State.wrN_latch ..).trans ((State.wrN_latch ..).trans (State.wrN_latch ..))
@[simp] theorem State.wrFull_cnts (s : State) (a : Nat) (v : Full) : (s.wrFull a v).cnts = s.cnts :=
  (State.wrN_cnts ..).trans ((State.wrN_cnts ..).trans (State.wrN_cnts ..))
@[simp] theorem State.wrFull_posted (s : State) (a : Nat) (v : Full) : (s.wrFull a v).posted = s.posted :=
  (State.wrN_posted ..).trans ((State.wrN_posted ..).trans (State.wrN_posted ..))
@[simp] theorem State.wrFull_lastPost (s : State) (a : Nat) (v : Full) : (s.wrFull a v).lastPost = s.lastPost :=
  (State.wrN_lastPost ..).trans ((State.wrN_lastPost ..).trans (State.wrN_lastPost ..))
@[simp] theorem State.wrFull_out (s : State) (a : Nat) (v : Full) : (s.wrFull a v).out = s.out :=
  (State.wrN_out ..).trans ((State.wrN_out ..).trans (State.wrN_out ..))
@[simp] theorem State.wrFull_free (s : State) (a : Nat) (v : Full) : (s.wrFull a v).free = s.free :=
  (State.wrN_free ..).trans ((State.wrN_free ..).trans (State.wrN_free ..))
@[simp] theorem State.wrFull_pwr (s : State) (a : Nat) (v : Full) : (s.wrFull a v).pwr = s.pwr :=
  (State.wrN_pwr ..).trans ((State.wrN_pwr ..).trans (State.wrN_pwr ..))
@[simp] theorem State.wrFull_fuses (s : State) (a : Nat) (v : Full) : (s.wrFull a v).fuses = s.fuses :=
  (State.wrN_fuses ..).trans ((State.wrN_fuses ..).trans (State.wrN_fuses ..))
@[simp] theorem State.wrFull_boot (s : State) (a : Nat) (v : Full) : (s.wrFull a v).boot = s.boot :=
  (State.wrN_boot ..).trans ((State.wrN_boot ..).trans (State.wrN_boot ..))
@[simp] theorem State.wrFull_imp (s : State) (a : Nat) (v : Full) : (s.wrFull a v).imp = s.imp :=
  (State.wrN_imp ..).trans ((State.wrN_imp ..).trans (State.wrN_imp ..))
@[simp] theorem State.wrFull_units (s : State) (a : Nat) (v : Full) : (s.wrFull a v).units = s.units :=
  (State.wrN_units ..).trans ((State.wrN_units ..).trans (State.wrN_units ..))
@[simp] theorem State.wrFull_spine (s : State) (a : Nat) (v : Full) : (s.wrFull a v).spine = s.spine :=
  (State.wrN_spine ..).trans ((State.wrN_spine ..).trans (State.wrN_spine ..))
@[simp] theorem State.wrFull_cells (s : State) (a : Nat) (v : Full) : (s.wrFull a v).cells = s.cells :=
  (State.wrN_cells ..).trans ((State.wrN_cells ..).trans (State.wrN_cells ..))
@[simp] theorem State.wrFull_frames (s : State) (a : Nat) (v : Full) : (s.wrFull a v).frames = s.frames :=
  (State.wrN_frames ..).trans ((State.wrN_frames ..).trans (State.wrN_frames ..))
@[simp] theorem State.wrFull_nextFrame (s : State) (a : Nat) (v : Full) : (s.wrFull a v).nextFrame = s.nextFrame :=
  (State.wrN_nextFrame ..).trans ((State.wrN_nextFrame ..).trans (State.wrN_nextFrame ..))
@[simp] theorem State.wrFull_dram (s : State) (a : Nat) (v : Full) : (s.wrFull a v).dram = s.dram :=
  (State.wrN_dram ..).trans ((State.wrN_dram ..).trans (State.wrN_dram ..))
@[simp] theorem State.wrFull_poison (s : State) (a : Nat) (v : Full) : (s.wrFull a v).poison = s.poison :=
  (State.wrN_poison ..).trans ((State.wrN_poison ..).trans (State.wrN_poison ..))
@[simp] theorem State.wrFull_queues (s : State) (a : Nat) (v : Full) : (s.wrFull a v).queues = s.queues :=
  (State.wrN_queues ..).trans ((State.wrN_queues ..).trans (State.wrN_queues ..))
@[simp] theorem State.wrFull_host (s : State) (a : Nat) (v : Full) : (s.wrFull a v).host = s.host :=
  (State.wrN_host ..).trans ((State.wrN_host ..).trans (State.wrN_host ..))
@[simp] theorem State.wrFull_ports (s : State) (a : Nat) (v : Full) : (s.wrFull a v).ports = s.ports :=
  (State.wrN_ports ..).trans ((State.wrN_ports ..).trans (State.wrN_ports ..))
@[simp] theorem State.wrFull_flows (s : State) (a : Nat) (v : Full) : (s.wrFull a v).flows = s.flows :=
  (State.wrN_flows ..).trans ((State.wrN_flows ..).trans (State.wrN_flows ..))
@[simp] theorem State.wrFull_items (s : State) (a : Nat) (v : Full) : (s.wrFull a v).items = s.items :=
  (State.wrN_items ..).trans ((State.wrN_items ..).trans (State.wrN_items ..))
@[simp] theorem State.wrFull_itemSeq (s : State) (a : Nat) (v : Full) : (s.wrFull a v).itemSeq = s.itemSeq :=
  (State.wrN_itemSeq ..).trans ((State.wrN_itemSeq ..).trans (State.wrN_itemSeq ..))
@[simp] theorem State.wrFull_pairLink (s : State) (a : Nat) (v : Full) : (s.wrFull a v).pairLink = s.pairLink :=
  (State.wrN_pairLink ..).trans ((State.wrN_pairLink ..).trans (State.wrN_pairLink ..))
@[simp] theorem State.wrFull_recCopies (s : State) (a : Nat) (v : Full) : (s.wrFull a v).recCopies = s.recCopies :=
  (State.wrN_recCopies ..).trans ((State.wrN_recCopies ..).trans (State.wrN_recCopies ..))
@[simp] theorem State.wrFull_ring (s : State) (a : Nat) (v : Full) : (s.wrFull a v).ring = s.ring :=
  (State.wrN_ring ..).trans ((State.wrN_ring ..).trans (State.wrN_ring ..))
@[simp] theorem State.wrFull_engines (s : State) (a : Nat) (v : Full) : (s.wrFull a v).engines = s.engines :=
  (State.wrN_engines ..).trans ((State.wrN_engines ..).trans (State.wrN_engines ..))
@[simp] theorem State.wrFull_dma (s : State) (a : Nat) (v : Full) : (s.wrFull a v).dma = s.dma :=
  (State.wrN_dma ..).trans ((State.wrN_dma ..).trans (State.wrN_dma ..))
@[simp] theorem State.wrFull_evt (s : State) (a : Nat) (v : Full) : (s.wrFull a v).evt = s.evt :=
  (State.wrN_evt ..).trans ((State.wrN_evt ..).trans (State.wrN_evt ..))
@[simp] theorem State.wrFull_cart (s : State) (a : Nat) (v : Full) : (s.wrFull a v).cart = s.cart :=
  (State.wrN_cart ..).trans ((State.wrN_cart ..).trans (State.wrN_cart ..))
@[simp] theorem State.wrFull_guard (s : State) (a : Nat) (v : Full) : (s.wrFull a v).guard = s.guard :=
  (State.wrN_guard ..).trans ((State.wrN_guard ..).trans (State.wrN_guard ..))
@[simp] theorem State.wrFull_pair (s : State) (a : Nat) (v : Full) : (s.wrFull a v).pair = s.pair :=
  (State.wrN_pair ..).trans ((State.wrN_pair ..).trans (State.wrN_pair ..))
@[simp] theorem State.wrFull_pace (s : State) (a : Nat) (v : Full) : (s.wrFull a v).pace = s.pace :=
  (State.wrN_pace ..).trans ((State.wrN_pace ..).trans (State.wrN_pace ..))
@[simp] theorem State.wrFull_obs (s : State) (a : Nat) (v : Full) : (s.wrFull a v).obs = s.obs :=
  (State.wrN_obs ..).trans ((State.wrN_obs ..).trans (State.wrN_obs ..))
@[simp] theorem State.wrFull_tb (s : State) (a : Nat) (v : Full) : (s.wrFull a v).tb = s.tb :=
  (State.wrN_tb ..).trans ((State.wrN_tb ..).trans (State.wrN_tb ..))
@[simp] theorem State.wrFull_ptp (s : State) (a : Nat) (v : Full) : (s.wrFull a v).ptp = s.ptp :=
  (State.wrN_ptp ..).trans ((State.wrN_ptp ..).trans (State.wrN_ptp ..))
@[simp] theorem State.wrFull_cnt (s : State) (a : Nat) (v : Full) (k : Nat) : (s.wrFull a v).cnt k = s.cnt k :=
  (State.wrN_cnt ..).trans ((State.wrN_cnt ..).trans (State.wrN_cnt ..))
@[simp] theorem State.wrFull_q (s : State) (a : Nat) (v : Full) (k : Nat) : (s.wrFull a v).q k = s.q k :=
  (State.wrN_q ..).trans ((State.wrN_q ..).trans (State.wrN_q ..))
@[simp] theorem State.wrFull_frame (s : State) (a : Nat) (v : Full) (k : Nat) : (s.wrFull a v).frame k = s.frame k :=
  (State.wrN_frame ..).trans ((State.wrN_frame ..).trans (State.wrN_frame ..))
@[simp] theorem State.wrFull_port (s : State) (a : Nat) (v : Full) (k : Nat) : (s.wrFull a v).port k = s.port k :=
  (State.wrN_port ..).trans ((State.wrN_port ..).trans (State.wrN_port ..))
@[simp] theorem State.wrFull_flow (s : State) (a : Nat) (v : Full) (k : Nat) : (s.wrFull a v).flow k = s.flow k :=
  (State.wrN_flow ..).trans ((State.wrN_flow ..).trans (State.wrN_flow ..))
@[simp] theorem State.wrFull_eng (s : State) (a : Nat) (v : Full) (k : Nat) : (s.wrFull a v).eng k = s.eng k :=
  (State.wrN_eng ..).trans ((State.wrN_eng ..).trans (State.wrN_eng ..))

@[simp] theorem State.stageWord_pending (s : State) (a : Nat) (v : Word) : (s.stageWord a v).pending = s.pending := (rfl)
@[simp] theorem State.stageWord_regs (s : State) (a : Nat) (v : Word) : (s.stageWord a v).regs = s.regs := (rfl)
@[simp] theorem State.stageWord_latch (s : State) (a : Nat) (v : Word) : (s.stageWord a v).latch = s.latch := (rfl)
@[simp] theorem State.stageWord_cnts (s : State) (a : Nat) (v : Word) : (s.stageWord a v).cnts = s.cnts := (rfl)
@[simp] theorem State.stageWord_posted (s : State) (a : Nat) (v : Word) : (s.stageWord a v).posted = s.posted := (rfl)
@[simp] theorem State.stageWord_lastPost (s : State) (a : Nat) (v : Word) : (s.stageWord a v).lastPost = s.lastPost := (rfl)
@[simp] theorem State.stageWord_out (s : State) (a : Nat) (v : Word) : (s.stageWord a v).out = s.out := (rfl)
@[simp] theorem State.stageWord_free (s : State) (a : Nat) (v : Word) : (s.stageWord a v).free = s.free := (rfl)
@[simp] theorem State.stageWord_pwr (s : State) (a : Nat) (v : Word) : (s.stageWord a v).pwr = s.pwr := (rfl)
@[simp] theorem State.stageWord_fuses (s : State) (a : Nat) (v : Word) : (s.stageWord a v).fuses = s.fuses := (rfl)
@[simp] theorem State.stageWord_boot (s : State) (a : Nat) (v : Word) : (s.stageWord a v).boot = s.boot := (rfl)
@[simp] theorem State.stageWord_imp (s : State) (a : Nat) (v : Word) : (s.stageWord a v).imp = s.imp := (rfl)
@[simp] theorem State.stageWord_units (s : State) (a : Nat) (v : Word) : (s.stageWord a v).units = s.units := (rfl)
@[simp] theorem State.stageWord_spine (s : State) (a : Nat) (v : Word) : (s.stageWord a v).spine = s.spine := (rfl)
@[simp] theorem State.stageWord_cells (s : State) (a : Nat) (v : Word) : (s.stageWord a v).cells = s.cells := (rfl)
@[simp] theorem State.stageWord_frames (s : State) (a : Nat) (v : Word) : (s.stageWord a v).frames = s.frames := (rfl)
@[simp] theorem State.stageWord_nextFrame (s : State) (a : Nat) (v : Word) : (s.stageWord a v).nextFrame = s.nextFrame := (rfl)
@[simp] theorem State.stageWord_dram (s : State) (a : Nat) (v : Word) : (s.stageWord a v).dram = s.dram := (rfl)
@[simp] theorem State.stageWord_poison (s : State) (a : Nat) (v : Word) : (s.stageWord a v).poison = s.poison := (rfl)
@[simp] theorem State.stageWord_queues (s : State) (a : Nat) (v : Word) : (s.stageWord a v).queues = s.queues := (rfl)
@[simp] theorem State.stageWord_host (s : State) (a : Nat) (v : Word) : (s.stageWord a v).host = s.host := (rfl)
@[simp] theorem State.stageWord_ports (s : State) (a : Nat) (v : Word) : (s.stageWord a v).ports = s.ports := (rfl)
@[simp] theorem State.stageWord_flows (s : State) (a : Nat) (v : Word) : (s.stageWord a v).flows = s.flows := (rfl)
@[simp] theorem State.stageWord_items (s : State) (a : Nat) (v : Word) : (s.stageWord a v).items = s.items := (rfl)
@[simp] theorem State.stageWord_itemSeq (s : State) (a : Nat) (v : Word) : (s.stageWord a v).itemSeq = s.itemSeq := (rfl)
@[simp] theorem State.stageWord_pairLink (s : State) (a : Nat) (v : Word) : (s.stageWord a v).pairLink = s.pairLink := (rfl)
@[simp] theorem State.stageWord_recCopies (s : State) (a : Nat) (v : Word) : (s.stageWord a v).recCopies = s.recCopies := (rfl)
@[simp] theorem State.stageWord_ring (s : State) (a : Nat) (v : Word) : (s.stageWord a v).ring = s.ring := (rfl)
@[simp] theorem State.stageWord_engines (s : State) (a : Nat) (v : Word) : (s.stageWord a v).engines = s.engines := (rfl)
@[simp] theorem State.stageWord_dma (s : State) (a : Nat) (v : Word) : (s.stageWord a v).dma = s.dma := (rfl)
@[simp] theorem State.stageWord_evt (s : State) (a : Nat) (v : Word) : (s.stageWord a v).evt = s.evt := (rfl)
@[simp] theorem State.stageWord_cart (s : State) (a : Nat) (v : Word) : (s.stageWord a v).cart = s.cart := (rfl)
@[simp] theorem State.stageWord_guard (s : State) (a : Nat) (v : Word) : (s.stageWord a v).guard = s.guard := (rfl)
@[simp] theorem State.stageWord_pair (s : State) (a : Nat) (v : Word) : (s.stageWord a v).pair = s.pair := (rfl)
@[simp] theorem State.stageWord_pace (s : State) (a : Nat) (v : Word) : (s.stageWord a v).pace = s.pace := (rfl)
@[simp] theorem State.stageWord_obs (s : State) (a : Nat) (v : Word) : (s.stageWord a v).obs = s.obs := (rfl)
@[simp] theorem State.stageWord_tb (s : State) (a : Nat) (v : Word) : (s.stageWord a v).tb = s.tb := (rfl)
@[simp] theorem State.stageWord_ptp (s : State) (a : Nat) (v : Word) : (s.stageWord a v).ptp = s.ptp := (rfl)
@[simp] theorem State.stageWord_rd (s : State) (a : Nat) (v : Word) (k : Nat) : (s.stageWord a v).rd k = s.rd k := (rfl)
@[simp] theorem State.stageWord_fld (s : State) (a : Nat) (v : Word) (g : Field) : (s.stageWord a v).fld g = s.fld g := (rfl)
@[simp] theorem State.stageWord_flag (s : State) (a : Nat) (v : Word) (g : Field) : (s.stageWord a v).flag g = s.flag g := (rfl)
@[simp] theorem State.stageWord_cnt (s : State) (a : Nat) (v : Word) (k : Nat) : (s.stageWord a v).cnt k = s.cnt k := (rfl)
@[simp] theorem State.stageWord_q (s : State) (a : Nat) (v : Word) (k : Nat) : (s.stageWord a v).q k = s.q k := (rfl)
@[simp] theorem State.stageWord_frame (s : State) (a : Nat) (v : Word) (k : Nat) : (s.stageWord a v).frame k = s.frame k := (rfl)
@[simp] theorem State.stageWord_port (s : State) (a : Nat) (v : Word) (k : Nat) : (s.stageWord a v).port k = s.port k := (rfl)
@[simp] theorem State.stageWord_flow (s : State) (a : Nat) (v : Word) (k : Nat) : (s.stageWord a v).flow k = s.flow k := (rfl)
@[simp] theorem State.stageWord_eng (s : State) (a : Nat) (v : Word) (k : Nat) : (s.stageWord a v).eng k = s.eng k := (rfl)

@[simp] theorem State.unstage_pending (s : State) (a : Nat) : (s.unstage a).pending = s.pending := (rfl)
@[simp] theorem State.unstage_regs (s : State) (a : Nat) : (s.unstage a).regs = s.regs := (rfl)
@[simp] theorem State.unstage_latch (s : State) (a : Nat) : (s.unstage a).latch = s.latch := (rfl)
@[simp] theorem State.unstage_cnts (s : State) (a : Nat) : (s.unstage a).cnts = s.cnts := (rfl)
@[simp] theorem State.unstage_posted (s : State) (a : Nat) : (s.unstage a).posted = s.posted := (rfl)
@[simp] theorem State.unstage_lastPost (s : State) (a : Nat) : (s.unstage a).lastPost = s.lastPost := (rfl)
@[simp] theorem State.unstage_out (s : State) (a : Nat) : (s.unstage a).out = s.out := (rfl)
@[simp] theorem State.unstage_free (s : State) (a : Nat) : (s.unstage a).free = s.free := (rfl)
@[simp] theorem State.unstage_pwr (s : State) (a : Nat) : (s.unstage a).pwr = s.pwr := (rfl)
@[simp] theorem State.unstage_fuses (s : State) (a : Nat) : (s.unstage a).fuses = s.fuses := (rfl)
@[simp] theorem State.unstage_boot (s : State) (a : Nat) : (s.unstage a).boot = s.boot := (rfl)
@[simp] theorem State.unstage_imp (s : State) (a : Nat) : (s.unstage a).imp = s.imp := (rfl)
@[simp] theorem State.unstage_units (s : State) (a : Nat) : (s.unstage a).units = s.units := (rfl)
@[simp] theorem State.unstage_spine (s : State) (a : Nat) : (s.unstage a).spine = s.spine := (rfl)
@[simp] theorem State.unstage_cells (s : State) (a : Nat) : (s.unstage a).cells = s.cells := (rfl)
@[simp] theorem State.unstage_frames (s : State) (a : Nat) : (s.unstage a).frames = s.frames := (rfl)
@[simp] theorem State.unstage_nextFrame (s : State) (a : Nat) : (s.unstage a).nextFrame = s.nextFrame := (rfl)
@[simp] theorem State.unstage_dram (s : State) (a : Nat) : (s.unstage a).dram = s.dram := (rfl)
@[simp] theorem State.unstage_poison (s : State) (a : Nat) : (s.unstage a).poison = s.poison := (rfl)
@[simp] theorem State.unstage_queues (s : State) (a : Nat) : (s.unstage a).queues = s.queues := (rfl)
@[simp] theorem State.unstage_host (s : State) (a : Nat) : (s.unstage a).host = s.host := (rfl)
@[simp] theorem State.unstage_ports (s : State) (a : Nat) : (s.unstage a).ports = s.ports := (rfl)
@[simp] theorem State.unstage_flows (s : State) (a : Nat) : (s.unstage a).flows = s.flows := (rfl)
@[simp] theorem State.unstage_items (s : State) (a : Nat) : (s.unstage a).items = s.items := (rfl)
@[simp] theorem State.unstage_itemSeq (s : State) (a : Nat) : (s.unstage a).itemSeq = s.itemSeq := (rfl)
@[simp] theorem State.unstage_pairLink (s : State) (a : Nat) : (s.unstage a).pairLink = s.pairLink := (rfl)
@[simp] theorem State.unstage_recCopies (s : State) (a : Nat) : (s.unstage a).recCopies = s.recCopies := (rfl)
@[simp] theorem State.unstage_ring (s : State) (a : Nat) : (s.unstage a).ring = s.ring := (rfl)
@[simp] theorem State.unstage_engines (s : State) (a : Nat) : (s.unstage a).engines = s.engines := (rfl)
@[simp] theorem State.unstage_dma (s : State) (a : Nat) : (s.unstage a).dma = s.dma := (rfl)
@[simp] theorem State.unstage_evt (s : State) (a : Nat) : (s.unstage a).evt = s.evt := (rfl)
@[simp] theorem State.unstage_cart (s : State) (a : Nat) : (s.unstage a).cart = s.cart := (rfl)
@[simp] theorem State.unstage_guard (s : State) (a : Nat) : (s.unstage a).guard = s.guard := (rfl)
@[simp] theorem State.unstage_pair (s : State) (a : Nat) : (s.unstage a).pair = s.pair := (rfl)
@[simp] theorem State.unstage_pace (s : State) (a : Nat) : (s.unstage a).pace = s.pace := (rfl)
@[simp] theorem State.unstage_obs (s : State) (a : Nat) : (s.unstage a).obs = s.obs := (rfl)
@[simp] theorem State.unstage_tb (s : State) (a : Nat) : (s.unstage a).tb = s.tb := (rfl)
@[simp] theorem State.unstage_ptp (s : State) (a : Nat) : (s.unstage a).ptp = s.ptp := (rfl)
@[simp] theorem State.unstage_rd (s : State) (a : Nat) (k : Nat) : (s.unstage a).rd k = s.rd k := (rfl)
@[simp] theorem State.unstage_fld (s : State) (a : Nat) (g : Field) : (s.unstage a).fld g = s.fld g := (rfl)
@[simp] theorem State.unstage_flag (s : State) (a : Nat) (g : Field) : (s.unstage a).flag g = s.flag g := (rfl)
@[simp] theorem State.unstage_cnt (s : State) (a : Nat) (k : Nat) : (s.unstage a).cnt k = s.cnt k := (rfl)
@[simp] theorem State.unstage_q (s : State) (a : Nat) (k : Nat) : (s.unstage a).q k = s.q k := (rfl)
@[simp] theorem State.unstage_frame (s : State) (a : Nat) (k : Nat) : (s.unstage a).frame k = s.frame k := (rfl)
@[simp] theorem State.unstage_port (s : State) (a : Nat) (k : Nat) : (s.unstage a).port k = s.port k := (rfl)
@[simp] theorem State.unstage_flow (s : State) (a : Nat) (k : Nat) : (s.unstage a).flow k = s.flow k := (rfl)
@[simp] theorem State.unstage_eng (s : State) (a : Nat) (k : Nat) : (s.unstage a).eng k = s.eng k := (rfl)

@[simp] theorem State.countN_pending (s : State) (i n : Nat) : (s.countN i n).pending = s.pending := (rfl)
@[simp] theorem State.countN_regs (s : State) (i n : Nat) : (s.countN i n).regs = s.regs := (rfl)
@[simp] theorem State.countN_stage (s : State) (i n : Nat) : (s.countN i n).stage = s.stage := (rfl)
@[simp] theorem State.countN_latch (s : State) (i n : Nat) : (s.countN i n).latch = s.latch := (rfl)
@[simp] theorem State.countN_posted (s : State) (i n : Nat) : (s.countN i n).posted = s.posted := (rfl)
@[simp] theorem State.countN_lastPost (s : State) (i n : Nat) : (s.countN i n).lastPost = s.lastPost := (rfl)
@[simp] theorem State.countN_out (s : State) (i n : Nat) : (s.countN i n).out = s.out := (rfl)
@[simp] theorem State.countN_free (s : State) (i n : Nat) : (s.countN i n).free = s.free := (rfl)
@[simp] theorem State.countN_pwr (s : State) (i n : Nat) : (s.countN i n).pwr = s.pwr := (rfl)
@[simp] theorem State.countN_fuses (s : State) (i n : Nat) : (s.countN i n).fuses = s.fuses := (rfl)
@[simp] theorem State.countN_boot (s : State) (i n : Nat) : (s.countN i n).boot = s.boot := (rfl)
@[simp] theorem State.countN_imp (s : State) (i n : Nat) : (s.countN i n).imp = s.imp := (rfl)
@[simp] theorem State.countN_units (s : State) (i n : Nat) : (s.countN i n).units = s.units := (rfl)
@[simp] theorem State.countN_spine (s : State) (i n : Nat) : (s.countN i n).spine = s.spine := (rfl)
@[simp] theorem State.countN_cells (s : State) (i n : Nat) : (s.countN i n).cells = s.cells := (rfl)
@[simp] theorem State.countN_frames (s : State) (i n : Nat) : (s.countN i n).frames = s.frames := (rfl)
@[simp] theorem State.countN_nextFrame (s : State) (i n : Nat) : (s.countN i n).nextFrame = s.nextFrame := (rfl)
@[simp] theorem State.countN_dram (s : State) (i n : Nat) : (s.countN i n).dram = s.dram := (rfl)
@[simp] theorem State.countN_poison (s : State) (i n : Nat) : (s.countN i n).poison = s.poison := (rfl)
@[simp] theorem State.countN_queues (s : State) (i n : Nat) : (s.countN i n).queues = s.queues := (rfl)
@[simp] theorem State.countN_host (s : State) (i n : Nat) : (s.countN i n).host = s.host := (rfl)
@[simp] theorem State.countN_ports (s : State) (i n : Nat) : (s.countN i n).ports = s.ports := (rfl)
@[simp] theorem State.countN_flows (s : State) (i n : Nat) : (s.countN i n).flows = s.flows := (rfl)
@[simp] theorem State.countN_items (s : State) (i n : Nat) : (s.countN i n).items = s.items := (rfl)
@[simp] theorem State.countN_itemSeq (s : State) (i n : Nat) : (s.countN i n).itemSeq = s.itemSeq := (rfl)
@[simp] theorem State.countN_pairLink (s : State) (i n : Nat) : (s.countN i n).pairLink = s.pairLink := (rfl)
@[simp] theorem State.countN_recCopies (s : State) (i n : Nat) : (s.countN i n).recCopies = s.recCopies := (rfl)
@[simp] theorem State.countN_ring (s : State) (i n : Nat) : (s.countN i n).ring = s.ring := (rfl)
@[simp] theorem State.countN_engines (s : State) (i n : Nat) : (s.countN i n).engines = s.engines := (rfl)
@[simp] theorem State.countN_dma (s : State) (i n : Nat) : (s.countN i n).dma = s.dma := (rfl)
@[simp] theorem State.countN_evt (s : State) (i n : Nat) : (s.countN i n).evt = s.evt := (rfl)
@[simp] theorem State.countN_cart (s : State) (i n : Nat) : (s.countN i n).cart = s.cart := (rfl)
@[simp] theorem State.countN_guard (s : State) (i n : Nat) : (s.countN i n).guard = s.guard := (rfl)
@[simp] theorem State.countN_pair (s : State) (i n : Nat) : (s.countN i n).pair = s.pair := (rfl)
@[simp] theorem State.countN_pace (s : State) (i n : Nat) : (s.countN i n).pace = s.pace := (rfl)
@[simp] theorem State.countN_obs (s : State) (i n : Nat) : (s.countN i n).obs = s.obs := (rfl)
@[simp] theorem State.countN_tb (s : State) (i n : Nat) : (s.countN i n).tb = s.tb := (rfl)
@[simp] theorem State.countN_ptp (s : State) (i n : Nat) : (s.countN i n).ptp = s.ptp := (rfl)
@[simp] theorem State.countN_rd (s : State) (i n : Nat) (k : Nat) : (s.countN i n).rd k = s.rd k := (rfl)
@[simp] theorem State.countN_fld (s : State) (i n : Nat) (g : Field) : (s.countN i n).fld g = s.fld g := (rfl)
@[simp] theorem State.countN_flag (s : State) (i n : Nat) (g : Field) : (s.countN i n).flag g = s.flag g := (rfl)
@[simp] theorem State.countN_q (s : State) (i n : Nat) (k : Nat) : (s.countN i n).q k = s.q k := (rfl)
@[simp] theorem State.countN_frame (s : State) (i n : Nat) (k : Nat) : (s.countN i n).frame k = s.frame k := (rfl)
@[simp] theorem State.countN_port (s : State) (i n : Nat) (k : Nat) : (s.countN i n).port k = s.port k := (rfl)
@[simp] theorem State.countN_flow (s : State) (i n : Nat) (k : Nat) : (s.countN i n).flow k = s.flow k := (rfl)
@[simp] theorem State.countN_eng (s : State) (i n : Nat) (k : Nat) : (s.countN i n).eng k = s.eng k := (rfl)

@[simp] theorem State.count_pending (s : State) (i : Nat) : (s.count i).pending = s.pending := (rfl)
@[simp] theorem State.count_regs (s : State) (i : Nat) : (s.count i).regs = s.regs := (rfl)
@[simp] theorem State.count_stage (s : State) (i : Nat) : (s.count i).stage = s.stage := (rfl)
@[simp] theorem State.count_latch (s : State) (i : Nat) : (s.count i).latch = s.latch := (rfl)
@[simp] theorem State.count_posted (s : State) (i : Nat) : (s.count i).posted = s.posted := (rfl)
@[simp] theorem State.count_lastPost (s : State) (i : Nat) : (s.count i).lastPost = s.lastPost := (rfl)
@[simp] theorem State.count_out (s : State) (i : Nat) : (s.count i).out = s.out := (rfl)
@[simp] theorem State.count_free (s : State) (i : Nat) : (s.count i).free = s.free := (rfl)
@[simp] theorem State.count_pwr (s : State) (i : Nat) : (s.count i).pwr = s.pwr := (rfl)
@[simp] theorem State.count_fuses (s : State) (i : Nat) : (s.count i).fuses = s.fuses := (rfl)
@[simp] theorem State.count_boot (s : State) (i : Nat) : (s.count i).boot = s.boot := (rfl)
@[simp] theorem State.count_imp (s : State) (i : Nat) : (s.count i).imp = s.imp := (rfl)
@[simp] theorem State.count_units (s : State) (i : Nat) : (s.count i).units = s.units := (rfl)
@[simp] theorem State.count_spine (s : State) (i : Nat) : (s.count i).spine = s.spine := (rfl)
@[simp] theorem State.count_cells (s : State) (i : Nat) : (s.count i).cells = s.cells := (rfl)
@[simp] theorem State.count_frames (s : State) (i : Nat) : (s.count i).frames = s.frames := (rfl)
@[simp] theorem State.count_nextFrame (s : State) (i : Nat) : (s.count i).nextFrame = s.nextFrame := (rfl)
@[simp] theorem State.count_dram (s : State) (i : Nat) : (s.count i).dram = s.dram := (rfl)
@[simp] theorem State.count_poison (s : State) (i : Nat) : (s.count i).poison = s.poison := (rfl)
@[simp] theorem State.count_queues (s : State) (i : Nat) : (s.count i).queues = s.queues := (rfl)
@[simp] theorem State.count_host (s : State) (i : Nat) : (s.count i).host = s.host := (rfl)
@[simp] theorem State.count_ports (s : State) (i : Nat) : (s.count i).ports = s.ports := (rfl)
@[simp] theorem State.count_flows (s : State) (i : Nat) : (s.count i).flows = s.flows := (rfl)
@[simp] theorem State.count_items (s : State) (i : Nat) : (s.count i).items = s.items := (rfl)
@[simp] theorem State.count_itemSeq (s : State) (i : Nat) : (s.count i).itemSeq = s.itemSeq := (rfl)
@[simp] theorem State.count_pairLink (s : State) (i : Nat) : (s.count i).pairLink = s.pairLink := (rfl)
@[simp] theorem State.count_recCopies (s : State) (i : Nat) : (s.count i).recCopies = s.recCopies := (rfl)
@[simp] theorem State.count_ring (s : State) (i : Nat) : (s.count i).ring = s.ring := (rfl)
@[simp] theorem State.count_engines (s : State) (i : Nat) : (s.count i).engines = s.engines := (rfl)
@[simp] theorem State.count_dma (s : State) (i : Nat) : (s.count i).dma = s.dma := (rfl)
@[simp] theorem State.count_evt (s : State) (i : Nat) : (s.count i).evt = s.evt := (rfl)
@[simp] theorem State.count_cart (s : State) (i : Nat) : (s.count i).cart = s.cart := (rfl)
@[simp] theorem State.count_guard (s : State) (i : Nat) : (s.count i).guard = s.guard := (rfl)
@[simp] theorem State.count_pair (s : State) (i : Nat) : (s.count i).pair = s.pair := (rfl)
@[simp] theorem State.count_pace (s : State) (i : Nat) : (s.count i).pace = s.pace := (rfl)
@[simp] theorem State.count_obs (s : State) (i : Nat) : (s.count i).obs = s.obs := (rfl)
@[simp] theorem State.count_tb (s : State) (i : Nat) : (s.count i).tb = s.tb := (rfl)
@[simp] theorem State.count_ptp (s : State) (i : Nat) : (s.count i).ptp = s.ptp := (rfl)
@[simp] theorem State.count_rd (s : State) (i : Nat) (k : Nat) : (s.count i).rd k = s.rd k := (rfl)
@[simp] theorem State.count_fld (s : State) (i : Nat) (g : Field) : (s.count i).fld g = s.fld g := (rfl)
@[simp] theorem State.count_flag (s : State) (i : Nat) (g : Field) : (s.count i).flag g = s.flag g := (rfl)
@[simp] theorem State.count_q (s : State) (i : Nat) (k : Nat) : (s.count i).q k = s.q k := (rfl)
@[simp] theorem State.count_frame (s : State) (i : Nat) (k : Nat) : (s.count i).frame k = s.frame k := (rfl)
@[simp] theorem State.count_port (s : State) (i : Nat) (k : Nat) : (s.count i).port k = s.port k := (rfl)
@[simp] theorem State.count_flow (s : State) (i : Nat) (k : Nat) : (s.count i).flow k = s.flow k := (rfl)
@[simp] theorem State.count_eng (s : State) (i : Nat) (k : Nat) : (s.count i).eng k = s.eng k := (rfl)

@[simp] theorem State.post_pending (s : State) (c d : Nat) : (s.post c d).pending = s.pending := (rfl)
@[simp] theorem State.post_regs (s : State) (c d : Nat) : (s.post c d).regs = s.regs := (rfl)
@[simp] theorem State.post_stage (s : State) (c d : Nat) : (s.post c d).stage = s.stage := (rfl)
@[simp] theorem State.post_latch (s : State) (c d : Nat) : (s.post c d).latch = s.latch := (rfl)
@[simp] theorem State.post_cnts (s : State) (c d : Nat) : (s.post c d).cnts = s.cnts := (rfl)
@[simp] theorem State.post_lastPost (s : State) (c d : Nat) : (s.post c d).lastPost = s.lastPost := (rfl)
@[simp] theorem State.post_out (s : State) (c d : Nat) : (s.post c d).out = s.out := (rfl)
@[simp] theorem State.post_free (s : State) (c d : Nat) : (s.post c d).free = s.free := (rfl)
@[simp] theorem State.post_pwr (s : State) (c d : Nat) : (s.post c d).pwr = s.pwr := (rfl)
@[simp] theorem State.post_fuses (s : State) (c d : Nat) : (s.post c d).fuses = s.fuses := (rfl)
@[simp] theorem State.post_boot (s : State) (c d : Nat) : (s.post c d).boot = s.boot := (rfl)
@[simp] theorem State.post_imp (s : State) (c d : Nat) : (s.post c d).imp = s.imp := (rfl)
@[simp] theorem State.post_units (s : State) (c d : Nat) : (s.post c d).units = s.units := (rfl)
@[simp] theorem State.post_spine (s : State) (c d : Nat) : (s.post c d).spine = s.spine := (rfl)
@[simp] theorem State.post_cells (s : State) (c d : Nat) : (s.post c d).cells = s.cells := (rfl)
@[simp] theorem State.post_frames (s : State) (c d : Nat) : (s.post c d).frames = s.frames := (rfl)
@[simp] theorem State.post_nextFrame (s : State) (c d : Nat) : (s.post c d).nextFrame = s.nextFrame := (rfl)
@[simp] theorem State.post_dram (s : State) (c d : Nat) : (s.post c d).dram = s.dram := (rfl)
@[simp] theorem State.post_poison (s : State) (c d : Nat) : (s.post c d).poison = s.poison := (rfl)
@[simp] theorem State.post_queues (s : State) (c d : Nat) : (s.post c d).queues = s.queues := (rfl)
@[simp] theorem State.post_host (s : State) (c d : Nat) : (s.post c d).host = s.host := (rfl)
@[simp] theorem State.post_ports (s : State) (c d : Nat) : (s.post c d).ports = s.ports := (rfl)
@[simp] theorem State.post_flows (s : State) (c d : Nat) : (s.post c d).flows = s.flows := (rfl)
@[simp] theorem State.post_items (s : State) (c d : Nat) : (s.post c d).items = s.items := (rfl)
@[simp] theorem State.post_itemSeq (s : State) (c d : Nat) : (s.post c d).itemSeq = s.itemSeq := (rfl)
@[simp] theorem State.post_pairLink (s : State) (c d : Nat) : (s.post c d).pairLink = s.pairLink := (rfl)
@[simp] theorem State.post_recCopies (s : State) (c d : Nat) : (s.post c d).recCopies = s.recCopies := (rfl)
@[simp] theorem State.post_ring (s : State) (c d : Nat) : (s.post c d).ring = s.ring := (rfl)
@[simp] theorem State.post_engines (s : State) (c d : Nat) : (s.post c d).engines = s.engines := (rfl)
@[simp] theorem State.post_dma (s : State) (c d : Nat) : (s.post c d).dma = s.dma := (rfl)
@[simp] theorem State.post_evt (s : State) (c d : Nat) : (s.post c d).evt = s.evt := (rfl)
@[simp] theorem State.post_cart (s : State) (c d : Nat) : (s.post c d).cart = s.cart := (rfl)
@[simp] theorem State.post_guard (s : State) (c d : Nat) : (s.post c d).guard = s.guard := (rfl)
@[simp] theorem State.post_pair (s : State) (c d : Nat) : (s.post c d).pair = s.pair := (rfl)
@[simp] theorem State.post_pace (s : State) (c d : Nat) : (s.post c d).pace = s.pace := (rfl)
@[simp] theorem State.post_obs (s : State) (c d : Nat) : (s.post c d).obs = s.obs := (rfl)
@[simp] theorem State.post_tb (s : State) (c d : Nat) : (s.post c d).tb = s.tb := (rfl)
@[simp] theorem State.post_ptp (s : State) (c d : Nat) : (s.post c d).ptp = s.ptp := (rfl)
@[simp] theorem State.post_rd (s : State) (c d : Nat) (k : Nat) : (s.post c d).rd k = s.rd k := (rfl)
@[simp] theorem State.post_fld (s : State) (c d : Nat) (g : Field) : (s.post c d).fld g = s.fld g := (rfl)
@[simp] theorem State.post_flag (s : State) (c d : Nat) (g : Field) : (s.post c d).flag g = s.flag g := (rfl)
@[simp] theorem State.post_cnt (s : State) (c d : Nat) (k : Nat) : (s.post c d).cnt k = s.cnt k := (rfl)
@[simp] theorem State.post_q (s : State) (c d : Nat) (k : Nat) : (s.post c d).q k = s.q k := (rfl)
@[simp] theorem State.post_frame (s : State) (c d : Nat) (k : Nat) : (s.post c d).frame k = s.frame k := (rfl)
@[simp] theorem State.post_port (s : State) (c d : Nat) (k : Nat) : (s.post c d).port k = s.port k := (rfl)
@[simp] theorem State.post_flow (s : State) (c d : Nat) (k : Nat) : (s.post c d).flow k = s.flow k := (rfl)
@[simp] theorem State.post_eng (s : State) (c d : Nat) (k : Nat) : (s.post c d).eng k = s.eng k := (rfl)

@[simp] theorem State.draw_pending (s : State) : (s.draw).pending = s.pending := (rfl)
@[simp] theorem State.draw_regs (s : State) : (s.draw).regs = s.regs := (rfl)
@[simp] theorem State.draw_stage (s : State) : (s.draw).stage = s.stage := (rfl)
@[simp] theorem State.draw_latch (s : State) : (s.draw).latch = s.latch := (rfl)
@[simp] theorem State.draw_cnts (s : State) : (s.draw).cnts = s.cnts := (rfl)
@[simp] theorem State.draw_posted (s : State) : (s.draw).posted = s.posted := (rfl)
@[simp] theorem State.draw_lastPost (s : State) : (s.draw).lastPost = s.lastPost := (rfl)
@[simp] theorem State.draw_out (s : State) : (s.draw).out = s.out := (rfl)
@[simp] theorem State.draw_pwr (s : State) : (s.draw).pwr = s.pwr := (rfl)
@[simp] theorem State.draw_fuses (s : State) : (s.draw).fuses = s.fuses := (rfl)
@[simp] theorem State.draw_boot (s : State) : (s.draw).boot = s.boot := (rfl)
@[simp] theorem State.draw_imp (s : State) : (s.draw).imp = s.imp := (rfl)
@[simp] theorem State.draw_units (s : State) : (s.draw).units = s.units := (rfl)
@[simp] theorem State.draw_spine (s : State) : (s.draw).spine = s.spine := (rfl)
@[simp] theorem State.draw_cells (s : State) : (s.draw).cells = s.cells := (rfl)
@[simp] theorem State.draw_frames (s : State) : (s.draw).frames = s.frames := (rfl)
@[simp] theorem State.draw_nextFrame (s : State) : (s.draw).nextFrame = s.nextFrame := (rfl)
@[simp] theorem State.draw_dram (s : State) : (s.draw).dram = s.dram := (rfl)
@[simp] theorem State.draw_poison (s : State) : (s.draw).poison = s.poison := (rfl)
@[simp] theorem State.draw_queues (s : State) : (s.draw).queues = s.queues := (rfl)
@[simp] theorem State.draw_host (s : State) : (s.draw).host = s.host := (rfl)
@[simp] theorem State.draw_ports (s : State) : (s.draw).ports = s.ports := (rfl)
@[simp] theorem State.draw_flows (s : State) : (s.draw).flows = s.flows := (rfl)
@[simp] theorem State.draw_items (s : State) : (s.draw).items = s.items := (rfl)
@[simp] theorem State.draw_itemSeq (s : State) : (s.draw).itemSeq = s.itemSeq := (rfl)
@[simp] theorem State.draw_pairLink (s : State) : (s.draw).pairLink = s.pairLink := (rfl)
@[simp] theorem State.draw_recCopies (s : State) : (s.draw).recCopies = s.recCopies := (rfl)
@[simp] theorem State.draw_ring (s : State) : (s.draw).ring = s.ring := (rfl)
@[simp] theorem State.draw_engines (s : State) : (s.draw).engines = s.engines := (rfl)
@[simp] theorem State.draw_dma (s : State) : (s.draw).dma = s.dma := (rfl)
@[simp] theorem State.draw_evt (s : State) : (s.draw).evt = s.evt := (rfl)
@[simp] theorem State.draw_cart (s : State) : (s.draw).cart = s.cart := (rfl)
@[simp] theorem State.draw_guard (s : State) : (s.draw).guard = s.guard := (rfl)
@[simp] theorem State.draw_pair (s : State) : (s.draw).pair = s.pair := (rfl)
@[simp] theorem State.draw_pace (s : State) : (s.draw).pace = s.pace := (rfl)
@[simp] theorem State.draw_obs (s : State) : (s.draw).obs = s.obs := (rfl)
@[simp] theorem State.draw_tb (s : State) : (s.draw).tb = s.tb := (rfl)
@[simp] theorem State.draw_ptp (s : State) : (s.draw).ptp = s.ptp := (rfl)
@[simp] theorem State.draw_rd (s : State) (k : Nat) : (s.draw).rd k = s.rd k := (rfl)
@[simp] theorem State.draw_fld (s : State) (g : Field) : (s.draw).fld g = s.fld g := (rfl)
@[simp] theorem State.draw_flag (s : State) (g : Field) : (s.draw).flag g = s.flag g := (rfl)
@[simp] theorem State.draw_cnt (s : State) (k : Nat) : (s.draw).cnt k = s.cnt k := (rfl)
@[simp] theorem State.draw_q (s : State) (k : Nat) : (s.draw).q k = s.q k := (rfl)
@[simp] theorem State.draw_frame (s : State) (k : Nat) : (s.draw).frame k = s.frame k := (rfl)
@[simp] theorem State.draw_port (s : State) (k : Nat) : (s.draw).port k = s.port k := (rfl)
@[simp] theorem State.draw_flow (s : State) (k : Nat) : (s.draw).flow k = s.flow k := (rfl)
@[simp] theorem State.draw_eng (s : State) (k : Nat) : (s.draw).eng k = s.eng k := (rfl)

@[simp] theorem State.postOpen_pending (s : State) (c : Nat) : (s.postOpen c).pending = s.pending := (rfl)
@[simp] theorem State.postOpen_regs (s : State) (c : Nat) : (s.postOpen c).regs = s.regs := (rfl)
@[simp] theorem State.postOpen_stage (s : State) (c : Nat) : (s.postOpen c).stage = s.stage := (rfl)
@[simp] theorem State.postOpen_latch (s : State) (c : Nat) : (s.postOpen c).latch = s.latch := (rfl)
@[simp] theorem State.postOpen_cnts (s : State) (c : Nat) : (s.postOpen c).cnts = s.cnts := (rfl)
@[simp] theorem State.postOpen_lastPost (s : State) (c : Nat) : (s.postOpen c).lastPost = s.lastPost := (rfl)
@[simp] theorem State.postOpen_out (s : State) (c : Nat) : (s.postOpen c).out = s.out := (rfl)
@[simp] theorem State.postOpen_pwr (s : State) (c : Nat) : (s.postOpen c).pwr = s.pwr := (rfl)
@[simp] theorem State.postOpen_fuses (s : State) (c : Nat) : (s.postOpen c).fuses = s.fuses := (rfl)
@[simp] theorem State.postOpen_boot (s : State) (c : Nat) : (s.postOpen c).boot = s.boot := (rfl)
@[simp] theorem State.postOpen_imp (s : State) (c : Nat) : (s.postOpen c).imp = s.imp := (rfl)
@[simp] theorem State.postOpen_units (s : State) (c : Nat) : (s.postOpen c).units = s.units := (rfl)
@[simp] theorem State.postOpen_spine (s : State) (c : Nat) : (s.postOpen c).spine = s.spine := (rfl)
@[simp] theorem State.postOpen_cells (s : State) (c : Nat) : (s.postOpen c).cells = s.cells := (rfl)
@[simp] theorem State.postOpen_frames (s : State) (c : Nat) : (s.postOpen c).frames = s.frames := (rfl)
@[simp] theorem State.postOpen_nextFrame (s : State) (c : Nat) : (s.postOpen c).nextFrame = s.nextFrame := (rfl)
@[simp] theorem State.postOpen_dram (s : State) (c : Nat) : (s.postOpen c).dram = s.dram := (rfl)
@[simp] theorem State.postOpen_poison (s : State) (c : Nat) : (s.postOpen c).poison = s.poison := (rfl)
@[simp] theorem State.postOpen_queues (s : State) (c : Nat) : (s.postOpen c).queues = s.queues := (rfl)
@[simp] theorem State.postOpen_host (s : State) (c : Nat) : (s.postOpen c).host = s.host := (rfl)
@[simp] theorem State.postOpen_ports (s : State) (c : Nat) : (s.postOpen c).ports = s.ports := (rfl)
@[simp] theorem State.postOpen_flows (s : State) (c : Nat) : (s.postOpen c).flows = s.flows := (rfl)
@[simp] theorem State.postOpen_items (s : State) (c : Nat) : (s.postOpen c).items = s.items := (rfl)
@[simp] theorem State.postOpen_itemSeq (s : State) (c : Nat) : (s.postOpen c).itemSeq = s.itemSeq := (rfl)
@[simp] theorem State.postOpen_pairLink (s : State) (c : Nat) : (s.postOpen c).pairLink = s.pairLink := (rfl)
@[simp] theorem State.postOpen_recCopies (s : State) (c : Nat) : (s.postOpen c).recCopies = s.recCopies := (rfl)
@[simp] theorem State.postOpen_ring (s : State) (c : Nat) : (s.postOpen c).ring = s.ring := (rfl)
@[simp] theorem State.postOpen_engines (s : State) (c : Nat) : (s.postOpen c).engines = s.engines := (rfl)
@[simp] theorem State.postOpen_dma (s : State) (c : Nat) : (s.postOpen c).dma = s.dma := (rfl)
@[simp] theorem State.postOpen_evt (s : State) (c : Nat) : (s.postOpen c).evt = s.evt := (rfl)
@[simp] theorem State.postOpen_cart (s : State) (c : Nat) : (s.postOpen c).cart = s.cart := (rfl)
@[simp] theorem State.postOpen_guard (s : State) (c : Nat) : (s.postOpen c).guard = s.guard := (rfl)
@[simp] theorem State.postOpen_pair (s : State) (c : Nat) : (s.postOpen c).pair = s.pair := (rfl)
@[simp] theorem State.postOpen_pace (s : State) (c : Nat) : (s.postOpen c).pace = s.pace := (rfl)
@[simp] theorem State.postOpen_obs (s : State) (c : Nat) : (s.postOpen c).obs = s.obs := (rfl)
@[simp] theorem State.postOpen_tb (s : State) (c : Nat) : (s.postOpen c).tb = s.tb := (rfl)
@[simp] theorem State.postOpen_ptp (s : State) (c : Nat) : (s.postOpen c).ptp = s.ptp := (rfl)
@[simp] theorem State.postOpen_rd (s : State) (c : Nat) (k : Nat) : (s.postOpen c).rd k = s.rd k := (rfl)
@[simp] theorem State.postOpen_fld (s : State) (c : Nat) (g : Field) : (s.postOpen c).fld g = s.fld g := (rfl)
@[simp] theorem State.postOpen_flag (s : State) (c : Nat) (g : Field) : (s.postOpen c).flag g = s.flag g := (rfl)
@[simp] theorem State.postOpen_cnt (s : State) (c : Nat) (k : Nat) : (s.postOpen c).cnt k = s.cnt k := (rfl)
@[simp] theorem State.postOpen_q (s : State) (c : Nat) (k : Nat) : (s.postOpen c).q k = s.q k := (rfl)
@[simp] theorem State.postOpen_frame (s : State) (c : Nat) (k : Nat) : (s.postOpen c).frame k = s.frame k := (rfl)
@[simp] theorem State.postOpen_port (s : State) (c : Nat) (k : Nat) : (s.postOpen c).port k = s.port k := (rfl)
@[simp] theorem State.postOpen_flow (s : State) (c : Nat) (k : Nat) : (s.postOpen c).flow k = s.flow k := (rfl)
@[simp] theorem State.postOpen_eng (s : State) (c : Nat) (k : Nat) : (s.postOpen c).eng k = s.eng k := (rfl)

@[simp] theorem State.emit_pending (s : State) (o : Output) : (s.emit o).pending = s.pending := (rfl)
@[simp] theorem State.emit_regs (s : State) (o : Output) : (s.emit o).regs = s.regs := (rfl)
@[simp] theorem State.emit_stage (s : State) (o : Output) : (s.emit o).stage = s.stage := (rfl)
@[simp] theorem State.emit_latch (s : State) (o : Output) : (s.emit o).latch = s.latch := (rfl)
@[simp] theorem State.emit_cnts (s : State) (o : Output) : (s.emit o).cnts = s.cnts := (rfl)
@[simp] theorem State.emit_posted (s : State) (o : Output) : (s.emit o).posted = s.posted := (rfl)
@[simp] theorem State.emit_lastPost (s : State) (o : Output) : (s.emit o).lastPost = s.lastPost := (rfl)
@[simp] theorem State.emit_free (s : State) (o : Output) : (s.emit o).free = s.free := (rfl)
@[simp] theorem State.emit_pwr (s : State) (o : Output) : (s.emit o).pwr = s.pwr := (rfl)
@[simp] theorem State.emit_fuses (s : State) (o : Output) : (s.emit o).fuses = s.fuses := (rfl)
@[simp] theorem State.emit_boot (s : State) (o : Output) : (s.emit o).boot = s.boot := (rfl)
@[simp] theorem State.emit_imp (s : State) (o : Output) : (s.emit o).imp = s.imp := (rfl)
@[simp] theorem State.emit_units (s : State) (o : Output) : (s.emit o).units = s.units := (rfl)
@[simp] theorem State.emit_spine (s : State) (o : Output) : (s.emit o).spine = s.spine := (rfl)
@[simp] theorem State.emit_cells (s : State) (o : Output) : (s.emit o).cells = s.cells := (rfl)
@[simp] theorem State.emit_frames (s : State) (o : Output) : (s.emit o).frames = s.frames := (rfl)
@[simp] theorem State.emit_nextFrame (s : State) (o : Output) : (s.emit o).nextFrame = s.nextFrame := (rfl)
@[simp] theorem State.emit_dram (s : State) (o : Output) : (s.emit o).dram = s.dram := (rfl)
@[simp] theorem State.emit_poison (s : State) (o : Output) : (s.emit o).poison = s.poison := (rfl)
@[simp] theorem State.emit_queues (s : State) (o : Output) : (s.emit o).queues = s.queues := (rfl)
@[simp] theorem State.emit_host (s : State) (o : Output) : (s.emit o).host = s.host := (rfl)
@[simp] theorem State.emit_ports (s : State) (o : Output) : (s.emit o).ports = s.ports := (rfl)
@[simp] theorem State.emit_flows (s : State) (o : Output) : (s.emit o).flows = s.flows := (rfl)
@[simp] theorem State.emit_items (s : State) (o : Output) : (s.emit o).items = s.items := (rfl)
@[simp] theorem State.emit_itemSeq (s : State) (o : Output) : (s.emit o).itemSeq = s.itemSeq := (rfl)
@[simp] theorem State.emit_pairLink (s : State) (o : Output) : (s.emit o).pairLink = s.pairLink := (rfl)
@[simp] theorem State.emit_recCopies (s : State) (o : Output) : (s.emit o).recCopies = s.recCopies := (rfl)
@[simp] theorem State.emit_ring (s : State) (o : Output) : (s.emit o).ring = s.ring := (rfl)
@[simp] theorem State.emit_engines (s : State) (o : Output) : (s.emit o).engines = s.engines := (rfl)
@[simp] theorem State.emit_dma (s : State) (o : Output) : (s.emit o).dma = s.dma := (rfl)
@[simp] theorem State.emit_evt (s : State) (o : Output) : (s.emit o).evt = s.evt := (rfl)
@[simp] theorem State.emit_cart (s : State) (o : Output) : (s.emit o).cart = s.cart := (rfl)
@[simp] theorem State.emit_guard (s : State) (o : Output) : (s.emit o).guard = s.guard := (rfl)
@[simp] theorem State.emit_pair (s : State) (o : Output) : (s.emit o).pair = s.pair := (rfl)
@[simp] theorem State.emit_pace (s : State) (o : Output) : (s.emit o).pace = s.pace := (rfl)
@[simp] theorem State.emit_obs (s : State) (o : Output) : (s.emit o).obs = s.obs := (rfl)
@[simp] theorem State.emit_tb (s : State) (o : Output) : (s.emit o).tb = s.tb := (rfl)
@[simp] theorem State.emit_ptp (s : State) (o : Output) : (s.emit o).ptp = s.ptp := (rfl)
@[simp] theorem State.emit_rd (s : State) (o : Output) (k : Nat) : (s.emit o).rd k = s.rd k := (rfl)
@[simp] theorem State.emit_fld (s : State) (o : Output) (g : Field) : (s.emit o).fld g = s.fld g := (rfl)
@[simp] theorem State.emit_flag (s : State) (o : Output) (g : Field) : (s.emit o).flag g = s.flag g := (rfl)
@[simp] theorem State.emit_cnt (s : State) (o : Output) (k : Nat) : (s.emit o).cnt k = s.cnt k := (rfl)
@[simp] theorem State.emit_q (s : State) (o : Output) (k : Nat) : (s.emit o).q k = s.q k := (rfl)
@[simp] theorem State.emit_frame (s : State) (o : Output) (k : Nat) : (s.emit o).frame k = s.frame k := (rfl)
@[simp] theorem State.emit_port (s : State) (o : Output) (k : Nat) : (s.emit o).port k = s.port k := (rfl)
@[simp] theorem State.emit_flow (s : State) (o : Output) (k : Nat) : (s.emit o).flow k = s.flow k := (rfl)
@[simp] theorem State.emit_eng (s : State) (o : Output) (k : Nat) : (s.emit o).eng k = s.eng k := (rfl)

@[simp] theorem State.setQ_pending (s : State) (k : Nat) (x : Queue) : (s.setQ k x).pending = s.pending := (rfl)
@[simp] theorem State.setQ_regs (s : State) (k : Nat) (x : Queue) : (s.setQ k x).regs = s.regs := (rfl)
@[simp] theorem State.setQ_stage (s : State) (k : Nat) (x : Queue) : (s.setQ k x).stage = s.stage := (rfl)
@[simp] theorem State.setQ_latch (s : State) (k : Nat) (x : Queue) : (s.setQ k x).latch = s.latch := (rfl)
@[simp] theorem State.setQ_cnts (s : State) (k : Nat) (x : Queue) : (s.setQ k x).cnts = s.cnts := (rfl)
@[simp] theorem State.setQ_posted (s : State) (k : Nat) (x : Queue) : (s.setQ k x).posted = s.posted := (rfl)
@[simp] theorem State.setQ_lastPost (s : State) (k : Nat) (x : Queue) : (s.setQ k x).lastPost = s.lastPost := (rfl)
@[simp] theorem State.setQ_out (s : State) (k : Nat) (x : Queue) : (s.setQ k x).out = s.out := (rfl)
@[simp] theorem State.setQ_free (s : State) (k : Nat) (x : Queue) : (s.setQ k x).free = s.free := (rfl)
@[simp] theorem State.setQ_pwr (s : State) (k : Nat) (x : Queue) : (s.setQ k x).pwr = s.pwr := (rfl)
@[simp] theorem State.setQ_fuses (s : State) (k : Nat) (x : Queue) : (s.setQ k x).fuses = s.fuses := (rfl)
@[simp] theorem State.setQ_boot (s : State) (k : Nat) (x : Queue) : (s.setQ k x).boot = s.boot := (rfl)
@[simp] theorem State.setQ_imp (s : State) (k : Nat) (x : Queue) : (s.setQ k x).imp = s.imp := (rfl)
@[simp] theorem State.setQ_units (s : State) (k : Nat) (x : Queue) : (s.setQ k x).units = s.units := (rfl)
@[simp] theorem State.setQ_spine (s : State) (k : Nat) (x : Queue) : (s.setQ k x).spine = s.spine := (rfl)
@[simp] theorem State.setQ_cells (s : State) (k : Nat) (x : Queue) : (s.setQ k x).cells = s.cells := (rfl)
@[simp] theorem State.setQ_frames (s : State) (k : Nat) (x : Queue) : (s.setQ k x).frames = s.frames := (rfl)
@[simp] theorem State.setQ_nextFrame (s : State) (k : Nat) (x : Queue) : (s.setQ k x).nextFrame = s.nextFrame := (rfl)
@[simp] theorem State.setQ_dram (s : State) (k : Nat) (x : Queue) : (s.setQ k x).dram = s.dram := (rfl)
@[simp] theorem State.setQ_poison (s : State) (k : Nat) (x : Queue) : (s.setQ k x).poison = s.poison := (rfl)
@[simp] theorem State.setQ_host (s : State) (k : Nat) (x : Queue) : (s.setQ k x).host = s.host := (rfl)
@[simp] theorem State.setQ_ports (s : State) (k : Nat) (x : Queue) : (s.setQ k x).ports = s.ports := (rfl)
@[simp] theorem State.setQ_flows (s : State) (k : Nat) (x : Queue) : (s.setQ k x).flows = s.flows := (rfl)
@[simp] theorem State.setQ_items (s : State) (k : Nat) (x : Queue) : (s.setQ k x).items = s.items := (rfl)
@[simp] theorem State.setQ_itemSeq (s : State) (k : Nat) (x : Queue) : (s.setQ k x).itemSeq = s.itemSeq := (rfl)
@[simp] theorem State.setQ_pairLink (s : State) (k : Nat) (x : Queue) : (s.setQ k x).pairLink = s.pairLink := (rfl)
@[simp] theorem State.setQ_recCopies (s : State) (k : Nat) (x : Queue) : (s.setQ k x).recCopies = s.recCopies := (rfl)
@[simp] theorem State.setQ_ring (s : State) (k : Nat) (x : Queue) : (s.setQ k x).ring = s.ring := (rfl)
@[simp] theorem State.setQ_engines (s : State) (k : Nat) (x : Queue) : (s.setQ k x).engines = s.engines := (rfl)
@[simp] theorem State.setQ_dma (s : State) (k : Nat) (x : Queue) : (s.setQ k x).dma = s.dma := (rfl)
@[simp] theorem State.setQ_evt (s : State) (k : Nat) (x : Queue) : (s.setQ k x).evt = s.evt := (rfl)
@[simp] theorem State.setQ_cart (s : State) (k : Nat) (x : Queue) : (s.setQ k x).cart = s.cart := (rfl)
@[simp] theorem State.setQ_guard (s : State) (k : Nat) (x : Queue) : (s.setQ k x).guard = s.guard := (rfl)
@[simp] theorem State.setQ_pair (s : State) (k : Nat) (x : Queue) : (s.setQ k x).pair = s.pair := (rfl)
@[simp] theorem State.setQ_pace (s : State) (k : Nat) (x : Queue) : (s.setQ k x).pace = s.pace := (rfl)
@[simp] theorem State.setQ_obs (s : State) (k : Nat) (x : Queue) : (s.setQ k x).obs = s.obs := (rfl)
@[simp] theorem State.setQ_tb (s : State) (k : Nat) (x : Queue) : (s.setQ k x).tb = s.tb := (rfl)
@[simp] theorem State.setQ_ptp (s : State) (k : Nat) (x : Queue) : (s.setQ k x).ptp = s.ptp := (rfl)
@[simp] theorem State.setQ_rd (s : State) (j : Nat) (x : Queue) (k : Nat) : (s.setQ j x).rd k = s.rd k := (rfl)
@[simp] theorem State.setQ_fld (s : State) (k : Nat) (x : Queue) (g : Field) : (s.setQ k x).fld g = s.fld g := (rfl)
@[simp] theorem State.setQ_flag (s : State) (k : Nat) (x : Queue) (g : Field) : (s.setQ k x).flag g = s.flag g := (rfl)
@[simp] theorem State.setQ_cnt (s : State) (j : Nat) (x : Queue) (k : Nat) : (s.setQ j x).cnt k = s.cnt k := (rfl)
@[simp] theorem State.setQ_frame (s : State) (j : Nat) (x : Queue) (k : Nat) : (s.setQ j x).frame k = s.frame k := (rfl)
@[simp] theorem State.setQ_port (s : State) (j : Nat) (x : Queue) (k : Nat) : (s.setQ j x).port k = s.port k := (rfl)
@[simp] theorem State.setQ_flow (s : State) (j : Nat) (x : Queue) (k : Nat) : (s.setQ j x).flow k = s.flow k := (rfl)
@[simp] theorem State.setQ_eng (s : State) (j : Nat) (x : Queue) (k : Nat) : (s.setQ j x).eng k = s.eng k := (rfl)

@[simp] theorem State.setFrame_pending (s : State) (k : Nat) (x : Frame) : (s.setFrame k x).pending = s.pending := (rfl)
@[simp] theorem State.setFrame_regs (s : State) (k : Nat) (x : Frame) : (s.setFrame k x).regs = s.regs := (rfl)
@[simp] theorem State.setFrame_stage (s : State) (k : Nat) (x : Frame) : (s.setFrame k x).stage = s.stage := (rfl)
@[simp] theorem State.setFrame_latch (s : State) (k : Nat) (x : Frame) : (s.setFrame k x).latch = s.latch := (rfl)
@[simp] theorem State.setFrame_cnts (s : State) (k : Nat) (x : Frame) : (s.setFrame k x).cnts = s.cnts := (rfl)
@[simp] theorem State.setFrame_posted (s : State) (k : Nat) (x : Frame) : (s.setFrame k x).posted = s.posted := (rfl)
@[simp] theorem State.setFrame_lastPost (s : State) (k : Nat) (x : Frame) : (s.setFrame k x).lastPost = s.lastPost := (rfl)
@[simp] theorem State.setFrame_out (s : State) (k : Nat) (x : Frame) : (s.setFrame k x).out = s.out := (rfl)
@[simp] theorem State.setFrame_free (s : State) (k : Nat) (x : Frame) : (s.setFrame k x).free = s.free := (rfl)
@[simp] theorem State.setFrame_pwr (s : State) (k : Nat) (x : Frame) : (s.setFrame k x).pwr = s.pwr := (rfl)
@[simp] theorem State.setFrame_fuses (s : State) (k : Nat) (x : Frame) : (s.setFrame k x).fuses = s.fuses := (rfl)
@[simp] theorem State.setFrame_boot (s : State) (k : Nat) (x : Frame) : (s.setFrame k x).boot = s.boot := (rfl)
@[simp] theorem State.setFrame_imp (s : State) (k : Nat) (x : Frame) : (s.setFrame k x).imp = s.imp := (rfl)
@[simp] theorem State.setFrame_units (s : State) (k : Nat) (x : Frame) : (s.setFrame k x).units = s.units := (rfl)
@[simp] theorem State.setFrame_spine (s : State) (k : Nat) (x : Frame) : (s.setFrame k x).spine = s.spine := (rfl)
@[simp] theorem State.setFrame_cells (s : State) (k : Nat) (x : Frame) : (s.setFrame k x).cells = s.cells := (rfl)
@[simp] theorem State.setFrame_nextFrame (s : State) (k : Nat) (x : Frame) : (s.setFrame k x).nextFrame = s.nextFrame := (rfl)
@[simp] theorem State.setFrame_dram (s : State) (k : Nat) (x : Frame) : (s.setFrame k x).dram = s.dram := (rfl)
@[simp] theorem State.setFrame_poison (s : State) (k : Nat) (x : Frame) : (s.setFrame k x).poison = s.poison := (rfl)
@[simp] theorem State.setFrame_queues (s : State) (k : Nat) (x : Frame) : (s.setFrame k x).queues = s.queues := (rfl)
@[simp] theorem State.setFrame_host (s : State) (k : Nat) (x : Frame) : (s.setFrame k x).host = s.host := (rfl)
@[simp] theorem State.setFrame_ports (s : State) (k : Nat) (x : Frame) : (s.setFrame k x).ports = s.ports := (rfl)
@[simp] theorem State.setFrame_flows (s : State) (k : Nat) (x : Frame) : (s.setFrame k x).flows = s.flows := (rfl)
@[simp] theorem State.setFrame_items (s : State) (k : Nat) (x : Frame) : (s.setFrame k x).items = s.items := (rfl)
@[simp] theorem State.setFrame_itemSeq (s : State) (k : Nat) (x : Frame) : (s.setFrame k x).itemSeq = s.itemSeq := (rfl)
@[simp] theorem State.setFrame_pairLink (s : State) (k : Nat) (x : Frame) : (s.setFrame k x).pairLink = s.pairLink := (rfl)
@[simp] theorem State.setFrame_recCopies (s : State) (k : Nat) (x : Frame) : (s.setFrame k x).recCopies = s.recCopies := (rfl)
@[simp] theorem State.setFrame_ring (s : State) (k : Nat) (x : Frame) : (s.setFrame k x).ring = s.ring := (rfl)
@[simp] theorem State.setFrame_engines (s : State) (k : Nat) (x : Frame) : (s.setFrame k x).engines = s.engines := (rfl)
@[simp] theorem State.setFrame_dma (s : State) (k : Nat) (x : Frame) : (s.setFrame k x).dma = s.dma := (rfl)
@[simp] theorem State.setFrame_evt (s : State) (k : Nat) (x : Frame) : (s.setFrame k x).evt = s.evt := (rfl)
@[simp] theorem State.setFrame_cart (s : State) (k : Nat) (x : Frame) : (s.setFrame k x).cart = s.cart := (rfl)
@[simp] theorem State.setFrame_guard (s : State) (k : Nat) (x : Frame) : (s.setFrame k x).guard = s.guard := (rfl)
@[simp] theorem State.setFrame_pair (s : State) (k : Nat) (x : Frame) : (s.setFrame k x).pair = s.pair := (rfl)
@[simp] theorem State.setFrame_pace (s : State) (k : Nat) (x : Frame) : (s.setFrame k x).pace = s.pace := (rfl)
@[simp] theorem State.setFrame_obs (s : State) (k : Nat) (x : Frame) : (s.setFrame k x).obs = s.obs := (rfl)
@[simp] theorem State.setFrame_tb (s : State) (k : Nat) (x : Frame) : (s.setFrame k x).tb = s.tb := (rfl)
@[simp] theorem State.setFrame_ptp (s : State) (k : Nat) (x : Frame) : (s.setFrame k x).ptp = s.ptp := (rfl)
@[simp] theorem State.setFrame_rd (s : State) (j : Nat) (x : Frame) (k : Nat) : (s.setFrame j x).rd k = s.rd k := (rfl)
@[simp] theorem State.setFrame_fld (s : State) (k : Nat) (x : Frame) (g : Field) : (s.setFrame k x).fld g = s.fld g := (rfl)
@[simp] theorem State.setFrame_flag (s : State) (k : Nat) (x : Frame) (g : Field) : (s.setFrame k x).flag g = s.flag g := (rfl)
@[simp] theorem State.setFrame_cnt (s : State) (j : Nat) (x : Frame) (k : Nat) : (s.setFrame j x).cnt k = s.cnt k := (rfl)
@[simp] theorem State.setFrame_q (s : State) (j : Nat) (x : Frame) (k : Nat) : (s.setFrame j x).q k = s.q k := (rfl)
@[simp] theorem State.setFrame_port (s : State) (j : Nat) (x : Frame) (k : Nat) : (s.setFrame j x).port k = s.port k := (rfl)
@[simp] theorem State.setFrame_flow (s : State) (j : Nat) (x : Frame) (k : Nat) : (s.setFrame j x).flow k = s.flow k := (rfl)
@[simp] theorem State.setFrame_eng (s : State) (j : Nat) (x : Frame) (k : Nat) : (s.setFrame j x).eng k = s.eng k := (rfl)

@[simp] theorem State.setPort_pending (s : State) (k : Nat) (x : Port) : (s.setPort k x).pending = s.pending := (rfl)
@[simp] theorem State.setPort_regs (s : State) (k : Nat) (x : Port) : (s.setPort k x).regs = s.regs := (rfl)
@[simp] theorem State.setPort_stage (s : State) (k : Nat) (x : Port) : (s.setPort k x).stage = s.stage := (rfl)
@[simp] theorem State.setPort_latch (s : State) (k : Nat) (x : Port) : (s.setPort k x).latch = s.latch := (rfl)
@[simp] theorem State.setPort_cnts (s : State) (k : Nat) (x : Port) : (s.setPort k x).cnts = s.cnts := (rfl)
@[simp] theorem State.setPort_posted (s : State) (k : Nat) (x : Port) : (s.setPort k x).posted = s.posted := (rfl)
@[simp] theorem State.setPort_lastPost (s : State) (k : Nat) (x : Port) : (s.setPort k x).lastPost = s.lastPost := (rfl)
@[simp] theorem State.setPort_out (s : State) (k : Nat) (x : Port) : (s.setPort k x).out = s.out := (rfl)
@[simp] theorem State.setPort_free (s : State) (k : Nat) (x : Port) : (s.setPort k x).free = s.free := (rfl)
@[simp] theorem State.setPort_pwr (s : State) (k : Nat) (x : Port) : (s.setPort k x).pwr = s.pwr := (rfl)
@[simp] theorem State.setPort_fuses (s : State) (k : Nat) (x : Port) : (s.setPort k x).fuses = s.fuses := (rfl)
@[simp] theorem State.setPort_boot (s : State) (k : Nat) (x : Port) : (s.setPort k x).boot = s.boot := (rfl)
@[simp] theorem State.setPort_imp (s : State) (k : Nat) (x : Port) : (s.setPort k x).imp = s.imp := (rfl)
@[simp] theorem State.setPort_units (s : State) (k : Nat) (x : Port) : (s.setPort k x).units = s.units := (rfl)
@[simp] theorem State.setPort_spine (s : State) (k : Nat) (x : Port) : (s.setPort k x).spine = s.spine := (rfl)
@[simp] theorem State.setPort_cells (s : State) (k : Nat) (x : Port) : (s.setPort k x).cells = s.cells := (rfl)
@[simp] theorem State.setPort_frames (s : State) (k : Nat) (x : Port) : (s.setPort k x).frames = s.frames := (rfl)
@[simp] theorem State.setPort_nextFrame (s : State) (k : Nat) (x : Port) : (s.setPort k x).nextFrame = s.nextFrame := (rfl)
@[simp] theorem State.setPort_dram (s : State) (k : Nat) (x : Port) : (s.setPort k x).dram = s.dram := (rfl)
@[simp] theorem State.setPort_poison (s : State) (k : Nat) (x : Port) : (s.setPort k x).poison = s.poison := (rfl)
@[simp] theorem State.setPort_queues (s : State) (k : Nat) (x : Port) : (s.setPort k x).queues = s.queues := (rfl)
@[simp] theorem State.setPort_host (s : State) (k : Nat) (x : Port) : (s.setPort k x).host = s.host := (rfl)
@[simp] theorem State.setPort_flows (s : State) (k : Nat) (x : Port) : (s.setPort k x).flows = s.flows := (rfl)
@[simp] theorem State.setPort_items (s : State) (k : Nat) (x : Port) : (s.setPort k x).items = s.items := (rfl)
@[simp] theorem State.setPort_itemSeq (s : State) (k : Nat) (x : Port) : (s.setPort k x).itemSeq = s.itemSeq := (rfl)
@[simp] theorem State.setPort_pairLink (s : State) (k : Nat) (x : Port) : (s.setPort k x).pairLink = s.pairLink := (rfl)
@[simp] theorem State.setPort_recCopies (s : State) (k : Nat) (x : Port) : (s.setPort k x).recCopies = s.recCopies := (rfl)
@[simp] theorem State.setPort_ring (s : State) (k : Nat) (x : Port) : (s.setPort k x).ring = s.ring := (rfl)
@[simp] theorem State.setPort_engines (s : State) (k : Nat) (x : Port) : (s.setPort k x).engines = s.engines := (rfl)
@[simp] theorem State.setPort_dma (s : State) (k : Nat) (x : Port) : (s.setPort k x).dma = s.dma := (rfl)
@[simp] theorem State.setPort_evt (s : State) (k : Nat) (x : Port) : (s.setPort k x).evt = s.evt := (rfl)
@[simp] theorem State.setPort_cart (s : State) (k : Nat) (x : Port) : (s.setPort k x).cart = s.cart := (rfl)
@[simp] theorem State.setPort_guard (s : State) (k : Nat) (x : Port) : (s.setPort k x).guard = s.guard := (rfl)
@[simp] theorem State.setPort_pair (s : State) (k : Nat) (x : Port) : (s.setPort k x).pair = s.pair := (rfl)
@[simp] theorem State.setPort_pace (s : State) (k : Nat) (x : Port) : (s.setPort k x).pace = s.pace := (rfl)
@[simp] theorem State.setPort_obs (s : State) (k : Nat) (x : Port) : (s.setPort k x).obs = s.obs := (rfl)
@[simp] theorem State.setPort_tb (s : State) (k : Nat) (x : Port) : (s.setPort k x).tb = s.tb := (rfl)
@[simp] theorem State.setPort_ptp (s : State) (k : Nat) (x : Port) : (s.setPort k x).ptp = s.ptp := (rfl)
@[simp] theorem State.setPort_rd (s : State) (j : Nat) (x : Port) (k : Nat) : (s.setPort j x).rd k = s.rd k := (rfl)
@[simp] theorem State.setPort_fld (s : State) (k : Nat) (x : Port) (g : Field) : (s.setPort k x).fld g = s.fld g := (rfl)
@[simp] theorem State.setPort_flag (s : State) (k : Nat) (x : Port) (g : Field) : (s.setPort k x).flag g = s.flag g := (rfl)
@[simp] theorem State.setPort_cnt (s : State) (j : Nat) (x : Port) (k : Nat) : (s.setPort j x).cnt k = s.cnt k := (rfl)
@[simp] theorem State.setPort_q (s : State) (j : Nat) (x : Port) (k : Nat) : (s.setPort j x).q k = s.q k := (rfl)
@[simp] theorem State.setPort_frame (s : State) (j : Nat) (x : Port) (k : Nat) : (s.setPort j x).frame k = s.frame k := (rfl)
@[simp] theorem State.setPort_flow (s : State) (j : Nat) (x : Port) (k : Nat) : (s.setPort j x).flow k = s.flow k := (rfl)
@[simp] theorem State.setPort_eng (s : State) (j : Nat) (x : Port) (k : Nat) : (s.setPort j x).eng k = s.eng k := (rfl)

@[simp] theorem State.setFlow_pending (s : State) (k : Nat) (x : Flow) : (s.setFlow k x).pending = s.pending := (rfl)
@[simp] theorem State.setFlow_regs (s : State) (k : Nat) (x : Flow) : (s.setFlow k x).regs = s.regs := (rfl)
@[simp] theorem State.setFlow_stage (s : State) (k : Nat) (x : Flow) : (s.setFlow k x).stage = s.stage := (rfl)
@[simp] theorem State.setFlow_latch (s : State) (k : Nat) (x : Flow) : (s.setFlow k x).latch = s.latch := (rfl)
@[simp] theorem State.setFlow_cnts (s : State) (k : Nat) (x : Flow) : (s.setFlow k x).cnts = s.cnts := (rfl)
@[simp] theorem State.setFlow_posted (s : State) (k : Nat) (x : Flow) : (s.setFlow k x).posted = s.posted := (rfl)
@[simp] theorem State.setFlow_lastPost (s : State) (k : Nat) (x : Flow) : (s.setFlow k x).lastPost = s.lastPost := (rfl)
@[simp] theorem State.setFlow_out (s : State) (k : Nat) (x : Flow) : (s.setFlow k x).out = s.out := (rfl)
@[simp] theorem State.setFlow_free (s : State) (k : Nat) (x : Flow) : (s.setFlow k x).free = s.free := (rfl)
@[simp] theorem State.setFlow_pwr (s : State) (k : Nat) (x : Flow) : (s.setFlow k x).pwr = s.pwr := (rfl)
@[simp] theorem State.setFlow_fuses (s : State) (k : Nat) (x : Flow) : (s.setFlow k x).fuses = s.fuses := (rfl)
@[simp] theorem State.setFlow_boot (s : State) (k : Nat) (x : Flow) : (s.setFlow k x).boot = s.boot := (rfl)
@[simp] theorem State.setFlow_imp (s : State) (k : Nat) (x : Flow) : (s.setFlow k x).imp = s.imp := (rfl)
@[simp] theorem State.setFlow_units (s : State) (k : Nat) (x : Flow) : (s.setFlow k x).units = s.units := (rfl)
@[simp] theorem State.setFlow_spine (s : State) (k : Nat) (x : Flow) : (s.setFlow k x).spine = s.spine := (rfl)
@[simp] theorem State.setFlow_cells (s : State) (k : Nat) (x : Flow) : (s.setFlow k x).cells = s.cells := (rfl)
@[simp] theorem State.setFlow_frames (s : State) (k : Nat) (x : Flow) : (s.setFlow k x).frames = s.frames := (rfl)
@[simp] theorem State.setFlow_nextFrame (s : State) (k : Nat) (x : Flow) : (s.setFlow k x).nextFrame = s.nextFrame := (rfl)
@[simp] theorem State.setFlow_dram (s : State) (k : Nat) (x : Flow) : (s.setFlow k x).dram = s.dram := (rfl)
@[simp] theorem State.setFlow_poison (s : State) (k : Nat) (x : Flow) : (s.setFlow k x).poison = s.poison := (rfl)
@[simp] theorem State.setFlow_queues (s : State) (k : Nat) (x : Flow) : (s.setFlow k x).queues = s.queues := (rfl)
@[simp] theorem State.setFlow_host (s : State) (k : Nat) (x : Flow) : (s.setFlow k x).host = s.host := (rfl)
@[simp] theorem State.setFlow_ports (s : State) (k : Nat) (x : Flow) : (s.setFlow k x).ports = s.ports := (rfl)
@[simp] theorem State.setFlow_items (s : State) (k : Nat) (x : Flow) : (s.setFlow k x).items = s.items := (rfl)
@[simp] theorem State.setFlow_itemSeq (s : State) (k : Nat) (x : Flow) : (s.setFlow k x).itemSeq = s.itemSeq := (rfl)
@[simp] theorem State.setFlow_pairLink (s : State) (k : Nat) (x : Flow) : (s.setFlow k x).pairLink = s.pairLink := (rfl)
@[simp] theorem State.setFlow_recCopies (s : State) (k : Nat) (x : Flow) : (s.setFlow k x).recCopies = s.recCopies := (rfl)
@[simp] theorem State.setFlow_ring (s : State) (k : Nat) (x : Flow) : (s.setFlow k x).ring = s.ring := (rfl)
@[simp] theorem State.setFlow_engines (s : State) (k : Nat) (x : Flow) : (s.setFlow k x).engines = s.engines := (rfl)
@[simp] theorem State.setFlow_dma (s : State) (k : Nat) (x : Flow) : (s.setFlow k x).dma = s.dma := (rfl)
@[simp] theorem State.setFlow_evt (s : State) (k : Nat) (x : Flow) : (s.setFlow k x).evt = s.evt := (rfl)
@[simp] theorem State.setFlow_cart (s : State) (k : Nat) (x : Flow) : (s.setFlow k x).cart = s.cart := (rfl)
@[simp] theorem State.setFlow_guard (s : State) (k : Nat) (x : Flow) : (s.setFlow k x).guard = s.guard := (rfl)
@[simp] theorem State.setFlow_pair (s : State) (k : Nat) (x : Flow) : (s.setFlow k x).pair = s.pair := (rfl)
@[simp] theorem State.setFlow_pace (s : State) (k : Nat) (x : Flow) : (s.setFlow k x).pace = s.pace := (rfl)
@[simp] theorem State.setFlow_obs (s : State) (k : Nat) (x : Flow) : (s.setFlow k x).obs = s.obs := (rfl)
@[simp] theorem State.setFlow_tb (s : State) (k : Nat) (x : Flow) : (s.setFlow k x).tb = s.tb := (rfl)
@[simp] theorem State.setFlow_ptp (s : State) (k : Nat) (x : Flow) : (s.setFlow k x).ptp = s.ptp := (rfl)
@[simp] theorem State.setFlow_rd (s : State) (j : Nat) (x : Flow) (k : Nat) : (s.setFlow j x).rd k = s.rd k := (rfl)
@[simp] theorem State.setFlow_fld (s : State) (k : Nat) (x : Flow) (g : Field) : (s.setFlow k x).fld g = s.fld g := (rfl)
@[simp] theorem State.setFlow_flag (s : State) (k : Nat) (x : Flow) (g : Field) : (s.setFlow k x).flag g = s.flag g := (rfl)
@[simp] theorem State.setFlow_cnt (s : State) (j : Nat) (x : Flow) (k : Nat) : (s.setFlow j x).cnt k = s.cnt k := (rfl)
@[simp] theorem State.setFlow_q (s : State) (j : Nat) (x : Flow) (k : Nat) : (s.setFlow j x).q k = s.q k := (rfl)
@[simp] theorem State.setFlow_frame (s : State) (j : Nat) (x : Flow) (k : Nat) : (s.setFlow j x).frame k = s.frame k := (rfl)
@[simp] theorem State.setFlow_port (s : State) (j : Nat) (x : Flow) (k : Nat) : (s.setFlow j x).port k = s.port k := (rfl)
@[simp] theorem State.setFlow_eng (s : State) (j : Nat) (x : Flow) (k : Nat) : (s.setFlow j x).eng k = s.eng k := (rfl)

@[simp] theorem State.setEng_pending (s : State) (k : Nat) (x : Engine) : (s.setEng k x).pending = s.pending := (rfl)
@[simp] theorem State.setEng_regs (s : State) (k : Nat) (x : Engine) : (s.setEng k x).regs = s.regs := (rfl)
@[simp] theorem State.setEng_stage (s : State) (k : Nat) (x : Engine) : (s.setEng k x).stage = s.stage := (rfl)
@[simp] theorem State.setEng_latch (s : State) (k : Nat) (x : Engine) : (s.setEng k x).latch = s.latch := (rfl)
@[simp] theorem State.setEng_cnts (s : State) (k : Nat) (x : Engine) : (s.setEng k x).cnts = s.cnts := (rfl)
@[simp] theorem State.setEng_posted (s : State) (k : Nat) (x : Engine) : (s.setEng k x).posted = s.posted := (rfl)
@[simp] theorem State.setEng_lastPost (s : State) (k : Nat) (x : Engine) : (s.setEng k x).lastPost = s.lastPost := (rfl)
@[simp] theorem State.setEng_out (s : State) (k : Nat) (x : Engine) : (s.setEng k x).out = s.out := (rfl)
@[simp] theorem State.setEng_free (s : State) (k : Nat) (x : Engine) : (s.setEng k x).free = s.free := (rfl)
@[simp] theorem State.setEng_pwr (s : State) (k : Nat) (x : Engine) : (s.setEng k x).pwr = s.pwr := (rfl)
@[simp] theorem State.setEng_fuses (s : State) (k : Nat) (x : Engine) : (s.setEng k x).fuses = s.fuses := (rfl)
@[simp] theorem State.setEng_boot (s : State) (k : Nat) (x : Engine) : (s.setEng k x).boot = s.boot := (rfl)
@[simp] theorem State.setEng_imp (s : State) (k : Nat) (x : Engine) : (s.setEng k x).imp = s.imp := (rfl)
@[simp] theorem State.setEng_units (s : State) (k : Nat) (x : Engine) : (s.setEng k x).units = s.units := (rfl)
@[simp] theorem State.setEng_spine (s : State) (k : Nat) (x : Engine) : (s.setEng k x).spine = s.spine := (rfl)
@[simp] theorem State.setEng_cells (s : State) (k : Nat) (x : Engine) : (s.setEng k x).cells = s.cells := (rfl)
@[simp] theorem State.setEng_frames (s : State) (k : Nat) (x : Engine) : (s.setEng k x).frames = s.frames := (rfl)
@[simp] theorem State.setEng_nextFrame (s : State) (k : Nat) (x : Engine) : (s.setEng k x).nextFrame = s.nextFrame := (rfl)
@[simp] theorem State.setEng_dram (s : State) (k : Nat) (x : Engine) : (s.setEng k x).dram = s.dram := (rfl)
@[simp] theorem State.setEng_poison (s : State) (k : Nat) (x : Engine) : (s.setEng k x).poison = s.poison := (rfl)
@[simp] theorem State.setEng_queues (s : State) (k : Nat) (x : Engine) : (s.setEng k x).queues = s.queues := (rfl)
@[simp] theorem State.setEng_host (s : State) (k : Nat) (x : Engine) : (s.setEng k x).host = s.host := (rfl)
@[simp] theorem State.setEng_ports (s : State) (k : Nat) (x : Engine) : (s.setEng k x).ports = s.ports := (rfl)
@[simp] theorem State.setEng_flows (s : State) (k : Nat) (x : Engine) : (s.setEng k x).flows = s.flows := (rfl)
@[simp] theorem State.setEng_items (s : State) (k : Nat) (x : Engine) : (s.setEng k x).items = s.items := (rfl)
@[simp] theorem State.setEng_itemSeq (s : State) (k : Nat) (x : Engine) : (s.setEng k x).itemSeq = s.itemSeq := (rfl)
@[simp] theorem State.setEng_pairLink (s : State) (k : Nat) (x : Engine) : (s.setEng k x).pairLink = s.pairLink := (rfl)
@[simp] theorem State.setEng_recCopies (s : State) (k : Nat) (x : Engine) : (s.setEng k x).recCopies = s.recCopies := (rfl)
@[simp] theorem State.setEng_ring (s : State) (k : Nat) (x : Engine) : (s.setEng k x).ring = s.ring := (rfl)
@[simp] theorem State.setEng_dma (s : State) (k : Nat) (x : Engine) : (s.setEng k x).dma = s.dma := (rfl)
@[simp] theorem State.setEng_evt (s : State) (k : Nat) (x : Engine) : (s.setEng k x).evt = s.evt := (rfl)
@[simp] theorem State.setEng_cart (s : State) (k : Nat) (x : Engine) : (s.setEng k x).cart = s.cart := (rfl)
@[simp] theorem State.setEng_guard (s : State) (k : Nat) (x : Engine) : (s.setEng k x).guard = s.guard := (rfl)
@[simp] theorem State.setEng_pair (s : State) (k : Nat) (x : Engine) : (s.setEng k x).pair = s.pair := (rfl)
@[simp] theorem State.setEng_pace (s : State) (k : Nat) (x : Engine) : (s.setEng k x).pace = s.pace := (rfl)
@[simp] theorem State.setEng_obs (s : State) (k : Nat) (x : Engine) : (s.setEng k x).obs = s.obs := (rfl)
@[simp] theorem State.setEng_tb (s : State) (k : Nat) (x : Engine) : (s.setEng k x).tb = s.tb := (rfl)
@[simp] theorem State.setEng_ptp (s : State) (k : Nat) (x : Engine) : (s.setEng k x).ptp = s.ptp := (rfl)
@[simp] theorem State.setEng_rd (s : State) (j : Nat) (x : Engine) (k : Nat) : (s.setEng j x).rd k = s.rd k := (rfl)
@[simp] theorem State.setEng_fld (s : State) (k : Nat) (x : Engine) (g : Field) : (s.setEng k x).fld g = s.fld g := (rfl)
@[simp] theorem State.setEng_flag (s : State) (k : Nat) (x : Engine) (g : Field) : (s.setEng k x).flag g = s.flag g := (rfl)
@[simp] theorem State.setEng_cnt (s : State) (j : Nat) (x : Engine) (k : Nat) : (s.setEng j x).cnt k = s.cnt k := (rfl)
@[simp] theorem State.setEng_q (s : State) (j : Nat) (x : Engine) (k : Nat) : (s.setEng j x).q k = s.q k := (rfl)
@[simp] theorem State.setEng_frame (s : State) (j : Nat) (x : Engine) (k : Nat) : (s.setEng j x).frame k = s.frame k := (rfl)
@[simp] theorem State.setEng_port (s : State) (j : Nat) (x : Engine) (k : Nat) : (s.setEng j x).port k = s.port k := (rfl)
@[simp] theorem State.setEng_flow (s : State) (j : Nat) (x : Engine) (k : Nat) : (s.setEng j x).flow k = s.flow k := (rfl)

@[simp] theorem State.setQ_q_same (s : State) (k : Nat) (x : Queue) : (s.setQ k x).q k = x :=
  Table.get_set_same _ _ _ _

theorem State.setQ_q_other (s : State) {j k : Nat} (x : Queue) (h : j ≠ k) : (s.setQ j x).q k = s.q k :=
  Table.get_set_other _ _ _ h

@[simp] theorem State.setFrame_frame_same (s : State) (k : Nat) (x : Frame) : (s.setFrame k x).frame k = x :=
  Table.get_set_same _ _ _ _

theorem State.setFrame_frame_other (s : State) {j k : Nat} (x : Frame) (h : j ≠ k) : (s.setFrame j x).frame k = s.frame k :=
  Table.get_set_other _ _ _ h

@[simp] theorem State.setPort_port_same (s : State) (k : Nat) (x : Port) : (s.setPort k x).port k = x :=
  Table.get_set_same _ _ _ _

theorem State.setPort_port_other (s : State) {j k : Nat} (x : Port) (h : j ≠ k) : (s.setPort j x).port k = s.port k :=
  Table.get_set_other _ _ _ h

@[simp] theorem State.setFlow_flow_same (s : State) (k : Nat) (x : Flow) : (s.setFlow k x).flow k = x :=
  Table.get_set_same _ _ _ _

theorem State.setFlow_flow_other (s : State) {j k : Nat} (x : Flow) (h : j ≠ k) : (s.setFlow j x).flow k = s.flow k :=
  Table.get_set_other _ _ _ h

@[simp] theorem State.setEng_eng_same (s : State) (k : Nat) (x : Engine) : (s.setEng k x).eng k = x :=
  Table.get_set_same _ _ _ _

theorem State.setEng_eng_other (s : State) {j k : Nat} (x : Engine) (h : j ≠ k) : (s.setEng j x).eng k = s.eng k :=
  Table.get_set_other _ _ _ h

end Sys2Proof.Machine
end

