-- ==== Sys2Proof/Laws/Ops.lean ====
section
/-! SUPPORT. What reading a register, a field or a counter gives after a write, and what bit ranges of numbers
do. -/

namespace Sys2Proof.Machine

/-! ### Bit ranges -/

theorem bits_lt (w lo n : Nat) : bits w lo n < 2 ^ n := Nat.mod_lt _ (Nat.two_pow_pos n)

/-- The range just put holds the low bits of the value. -/
theorem bits_putBits_same (w lo n v : Nat) : bits (putBits w lo n v) lo n = v % 2 ^ n := by
  unfold bits putBits
  have hlo : w % 2 ^ lo < 2 ^ lo := Nat.mod_lt _ (Nat.two_pow_pos lo)
  have e : w / 2 ^ (lo + n) * 2 ^ (lo + n) + v % 2 ^ n * 2 ^ lo + w % 2 ^ lo =
      (w / 2 ^ (lo + n) * 2 ^ n + v % 2 ^ n) * 2 ^ lo + w % 2 ^ lo := by
    rw [Nat.pow_add, Nat.add_mul, Nat.mul_assoc, Nat.mul_comm (2 ^ n) (2 ^ lo)]
  rw [e, Nat.add_comm, Nat.add_mul_div_right _ _ (Nat.two_pow_pos lo), Nat.div_eq_of_lt hlo, Nat.zero_add,
    Nat.add_comm, Nat.add_mul_mod_self_right, Nat.mod_mod]

/-- A range below the one put is as it was. -/
theorem bits_putBits_below (w lo n v lo' n' : Nat) (h : lo' + n' ≤ lo) :
    bits (putBits w lo n v) lo' n' = bits w lo' n' := by
  apply Nat.eq_of_testBit_eq
  intro i
  unfold bits putBits
  simp only [Nat.testBit_mod_two_pow, Nat.testBit_div_two_pow]
  by_cases hi : i < n'
  · simp only [hi, decide_true, Bool.true_and]
    have hlo : w % 2 ^ lo < 2 ^ lo := Nat.mod_lt _ (Nat.two_pow_pos lo)
    have e : w / 2 ^ (lo + n) * 2 ^ (lo + n) + v % 2 ^ n * 2 ^ lo + w % 2 ^ lo =
        2 ^ lo * (w / 2 ^ (lo + n) * 2 ^ n + v % 2 ^ n) + w % 2 ^ lo := by
      rw [Nat.pow_add, Nat.mul_add, Nat.mul_comm (2 ^ lo) (v % 2 ^ n), Nat.mul_comm (2 ^ lo) (_ * _),
        Nat.mul_assoc, Nat.mul_comm (2 ^ n) (2 ^ lo)]
    rw [e, Nat.testBit_two_pow_mul_add _ hlo]
    have hb : i + lo' < lo := by omega
    simp [hb, Nat.testBit_mod_two_pow]
  · simp [hi]

/-- A range above the one put is as it was. -/
theorem bits_putBits_above (w lo n v lo' n' : Nat) (h : lo + n ≤ lo') :
    bits (putBits w lo n v) lo' n' = bits w lo' n' := by
  unfold bits putBits
  have hlo : w % 2 ^ lo < 2 ^ lo := Nat.mod_lt _ (Nat.two_pow_pos lo)
  have hv : v % 2 ^ n < 2 ^ n := Nat.mod_lt _ (Nat.two_pow_pos n)
  have hs : v % 2 ^ n * 2 ^ lo + w % 2 ^ lo < 2 ^ (lo + n) := by
    rw [Nat.pow_add, Nat.mul_comm (2 ^ lo)]
    calc v % 2 ^ n * 2 ^ lo + w % 2 ^ lo < v % 2 ^ n * 2 ^ lo + 2 ^ lo := by omega
      _ = (v % 2 ^ n + 1) * 2 ^ lo := by rw [Nat.add_mul, Nat.one_mul]
      _ ≤ 2 ^ n * 2 ^ lo := Nat.mul_le_mul_right _ hv
  obtain ⟨d, rfl⟩ := Nat.exists_eq_add_of_le h
  congr 1
  rw [Nat.pow_add 2 (lo + n) d, ← Nat.div_div_eq_div_mul, ← Nat.div_div_eq_div_mul, Nat.add_assoc,
    Nat.add_comm, Nat.add_mul_div_right _ _ (Nat.two_pow_pos _), Nat.div_eq_of_lt hs, Nat.zero_add]

theorem putBits_lt {w lo n v k : Nat} (hw : w < 2 ^ k) (h : lo + n ≤ k) : putBits w lo n v < 2 ^ k := by
  have hlo : w % 2 ^ lo < 2 ^ lo := Nat.mod_lt _ (Nat.two_pow_pos lo)
  have hv : v % 2 ^ n < 2 ^ n := Nat.mod_lt _ (Nat.two_pow_pos n)
  have hs : v % 2 ^ n * 2 ^ lo + w % 2 ^ lo < 2 ^ (lo + n) := by
    rw [Nat.pow_add, Nat.mul_comm (2 ^ lo)]
    calc v % 2 ^ n * 2 ^ lo + w % 2 ^ lo < v % 2 ^ n * 2 ^ lo + 2 ^ lo := by omega
      _ = (v % 2 ^ n + 1) * 2 ^ lo := by rw [Nat.add_mul, Nat.one_mul]
      _ ≤ 2 ^ n * 2 ^ lo := Nat.mul_le_mul_right _ hv
  obtain ⟨d, rfl⟩ := Nat.exists_eq_add_of_le h
  have hd : w / 2 ^ (lo + n) < 2 ^ d := by
    rw [Nat.div_lt_iff_lt_mul (Nat.two_pow_pos _), ← Nat.pow_add, Nat.add_comm d]; exact hw
  unfold putBits
  rw [Nat.add_assoc]
  calc w / 2 ^ (lo + n) * 2 ^ (lo + n) + (v % 2 ^ n * 2 ^ lo + w % 2 ^ lo)
      < w / 2 ^ (lo + n) * 2 ^ (lo + n) + 2 ^ (lo + n) := by omega
    _ = (w / 2 ^ (lo + n) + 1) * 2 ^ (lo + n) := by rw [Nat.add_mul, Nat.one_mul]
    _ ≤ 2 ^ d * 2 ^ (lo + n) := Nat.mul_le_mul_right _ hd
    _ = 2 ^ (lo + n + d) := by rw [← Nat.pow_add, Nat.add_comm d]

namespace State

/-! ### Registers and fields -/

@[simp] theorem wr_rd_same (s : State) (a : Nat) (v : Word) : (s.wr a v).rd a = v :=
  Table.get_set_same _ _ _ _

theorem wr_rd_other (s : State) {a b : Nat} (v : Word) (h : a ≠ b) : (s.wr a v).rd b = s.rd b :=
  Table.get_set_other _ _ _ h

@[simp] theorem wrN_rd_same (s : State) (a v : Nat) : (s.wrN a v).rd a = BitVec.ofNat 32 v := wr_rd_same _ _ _

theorem wrN_rd_other (s : State) {a b : Nat} (v : Nat) (h : a ≠ b) : (s.wrN a v).rd b = s.rd b :=
  wr_rd_other s _ h

theorem setFld_rd_other (s : State) {f : Field} {b : Nat} (v : Nat) (h : f.reg ≠ b) :
    (s.setFld f v).rd b = s.rd b := wr_rd_other s _ h

theorem setFlag_rd_other (s : State) {f : Field} {b : Nat} (v : Bool) (h : f.reg ≠ b) :
    (s.setFlag f v).rd b = s.rd b := wr_rd_other s _ h

theorem setFld_fld_same (s : State) (f : Field) (v : Nat) (h : f.lo + f.width ≤ 32) :
    (s.setFld f v).fld f = v % 2 ^ f.width := by
  unfold setFld fld
  rw [wrN_rd_same, BitVec.toNat_ofNat, Nat.mod_eq_of_lt (putBits_lt (s.rd f.reg).isLt h), bits_putBits_same]

/-- A field of another register is as it was. -/
theorem setFld_fld_reg (s : State) {f g : Field} (v : Nat) (h : f.reg ≠ g.reg) :
    (s.setFld f v).fld g = s.fld g := by
  unfold fld; rw [setFld_rd_other s v h]

/-- A field of the same register in other bits is as it was. -/
theorem setFld_fld_bits (s : State) {f g : Field} (v : Nat) (hf : f.lo + f.width ≤ 32) (hr : f.reg = g.reg)
    (h : g.lo + g.width ≤ f.lo ∨ f.lo + f.width ≤ g.lo) : (s.setFld f v).fld g = s.fld g := by
  unfold setFld fld
  rw [← hr, wrN_rd_same, BitVec.toNat_ofNat, Nat.mod_eq_of_lt (putBits_lt (s.rd f.reg).isLt hf)]
  rcases h with h | h
  · exact bits_putBits_below _ _ _ _ _ _ h
  · exact bits_putBits_above _ _ _ _ _ _ h

theorem setFlag_flag_same (s : State) (f : Field) (b : Bool) (h : f.lo + f.width ≤ 32) (hw : f.width = 1) :
    (s.setFlag f b).flag f = b := by
  unfold setFlag flag
  rw [setFld_fld_same s f _ h, hw]
  cases b <;> rfl

theorem setFlag_flag_reg (s : State) {f g : Field} (b : Bool) (h : f.reg ≠ g.reg) :
    (s.setFlag f b).flag g = s.flag g := by
  unfold setFlag flag; rw [setFld_fld_reg s _ h]

/-- The value of a field fits its width. -/
theorem fld_lt (s : State) (f : Field) : s.fld f < 2 ^ f.width := bits_lt _ _ _

/-! ### Counters -/

@[simp] theorem countN_cnt_same (s : State) (i n : Nat) : (s.countN i n).cnt i = (s.cnt i + n) % 2 ^ 64 :=
  Table.get_set_same _ _ _ _

theorem countN_cnt_other (s : State) {i j : Nat} (n : Nat) (h : i ≠ j) : (s.countN i n).cnt j = s.cnt j :=
  Table.get_set_other _ _ _ h

@[simp] theorem count_cnt_same (s : State) (i : Nat) : (s.count i).cnt i = (s.cnt i + 1) % 2 ^ 64 :=
  countN_cnt_same _ _ _

theorem count_cnt_other (s : State) {i j : Nat} (h : i ≠ j) : (s.count i).cnt j = s.cnt j :=
  countN_cnt_other s _ h

end State

end Sys2Proof.Machine
end

