-- ==== Sys2Proof/Laws/Writes.lean ====
section
/-! SUPPORT. What an operation writes: `Writes l s t` says once everything that holds of every operation of the
machine that writes only the parts `l`; its closure under composition, branching and iteration, and one lemma for
each update of a field. -/

namespace Sys2Proof.Machine

/-- `t` comes from `s` by an operation that writes only the parts `l`: the other parts are the same, every table
stays canonical, no free value is drawn twice, and what has been sent stays sent. -/
structure Writes (l : List Part) (s t : State) : Prop where
  same : s.sameBut l t
  canon : s.canonical = true → t.canonical = true
  free : s.free ≤ t.free
  out : s.out <+: t.out

theorem State.agrees_refl (s : State) (p : Part) : s.agrees s p := by
  cases p <;> exact rfl

theorem State.agrees_trans {s t u : State} {p : Part} (h : s.agrees t p) (k : t.agrees u p) :
    s.agrees u p := by
  cases p <;> exact Eq.trans k h

theorem Writes.refl (l : List Part) (s : State) : Writes l s s :=
  ⟨fun p _ => s.agrees_refl p, id, Nat.le_refl _, List.prefix_refl _⟩

/-- What follows writes `m`. -/
theorem Writes.step {l m : List Part} {s t u : State} (h : Writes l s t) (k : Writes m t u) (hm : m ⊆ l) :
    Writes l s u :=
  ⟨fun p hp => State.agrees_trans (h.same p hp) (k.same p fun hq => hp (hm hq)), fun hc => k.canon (h.canon hc),
    Nat.le_trans h.free k.free, h.out.trans k.out⟩

theorem Writes.ite {l : List Part} {s a b : State} {c : Prop} [Decidable c] (ha : Writes l s a)
    (hb : Writes l s b) : Writes l s (if c then a else b) := by
  split <;> assumption

theorem Writes.foldl {α : Type} {l : List Part} {s t : State} {f : State → α → State} {xs : List α}
    (h : Writes l s t) (hf : ∀ y a, Writes l y (f y a)) : Writes l s (xs.foldl f t) := by
  induction xs generalizing t with
  | nil => exact h
  | cons a xs ih => exact ih (h.step (hf t a) (List.Subset.refl l))

theorem Writes.foldlFst {α β : Type} {l : List Part} {s : State} {p : State × β} {f : State × β → α → State × β}
    {xs : List α} (h : Writes l s p.1) (hf : ∀ y a, Writes l y.1 (f y a).1) : Writes l s (xs.foldl f p).1 := by
  induction xs generalizing p with
  | nil => exact h
  | cons a xs ih => exact ih (h.step (hf p a) (List.Subset.refl l))

/-- The first of a pair that an operation answered. -/
theorem Writes.fst {α : Type} {l : List Part} {s t : State} {x : State × α} {b : α} (e : x = (t, b))
    (h : Writes l s x.1) : Writes l s t := by
  rw [e] at h; exact h

theorem State.canonical_iff (s : State) : s.canonical = true ↔
    Table.wf regReset s.regs = true ∧
    Table.wf (fun _ => none) s.stage = true ∧
    Table.wf (fun _ => none) s.latch = true ∧
    Table.wf (fun _ => 0) s.cnts = true ∧
    Table.wf (fun _ => 0) s.lastPost = true ∧
    Table.wf State.spineDefault s.spine = true ∧
    Table.wf (fun _ => {}) s.frames = true ∧
    Table.wf (fun _ => 0) s.dram = true ∧
    Table.wf (fun _ => false) s.poison = true ∧
    Table.wf (fun _ => {}) s.queues = true ∧
    Table.wf (fun _ => {}) s.ports = true ∧
    Table.wf (fun _ => {}) s.dma = true ∧
    Table.wf (fun _ => 0) s.engines.quire = true := by
  simp [State.canonical, and_assoc]

theorem Writes.set_boot {l : List Part} {s0 s : State} (h : Writes l s0 s) (hl : [.boot] ⊆ l)
    (v0 : Boot) :
    Writes l s0 { s with boot := v0 } := by
  refine h.step (m := [.boot]) ⟨?_, ?_, ?_, ?_⟩ hl
  · intro p hp; cases p <;> first | exact rfl | exact absurd (by simp) hp
  · exact id
  · exact Nat.le_refl _
  · exact List.prefix_refl _

theorem Writes.set_cart {l : List Part} {s0 s : State} (h : Writes l s0 s) (hl : [.cart] ⊆ l)
    (v0 : Cart) :
    Writes l s0 { s with cart := v0 } := by
  refine h.step (m := [.cart]) ⟨?_, ?_, ?_, ?_⟩ hl
  · intro p hp; cases p <;> first | exact rfl | exact absurd (by simp) hp
  · exact id
  · exact Nat.le_refl _
  · exact List.prefix_refl _

theorem Writes.set_cells {l : List Part} {s0 s : State} (h : Writes l s0 s) (hl : [.cells] ⊆ l)
    (v0 : Cells) :
    Writes l s0 { s with cells := v0 } := by
  refine h.step (m := [.cells]) ⟨?_, ?_, ?_, ?_⟩ hl
  · intro p hp; cases p <;> first | exact rfl | exact absurd (by simp) hp
  · exact id
  · exact Nat.le_refl _
  · exact List.prefix_refl _

theorem Writes.set_cells_nextFrame {l : List Part} {s0 s : State} (h : Writes l s0 s) (hl : [.cells, .nextFrame] ⊆ l)
    (v0 : Cells) (v1 : Nat) :
    Writes l s0 { s with cells := v0, nextFrame := v1 } := by
  refine h.step (m := [.cells, .nextFrame]) ⟨?_, ?_, ?_, ?_⟩ hl
  · intro p hp; cases p <;> first | exact rfl | exact absurd (by simp) hp
  · exact id
  · exact Nat.le_refl _
  · exact List.prefix_refl _

theorem Writes.set_cnts {l : List Part} {s0 s : State} (h : Writes l s0 s) (hl : [.cnts] ⊆ l)
    (v0 : Table Nat)
    (h_cnts : Table.wf (fun _ => 0) s.cnts = true → Table.wf (fun _ => 0) v0 = true) :
    Writes l s0 { s with cnts := v0 } := by
  refine h.step (m := [.cnts]) ⟨?_, ?_, ?_, ?_⟩ hl
  · intro p hp; cases p <;> first | exact rfl | exact absurd (by simp) hp
  · intro hc; rw [State.canonical_iff] at hc ⊢
    obtain ⟨c0, c1, c2, c3, c4, c5, c6, c7, c8, c9, c10, c11, ce⟩ := hc
    exact ⟨c0, c1, c2, h_cnts c3, c4, c5, c6, c7, c8, c9, c10, c11, ce⟩
  · exact Nat.le_refl _
  · exact List.prefix_refl _

theorem Writes.set_dma {l : List Part} {s0 s : State} (h : Writes l s0 s) (hl : [.dma] ⊆ l)
    (v0 : Table DmaChan)
    (h_dma : Table.wf (fun _ => {}) s.dma = true → Table.wf (fun _ => {}) v0 = true) :
    Writes l s0 { s with dma := v0 } := by
  refine h.step (m := [.dma]) ⟨?_, ?_, ?_, ?_⟩ hl
  · intro p hp; cases p <;> first | exact rfl | exact absurd (by simp) hp
  · intro hc; rw [State.canonical_iff] at hc ⊢
    obtain ⟨c0, c1, c2, c3, c4, c5, c6, c7, c8, c9, c10, c11, ce⟩ := hc
    exact ⟨c0, c1, c2, c3, c4, c5, c6, c7, c8, c9, c10, h_dma c11, ce⟩
  · exact Nat.le_refl _
  · exact List.prefix_refl _

theorem Writes.set_dram_poison {l : List Part} {s0 s : State} (h : Writes l s0 s) (hl : [.dram, .poison] ⊆ l)
    (v0 : Table Byte) (v1 : Table Bool)
    (h_dram : Table.wf (fun _ => 0) s.dram = true → Table.wf (fun _ => 0) v0 = true)
    (h_poison : Table.wf (fun _ => false) s.poison = true → Table.wf (fun _ => false) v1 = true) :
    Writes l s0 { s with dram := v0, poison := v1 } := by
  refine h.step (m := [.dram, .poison]) ⟨?_, ?_, ?_, ?_⟩ hl
  · intro p hp; cases p <;> first | exact rfl | exact absurd (by simp) hp
  · intro hc; rw [State.canonical_iff] at hc ⊢
    obtain ⟨c0, c1, c2, c3, c4, c5, c6, c7, c8, c9, c10, c11, ce⟩ := hc
    exact ⟨c0, c1, c2, c3, c4, c5, c6, h_dram c7, h_poison c8, c9, c10, c11, ce⟩
  · exact Nat.le_refl _
  · exact List.prefix_refl _

theorem Writes.set_engines {l : List Part} {s0 s : State} (h : Writes l s0 s) (hl : [.engines] ⊆ l)
    (v0 : Engines)
    (h_engines : Table.wf (fun _ => 0) s.engines.quire = true → Table.wf (fun _ => 0) v0.quire = true) :
    Writes l s0 { s with engines := v0 } := by
  refine h.step (m := [.engines]) ⟨?_, ?_, ?_, ?_⟩ hl
  · intro p hp; cases p <;> first | exact rfl | exact absurd (by simp) hp
  · intro hc; rw [State.canonical_iff] at hc ⊢
    obtain ⟨c0, c1, c2, c3, c4, c5, c6, c7, c8, c9, c10, c11, ce⟩ := hc
    exact ⟨c0, c1, c2, c3, c4, c5, c6, c7, c8, c9, c10, c11, h_engines ce⟩
  · exact Nat.le_refl _
  · exact List.prefix_refl _

theorem Writes.set_evt {l : List Part} {s0 s : State} (h : Writes l s0 s) (hl : [.evt] ⊆ l)
    (v0 : Evt) :
    Writes l s0 { s with evt := v0 } := by
  refine h.step (m := [.evt]) ⟨?_, ?_, ?_, ?_⟩ hl
  · intro p hp; cases p <;> first | exact rfl | exact absurd (by simp) hp
  · exact id
  · exact Nat.le_refl _
  · exact List.prefix_refl _

theorem Writes.set_flows {l : List Part} {s0 s : State} (h : Writes l s0 s) (hl : [.flows] ⊆ l)
    (v0 : Flows) :
    Writes l s0 { s with flows := v0 } := by
  refine h.step (m := [.flows]) ⟨?_, ?_, ?_, ?_⟩ hl
  · intro p hp; cases p <;> first | exact rfl | exact absurd (by simp) hp
  · exact id
  · exact Nat.le_refl _
  · exact List.prefix_refl _

theorem Writes.set_frames {l : List Part} {s0 s : State} (h : Writes l s0 s) (hl : [.frames] ⊆ l)
    (v0 : Table Frame)
    (h_frames : Table.wf (fun _ => {}) s.frames = true → Table.wf (fun _ => {}) v0 = true) :
    Writes l s0 { s with frames := v0 } := by
  refine h.step (m := [.frames]) ⟨?_, ?_, ?_, ?_⟩ hl
  · intro p hp; cases p <;> first | exact rfl | exact absurd (by simp) hp
  · intro hc; rw [State.canonical_iff] at hc ⊢
    obtain ⟨c0, c1, c2, c3, c4, c5, c6, c7, c8, c9, c10, c11, ce⟩ := hc
    exact ⟨c0, c1, c2, c3, c4, c5, h_frames c6, c7, c8, c9, c10, c11, ce⟩
  · exact Nat.le_refl _
  · exact List.prefix_refl _

theorem Writes.set_free {l : List Part} {s0 s : State} (h : Writes l s0 s) (hl : [.free] ⊆ l)
    (v0 : Nat)
    (h_free : s.free ≤ v0) :
    Writes l s0 { s with free := v0 } := by
  refine h.step (m := [.free]) ⟨?_, ?_, ?_, ?_⟩ hl
  · intro p hp; cases p <;> first | exact rfl | exact absurd (by simp) hp
  · exact id
  · exact h_free
  · exact List.prefix_refl _

theorem Writes.set_fuses {l : List Part} {s0 s : State} (h : Writes l s0 s) (hl : [.fuses] ⊆ l)
    (v0 : Fuses) :
    Writes l s0 { s with fuses := v0 } := by
  refine h.step (m := [.fuses]) ⟨?_, ?_, ?_, ?_⟩ hl
  · intro p hp; cases p <;> first | exact rfl | exact absurd (by simp) hp
  · exact id
  · exact Nat.le_refl _
  · exact List.prefix_refl _

theorem Writes.set_guard {l : List Part} {s0 s : State} (h : Writes l s0 s) (hl : [.guard] ⊆ l)
    (v0 : Guard) :
    Writes l s0 { s with guard := v0 } := by
  refine h.step (m := [.guard]) ⟨?_, ?_, ?_, ?_⟩ hl
  · intro p hp; cases p <;> first | exact rfl | exact absurd (by simp) hp
  · exact id
  · exact Nat.le_refl _
  · exact List.prefix_refl _

theorem Writes.set_host {l : List Part} {s0 s : State} (h : Writes l s0 s) (hl : [.host] ⊆ l)
    (v0 : HostSide) :
    Writes l s0 { s with host := v0 } := by
  refine h.step (m := [.host]) ⟨?_, ?_, ?_, ?_⟩ hl
  · intro p hp; cases p <;> first | exact rfl | exact absurd (by simp) hp
  · exact id
  · exact Nat.le_refl _
  · exact List.prefix_refl _

theorem Writes.set_imp {l : List Part} {s0 s : State} (h : Writes l s0 s) (hl : [.imp] ⊆ l)
    (v0 : Imp) :
    Writes l s0 { s with imp := v0 } := by
  refine h.step (m := [.imp]) ⟨?_, ?_, ?_, ?_⟩ hl
  · intro p hp; cases p <;> first | exact rfl | exact absurd (by simp) hp
  · exact id
  · exact Nat.le_refl _
  · exact List.prefix_refl _

theorem Writes.set_imp_units_guard {l : List Part} {s0 s : State} (h : Writes l s0 s) (hl : [.imp, .units, .guard] ⊆ l)
    (v0 : Imp) (v1 : Units) (v2 : Guard) :
    Writes l s0 { s with imp := v0, units := v1, guard := v2 } := by
  refine h.step (m := [.imp, .units, .guard]) ⟨?_, ?_, ?_, ?_⟩ hl
  · intro p hp; cases p <;> first | exact rfl | exact absurd (by simp) hp
  · exact id
  · exact Nat.le_refl _
  · exact List.prefix_refl _

theorem Writes.set_items {l : List Part} {s0 s : State} (h : Writes l s0 s) (hl : [.items] ⊆ l)
    (v0 : List WorkItem) :
    Writes l s0 { s with items := v0 } := by
  refine h.step (m := [.items]) ⟨?_, ?_, ?_, ?_⟩ hl
  · intro p hp; cases p <;> first | exact rfl | exact absurd (by simp) hp
  · exact id
  · exact Nat.le_refl _
  · exact List.prefix_refl _

theorem Writes.set_items_itemSeq {l : List Part} {s0 s : State} (h : Writes l s0 s) (hl : [.items, .itemSeq] ⊆ l)
    (v0 : List WorkItem) (v1 : Nat) :
    Writes l s0 { s with items := v0, itemSeq := v1 } := by
  refine h.step (m := [.items, .itemSeq]) ⟨?_, ?_, ?_, ?_⟩ hl
  · intro p hp; cases p <;> first | exact rfl | exact absurd (by simp) hp
  · exact id
  · exact Nat.le_refl _
  · exact List.prefix_refl _

theorem Writes.set_lastPost {l : List Part} {s0 s : State} (h : Writes l s0 s) (hl : [.lastPost] ⊆ l)
    (v0 : Table Nat)
    (h_lastPost : Table.wf (fun _ => 0) s.lastPost = true → Table.wf (fun _ => 0) v0 = true) :
    Writes l s0 { s with lastPost := v0 } := by
  refine h.step (m := [.lastPost]) ⟨?_, ?_, ?_, ?_⟩ hl
  · intro p hp; cases p <;> first | exact rfl | exact absurd (by simp) hp
  · intro hc; rw [State.canonical_iff] at hc ⊢
    obtain ⟨c0, c1, c2, c3, c4, c5, c6, c7, c8, c9, c10, c11, ce⟩ := hc
    exact ⟨c0, c1, c2, c3, h_lastPost c4, c5, c6, c7, c8, c9, c10, c11, ce⟩
  · exact Nat.le_refl _
  · exact List.prefix_refl _

theorem Writes.set_latch {l : List Part} {s0 s : State} (h : Writes l s0 s) (hl : [.latch] ⊆ l)
    (v0 : Table (Option Word))
    (h_latch : Table.wf (fun _ => none) s.latch = true → Table.wf (fun _ => none) v0 = true) :
    Writes l s0 { s with latch := v0 } := by
  refine h.step (m := [.latch]) ⟨?_, ?_, ?_, ?_⟩ hl
  · intro p hp; cases p <;> first | exact rfl | exact absurd (by simp) hp
  · intro hc; rw [State.canonical_iff] at hc ⊢
    obtain ⟨c0, c1, c2, c3, c4, c5, c6, c7, c8, c9, c10, c11, ce⟩ := hc
    exact ⟨c0, c1, h_latch c2, c3, c4, c5, c6, c7, c8, c9, c10, c11, ce⟩
  · exact Nat.le_refl _
  · exact List.prefix_refl _

theorem Writes.set_obs {l : List Part} {s0 s : State} (h : Writes l s0 s) (hl : [.obs] ⊆ l)
    (v0 : Obs) :
    Writes l s0 { s with obs := v0 } := by
  refine h.step (m := [.obs]) ⟨?_, ?_, ?_, ?_⟩ hl
  · intro p hp; cases p <;> first | exact rfl | exact absurd (by simp) hp
  · exact id
  · exact Nat.le_refl _
  · exact List.prefix_refl _

theorem Writes.set_out {l : List Part} {s0 s : State} (h : Writes l s0 s) (hl : [.out] ⊆ l)
    (v0 : List Output)
    (h_out : s.out <+: v0) :
    Writes l s0 { s with out := v0 } := by
  refine h.step (m := [.out]) ⟨?_, ?_, ?_, ?_⟩ hl
  · intro p hp; cases p <;> first | exact rfl | exact absurd (by simp) hp
  · exact id
  · exact Nat.le_refl _
  · exact h_out

theorem Writes.set_pace {l : List Part} {s0 s : State} (h : Writes l s0 s) (hl : [.pace] ⊆ l)
    (v0 : Pace) :
    Writes l s0 { s with pace := v0 } := by
  refine h.step (m := [.pace]) ⟨?_, ?_, ?_, ?_⟩ hl
  · intro p hp; cases p <;> first | exact rfl | exact absurd (by simp) hp
  · exact id
  · exact Nat.le_refl _
  · exact List.prefix_refl _

theorem Writes.set_pair {l : List Part} {s0 s : State} (h : Writes l s0 s) (hl : [.pair] ⊆ l)
    (v0 : Pair) :
    Writes l s0 { s with pair := v0 } := by
  refine h.step (m := [.pair]) ⟨?_, ?_, ?_, ?_⟩ hl
  · intro p hp; cases p <;> first | exact rfl | exact absurd (by simp) hp
  · exact id
  · exact Nat.le_refl _
  · exact List.prefix_refl _

theorem Writes.set_pairLink {l : List Part} {s0 s : State} (h : Writes l s0 s) (hl : [.pairLink] ⊆ l)
    (v0 : PairLink) :
    Writes l s0 { s with pairLink := v0 } := by
  refine h.step (m := [.pairLink]) ⟨?_, ?_, ?_, ?_⟩ hl
  · intro p hp; cases p <;> first | exact rfl | exact absurd (by simp) hp
  · exact id
  · exact Nat.le_refl _
  · exact List.prefix_refl _

theorem Writes.set_ports {l : List Part} {s0 s : State} (h : Writes l s0 s) (hl : [.ports] ⊆ l)
    (v0 : Table Port)
    (h_ports : Table.wf (fun _ => {}) s.ports = true → Table.wf (fun _ => {}) v0 = true) :
    Writes l s0 { s with ports := v0 } := by
  refine h.step (m := [.ports]) ⟨?_, ?_, ?_, ?_⟩ hl
  · intro p hp; cases p <;> first | exact rfl | exact absurd (by simp) hp
  · intro hc; rw [State.canonical_iff] at hc ⊢
    obtain ⟨c0, c1, c2, c3, c4, c5, c6, c7, c8, c9, c10, c11, ce⟩ := hc
    exact ⟨c0, c1, c2, c3, c4, c5, c6, c7, c8, c9, h_ports c10, c11, ce⟩
  · exact Nat.le_refl _
  · exact List.prefix_refl _

theorem Writes.set_ports_flows_items_ring_engines {l : List Part} {s0 s : State} (h : Writes l s0 s) (hl : [.ports, .flows, .items, .ring, .engines] ⊆ l)
    (v0 : Table Port) (v1 : Flows) (v2 : List WorkItem) (v3 : Ring) (v4 : Engines)
    (h_ports : Table.wf (fun _ => {}) s.ports = true → Table.wf (fun _ => {}) v0 = true)
    (h_engines : Table.wf (fun _ => 0) s.engines.quire = true → Table.wf (fun _ => 0) v4.quire = true) :
    Writes l s0 { s with ports := v0, flows := v1, items := v2, ring := v3, engines := v4 } := by
  refine h.step (m := [.ports, .flows, .items, .ring, .engines]) ⟨?_, ?_, ?_, ?_⟩ hl
  · intro p hp; cases p <;> first | exact rfl | exact absurd (by simp) hp
  · intro hc; rw [State.canonical_iff] at hc ⊢
    obtain ⟨c0, c1, c2, c3, c4, c5, c6, c7, c8, c9, c10, c11, ce⟩ := hc
    exact ⟨c0, c1, c2, c3, c4, c5, c6, c7, c8, c9, h_ports c10, c11, h_engines ce⟩
  · exact Nat.le_refl _
  · exact List.prefix_refl _

theorem Writes.set_ports_flows_ring {l : List Part} {s0 s : State} (h : Writes l s0 s) (hl : [.ports, .flows, .ring] ⊆ l)
    (v0 : Table Port) (v1 : Flows) (v2 : Ring)
    (h_ports : Table.wf (fun _ => {}) s.ports = true → Table.wf (fun _ => {}) v0 = true) :
    Writes l s0 { s with ports := v0, flows := v1, ring := v2 } := by
  refine h.step (m := [.ports, .flows, .ring]) ⟨?_, ?_, ?_, ?_⟩ hl
  · intro p hp; cases p <;> first | exact rfl | exact absurd (by simp) hp
  · intro hc; rw [State.canonical_iff] at hc ⊢
    obtain ⟨c0, c1, c2, c3, c4, c5, c6, c7, c8, c9, c10, c11, ce⟩ := hc
    exact ⟨c0, c1, c2, c3, c4, c5, c6, c7, c8, c9, h_ports c10, c11, ce⟩
  · exact Nat.le_refl _
  · exact List.prefix_refl _

theorem Writes.set_posted {l : List Part} {s0 s : State} (h : Writes l s0 s) (hl : [.posted] ⊆ l)
    (v0 : List Event) :
    Writes l s0 { s with posted := v0 } := by
  refine h.step (m := [.posted]) ⟨?_, ?_, ?_, ?_⟩ hl
  · intro p hp; cases p <;> first | exact rfl | exact absurd (by simp) hp
  · exact id
  · exact Nat.le_refl _
  · exact List.prefix_refl _

theorem Writes.set_ptp {l : List Part} {s0 s : State} (h : Writes l s0 s) (hl : [.ptp] ⊆ l)
    (v0 : Ptp) :
    Writes l s0 { s with ptp := v0 } := by
  refine h.step (m := [.ptp]) ⟨?_, ?_, ?_, ?_⟩ hl
  · intro p hp; cases p <;> first | exact rfl | exact absurd (by simp) hp
  · exact id
  · exact Nat.le_refl _
  · exact List.prefix_refl _

theorem Writes.set_pwr {l : List Part} {s0 s : State} (h : Writes l s0 s) (hl : [.pwr] ⊆ l)
    (v0 : Power) :
    Writes l s0 { s with pwr := v0 } := by
  refine h.step (m := [.pwr]) ⟨?_, ?_, ?_, ?_⟩ hl
  · intro p hp; cases p <;> first | exact rfl | exact absurd (by simp) hp
  · exact id
  · exact Nat.le_refl _
  · exact List.prefix_refl _

theorem Writes.set_queues {l : List Part} {s0 s : State} (h : Writes l s0 s) (hl : [.queues] ⊆ l)
    (v0 : Table Queue)
    (h_queues : Table.wf (fun _ => {}) s.queues = true → Table.wf (fun _ => {}) v0 = true) :
    Writes l s0 { s with queues := v0 } := by
  refine h.step (m := [.queues]) ⟨?_, ?_, ?_, ?_⟩ hl
  · intro p hp; cases p <;> first | exact rfl | exact absurd (by simp) hp
  · intro hc; rw [State.canonical_iff] at hc ⊢
    obtain ⟨c0, c1, c2, c3, c4, c5, c6, c7, c8, c9, c10, c11, ce⟩ := hc
    exact ⟨c0, c1, c2, c3, c4, c5, c6, c7, c8, h_queues c9, c10, c11, ce⟩
  · exact Nat.le_refl _
  · exact List.prefix_refl _

theorem Writes.set_queues_ports_flows_items_recCopies_engines {l : List Part} {s0 s : State} (h : Writes l s0 s) (hl : [.queues, .ports, .flows, .items, .recCopies, .engines] ⊆ l)
    (v0 : Table Queue) (v1 : Table Port) (v2 : Flows) (v3 : List WorkItem) (v4 : List RecCopy) (v5 : Engines)
    (h_queues : Table.wf (fun _ => {}) s.queues = true → Table.wf (fun _ => {}) v0 = true)
    (h_ports : Table.wf (fun _ => {}) s.ports = true → Table.wf (fun _ => {}) v1 = true)
    (h_engines : Table.wf (fun _ => 0) s.engines.quire = true → Table.wf (fun _ => 0) v5.quire = true) :
    Writes l s0 { s with queues := v0, ports := v1, flows := v2, items := v3, recCopies := v4, engines := v5 } := by
  refine h.step (m := [.queues, .ports, .flows, .items, .recCopies, .engines]) ⟨?_, ?_, ?_, ?_⟩ hl
  · intro p hp; cases p <;> first | exact rfl | exact absurd (by simp) hp
  · intro hc; rw [State.canonical_iff] at hc ⊢
    obtain ⟨c0, c1, c2, c3, c4, c5, c6, c7, c8, c9, c10, c11, ce⟩ := hc
    exact ⟨c0, c1, c2, c3, c4, c5, c6, c7, c8, h_queues c9, h_ports c10, c11, h_engines ce⟩
  · exact Nat.le_refl _
  · exact List.prefix_refl _

theorem Writes.set_recCopies {l : List Part} {s0 s : State} (h : Writes l s0 s) (hl : [.recCopies] ⊆ l)
    (v0 : List RecCopy) :
    Writes l s0 { s with recCopies := v0 } := by
  refine h.step (m := [.recCopies]) ⟨?_, ?_, ?_, ?_⟩ hl
  · intro p hp; cases p <;> first | exact rfl | exact absurd (by simp) hp
  · exact id
  · exact Nat.le_refl _
  · exact List.prefix_refl _

theorem Writes.set_regs {l : List Part} {s0 s : State} (h : Writes l s0 s) (hl : [.regs, .mode] ⊆ l)
    (v0 : Table Word)
    (h_regs : Table.wf regReset s.regs = true → Table.wf regReset v0 = true) :
    Writes l s0 { s with regs := v0 } := by
  refine h.step (m := [.regs, .mode]) ⟨?_, ?_, ?_, ?_⟩ hl
  · intro p hp; cases p <;> first | exact rfl | exact absurd (by simp) hp
  · intro hc; rw [State.canonical_iff] at hc ⊢
    obtain ⟨c0, c1, c2, c3, c4, c5, c6, c7, c8, c9, c10, c11, ce⟩ := hc
    exact ⟨h_regs c0, c1, c2, c3, c4, c5, c6, c7, c8, c9, c10, c11, ce⟩
  · exact Nat.le_refl _
  · exact List.prefix_refl _

theorem Writes.set_regs_stage_host {l : List Part} {s0 s : State} (h : Writes l s0 s) (hl : [.regs, .mode, .stage, .host] ⊆ l)
    (v0 : Table Word) (v1 : Table (Option Word)) (v2 : HostSide)
    (h_regs : Table.wf regReset s.regs = true → Table.wf regReset v0 = true)
    (h_stage : Table.wf (fun _ => none) s.stage = true → Table.wf (fun _ => none) v1 = true) :
    Writes l s0 { s with regs := v0, stage := v1, host := v2 } := by
  refine h.step (m := [.regs, .mode, .stage, .host]) ⟨?_, ?_, ?_, ?_⟩ hl
  · intro p hp; cases p <;> first | exact rfl | exact absurd (by simp) hp
  · intro hc; rw [State.canonical_iff] at hc ⊢
    obtain ⟨c0, c1, c2, c3, c4, c5, c6, c7, c8, c9, c10, c11, ce⟩ := hc
    exact ⟨h_regs c0, h_stage c1, c2, c3, c4, c5, c6, c7, c8, c9, c10, c11, ce⟩
  · exact Nat.le_refl _
  · exact List.prefix_refl _

theorem Writes.set_ring {l : List Part} {s0 s : State} (h : Writes l s0 s) (hl : [.ring] ⊆ l)
    (v0 : Ring) :
    Writes l s0 { s with ring := v0 } := by
  refine h.step (m := [.ring]) ⟨?_, ?_, ?_, ?_⟩ hl
  · intro p hp; cases p <;> first | exact rfl | exact absurd (by simp) hp
  · exact id
  · exact Nat.le_refl _
  · exact List.prefix_refl _

theorem Writes.set_spine {l : List Part} {s0 s : State} (h : Writes l s0 s) (hl : [.spine] ⊆ l)
    (v0 : Table Credit)
    (h_spine : Table.wf State.spineDefault s.spine = true → Table.wf State.spineDefault v0 = true) :
    Writes l s0 { s with spine := v0 } := by
  refine h.step (m := [.spine]) ⟨?_, ?_, ?_, ?_⟩ hl
  · intro p hp; cases p <;> first | exact rfl | exact absurd (by simp) hp
  · intro hc; rw [State.canonical_iff] at hc ⊢
    obtain ⟨c0, c1, c2, c3, c4, c5, c6, c7, c8, c9, c10, c11, ce⟩ := hc
    exact ⟨c0, c1, c2, c3, c4, h_spine c5, c6, c7, c8, c9, c10, c11, ce⟩
  · exact Nat.le_refl _
  · exact List.prefix_refl _

theorem Writes.set_stage {l : List Part} {s0 s : State} (h : Writes l s0 s) (hl : [.stage] ⊆ l)
    (v0 : Table (Option Word))
    (h_stage : Table.wf (fun _ => none) s.stage = true → Table.wf (fun _ => none) v0 = true) :
    Writes l s0 { s with stage := v0 } := by
  refine h.step (m := [.stage]) ⟨?_, ?_, ?_, ?_⟩ hl
  · intro p hp; cases p <;> first | exact rfl | exact absurd (by simp) hp
  · intro hc; rw [State.canonical_iff] at hc ⊢
    obtain ⟨c0, c1, c2, c3, c4, c5, c6, c7, c8, c9, c10, c11, ce⟩ := hc
    exact ⟨c0, h_stage c1, c2, c3, c4, c5, c6, c7, c8, c9, c10, c11, ce⟩
  · exact Nat.le_refl _
  · exact List.prefix_refl _

theorem Writes.set_tb {l : List Part} {s0 s : State} (h : Writes l s0 s) (hl : [.tb] ⊆ l)
    (v0 : TimeBase) :
    Writes l s0 { s with tb := v0 } := by
  refine h.step (m := [.tb]) ⟨?_, ?_, ?_, ?_⟩ hl
  · intro p hp; cases p <;> first | exact rfl | exact absurd (by simp) hp
  · exact id
  · exact Nat.le_refl _
  · exact List.prefix_refl _

theorem Writes.set_units {l : List Part} {s0 s : State} (h : Writes l s0 s) (hl : [.units] ⊆ l)
    (v0 : Units) :
    Writes l s0 { s with units := v0 } := by
  refine h.step (m := [.units]) ⟨?_, ?_, ?_, ?_⟩ hl
  · intro p hp; cases p <;> first | exact rfl | exact absurd (by simp) hp
  · exact id
  · exact Nat.le_refl _
  · exact List.prefix_refl _

end Sys2Proof.Machine
end

