-- ==== Sys2Proof/Laws/WritesOps.lean ====
section
/-! SUPPORT. What each operation of Machine/Ops.lean writes. -/

namespace Sys2Proof.Machine

theorem State.wr_writes  (s : State) (a : Nat) (v : Word) :
    Writes [.regs, .mode] s (State.wr s a v) := by
  unfold State.wr
  repeat' first
    | dsimp only
    | ((conv => arg 3; arg 39; skip); with_reducible refine Writes.set_regs ?_ ?_ _ ?_)
    | with_reducible exact Writes.refl _ _
    | exact fun h => Table.wf_set _ _ _ _ h
    | decide

theorem State.wrN_writes  (s : State) (a : Nat) (v : Nat) :
    Writes [.regs, .mode] s (State.wrN s a v) := by
  unfold State.wrN
  repeat' first
    | dsimp only
    | with_reducible exact Writes.refl _ _
    | (apply Writes.step; case k => with_reducible apply State.wr_writes)
    | decide

theorem State.wrFull_writes  (s : State) (lo : Nat) (t : Full) :
    Writes [.regs, .mode] s (State.wrFull s lo t) := by
  unfold State.wrFull
  repeat' first
    | dsimp only
    | with_reducible exact Writes.refl _ _
    | (apply Writes.step; case k => with_reducible apply State.wrN_writes)
    | decide

theorem State.countN_writes  (s : State) (i : Nat) (n : Nat) :
    Writes [.cnts] s (State.countN s i n) := by
  unfold State.countN
  repeat' first
    | dsimp only
    | ((conv => arg 3; arg 39; skip); with_reducible refine Writes.set_cnts ?_ ?_ _ ?_)
    | with_reducible exact Writes.refl _ _
    | exact fun h => Table.wf_set _ _ _ _ h
    | decide

theorem State.count_writes  (s : State) (i : Nat) :
    Writes [.cnts] s (State.count s i) := by
  unfold State.count
  repeat' first
    | dsimp only
    | with_reducible exact Writes.refl _ _
    | (apply Writes.step; case k => with_reducible apply State.countN_writes)
    | decide

theorem State.setFld_writes  (s : State) (f : Field) (v : Nat) :
    Writes [.regs, .mode] s (State.setFld s f v) := by
  unfold State.setFld
  repeat' first
    | dsimp only
    | with_reducible exact Writes.refl _ _
    | (apply Writes.step; case k => with_reducible apply State.wrN_writes)
    | decide

theorem State.setFlag_writes  (s : State) (f : Field) (b : Bool) :
    Writes [.regs, .mode] s (State.setFlag s f b) := by
  unfold State.setFlag
  repeat' first
    | dsimp only
    | with_reducible exact Writes.refl _ _
    | (apply Writes.step; case k => with_reducible apply State.setFld_writes)
    | decide

theorem State.showDegraded_writes  (s : State) :
    Writes [.regs, .mode] s (State.showDegraded s) := by
  unfold State.showDegraded
  repeat' first
    | dsimp only
    | with_reducible exact Writes.refl _ _
    | (apply Writes.step; case k => with_reducible apply State.setFlag_writes)
    | decide

theorem State.emit_writes  (s : State) (o : Output) :
    Writes [.out] s (State.emit s o) := by
  unfold State.emit
  repeat' first
    | dsimp only
    | ((conv => arg 3; arg 39; skip); with_reducible refine Writes.set_out ?_ ?_ _ ?_)
    | with_reducible exact Writes.refl _ _
    | exact List.prefix_append _ _
    | decide

theorem State.wr64_writes  (s : State) (lo : Nat) (v : Nat) :
    Writes [.regs, .mode] s (State.wr64 s lo v) := by
  unfold State.wr64
  repeat' first
    | dsimp only
    | with_reducible exact Writes.refl _ _
    | (apply Writes.step; case k => with_reducible apply State.wrN_writes)
    | decide

theorem State.sendLtr_writes  (s : State) (m : Nat) :
    Writes [.out] s (State.sendLtr s m) := by
  unfold State.sendLtr
  repeat' first
    | dsimp only
    | with_reducible exact Writes.refl _ _
    | (apply Writes.step; case k => with_reducible apply State.emit_writes)
    | with_reducible refine Writes.ite ?_ ?_
    | decide
    | split

theorem State.draw_writes  (s : State) :
    Writes [.free] s (State.draw s) := by
  unfold State.draw
  repeat' first
    | dsimp only
    | ((conv => arg 3; arg 39; skip); with_reducible refine Writes.set_free ?_ ?_ _ ?_)
    | with_reducible exact Writes.refl _ _
    | exact Nat.le_succ _
    | exact Nat.le_add_right _ _
    | decide

theorem State.post_writes  (s : State) (code : Nat) (data : Nat) :
    Writes [.posted] s (State.post s code data) := by
  unfold State.post
  repeat' first
    | dsimp only
    | ((conv => arg 3; arg 39; skip); with_reducible refine Writes.set_posted ?_ ?_ _)
    | with_reducible exact Writes.refl _ _
    | decide

theorem State.postOpen_writes  (s : State) (code : Nat) :
    Writes [.posted, .free] s (State.postOpen s code) := by
  unfold State.postOpen
  repeat' first
    | dsimp only
    | with_reducible exact Writes.refl _ _
    | (apply Writes.step; case k => with_reducible apply State.draw_writes)
    | (apply Writes.step; case k => with_reducible apply State.post_writes)
    | decide

theorem State.transition_writes  (s : State) (m : Nat) (cause : Nat) :
    Writes [.regs, .mode, .posted, .out, .free] s (State.transition s m cause) := by
  unfold State.transition
  repeat' first
    | dsimp only
    | with_reducible exact Writes.refl _ _
    | (apply Writes.step; case k => with_reducible apply State.sendLtr_writes)
    | (apply Writes.step; case k => with_reducible apply State.postOpen_writes)
    | (apply Writes.step; case k => with_reducible apply State.setFld_writes)
    | decide

theorem State.restore_writes  (s : State) :
    Writes [.regs, .mode, .posted, .out, .free] s (State.restore s) := by
  unfold State.restore
  repeat' first
    | dsimp only
    | with_reducible exact Writes.refl _ _
    | (apply Writes.step; case k => with_reducible apply State.showDegraded_writes)
    | (apply Writes.step; case k => with_reducible apply State.transition_writes)
    | with_reducible refine Writes.ite ?_ ?_
    | decide
    | split

theorem State.stageWord_writes  (s : State) (a : Nat) (v : Word) :
    Writes [.stage] s (State.stageWord s a v) := by
  unfold State.stageWord
  repeat' first
    | dsimp only
    | ((conv => arg 3; arg 39; skip); with_reducible refine Writes.set_stage ?_ ?_ _ ?_)
    | with_reducible exact Writes.refl _ _
    | exact fun h => Table.wf_set _ _ _ _ h
    | decide

theorem State.postLimited_writes  (s : State) (code : Nat) (data : Nat) :
    Writes [.posted, .lastPost] s (State.postLimited s code data) := by
  unfold State.postLimited
  repeat' first
    | dsimp only
    | ((conv => arg 3; arg 39; skip); with_reducible refine Writes.set_lastPost ?_ ?_ _ ?_)
    | with_reducible exact Writes.refl _ _
    | exact fun h => Table.wf_set _ _ _ _ h
    | (apply Writes.step; case k => with_reducible apply State.post_writes)
    | with_reducible refine Writes.ite ?_ ?_
    | decide
    | split

theorem State.unstage_writes  (s : State) (a : Nat) :
    Writes [.stage] s (State.unstage s a) := by
  unfold State.unstage
  repeat' first
    | dsimp only
    | ((conv => arg 3; arg 39; skip); with_reducible refine Writes.set_stage ?_ ?_ _ ?_)
    | with_reducible exact Writes.refl _ _
    | exact fun h => Table.wf_set _ _ _ _ h
    | decide

theorem State.commitWords_writes  (s : State) (a : Nat) (x2 : Nat) :
    Writes [.regs, .mode, .stage] s (State.commitWords s a x2) := by
  induction x2 generalizing s a with
  | zero =>
    unfold State.commitWords
    repeat' first
      | dsimp only
      | with_reducible exact Writes.refl _ _
      | (apply Writes.step; case k => with_reducible apply State.unstage_writes)
      | (apply Writes.step; case k => with_reducible apply State.wr_writes)
      | decide
      | split
  | succ k ih =>
    unfold State.commitWords
    repeat' first
      | dsimp only
      | with_reducible exact Writes.refl _ _
      | (apply Writes.step; case k => with_reducible apply ih)
      | (apply Writes.step; case k => with_reducible apply State.unstage_writes)
      | (apply Writes.step; case k => with_reducible apply State.wr_writes)
      | decide
      | split

theorem State.postOpenLimited_writes  (s : State) (code : Nat) :
    Writes [.posted, .lastPost, .free] s (State.postOpenLimited s code) := by
  unfold State.postOpenLimited
  repeat' first
    | dsimp only
    | with_reducible exact Writes.refl _ _
    | (apply Writes.step; case k => with_reducible apply State.draw_writes)
    | (apply Writes.step; case k => with_reducible apply State.postLimited_writes)
    | decide

theorem State.putBit_writes  (s : State) (f : Field) (i : Nat) (b : Bool) :
    Writes [.regs, .mode] s (State.putBit s f i b) := by
  unfold State.putBit
  repeat' first
    | dsimp only
    | with_reducible exact Writes.refl _ _
    | (apply Writes.step; case k => with_reducible apply State.setFld_writes)
    | decide

theorem State.dropStaged_writes  (s : State) (a : Nat) (x2 : Nat) :
    Writes [.stage] s (State.dropStaged s a x2) := by
  induction x2 generalizing s a with
  | zero =>
    unfold State.dropStaged
    repeat' first
      | dsimp only
      | with_reducible exact Writes.refl _ _
      | (apply Writes.step; case k => with_reducible apply State.unstage_writes)
      | decide
      | split
  | succ k ih =>
    unfold State.dropStaged
    repeat' first
      | dsimp only
      | with_reducible exact Writes.refl _ _
      | (apply Writes.step; case k => with_reducible apply ih)
      | (apply Writes.step; case k => with_reducible apply State.unstage_writes)
      | decide
      | split

theorem State.degrade_writes  (s : State) (cause : Nat) :
    Writes [.regs, .mode, .posted, .out, .free] s (State.degrade s cause) := by
  unfold State.degrade
  repeat' first
    | dsimp only
    | with_reducible exact Writes.refl _ _
    | (apply Writes.step; case k => with_reducible apply State.showDegraded_writes)
    | (apply Writes.step; case k => with_reducible apply State.transition_writes)
    | with_reducible refine Writes.ite ?_ ?_
    | decide
    | split

/-! A register other than GLB_MODE. -/

theorem State.wr_writes_ne (s : State) (a : Nat) (v : Word) (h : a ≠ Reg.GLB_MODE) :
    Writes [.regs] s (s.wr a v) := by
  have k := State.wr_writes s a v
  refine ⟨fun p hp => ?_, k.canon, k.free, k.out⟩
  by_cases hm : p = .mode
  · subst hm; exact Table.get_set_other _ _ _ h
  · exact k.same p (by intro e; cases p <;> simp_all)

theorem State.wrN_writes_ne (s : State) (a v : Nat) (h : a ≠ Reg.GLB_MODE) : Writes [.regs] s (s.wrN a v) :=
  State.wr_writes_ne _ _ _ h

theorem State.setFld_writes_ne (s : State) (f : Field) (v : Nat) (h : f.reg ≠ Reg.GLB_MODE) :
    Writes [.regs] s (s.setFld f v) := State.wr_writes_ne _ _ _ h

theorem State.setFlag_writes_ne (s : State) (f : Field) (b : Bool) (h : f.reg ≠ Reg.GLB_MODE) :
    Writes [.regs] s (s.setFlag f b) := State.wr_writes_ne _ _ _ h

theorem State.putBit_writes_ne (s : State) (f : Field) (i : Nat) (b : Bool) (h : f.reg ≠ Reg.GLB_MODE) :
    Writes [.regs] s (s.putBit f i b) := State.wr_writes_ne _ _ _ h

theorem State.wr64_writes_ne (s : State) (lo v : Nat) (h : Reg.GLB_MODE < lo) : Writes [.regs] s (s.wr64 lo v) :=
  (State.wrN_writes_ne s lo v (Nat.ne_of_gt h)).step
    (State.wrN_writes_ne _ (lo + 4) _ (Nat.ne_of_gt (Nat.lt_of_lt_of_le h (Nat.le_add_right _ _))))
    (List.Subset.refl _)

theorem State.wrFull_writes_ne (s : State) (lo : Nat) (t : Full) (h : Reg.GLB_MODE < lo) :
    Writes [.regs] s (s.wrFull lo t) :=
  ((State.wrN_writes_ne s lo _ (Nat.ne_of_gt h)).step
    (State.wrN_writes_ne _ (lo + 4) _ (Nat.ne_of_gt (Nat.lt_of_lt_of_le h (Nat.le_add_right _ _))))
    (List.Subset.refl _)).step
    (State.wrN_writes_ne _ (lo + 8) _ (Nat.ne_of_gt (Nat.lt_of_lt_of_le h (Nat.le_add_right _ _))))
    (List.Subset.refl _)

theorem State.commitWords_writes_ne (s : State) (a n : Nat) (h : Reg.GLB_MODE < a) :
    Writes [.regs, .stage] s (s.commitWords a n) := by
  induction n generalizing s a with
  | zero => exact Writes.refl _ _
  | succ n ih =>
    unfold State.commitWords
    refine Writes.step ?_ (ih _ (a + 4) (Nat.lt_of_lt_of_le h (Nat.le_add_right _ _))) (List.Subset.refl _)
    refine Writes.step ?_ (State.unstage_writes ..) (by decide)
    exact Writes.step (Writes.refl _ _) (State.wr_writes_ne _ _ _ (Nat.ne_of_gt h)) (by decide)

end Sys2Proof.Machine
end

