-- ==== Sys2Proof/Laws/WritesBoot.lean ====
section
/-! SUPPORT. What each operation of Machine/Boot.lean writes. -/

namespace Sys2Proof.Machine

theorem State.showFuses_writes  (s : State) :
    Writes [.regs] s (State.showFuses s) := by
  unfold State.showFuses
  repeat' first
    | dsimp only
    | with_reducible exact Writes.refl _ _
    | (apply Writes.step; case k => (with_reducible apply State.setFlag_writes_ne) <;> first | decide | (dsimp only [Reg.IMP_RUN_KEY, Reg.IMP_RUN_KEY_EXCLUSIVE, Reg.IMP_RUN_KEY_OWNER_ENROLLED, Reg.GLB_MODE, Field.of]; omega) | (split <;> decide))
    | decide

theorem State.fundamental_writes (s : State) : Writes [.regs, .mode, .stage, .latch, .cnts, .posted, .lastPost, .boot, .imp, .units, .spine, .cells, .frames, .nextFrame, .dram, .poison, .queues, .host, .ports, .flows, .items, .itemSeq, .pairLink, .recCopies, .ring, .engines, .dma, .evt, .cart, .guard, .pair, .pace, .obs, .tb, .ptp] s (State.fundamental s) := by
  refine ⟨fun p hp => ?_, fun h => ?_, Nat.le_refl _, List.prefix_refl _⟩
  · cases p <;> first | exact rfl | exact absurd (by simp) hp
  · rw [State.canonical_iff] at h ⊢
    exact ⟨Table.wf_filter _ _ _ h.1, rfl, rfl, rfl, rfl, rfl, rfl, rfl, rfl, rfl, rfl, rfl, rfl⟩

theorem State.enterBoot_writes  (s : State) (cause : Nat) :
    Writes [.regs, .mode, .stage, .latch, .cnts, .posted, .lastPost, .out, .free, .boot, .imp, .units, .spine, .cells, .frames, .nextFrame, .dram, .poison, .queues, .host, .ports, .flows, .items, .itemSeq, .pairLink, .recCopies, .ring, .engines, .dma, .evt, .cart, .guard, .pair, .pace, .obs, .tb, .ptp] s (State.enterBoot s cause) := by
  unfold State.enterBoot
  repeat' first
    | dsimp only
    | ((conv => arg 3; arg 39; skip); with_reducible refine Writes.set_boot ?_ ?_ _)
    | with_reducible exact Writes.refl _ _
    | (apply Writes.step; case k => with_reducible apply State.transition_writes)
    | (apply Writes.step; case k => with_reducible apply State.showFuses_writes)
    | (apply Writes.step; case k => with_reducible apply State.fundamental_writes)
    | (apply Writes.step; case k => with_reducible apply State.setFld_writes)
    | with_reducible refine Writes.ite ?_ ?_
    | decide
    | split

theorem State.startIfPowered_writes  (s : State) :
    Writes [.regs, .mode, .stage, .latch, .cnts, .posted, .lastPost, .out, .free, .pwr, .boot, .imp, .units, .spine, .cells, .frames, .nextFrame, .dram, .poison, .queues, .host, .ports, .flows, .items, .itemSeq, .pairLink, .recCopies, .ring, .engines, .dma, .evt, .cart, .guard, .pair, .pace, .obs, .tb, .ptp] s (State.startIfPowered s) := by
  unfold State.startIfPowered
  repeat' first
    | dsimp only
    | ((conv => arg 3; arg 39; skip); with_reducible refine Writes.set_pwr ?_ ?_ _)
    | with_reducible exact Writes.refl _ _
    | (apply Writes.step; case k => with_reducible apply State.enterBoot_writes)
    | with_reducible refine Writes.ite ?_ ?_
    | decide
    | split

theorem execPerstDeassert_writes  (bootsel : BitVec 2) (s : State) {s' : State}
    (h : execPerstDeassert bootsel s = .next s') : Writes [.regs, .mode, .stage, .latch, .cnts, .posted, .lastPost, .out, .free, .pwr, .boot, .imp, .units, .spine, .cells, .frames, .nextFrame, .dram, .poison, .queues, .host, .ports, .flows, .items, .itemSeq, .pairLink, .recCopies, .ring, .engines, .dma, .evt, .cart, .guard, .pair, .pace, .obs, .tb, .ptp] s s' := by
  unfold execPerstDeassert at h
  injection h with h
  subst h
  repeat' first
    | dsimp only
    | ((conv => arg 3; arg 39; skip); with_reducible refine Writes.set_pwr ?_ ?_ _)
    | with_reducible exact Writes.refl _ _
    | (apply Writes.step; case k => with_reducible apply State.startIfPowered_writes)
    | with_reducible refine Writes.ite ?_ ?_
    | decide
    | split

theorem State.postImp_writes  (s : State) (reason : Nat) :
    Writes [.posted, .free] s (State.postImp s reason) := by
  unfold State.postImp
  repeat' first
    | dsimp only
    | with_reducible exact Writes.refl _ _
    | (apply Writes.step; case k => with_reducible apply State.postOpen_writes)
    | decide

theorem State.mbEnd_writes  (s : State) (reason : Nat) :
    Writes [.regs, .posted, .free, .boot] s (State.mbEnd s reason) := by
  unfold State.mbEnd
  repeat' first
    | dsimp only
    | ((conv => arg 3; arg 39; skip); with_reducible refine Writes.set_boot ?_ ?_ _)
    | with_reducible exact Writes.refl _ _
    | (apply Writes.step; case k => (with_reducible apply State.setFld_writes_ne) <;> first | decide | (dsimp only [Reg.IMP_MB_STATUS, Reg.IMP_MB_STATUS_LAST_CMD, Reg.IMP_MB_STATUS_REASON, Reg.IMP_MB_STATUS_STATE, Reg.GLB_MODE, Field.of]; omega) | (split <;> decide))
    | (apply Writes.step; case k => with_reducible apply State.postImp_writes)
    | with_reducible refine Writes.ite ?_ ?_
    | decide
    | (with_reducible (apply Writes.fst; case e => assumption))
    | split

theorem State.dropBinder_writes  (s : State) :
    Writes [.regs, .posted, .free, .boot] s (State.dropBinder s) := by
  unfold State.dropBinder
  repeat' first
    | dsimp only
    | ((conv => arg 3; arg 39; skip); with_reducible refine Writes.set_boot ?_ ?_ _)
    | with_reducible exact Writes.refl _ _
    | (apply Writes.step; case k => (with_reducible apply State.wr_writes_ne) <;> first | decide | (dsimp only [Reg.GLB_BINDER_VER, Reg.GLB_MODE, Field.of]; omega) | (split <;> decide))
    | (apply Writes.step; case k => with_reducible apply State.mbEnd_writes)
    | with_reducible refine Writes.ite ?_ ?_
    | decide
    | (with_reducible (apply Writes.fst; case e => assumption))
    | split

theorem State.mbRefuse_writes  (s : State) (reason : Nat) :
    Writes [.regs, .posted, .free, .boot] s (State.mbRefuse s reason) := by
  unfold State.mbRefuse
  repeat' first
    | dsimp only
    | with_reducible exact Writes.refl _ _
    | (apply Writes.step; case k => with_reducible apply State.mbEnd_writes)
    | (apply Writes.step; case k => with_reducible apply State.postImp_writes)
    | with_reducible refine Writes.ite ?_ ?_
    | decide
    | (with_reducible (apply Writes.fst; case e => assumption))
    | split

theorem State.refuseSource_writes  (s : State) (reason : Nat) (keepBinder : Bool) :
    Writes [.regs, .posted, .free, .boot] s (State.refuseSource s reason keepBinder) := by
  unfold State.refuseSource
  repeat' first
    | dsimp only
    | ((conv => arg 3; arg 39; skip); with_reducible refine Writes.set_boot ?_ ?_ _)
    | with_reducible exact Writes.refl _ _
    | (apply Writes.step; case k => with_reducible apply State.dropBinder_writes)
    | (apply Writes.step; case k => (with_reducible apply State.setFld_writes_ne) <;> first | decide | (dsimp only [Reg.IMP_BOOT_STATUS, Reg.IMP_BOOT_STATUS_REASON_A, Reg.IMP_BOOT_STATUS_REASON_B, Reg.IMP_BOOT_STATUS_REASON_HF, Reg.IMP_BOOT_STATUS_STAGE, Reg.GLB_MODE, Field.of]; omega) | (split <;> decide))
    | (apply Writes.step; case k => with_reducible apply State.postImp_writes)
    | (apply Writes.step; case k => with_reducible apply State.mbRefuse_writes)
    | with_reducible refine Writes.ite ?_ ?_
    | decide
    | split

theorem execImageLoaded_writes  (img : Option Image) (s : State) {s' : State}
    (h : execImageLoaded img s = .next s') : Writes [.regs, .mode, .posted, .out, .free, .boot, .imp] s s' := by
  unfold execImageLoaded at h
  injection h with h
  subst h
  repeat' first
    | dsimp only
    | ((conv => arg 3; arg 39; skip); with_reducible refine Writes.set_imp ?_ ?_ _)
    | with_reducible exact Writes.refl _ _
    | (apply Writes.step; case k => with_reducible apply State.refuseSource_writes)
    | (apply Writes.step; case k => with_reducible apply State.transition_writes)
    | (apply Writes.step; case k => with_reducible apply State.setFld_writes)
    | (apply Writes.step; case k => with_reducible apply State.mbEnd_writes)
    | with_reducible refine Writes.ite ?_ ?_
    | decide
    | (with_reducible (apply Writes.fst; case e => assumption))
    | split

theorem execBootSlotRead_writes  (slot : Fin 2) (density : Option Nat) (hdr : Option SlotHeader) (s : State) {s' : State}
    (h : execBootSlotRead slot density hdr s = .next s') : Writes [.regs, .posted, .free, .boot] s s' := by
  unfold execBootSlotRead at h
  injection h with h
  subst h
  repeat' first
    | dsimp only
    | ((conv => arg 3; arg 39; skip); with_reducible refine Writes.set_boot ?_ ?_ _)
    | with_reducible exact Writes.refl _ _
    | (apply Writes.step; case k => with_reducible apply State.refuseSource_writes)
    | (apply Writes.step; case k => (with_reducible apply State.setFld_writes_ne) <;> first | decide | (dsimp only [Reg.IMP_BOOT_STATUS, Reg.IMP_BOOT_STATUS_STAGE, Reg.IMP_BOOT_STRAPS, Reg.IMP_BOOT_STRAPS_FLASH_LOG2, Reg.GLB_MODE, Field.of]; omega) | (split <;> decide))
    | with_reducible refine Writes.ite ?_ ?_
    | decide
    | (with_reducible (apply Writes.fst; case e => assumption))
    | split

theorem State.enrolEnd_writes  (s : State) (r : EnrolRecord) (vppMv : Nat) :
    Writes [.regs, .posted, .free, .fuses, .boot] s (State.enrolEnd s r vppMv) := by
  unfold State.enrolEnd
  repeat' first
    | dsimp only
    | ((conv => arg 3; arg 39; skip); with_reducible refine Writes.set_fuses ?_ ?_ _)
    | with_reducible exact Writes.refl _ _
    | (apply Writes.step; case k => with_reducible apply State.mbEnd_writes)
    | (apply Writes.step; case k => with_reducible apply State.showFuses_writes)
    | (apply Writes.step; case k => with_reducible apply State.draw_writes)
    | with_reducible refine Writes.ite ?_ ?_
    | decide
    | split

theorem execMbTransferDone_writes  (ok : Bool) (s : State) {s' : State}
    (h : execMbTransferDone ok s = .next s') : Writes [.regs, .posted, .out, .free, .fuses, .boot] s s' := by
  unfold execMbTransferDone at h
  injection h with h
  subst h
  repeat' first
    | dsimp only
    | ((conv => arg 3; arg 39; skip); with_reducible refine Writes.set_boot ?_ ?_ _)
    | with_reducible exact Writes.refl _ _
    | (apply Writes.step; case k => (with_reducible apply State.setFld_writes_ne) <;> first | decide | (dsimp only [Reg.IMP_BOOT_STATUS, Reg.IMP_BOOT_STATUS_REASON_HF, Reg.IMP_BOOT_STATUS_STAGE, Reg.GLB_MODE, Field.of]; omega) | (split <;> decide))
    | (apply Writes.step; case k => with_reducible apply State.mbEnd_writes)
    | (apply Writes.step; case k => with_reducible apply State.enrolEnd_writes)
    | (apply Writes.step; case k => with_reducible apply State.emit_writes)
    | (apply Writes.step; case k => with_reducible apply State.draw_writes)
    | with_reducible refine Writes.ite ?_ ?_
    | decide
    | (with_reducible (apply Writes.fst; case e => assumption))
    | split

theorem execL2Entry_writes (s : State) {s' : State} (h : execL2Entry s = .next s') :
    Writes [.regs, .mode, .stage, .latch, .cnts, .posted, .lastPost, .out, .free, .pwr, .boot, .imp, .units, .spine, .cells, .frames, .nextFrame, .dram, .poison, .queues, .host, .ports, .flows, .items, .itemSeq, .pairLink, .recCopies, .ring, .engines, .dma, .evt, .cart, .guard, .pair, .pace, .obs, .tb, .ptp] s s' := by
  unfold execL2Entry at h
  injection h with h
  subst h
  dsimp only
  refine Writes.ite ?_ (Writes.refl _ _)
  have k := State.transition_writes s 6 0x0D
  refine ⟨fun p hp => ?_, fun h => ?_, k.free, k.out⟩
  · cases p <;> first | exact rfl | exact absurd (by simp) hp
  · have c := k.canon h
    rw [State.canonical_iff] at c ⊢
    exact ⟨Table.wf_filter _ _ _ c.1, rfl, rfl, rfl, rfl, rfl, rfl, rfl, rfl, rfl, rfl, rfl, rfl⟩

theorem execMainPgRise_writes  (s : State) {s' : State}
    (h : execMainPgRise s = .next s') : Writes [.regs, .mode, .stage, .latch, .cnts, .posted, .lastPost, .out, .free, .pwr, .boot, .imp, .units, .spine, .cells, .frames, .nextFrame, .dram, .poison, .queues, .host, .ports, .flows, .items, .itemSeq, .pairLink, .recCopies, .ring, .engines, .dma, .evt, .cart, .guard, .pair, .pace, .obs, .tb, .ptp] s s' := by
  unfold execMainPgRise at h
  injection h with h
  subst h
  repeat' first
    | dsimp only
    | ((conv => arg 3; arg 39; skip); with_reducible refine Writes.set_pwr ?_ ?_ _)
    | with_reducible exact Writes.refl _ _
    | (apply Writes.step; case k => with_reducible apply State.setFlag_writes)
    | (apply Writes.step; case k => with_reducible apply State.startIfPowered_writes)
    | with_reducible refine Writes.ite ?_ ?_
    | decide
    | split

theorem execBinderLoaded_writes  (fw : Option BinderFw) (s : State) {s' : State}
    (h : execBinderLoaded fw s = .next s') : Writes [.regs, .posted, .free, .boot] s s' := by
  unfold execBinderLoaded at h
  injection h with h
  subst h
  repeat' first
    | dsimp only
    | ((conv => arg 3; arg 39; skip); with_reducible refine Writes.set_boot ?_ ?_ _)
    | with_reducible exact Writes.refl _ _
    | (apply Writes.step; case k => with_reducible apply State.refuseSource_writes)
    | (apply Writes.step; case k => (with_reducible apply State.setFld_writes_ne) <;> first | decide | (dsimp only [Reg.GLB_BINDER_VER, Reg.IMP_BOOT_STATUS, Reg.IMP_BOOT_STATUS_STAGE, Reg.GLB_MODE, Field.of]; omega) | (split <;> decide))
    | (apply Writes.step; case k => (with_reducible apply State.wrN_writes_ne) <;> first | decide | (dsimp only [Reg.GLB_BINDER_VER, Reg.IMP_BOOT_STATUS, Reg.IMP_BOOT_STATUS_STAGE, Reg.GLB_MODE, Field.of]; omega) | (split <;> decide))
    | (apply Writes.step; case k => with_reducible apply State.mbEnd_writes)
    | with_reducible refine Writes.ite ?_ ?_
    | decide
    | (with_reducible (apply Writes.fst; case e => assumption))
    | split

theorem State.mbStart_writes  (s : State) (cmd : Nat) (allowed : Bool) (lengthOk : Bool) (op : MbOp) :
    Writes [.regs, .posted, .free, .boot] s (State.mbStart s cmd allowed lengthOk op) := by
  unfold State.mbStart
  repeat' first
    | dsimp only
    | ((conv => arg 3; arg 39; skip); with_reducible refine Writes.set_boot ?_ ?_ _)
    | with_reducible exact Writes.refl _ _
    | (apply Writes.step; case k => with_reducible apply State.postImp_writes)
    | (apply Writes.step; case k => with_reducible apply State.mbEnd_writes)
    | (apply Writes.step; case k => (with_reducible apply State.setFld_writes_ne) <;> first | decide | (dsimp only [Reg.IMP_MB_STATUS, Reg.IMP_MB_STATUS_LAST_CMD, Reg.IMP_MB_STATUS_REASON, Reg.IMP_MB_STATUS_STATE, Reg.GLB_MODE, Field.of]; omega) | (split <;> decide))
    | with_reducible refine Writes.ite ?_ ?_
    | decide
    | split

theorem execLoadImage_writes  (s : State) {s' : State}
    (h : execLoadImage s = .next s') : Writes [.regs, .posted, .free, .boot] s s' := by
  unfold execLoadImage at h
  injection h with h
  subst h
  repeat' first
    | dsimp only
    | with_reducible exact Writes.refl _ _
    | (apply Writes.step; case k => with_reducible apply State.mbStart_writes)
    | decide

theorem execAuxPgRise_writes  (s : State) {s' : State}
    (h : execAuxPgRise s = .next s') : Writes [.regs, .mode, .stage, .latch, .cnts, .posted, .lastPost, .out, .free, .pwr, .boot, .imp, .units, .spine, .cells, .frames, .nextFrame, .dram, .poison, .queues, .host, .ports, .flows, .items, .itemSeq, .pairLink, .recCopies, .ring, .engines, .dma, .evt, .cart, .guard, .pair, .pace, .obs, .tb, .ptp] s s' := by
  unfold execAuxPgRise at h
  injection h with h
  subst h
  repeat' first
    | dsimp only
    | ((conv => arg 3; arg 39; skip); with_reducible refine Writes.set_pwr ?_ ?_ _)
    | with_reducible exact Writes.refl _ _
    | (apply Writes.step; case k => with_reducible apply State.wr_writes)
    | (apply Writes.step; case k => with_reducible apply State.startIfPowered_writes)
    | with_reducible refine Writes.ite ?_ ?_
    | decide
    | split

theorem execLoadBinder_writes  (s : State) {s' : State}
    (h : execLoadBinder s = .next s') : Writes [.regs, .posted, .free, .boot] s s' := by
  unfold execLoadBinder at h
  injection h with h
  subst h
  repeat' first
    | dsimp only
    | with_reducible exact Writes.refl _ _
    | (apply Writes.step; case k => with_reducible apply State.mbStart_writes)
    | decide

theorem execMainPgFall_writes  (s : State) {s' : State}
    (h : execMainPgFall s = .next s') : Writes [.regs, .mode, .stage, .latch, .cnts, .posted, .lastPost, .pwr, .boot, .imp, .units, .spine, .cells, .frames, .nextFrame, .dram, .poison, .queues, .host, .ports, .flows, .items, .itemSeq, .pairLink, .recCopies, .ring, .engines, .dma, .evt, .cart, .guard, .pair, .pace, .obs, .tb, .ptp] s s' := by
  unfold execMainPgFall at h
  injection h with h
  subst h
  repeat' first
    | dsimp only
    | ((conv => arg 3; arg 39; skip); with_reducible refine Writes.set_pwr ?_ ?_ _)
    | with_reducible exact Writes.refl _ _
    | (apply Writes.step; case k => with_reducible apply State.fundamental_writes)
    | with_reducible refine Writes.ite ?_ ?_
    | decide
    | split

theorem execPerstAssert_writes  (s : State) {s' : State}
    (h : execPerstAssert s = .next s') : Writes [.regs, .mode, .stage, .latch, .cnts, .posted, .lastPost, .out, .free, .pwr, .boot, .imp, .units, .spine, .cells, .frames, .nextFrame, .dram, .poison, .queues, .host, .ports, .flows, .items, .itemSeq, .pairLink, .recCopies, .ring, .engines, .dma, .evt, .cart, .guard, .pair, .pace, .obs, .tb, .ptp] s s' := by
  unfold execPerstAssert at h
  injection h with h
  subst h
  repeat' first
    | dsimp only
    | ((conv => arg 3; arg 39; skip); with_reducible refine Writes.set_pwr ?_ ?_ _)
    | with_reducible exact Writes.refl _ _
    | (apply Writes.step; case k => with_reducible apply State.transition_writes)
    | (apply Writes.step; case k => with_reducible apply State.showFuses_writes)
    | (apply Writes.step; case k => with_reducible apply State.fundamental_writes)
    | with_reducible refine Writes.ite ?_ ?_
    | decide
    | split

theorem execDramTrainingDone_writes  (bytes : Option Nat) (s : State) {s' : State}
    (h : execDramTrainingDone bytes s = .next s') : Writes [.regs, .posted, .free, .boot] s s' := by
  unfold execDramTrainingDone at h
  injection h with h
  subst h
  repeat' first
    | dsimp only
    | ((conv => arg 3; arg 39; skip); with_reducible refine Writes.set_boot ?_ ?_ _)
    | with_reducible exact Writes.refl _ _
    | (apply Writes.step; case k => with_reducible apply State.refuseSource_writes)
    | (apply Writes.step; case k => (with_reducible apply State.setFld_writes_ne) <;> first | decide | (dsimp only [Reg.IMP_BOOT_STATUS, Reg.IMP_BOOT_STATUS_STAGE, Reg.GLB_MODE, Field.of]; omega) | (split <;> decide))
    | with_reducible refine Writes.ite ?_ ?_
    | decide
    | (with_reducible (apply Writes.fst; case e => assumption))
    | split

theorem execAttest_writes  (nonce : BitVec 256) (s : State) {s' : State}
    (h : execAttest nonce s = .next s') : Writes [.regs, .posted, .free, .boot] s s' := by
  unfold execAttest at h
  injection h with h
  subst h
  repeat' first
    | dsimp only
    | with_reducible exact Writes.refl _ _
    | (apply Writes.step; case k => with_reducible apply State.mbStart_writes)
    | decide

theorem execAuxPgFall_writes (s : State) {s' : State} (h : execAuxPgFall s = .next s') :
    Writes [.regs, .mode, .stage, .latch, .cnts, .posted, .lastPost, .pwr, .boot, .imp, .units, .spine, .cells, .frames, .nextFrame, .dram, .poison, .queues, .host, .ports, .flows, .items, .itemSeq, .pairLink, .recCopies, .ring, .engines, .dma, .evt, .cart, .guard, .pair, .pace, .obs, .tb, .ptp] s s' := by
  unfold execAuxPgFall at h
  injection h with h
  subst h
  refine ⟨fun p hp => ?_, fun _ => rfl, Nat.le_refl _, List.prefix_refl _⟩
  cases p <;> first | exact rfl | exact absurd (by simp) hp

theorem execEnrol_writes  (record : EnrolRecord) (vppMv : Nat) (s : State) {s' : State}
    (h : execEnrol record vppMv s = .next s') : Writes [.regs, .posted, .free, .boot] s s' := by
  unfold execEnrol at h
  injection h with h
  subst h
  repeat' first
    | dsimp only
    | with_reducible exact Writes.refl _ _
    | (apply Writes.step; case k => with_reducible apply State.mbStart_writes)
    | decide

theorem State.mbReset_writes  (s : State) :
    Writes [.regs, .boot] s (State.mbReset s) := by
  unfold State.mbReset
  repeat' first
    | dsimp only
    | ((conv => arg 3; arg 39; skip); with_reducible refine Writes.set_boot ?_ ?_ _)
    | with_reducible exact Writes.refl _ _
    | (apply Writes.step; case k => (with_reducible apply State.setFld_writes_ne) <;> first | decide | (dsimp only [Reg.IMP_BOOT_STATUS, Reg.IMP_BOOT_STATUS_STAGE, Reg.IMP_MB_STATUS, Reg.IMP_MB_STATUS_STATE, Reg.GLB_MODE, Field.of]; omega) | (split <;> decide))
    | with_reducible refine Writes.ite ?_ ?_
    | decide
    | (with_reducible (apply Writes.fst; case e => assumption))
    | split

end Sys2Proof.Machine
end

