-- ==== Sys2Proof/Laws/WritesTime.lean ====
section
/-! SUPPORT. What each operation of Machine/Time.lean writes. -/

namespace Sys2Proof.Machine

theorem State.setDom_writes  (s : State) (i : Nat) (d : PtpDomain) :
    Writes [.ptp] s (State.setDom s i d) := by
  unfold State.setDom
  repeat' first
    | dsimp only
    | ((conv => arg 3; arg 39; skip); with_reducible refine Writes.set_ptp ?_ ?_ _)
    | with_reducible exact Writes.refl _ _
    | decide

theorem State.showUtc_writes  (s : State) :
    Writes [.regs] s (State.showUtc s) := by
  unfold State.showUtc
  repeat' first
    | dsimp only
    | with_reducible exact Writes.refl _ _
    | (apply Writes.step; case k => (with_reducible apply State.setFlag_writes_ne) <;> first | decide | (dsimp only [Reg.TB_UTC_OFFSET, Reg.TB_UTC_OFFSET_UTC_OFFSET, Reg.TB_UTC_OFFSET_VALID, Reg.GLB_MODE, Field.of]; omega) | (split <;> decide))
    | (apply Writes.step; case k => (with_reducible apply State.setFld_writes_ne) <;> first | decide | (dsimp only [Reg.TB_UTC_OFFSET, Reg.TB_UTC_OFFSET_UTC_OFFSET, Reg.TB_UTC_OFFSET_VALID, Reg.GLB_MODE, Field.of]; omega) | (split <;> decide))
    | decide

theorem State.setPortState_writes  (s : State) (p : Nat) (v : Nat) :
    Writes [.regs, .posted, .free] s (State.setPortState s p v) := by
  unfold State.setPortState
  repeat' first
    | dsimp only
    | with_reducible exact Writes.refl _ _
    | (apply Writes.step; case k => with_reducible apply State.postOpen_writes)
    | (apply Writes.step; case k => (with_reducible apply State.setFld_writes_ne) <;> first | decide | (dsimp only [Reg.PTP_PORT_CFG, Reg.PTP_PORT_CFG_STATE, Reg.GLB_MODE, Field.of]; omega) | (split <;> decide))
    | with_reducible refine Writes.ite ?_ ?_
    | decide
    | split

theorem State.showPorts_writes  (s : State) :
    Writes [.regs, .posted, .free] s (State.showPorts s) := by
  unfold State.showPorts
  repeat' first
    | dsimp only
    | with_reducible exact Writes.refl _ _
    | (apply Writes.step; case k => with_reducible apply State.setPortState_writes)
    | with_reducible refine Writes.ite ?_ ?_
    | with_reducible refine Writes.foldl ?_ ?_
    | with_reducible refine Writes.foldlFst ?_ ?_
    | decide
    | intro _
    | split

theorem State.slewTo_writes  (s : State) (residual : Int) (authorised : Bool) :
    Writes [.regs, .tb] s (State.slewTo s residual authorised) := by
  unfold State.slewTo
  repeat' first
    | dsimp only
    | ((conv => arg 3; arg 39; skip); with_reducible refine Writes.set_tb ?_ ?_ _)
    | with_reducible exact Writes.refl _ _
    | (apply Writes.step; case k => (with_reducible apply State.setFlag_writes_ne) <;> first | decide | (dsimp only [Reg.TB_STATUS, Reg.TB_STATUS_SLEWING, Reg.GLB_MODE, Field.of]; omega) | (split <;> decide))
    | decide

theorem State.switchWorking_writes  (s : State) :
    Writes [.regs, .posted, .free, .tb, .ptp] s (State.switchWorking s) := by
  unfold State.switchWorking
  repeat' first
    | dsimp only
    | ((conv => arg 3; arg 39; skip); with_reducible refine Writes.set_tb ?_ ?_ _)
    | with_reducible exact Writes.refl _ _
    | (apply Writes.step; case k => (with_reducible apply State.setFld_writes_ne) <;> first | decide | (dsimp only [Reg.PTP_DOM_CFG, Reg.PTP_DOM_CFG_DOMAIN, Reg.PTP_DOM_CFG_STATE, Reg.PTP_DOM_GM_HI, Reg.PTP_DOM_GM_LO, Reg.PTP_DOM_OFFSET, Reg.TB_STATUS, Reg.TB_STATUS_REF, Reg.TB_STATUS_WORKING, Reg.GLB_MODE, Field.of]; omega) | (split <;> decide))
    | (apply Writes.step; case k => (with_reducible apply State.wr_writes_ne) <;> first | decide | (dsimp only [Reg.PTP_DOM_CFG, Reg.PTP_DOM_CFG_DOMAIN, Reg.PTP_DOM_CFG_STATE, Reg.PTP_DOM_GM_HI, Reg.PTP_DOM_GM_LO, Reg.PTP_DOM_OFFSET, Reg.TB_STATUS, Reg.TB_STATUS_REF, Reg.TB_STATUS_WORKING, Reg.GLB_MODE, Field.of]; omega) | (split <;> decide))
    | (apply Writes.step; case k => with_reducible apply State.setDom_writes)
    | (apply Writes.step; case k => with_reducible apply State.postOpen_writes)
    | (apply Writes.step; case k => with_reducible apply State.showUtc_writes)
    | (apply Writes.step; case k => with_reducible apply State.showPorts_writes)
    | (apply Writes.step; case k => with_reducible apply State.slewTo_writes)
    | decide

theorem State.ppsDrive_writes  (s : State) :
    Writes [.tb] s (State.ppsDrive s) := by
  unfold State.ppsDrive
  repeat' first
    | dsimp only
    | ((conv => arg 3; arg 39; skip); with_reducible refine Writes.set_tb ?_ ?_ _)
    | with_reducible exact Writes.refl _ _
    | with_reducible refine Writes.ite ?_ ?_
    | decide
    | split

theorem State.setStatus_writes  (s : State) (v : Nat) :
    Writes [.regs, .posted, .free, .tb] s (State.setStatus s v) := by
  unfold State.setStatus
  repeat' first
    | dsimp only
    | ((conv => arg 3; arg 39; skip); with_reducible refine Writes.set_tb ?_ ?_ _)
    | with_reducible exact Writes.refl _ _
    | (apply Writes.step; case k => with_reducible apply State.postOpen_writes)
    | (apply Writes.step; case k => (with_reducible apply State.setFld_writes_ne) <;> first | decide | (dsimp only [Reg.TB_REF_STATUS, Reg.TB_REF_STATUS_REF10M_LOCKED, Reg.TB_STATUS, Reg.TB_STATUS_REF10M_USED, Reg.TB_STATUS_STATUS, Reg.GLB_MODE, Field.of]; omega) | (split <;> decide))
    | (apply Writes.step; case k => (with_reducible apply State.setFlag_writes_ne) <;> first | decide | (dsimp only [Reg.TB_REF_STATUS, Reg.TB_REF_STATUS_REF10M_LOCKED, Reg.TB_STATUS, Reg.TB_STATUS_REF10M_USED, Reg.TB_STATUS_STATUS, Reg.GLB_MODE, Field.of]; omega) | (split <;> decide))
    | (apply Writes.step; case k => with_reducible apply State.ppsDrive_writes)
    | with_reducible refine Writes.ite ?_ ?_
    | decide
    | split

theorem State.loseReference_writes  (s : State) :
    Writes [.regs, .posted, .free, .tb] s (State.loseReference s) := by
  unfold State.loseReference
  repeat' first
    | dsimp only
    | ((conv => arg 3; arg 39; skip); with_reducible refine Writes.set_tb ?_ ?_ _)
    | with_reducible exact Writes.refl _ _
    | (apply Writes.step; case k => (with_reducible apply State.setFld_writes_ne) <;> first | decide | (dsimp only [Reg.PTP_CTRL, Reg.PTP_CTRL_STACK, Reg.TB_STATUS, Reg.TB_STATUS_REF, Reg.GLB_MODE, Field.of]; omega) | (split <;> decide))
    | (apply Writes.step; case k => with_reducible apply State.setStatus_writes)
    | with_reducible refine Writes.ite ?_ ?_
    | decide
    | split

theorem State.loseDomain_writes  (s : State) (i : Nat) :
    Writes [.regs, .posted, .free, .tb, .ptp] s (State.loseDomain s i) := by
  unfold State.loseDomain
  repeat' first
    | dsimp only
    | with_reducible exact Writes.refl _ _
    | (apply Writes.step; case k => with_reducible apply State.setDom_writes)
    | (apply Writes.step; case k => with_reducible apply State.postOpen_writes)
    | (apply Writes.step; case k => (with_reducible apply State.setFld_writes_ne) <;> first | decide | (dsimp only [Reg.PTP_CTRL, Reg.PTP_CTRL_AUTO_SWITCH, Reg.PTP_DOM_CFG, Reg.PTP_DOM_CFG_STATE, Reg.TB_STATUS, Reg.TB_STATUS_REF, Reg.GLB_MODE, Field.of]; omega) | (split <;> decide))
    | (apply Writes.step; case k => with_reducible apply State.switchWorking_writes)
    | (apply Writes.step; case k => with_reducible apply State.loseReference_writes)
    | with_reducible refine Writes.ite ?_ ?_
    | decide
    | split

theorem State.judge_writes  (s : State) (offsetNs : Int) :
    Writes [.regs, .posted, .free, .tb] s (State.judge s offsetNs) := by
  unfold State.judge
  repeat' first
    | dsimp only
    | ((conv => arg 3; arg 39; skip); with_reducible refine Writes.set_tb ?_ ?_ _)
    | with_reducible exact Writes.refl _ _
    | (apply Writes.step; case k => with_reducible apply State.setStatus_writes)
    | with_reducible refine Writes.ite ?_ ?_
    | decide
    | split

theorem State.ptpSend_writes  (s : State) (p : Nat) (i : Nat) (msgType : Nat) (log : Nat) :
    Writes [.out] s (State.ptpSend s p i msgType log) := by
  unfold State.ptpSend
  repeat' first
    | dsimp only
    | with_reducible exact Writes.refl _ _
    | (apply Writes.step; case k => with_reducible apply State.emit_writes)
    | decide

theorem State.ptpPortTick_writes  (s : State) (p : Nat) :
    Writes [.out] s (State.ptpPortTick s p) := by
  unfold State.ptpPortTick
  repeat' first
    | dsimp only
    | with_reducible exact Writes.refl _ _
    | (apply Writes.step; case k => with_reducible apply State.ptpSend_writes)
    | with_reducible refine Writes.ite ?_ ?_
    | with_reducible refine Writes.foldl ?_ ?_
    | with_reducible refine Writes.foldlFst ?_ ?_
    | decide
    | intro _
    | split

theorem State.ptpTick_writes  (s : State) :
    Writes [.out] s (State.ptpTick s) := by
  unfold State.ptpTick
  repeat' first
    | dsimp only
    | with_reducible exact Writes.refl _ _
    | (apply Writes.step; case k => with_reducible apply State.ptpPortTick_writes)
    | with_reducible refine Writes.ite ?_ ?_
    | with_reducible refine Writes.foldl ?_ ?_
    | with_reducible refine Writes.foldlFst ?_ ?_
    | decide
    | intro _
    | split

theorem State.judgeDomain_writes  (s : State) (i : Nat) (offsetNs : Int) :
    Writes [.regs, .posted, .free, .ptp] s (State.judgeDomain s i offsetNs) := by
  unfold State.judgeDomain
  repeat' first
    | dsimp only
    | with_reducible exact Writes.refl _ _
    | (apply Writes.step; case k => with_reducible apply State.setDom_writes)
    | (apply Writes.step; case k => with_reducible apply State.postOpen_writes)
    | (apply Writes.step; case k => (with_reducible apply State.setFld_writes_ne) <;> first | decide | (dsimp only [Reg.PTP_DOM_CFG, Reg.PTP_DOM_CFG_STATE, Reg.TB_LOCK_BOUND, Reg.TB_LOCK_BOUND_BOUND_NS, Reg.GLB_MODE, Field.of]; omega) | (split <;> decide))
    | with_reducible refine Writes.ite ?_ ?_
    | decide
    | split

theorem State.noteRate_writes  (s : State) :
    Writes [.tb] s (State.noteRate s) := by
  unfold State.noteRate
  repeat' first
    | dsimp only
    | ((conv => arg 3; arg 39; skip); with_reducible refine Writes.set_tb ?_ ?_ _)
    | with_reducible exact Writes.refl _ _
    | decide

theorem State.acceptStep_writes  (s : State) (d : Int) :
    Writes [.tb] s (State.acceptStep s d) := by
  unfold State.acceptStep
  repeat' first
    | dsimp only
    | ((conv => arg 3; arg 39; skip); with_reducible refine Writes.set_tb ?_ ?_ _)
    | with_reducible exact Writes.refl _ _
    | decide

theorem State.servoRate_writes  (s : State) :
    Writes [.free, .tb] s (State.servoRate s) := by
  unfold State.servoRate
  repeat' first
    | dsimp only
    | ((conv => arg 3; arg 39; skip); with_reducible refine Writes.set_tb ?_ ?_ _)
    | with_reducible exact Writes.refl _ _
    | (apply Writes.step; case k => with_reducible apply State.draw_writes)
    | decide

theorem State.clearPending_writes  (s : State) :
    Writes [.regs] s (State.clearPending s) := by
  unfold State.clearPending
  repeat' first
    | dsimp only
    | with_reducible exact Writes.refl _ _
    | (apply Writes.step; case k => (with_reducible apply State.wr64_writes_ne) <;> first | decide | (dsimp only [Reg.TB_PENDING_LO, Reg.TB_STATUS, Reg.TB_STATUS_STEP_PENDING, Reg.GLB_MODE, Field.of]; omega) | (split <;> decide))
    | (apply Writes.step; case k => (with_reducible apply State.setFlag_writes_ne) <;> first | decide | (dsimp only [Reg.TB_PENDING_LO, Reg.TB_STATUS, Reg.TB_STATUS_STEP_PENDING, Reg.GLB_MODE, Field.of]; omega) | (split <;> decide))
    | decide

theorem State.refuseStep_writes  (s : State) (ns : Int) :
    Writes [.regs, .posted, .free] s (State.refuseStep s ns) := by
  unfold State.refuseStep
  repeat' first
    | dsimp only
    | with_reducible exact Writes.refl _ _
    | (apply Writes.step; case k => with_reducible apply State.postOpen_writes)
    | (apply Writes.step; case k => (with_reducible apply State.wr64_writes_ne) <;> first | decide | (dsimp only [Reg.TB_PENDING_LO, Reg.TB_STATUS, Reg.TB_STATUS_STEP_PENDING, Reg.GLB_MODE, Field.of]; omega) | (split <;> decide))
    | (apply Writes.step; case k => (with_reducible apply State.setFlag_writes_ne) <;> first | decide | (dsimp only [Reg.TB_PENDING_LO, Reg.TB_STATUS, Reg.TB_STATUS_STEP_PENDING, Reg.GLB_MODE, Field.of]; omega) | (split <;> decide))
    | decide

theorem State.steer_writes  (s : State) (offset : Int) :
    Writes [.regs, .posted, .free, .tb] s (State.steer s offset) := by
  unfold State.steer
  repeat' first
    | dsimp only
    | ((conv => arg 3; arg 39; skip); with_reducible refine Writes.set_tb ?_ ?_ _)
    | with_reducible exact Writes.refl _ _
    | (apply Writes.step; case k => with_reducible apply State.acceptStep_writes)
    | (apply Writes.step; case k => with_reducible apply State.servoRate_writes)
    | (apply Writes.step; case k => with_reducible apply State.slewTo_writes)
    | (apply Writes.step; case k => with_reducible apply State.clearPending_writes)
    | (apply Writes.step; case k => (with_reducible apply State.wr64_writes_ne) <;> first | decide | (dsimp only [Reg.TB_JUMP, Reg.TB_JUMP_JUMP_NS, Reg.TB_PENDING_LO, Reg.TB_STATUS, Reg.TB_STATUS_DUAL, Reg.TB_STATUS_STEP_PENDING, Reg.GLB_MODE, Field.of]; omega) | (split <;> decide))
    | (apply Writes.step; case k => with_reducible apply State.refuseStep_writes)
    | with_reducible refine Writes.ite ?_ ?_
    | decide
    | split

theorem State.measure_writes  (s : State) (i : Nat) (offset : Int) :
    Writes [.regs, .posted, .free, .tb, .ptp] s (State.measure s i offset) := by
  unfold State.measure
  repeat' first
    | dsimp only
    | with_reducible exact Writes.refl _ _
    | (apply Writes.step; case k => (with_reducible apply State.wrN_writes_ne) <;> first | decide | (dsimp only [Reg.PTP_DOM_OFFSET, Reg.TB_STATUS, Reg.TB_STATUS_REF, Reg.GLB_MODE, Field.of]; omega) | (split <;> decide))
    | (apply Writes.step; case k => with_reducible apply State.judgeDomain_writes)
    | (apply Writes.step; case k => with_reducible apply State.noteRate_writes)
    | (apply Writes.step; case k => with_reducible apply State.steer_writes)
    | (apply Writes.step; case k => with_reducible apply State.judge_writes)
    | (apply Writes.step; case k => (with_reducible apply State.setFld_writes_ne) <;> first | decide | (dsimp only [Reg.PTP_DOM_OFFSET, Reg.TB_STATUS, Reg.TB_STATUS_REF, Reg.GLB_MODE, Field.of]; omega) | (split <;> decide))
    | with_reducible refine Writes.ite ?_ ?_
    | decide
    | split

theorem State.usableSync_writes  (s : State) (p : Nat) (domain : Nat) (origin : Full) (correction : Int) (rx : Full) :
    Writes [.regs, .posted, .free, .tb, .ptp] s (State.usableSync s p domain origin correction rx) := by
  unfold State.usableSync
  repeat' first
    | dsimp only
    | with_reducible exact Writes.refl _ _
    | (apply Writes.step; case k => with_reducible apply State.setDom_writes)
    | (apply Writes.step; case k => with_reducible apply State.measure_writes)
    | with_reducible refine Writes.ite ?_ ?_
    | decide
    | (with_reducible (apply Writes.fst; case e => assumption))
    | split

theorem execSlewDone_writes  (s : State) {s' : State}
    (h : execSlewDone s = .next s') : Writes [.regs, .posted, .free, .tb] s s' := by
  unfold execSlewDone at h
  injection h with h
  subst h
  repeat' first
    | dsimp only
    | ((conv => arg 3; arg 39; skip); with_reducible refine Writes.set_tb ?_ ?_ _)
    | with_reducible exact Writes.refl _ _
    | (apply Writes.step; case k => with_reducible apply State.postOpen_writes)
    | (apply Writes.step; case k => (with_reducible apply State.setFlag_writes_ne) <;> first | decide | (dsimp only [Reg.TB_STATUS, Reg.TB_STATUS_SLEWING, Reg.GLB_MODE, Field.of]; omega) | (split <;> decide))
    | with_reducible refine Writes.ite ?_ ?_
    | decide
    | split

theorem State.dropMaster_writes  (s : State) (i : Nat) :
    Writes [.regs, .posted, .free, .tb, .ptp] s (State.dropMaster s i) := by
  unfold State.dropMaster
  repeat' first
    | dsimp only
    | with_reducible exact Writes.refl _ _
    | (apply Writes.step; case k => with_reducible apply State.loseDomain_writes)
    | (apply Writes.step; case k => with_reducible apply State.setDom_writes)
    | with_reducible refine Writes.ite ?_ ?_
    | decide
    | (with_reducible (apply Writes.fst; case e => assumption))
    | split

theorem State.requestStep_writes  (s : State) (d : Int) :
    Writes [.regs, .posted, .free, .tb] s (State.requestStep s d) := by
  unfold State.requestStep
  repeat' first
    | dsimp only
    | with_reducible exact Writes.refl _ _
    | (apply Writes.step; case k => with_reducible apply State.acceptStep_writes)
    | (apply Writes.step; case k => with_reducible apply State.refuseStep_writes)
    | with_reducible refine Writes.ite ?_ ?_
    | decide
    | split

theorem execTbStep_writes  (value : BitVec 64) (s : State) {s' : State}
    (h : execTbStep value s = .next s') : Writes [.regs, .posted, .free, .tb] s s' := by
  unfold execTbStep at h
  injection h with h
  subst h
  repeat' first
    | dsimp only
    | with_reducible exact Writes.refl _ _
    | (apply Writes.step; case k => with_reducible apply State.requestStep_writes)
    | (apply Writes.step; case k => (with_reducible apply State.wr64_writes_ne) <;> first | decide | (dsimp only [Reg.PTP_CTRL, Reg.PTP_CTRL_STACK, Reg.TB_STATUS, Reg.TB_STATUS_DUAL, Reg.TB_STEP_LO, Reg.GLB_MODE, Field.of]; omega) | (split <;> decide))
    | (apply Writes.step; case k => with_reducible apply State.postOpen_writes)
    | with_reducible refine Writes.ite ?_ ?_
    | decide
    | split

theorem execDomainLost_writes  (slot : Fin 4) (noMaster : Bool) (s : State) {s' : State}
    (h : execDomainLost slot noMaster s = .next s') : Writes [.regs, .posted, .free, .tb, .ptp] s s' := by
  unfold execDomainLost at h
  injection h with h
  subst h
  repeat' first
    | dsimp only
    | with_reducible exact Writes.refl _ _
    | (apply Writes.step; case k => with_reducible apply State.setDom_writes)
    | (apply Writes.step; case k => with_reducible apply State.showPorts_writes)
    | (apply Writes.step; case k => with_reducible apply State.loseDomain_writes)
    | with_reducible refine Writes.ite ?_ ?_
    | decide
    | split

theorem State.autoSwitch_writes  (s : State) :
    Writes [.regs, .posted, .free, .tb, .ptp] s (State.autoSwitch s) := by
  unfold State.autoSwitch
  repeat' first
    | dsimp only
    | with_reducible exact Writes.refl _ _
    | (apply Writes.step; case k => with_reducible apply State.switchWorking_writes)
    | with_reducible refine Writes.ite ?_ ?_
    | decide
    | split

theorem execPtpCtrlWrite_writes  (value : Word) (s : State) {s' : State}
    (h : execPtpCtrlWrite value s = .next s') : Writes [.regs, .posted, .free, .tb, .ptp] s s' := by
  unfold execPtpCtrlWrite at h
  injection h with h
  subst h
  repeat' first
    | dsimp only
    | with_reducible exact Writes.refl _ _
    | (apply Writes.step; case k => (with_reducible apply State.setFld_writes_ne) <;> first | decide | (dsimp only [Reg.PTP_CTRL, Reg.PTP_CTRL_AUTO_SWITCH, Reg.PTP_CTRL_ENABLE, Reg.PTP_CTRL_PORT_EN, Reg.PTP_CTRL_STACK, Reg.PTP_PORT_CFG, Reg.PTP_PORT_CFG_STATE, Reg.TB_STATUS, Reg.TB_STATUS_DUAL, Reg.TB_STATUS_HOST_STACK, Reg.TB_STATUS_REF, Reg.GLB_MODE, Field.of]; omega) | (split <;> decide))
    | (apply Writes.step; case k => with_reducible apply State.setPortState_writes)
    | (apply Writes.step; case k => with_reducible apply State.autoSwitch_writes)
    | (apply Writes.step; case k => with_reducible apply State.dropMaster_writes)
    | with_reducible refine Writes.ite ?_ ?_
    | with_reducible refine Writes.foldl ?_ ?_
    | with_reducible refine Writes.foldlFst ?_ ?_
    | decide
    | intro _
    | split

theorem execForeEdgeRealign_writes  (s : State) {s' : State}
    (h : execForeEdgeRealign s = .next s') : Writes [.tb] s s' := by
  unfold execForeEdgeRealign at h
  injection h with h
  subst h
  repeat' first
    | dsimp only
    | ((conv => arg 3; arg 39; skip); with_reducible refine Writes.set_tb ?_ ?_ _)
    | with_reducible exact Writes.refl _ _
    | with_reducible refine Writes.ite ?_ ?_
    | decide
    | (with_reducible (apply Writes.fst; case e => assumption))
    | split

theorem State.selectMaster_writes  (s : State) (i : Nat) (p : Nat) (gm : Nat) (dataSet : List Nat) :
    Writes [.regs, .posted, .free, .ptp] s (State.selectMaster s i p gm dataSet) := by
  unfold State.selectMaster
  repeat' first
    | dsimp only
    | with_reducible exact Writes.refl _ _
    | (apply Writes.step; case k => with_reducible apply State.setDom_writes)
    | (apply Writes.step; case k => (with_reducible apply State.wr64_writes_ne) <;> first | decide | (dsimp only [Reg.PTP_DOM_CFG, Reg.PTP_DOM_CFG_STATE, Reg.PTP_DOM_GM_LO, Reg.PTP_PORT_CFG, Reg.PTP_PORT_CFG_STATE, Reg.GLB_MODE, Field.of]; omega) | (split <;> decide))
    | (apply Writes.step; case k => with_reducible apply State.postOpen_writes)
    | (apply Writes.step; case k => (with_reducible apply State.setFld_writes_ne) <;> first | decide | (dsimp only [Reg.PTP_DOM_CFG, Reg.PTP_DOM_CFG_STATE, Reg.PTP_DOM_GM_LO, Reg.PTP_PORT_CFG, Reg.PTP_PORT_CFG_STATE, Reg.GLB_MODE, Field.of]; omega) | (split <;> decide))
    | (apply Writes.step; case k => with_reducible apply State.showPorts_writes)
    | with_reducible refine Writes.ite ?_ ?_
    | decide
    | split

theorem execApply_writes  (s : State) {s' : State}
    (h : execApply s = .next s') : Writes [.regs, .tb] s s' := by
  unfold execApply at h
  injection h with h
  subst h
  repeat' first
    | dsimp only
    | with_reducible exact Writes.refl _ _
    | (apply Writes.step; case k => with_reducible apply State.clearPending_writes)
    | (apply Writes.step; case k => with_reducible apply State.acceptStep_writes)
    | with_reducible refine Writes.ite ?_ ?_
    | decide
    | split

theorem State.advance_writes  (s : State) :
    Writes [.tb] s (State.advance s) := by
  unfold State.advance
  repeat' first
    | dsimp only
    | ((conv => arg 3; arg 39; skip); with_reducible refine Writes.set_tb ?_ ?_ _)
    | with_reducible exact Writes.refl _ _
    | with_reducible refine Writes.ite ?_ ?_
    | decide
    | split

theorem execReject_writes  (s : State) {s' : State}
    (h : execReject s = .next s') : Writes [.regs, .tb] s s' := by
  unfold execReject at h
  injection h with h
  subst h
  repeat' first
    | dsimp only
    | ((conv => arg 3; arg 39; skip); with_reducible refine Writes.set_tb ?_ ?_ _)
    | with_reducible exact Writes.refl _ _
    | (apply Writes.step; case k => with_reducible apply State.clearPending_writes)
    | with_reducible refine Writes.ite ?_ ?_
    | decide
    | split

theorem execDelayResp_writes  (port : Fin 12) (domain : Nat) (t3 : Full) (t4 : Full) (s : State) {s' : State}
    (h : execDelayResp port domain t3 t4 s = .next s') : Writes [.regs] s s' := by
  unfold execDelayResp at h
  injection h with h
  subst h
  repeat' first
    | dsimp only
    | with_reducible exact Writes.refl _ _
    | (apply Writes.step; case k => (with_reducible apply State.wrN_writes_ne) <;> first | decide | (dsimp only [Reg.PTP_CTRL, Reg.PTP_CTRL_PEER_DELAY, Reg.PTP_PORT_MLD, Reg.GLB_MODE, Field.of]; omega) | (split <;> decide))
    | with_reducible refine Writes.ite ?_ ?_
    | decide
    | (with_reducible (apply Writes.fst; case e => assumption))
    | split

theorem execPtpSwitchGo_writes  (s : State) {s' : State}
    (h : execPtpSwitchGo s = .next s') : Writes [.regs, .posted, .free, .tb, .ptp] s s' := by
  unfold execPtpSwitchGo at h
  injection h with h
  subst h
  repeat' first
    | dsimp only
    | with_reducible exact Writes.refl _ _
    | (apply Writes.step; case k => with_reducible apply State.switchWorking_writes)
    | (apply Writes.step; case k => with_reducible apply State.postOpen_writes)
    | with_reducible refine Writes.ite ?_ ?_
    | decide
    | split

theorem execPdelayResp_writes  (port : Fin 12) (t1 : Full) (t2 : Full) (t3 : Full) (t4 : Full) (s : State) {s' : State}
    (h : execPdelayResp port t1 t2 t3 t4 s = .next s') : Writes [.regs] s s' := by
  unfold execPdelayResp at h
  injection h with h
  subst h
  repeat' first
    | dsimp only
    | with_reducible exact Writes.refl _ _
    | (apply Writes.step; case k => (with_reducible apply State.wrN_writes_ne) <;> first | decide | (dsimp only [Reg.PTP_CTRL, Reg.PTP_CTRL_PEER_DELAY, Reg.PTP_PORT_MLD, Reg.GLB_MODE, Field.of]; omega) | (split <;> decide))
    | with_reducible refine Writes.ite ?_ ?_
    | decide
    | split

theorem State.ptpDiscard_writes  (s : State) :
    Writes [.ptp] s (State.ptpDiscard s) := by
  unfold State.ptpDiscard
  repeat' first
    | dsimp only
    | ((conv => arg 3; arg 39; skip); with_reducible refine Writes.set_ptp ?_ ?_ _)
    | with_reducible exact Writes.refl _ _
    | decide

theorem execRef10mLocked_writes  (rate : Option Int) (s : State) {s' : State}
    (h : execRef10mLocked rate s = .next s') : Writes [.regs, .tb] s s' := by
  unfold execRef10mLocked at h
  injection h with h
  subst h
  repeat' first
    | dsimp only
    | ((conv => arg 3; arg 39; skip); with_reducible refine Writes.set_tb ?_ ?_ _)
    | with_reducible exact Writes.refl _ _
    | (apply Writes.step; case k => (with_reducible apply State.setFlag_writes_ne) <;> first | decide | (dsimp only [Reg.TB_REF_STATUS, Reg.TB_REF_STATUS_REF10M_LOCKED, Reg.TB_REF_STATUS_REF10M_PRESENT, Reg.TB_STATUS, Reg.TB_STATUS_REF10M_USED, Reg.GLB_MODE, Field.of]; omega) | (split <;> decide))
    | with_reducible refine Writes.ite ?_ ?_
    | decide
    | (with_reducible (apply Writes.fst; case e => assumption))
    | split

theorem State.ptpForward_writes  (s : State) (p : Nat) (msgType : Nat) (domain : Nat) (seq : Nat) (correction : Int) (event : Bool) :
    Writes [.out, .free] s (State.ptpForward s p msgType domain seq correction event) := by
  unfold State.ptpForward
  repeat' first
    | dsimp only
    | with_reducible exact Writes.refl _ _
    | (apply Writes.step; case k => with_reducible apply State.emit_writes)
    | (apply Writes.step; case k => with_reducible apply State.draw_writes)
    | with_reducible refine Writes.ite ?_ ?_
    | decide
    | split

theorem execFollowUp_writes  (port : Fin 12) (domain : Nat) (seq : Nat) (origin : Full) (correction : Int) (s : State) {s' : State}
    (h : execFollowUp port domain seq origin correction s = .next s') : Writes [.regs, .posted, .out, .free, .tb, .ptp] s s' := by
  unfold execFollowUp at h
  injection h with h
  subst h
  repeat' first
    | dsimp only
    | ((conv => arg 3; arg 39; skip); with_reducible refine Writes.set_ptp ?_ ?_ _)
    | with_reducible exact Writes.refl _ _
    | (apply Writes.step; case k => with_reducible apply State.ptpDiscard_writes)
    | (apply Writes.step; case k => with_reducible apply State.ptpForward_writes)
    | (apply Writes.step; case k => with_reducible apply State.autoSwitch_writes)
    | (apply Writes.step; case k => with_reducible apply State.usableSync_writes)
    | with_reducible refine Writes.ite ?_ ?_
    | decide
    | (with_reducible (apply Writes.fst; case e => assumption))
    | split

theorem execTbRate_writes  (value : BitVec 32) (s : State) {s' : State}
    (h : execTbRate value s = .next s') : Writes [.regs, .tb] s s' := by
  unfold execTbRate at h
  injection h with h
  subst h
  repeat' first
    | dsimp only
    | ((conv => arg 3; arg 39; skip); with_reducible refine Writes.set_tb ?_ ?_ _)
    | with_reducible exact Writes.refl _ _
    | (apply Writes.step; case k => (with_reducible apply State.wrN_writes_ne) <;> first | decide | (dsimp only [Reg.PTP_CTRL, Reg.PTP_CTRL_STACK, Reg.TB_RATE, Reg.TB_STATUS, Reg.TB_STATUS_DUAL, Reg.GLB_MODE, Field.of]; omega) | (split <;> decide))
    | with_reducible refine Writes.ite ?_ ?_
    | decide
    | split

theorem execRef10mLost_writes  (s : State) {s' : State}
    (h : execRef10mLost s = .next s') : Writes [.regs, .posted, .free] s s' := by
  unfold execRef10mLost at h
  injection h with h
  subst h
  repeat' first
    | dsimp only
    | with_reducible exact Writes.refl _ _
    | (apply Writes.step; case k => (with_reducible apply State.setFlag_writes_ne) <;> first | decide | (dsimp only [Reg.TB_REF_STATUS, Reg.TB_REF_STATUS_REF10M_LOCKED, Reg.TB_REF_STATUS_REF10M_PRESENT, Reg.TB_STATUS, Reg.TB_STATUS_REF10M_USED, Reg.GLB_MODE, Field.of]; omega) | (split <;> decide))
    | (apply Writes.step; case k => with_reducible apply State.postOpen_writes)
    | with_reducible refine Writes.ite ?_ ?_
    | decide
    | split

theorem execDelayReq_writes  (port : Fin 12) (domain : Nat) (seq : Nat) (rx : Full) (s : State) {s' : State}
    (h : execDelayReq port domain seq rx s = .next s') : Writes [.out, .free, .ptp] s s' := by
  unfold execDelayReq at h
  injection h with h
  subst h
  repeat' first
    | dsimp only
    | with_reducible exact Writes.refl _ _
    | (apply Writes.step; case k => with_reducible apply State.ptpDiscard_writes)
    | (apply Writes.step; case k => with_reducible apply State.ptpForward_writes)
    | (apply Writes.step; case k => with_reducible apply State.emit_writes)
    | with_reducible refine Writes.ite ?_ ?_
    | decide
    | (with_reducible (apply Writes.fst; case e => assumption))
    | split

theorem execSlew_writes  (s : State) {s' : State}
    (h : execSlew s = .next s') : Writes [.regs, .tb] s s' := by
  unfold execSlew at h
  injection h with h
  subst h
  repeat' first
    | dsimp only
    | with_reducible exact Writes.refl _ _
    | (apply Writes.step; case k => with_reducible apply State.clearPending_writes)
    | (apply Writes.step; case k => with_reducible apply State.slewTo_writes)
    | with_reducible refine Writes.ite ?_ ?_
    | decide
    | split

theorem execPpsInLost_writes  (s : State) {s' : State}
    (h : execPpsInLost s = .next s') : Writes [.regs, .posted, .free, .tb, .ptp] s s' := by
  unfold execPpsInLost at h
  injection h with h
  subst h
  repeat' first
    | dsimp only
    | ((conv => arg 3; arg 39; skip); with_reducible refine Writes.set_tb ?_ ?_ _)
    | with_reducible exact Writes.refl _ _
    | (apply Writes.step; case k => with_reducible apply State.postOpen_writes)
    | (apply Writes.step; case k => with_reducible apply State.autoSwitch_writes)
    | (apply Writes.step; case k => with_reducible apply State.loseReference_writes)
    | with_reducible refine Writes.ite ?_ ?_
    | decide
    | (with_reducible (apply Writes.fst; case e => assumption))
    | split

theorem execTbHostStatusWrite_writes  (value : BitVec 2) (s : State) {s' : State}
    (h : execTbHostStatusWrite value s = .next s') : Writes [.regs, .posted, .free, .tb] s s' := by
  unfold execTbHostStatusWrite at h
  injection h with h
  subst h
  repeat' first
    | dsimp only
    | with_reducible exact Writes.refl _ _
    | (apply Writes.step; case k => with_reducible apply State.setStatus_writes)
    | (apply Writes.step; case k => (with_reducible apply State.setFld_writes_ne) <;> first | decide | (dsimp only [Reg.PTP_CTRL, Reg.PTP_CTRL_STACK, Reg.TB_HOST_STATUS, Reg.TB_HOST_STATUS_STATUS, Reg.GLB_MODE, Field.of]; omega) | (split <;> decide))
    | with_reducible refine Writes.ite ?_ ?_
    | decide
    | split

theorem State.heardMaster_writes  (s : State) (i : Nat) (utc : Nat) (valid : Bool) :
    Writes [.regs, .ptp] s (State.heardMaster s i utc valid) := by
  unfold State.heardMaster
  repeat' first
    | dsimp only
    | with_reducible exact Writes.refl _ _
    | (apply Writes.step; case k => with_reducible apply State.setDom_writes)
    | (apply Writes.step; case k => with_reducible apply State.showUtc_writes)
    | with_reducible refine Writes.ite ?_ ?_
    | decide
    | split

theorem execAnnounce_writes  (port : Fin 12) (domain : Nat) (gm : BitVec 64) (dataSet : List Nat) (utc : BitVec 16) (utcValid : Bool) (s : State) {s' : State}
    (h : execAnnounce port domain gm dataSet utc utcValid s = .next s') : Writes [.regs, .posted, .out, .free, .ptp] s s' := by
  unfold execAnnounce at h
  injection h with h
  subst h
  repeat' first
    | dsimp only
    | with_reducible exact Writes.refl _ _
    | (apply Writes.step; case k => with_reducible apply State.ptpDiscard_writes)
    | (apply Writes.step; case k => with_reducible apply State.ptpForward_writes)
    | (apply Writes.step; case k => with_reducible apply State.setPortState_writes)
    | (apply Writes.step; case k => with_reducible apply State.heardMaster_writes)
    | (apply Writes.step; case k => with_reducible apply State.selectMaster_writes)
    | with_reducible refine Writes.ite ?_ ?_
    | decide
    | (with_reducible (apply Writes.fst; case e => assumption))
    | split

theorem execPdelayReq_writes  (port : Fin 12) (seq : Nat) (rx : Full) (s : State) {s' : State}
    (h : execPdelayReq port seq rx s = .next s') : Writes [.out] s s' := by
  unfold execPdelayReq at h
  injection h with h
  subst h
  repeat' first
    | dsimp only
    | with_reducible exact Writes.refl _ _
    | (apply Writes.step; case k => with_reducible apply State.emit_writes)
    | with_reducible refine Writes.ite ?_ ?_
    | decide
    | split

theorem execPpsOutRise_writes  (s : State) {s' : State}
    (h : execPpsOutRise s = .next s') : Writes [.tb] s s' := by
  unfold execPpsOutRise at h
  injection h with h
  subst h
  repeat' first
    | dsimp only
    | ((conv => arg 3; arg 39; skip); with_reducible refine Writes.set_tb ?_ ?_ _)
    | with_reducible exact Writes.refl _ _
    | with_reducible refine Writes.ite ?_ ?_
    | decide
    | split

theorem execPtpUnsupportedMessage_writes  (x0 : Fin 12) (s : State) {s' : State}
    (h : execPtpUnsupportedMessage x0 s = .next s') : Writes [.ptp] s s' := by
  unfold execPtpUnsupportedMessage at h
  injection h with h
  subst h
  repeat' first
    | dsimp only
    | with_reducible exact Writes.refl _ _
    | (apply Writes.step; case k => with_reducible apply State.ptpDiscard_writes)
    | decide

theorem execSync_writes  (port : Fin 12) (domain : Nat) (seq : Nat) (twoStep : Bool) (origin : Full) (correction : Int) (rx : Full) (s : State) {s' : State}
    (h : execSync port domain seq twoStep origin correction rx s = .next s') : Writes [.regs, .posted, .out, .free, .tb, .ptp] s s' := by
  unfold execSync at h
  injection h with h
  subst h
  repeat' first
    | dsimp only
    | ((conv => arg 3; arg 39; skip); with_reducible refine Writes.set_ptp ?_ ?_ _)
    | with_reducible exact Writes.refl _ _
    | (apply Writes.step; case k => with_reducible apply State.ptpDiscard_writes)
    | (apply Writes.step; case k => with_reducible apply State.ptpForward_writes)
    | (apply Writes.step; case k => with_reducible apply State.autoSwitch_writes)
    | (apply Writes.step; case k => with_reducible apply State.usableSync_writes)
    | with_reducible refine Writes.ite ?_ ?_
    | decide
    | split

theorem execTbSet_writes  (value : Full) (s : State) {s' : State}
    (h : execTbSet value s = .next s') : Writes [.regs, .posted, .free, .tb] s s' := by
  unfold execTbSet at h
  injection h with h
  subst h
  repeat' first
    | dsimp only
    | with_reducible exact Writes.refl _ _
    | (apply Writes.step; case k => with_reducible apply State.requestStep_writes)
    | (apply Writes.step; case k => (with_reducible apply State.wrFull_writes_ne) <;> first | decide | (dsimp only [Reg.PTP_CTRL, Reg.PTP_CTRL_STACK, Reg.TB_SET_LO, Reg.TB_STATUS, Reg.TB_STATUS_DUAL, Reg.GLB_MODE, Field.of]; omega) | (split <;> decide))
    | (apply Writes.step; case k => with_reducible apply State.postOpen_writes)
    | with_reducible refine Writes.ite ?_ ?_
    | decide
    | split

theorem execPpsInEdge_writes  (falling : Bool) (stamp : Full) (s : State) {s' : State}
    (h : execPpsInEdge falling stamp s = .next s') : Writes [.regs, .posted, .free, .tb] s s' := by
  unfold execPpsInEdge at h
  injection h with h
  subst h
  repeat' first
    | dsimp only
    | ((conv => arg 3; arg 39; skip); with_reducible refine Writes.set_tb ?_ ?_ _)
    | with_reducible exact Writes.refl _ _
    | (apply Writes.step; case k => (with_reducible apply State.wrFull_writes_ne) <;> first | decide | (dsimp only [Reg.PTP_CTRL, Reg.PTP_CTRL_STACK, Reg.TB_PPS_CTRL, Reg.TB_PPS_CTRL_IN_EDGE, Reg.TB_PPS_IN_TS_LO, Reg.TB_REF_STATUS, Reg.TB_REF_STATUS_PPS_PHASE, Reg.TB_STATUS, Reg.TB_STATUS_REF, Reg.GLB_MODE, Field.of]; omega) | (split <;> decide))
    | (apply Writes.step; case k => (with_reducible apply State.setFld_writes_ne) <;> first | decide | (dsimp only [Reg.PTP_CTRL, Reg.PTP_CTRL_STACK, Reg.TB_PPS_CTRL, Reg.TB_PPS_CTRL_IN_EDGE, Reg.TB_PPS_IN_TS_LO, Reg.TB_REF_STATUS, Reg.TB_REF_STATUS_PPS_PHASE, Reg.TB_STATUS, Reg.TB_STATUS_REF, Reg.GLB_MODE, Field.of]; omega) | (split <;> decide))
    | (apply Writes.step; case k => with_reducible apply State.noteRate_writes)
    | (apply Writes.step; case k => with_reducible apply State.steer_writes)
    | (apply Writes.step; case k => with_reducible apply State.judge_writes)
    | with_reducible refine Writes.ite ?_ ?_
    | decide
    | split

theorem execPpsOutFall_writes  (s : State) {s' : State}
    (h : execPpsOutFall s = .next s') : Writes [.tb] s s' := by
  unfold execPpsOutFall at h
  injection h with h
  subst h
  repeat' first
    | dsimp only
    | ((conv => arg 3; arg 39; skip); with_reducible refine Writes.set_tb ?_ ?_ _)
    | with_reducible exact Writes.refl _ _
    | with_reducible refine Writes.ite ?_ ?_
    | decide
    | (with_reducible (apply Writes.fst; case e => assumption))
    | split

end Sys2Proof.Machine
end

