-- ==== Sys2Proof/Laws/WritesFlowCtx.lean ====
section
/-! SUPPORT. What each operation of Machine/FlowCtx.lean writes. -/

namespace Sys2Proof.Machine

theorem State.setFlow_writes  (s : State) (i : Nat) (f : Flow) :
    Writes [.flows] s (State.setFlow s i f) := by
  unfold State.setFlow
  repeat' first
    | dsimp only
    | ((conv => arg 3; arg 39; skip); with_reducible refine Writes.set_flows ?_ ?_ _)
    | with_reducible exact Writes.refl _ _
    | decide

theorem State.flowStat_writes  (s : State) (i : Nat) (w : Nat) (n : Nat) :
    Writes [.flows] s (State.flowStat s i w n) := by
  unfold State.flowStat
  repeat' first
    | dsimp only
    | with_reducible exact Writes.refl _ _
    | (apply Writes.step; case k => with_reducible apply State.setFlow_writes)
    | decide

theorem State.flowLatency_writes  (s : State) (i : Nat) (rxUp : Nat) (up : Nat) :
    Writes [.flows] s (State.flowLatency s i rxUp up) := by
  unfold State.flowLatency
  repeat' first
    | dsimp only
    | with_reducible exact Writes.refl _ _
    | (apply Writes.step; case k => with_reducible apply State.setFlow_writes)
    | decide

theorem State.flowDropped_writes  (s : State) (i : Option Nat) :
    Writes [.flows] s (State.flowDropped s i) := by
  unfold State.flowDropped
  repeat' first
    | dsimp only
    | with_reducible exact Writes.refl _ _
    | (apply Writes.step; case k => with_reducible apply State.flowStat_writes)
    | decide
    | (with_reducible (apply Writes.fst; case e => assumption))
    | split

end Sys2Proof.Machine
end

