-- ==== Sys2Proof/Laws/WritesQueue.lean ====
section
/-! SUPPORT. What each operation of Machine/Queue.lean writes. -/

namespace Sys2Proof.Machine

theorem State.setVec_writes  (s : State) (fn : Nat) (v : Nat) (x : Vector) :
    Writes [.host] s (State.setVec s fn v x) := by
  unfold State.setVec
  repeat' first
    | dsimp only
    | ((conv => arg 3; arg 39; skip); with_reducible refine Writes.set_host ?_ ?_ _)
    | with_reducible exact Writes.refl _ _
    | decide

theorem State.deliver_writes  (s : State) (fn : Nat) (v : Nat) :
    Writes [.regs, .out] s (State.deliver s fn v) := by
  unfold State.deliver
  repeat' first
    | dsimp only
    | with_reducible exact Writes.refl _ _
    | (apply Writes.step; case k => with_reducible apply State.emit_writes)
    | (apply Writes.step; case k => (with_reducible apply State.wrN_writes_ne) <;> first | decide | (dsimp only [Reg.PCIE_FUNC, Reg.PCIE_FUNC_IRQ_MODE, Reg.PCIE_INTX_PEND, Reg.GLB_MODE, Field.of]; omega) | (split <;> decide))
    | with_reducible refine Writes.ite ?_ ?_
    | decide
    | split

theorem State.sendVector_writes  (s : State) (fn : Nat) (v : Nat) :
    Writes [.regs, .out, .host] s (State.sendVector s fn v) := by
  unfold State.sendVector
  repeat' first
    | dsimp only
    | with_reducible exact Writes.refl _ _
    | (apply Writes.step; case k => with_reducible apply State.setVec_writes)
    | (apply Writes.step; case k => with_reducible apply State.deliver_writes)
    | with_reducible refine Writes.ite ?_ ?_
    | decide
    | split

theorem State.setFrame_writes  (s : State) (h : Nat) (f : Frame) :
    Writes [.frames] s (State.setFrame s h f) := by
  unfold State.setFrame
  repeat' first
    | dsimp only
    | ((conv => arg 3; arg 39; skip); with_reducible refine Writes.set_frames ?_ ?_ _ ?_)
    | with_reducible exact Writes.refl _ _
    | exact fun h => Table.wf_set _ _ _ _ h
    | decide

theorem State.allocFrame_writes  (s : State) (len : Nat) (port : Option Nat) (prio : Nat) :
    Writes [.cells, .frames, .nextFrame] s (State.allocFrame s len port prio) := by
  unfold State.allocFrame
  repeat' first
    | dsimp only
    | ((conv => arg 3; arg 39; skip); with_reducible refine Writes.set_cells_nextFrame ?_ ?_ _ _)
    | with_reducible exact Writes.refl _ _
    | (apply Writes.step; case k => with_reducible apply State.setFrame_writes)
    | decide

theorem State.setQ_writes  (s : State) (qid : Nat) (x : Queue) :
    Writes [.queues] s (State.setQ s qid x) := by
  unfold State.setQ
  repeat' first
    | dsimp only
    | ((conv => arg 3; arg 39; skip); with_reducible refine Writes.set_queues ?_ ?_ _ ?_)
    | with_reducible exact Writes.refl _ _
    | exact fun h => Table.wf_set _ _ _ _ h
    | decide

theorem State.mapEntry_writes  (s : State) (qid : Nat) (pos : Nat) (f : Entry → Entry) :
    Writes [.queues] s (State.mapEntry s qid pos f) := by
  unfold State.mapEntry
  repeat' first
    | dsimp only
    | with_reducible exact Writes.refl _ _
    | (apply Writes.step; case k => with_reducible apply State.setQ_writes)
    | with_reducible refine Writes.ite ?_ ?_
    | decide
    | split

theorem State.offer_writes  (s : State) (qid : Nat) :
    Writes [.queues] s (State.offer s qid) := by
  unfold State.offer
  repeat' first
    | dsimp only
    | with_reducible exact Writes.refl _ _
    | (apply Writes.step; case k => with_reducible apply State.setQ_writes)
    | decide
    | (with_reducible (apply Writes.fst; case e => assumption))
    | split

theorem State.countStatus_writes  (s : State) (status : Nat) :
    Writes [.cnts] s (State.countStatus s status) := by
  unfold State.countStatus
  repeat' first
    | dsimp only
    | with_reducible exact Writes.refl _ _
    | (apply Writes.step; case k => with_reducible apply State.count_writes)
    | with_reducible refine Writes.ite ?_ ?_
    | decide
    | split

theorem State.complete_writes  (s : State) (qid : Nat) (pos : Nat) (status : Nat) (detail : Nat) :
    Writes [.cnts, .queues] s (State.complete s qid pos status detail) := by
  unfold State.complete
  repeat' first
    | dsimp only
    | with_reducible exact Writes.refl _ _
    | (apply Writes.step; case k => with_reducible apply State.offer_writes)
    | (apply Writes.step; case k => with_reducible apply State.countStatus_writes)
    | (apply Writes.step; case k => with_reducible apply State.mapEntry_writes)
    | with_reducible refine Writes.ite ?_ ?_
    | decide
    | (with_reducible (apply Writes.fst; case e => assumption))
    | split

theorem State.dramWrite_writes  (s : State) (a : Nat) (bytes : List Byte) (poisoned : Bool) :
    Writes [.dram, .poison] s (State.dramWrite s a bytes poisoned) := by
  induction bytes generalizing s a with
  | nil =>
    unfold State.dramWrite
    repeat' first
      | dsimp only
      | ((conv => arg 3; arg 39; skip); with_reducible refine Writes.set_dram_poison ?_ ?_ _ _ ?_ ?_)
      | with_reducible exact Writes.refl _ _
      | exact fun h => Table.wf_set _ _ _ _ h
      | decide
      | (with_reducible (apply Writes.fst; case e => assumption))
      | split
  | cons a x ih =>
    unfold State.dramWrite
    repeat' first
      | dsimp only
      | ((conv => arg 3; arg 39; skip); with_reducible refine Writes.set_dram_poison ?_ ?_ _ _ ?_ ?_)
      | with_reducible exact Writes.refl _ _
      | exact fun h => Table.wf_set _ _ _ _ h
      | (apply Writes.step; case k => with_reducible apply ih)
      | decide
      | (with_reducible (apply Writes.fst; case e => assumption))
      | split

theorem State.requestVector_writes  (s : State) (fn : Nat) (v : Nat) (immediate : Bool) :
    Writes [.regs, .out, .host] s (State.requestVector s fn v immediate) := by
  unfold State.requestVector
  repeat' first
    | dsimp only
    | with_reducible exact Writes.refl _ _
    | (apply Writes.step; case k => with_reducible apply State.setVec_writes)
    | (apply Writes.step; case k => with_reducible apply State.sendVector_writes)
    | with_reducible refine Writes.ite ?_ ?_
    | decide
    | split

theorem State.requestIrq_writes  (s : State) (fn : Nat) (qid : Nat) (immediate : Bool) :
    Writes [.regs, .out, .host] s (State.requestIrq s fn qid immediate) := by
  unfold State.requestIrq
  repeat' first
    | dsimp only
    | with_reducible exact Writes.refl _ _
    | (apply Writes.step; case k => with_reducible apply State.requestVector_writes)
    | decide

theorem State.ringWrite_writes  (s : State) (qid : Nat) (image : Nat) :
    Writes [.regs, .out, .dram, .poison, .queues, .host] s (State.ringWrite s qid image) := by
  unfold State.ringWrite
  repeat' first
    | dsimp only
    | with_reducible exact Writes.refl _ _
    | (apply Writes.step; case k => with_reducible apply State.dramWrite_writes)
    | (apply Writes.step; case k => with_reducible apply State.emit_writes)
    | (apply Writes.step; case k => with_reducible apply State.setQ_writes)
    | (apply Writes.step; case k => with_reducible apply State.requestIrq_writes)
    | with_reducible refine Writes.ite ?_ ?_
    | decide
    | split

theorem State.signalPme_writes  (s : State) (fn : Nat) :
    Writes [.out, .host] s (State.signalPme s fn) := by
  unfold State.signalPme
  repeat' first
    | dsimp only
    | ((conv => arg 3; arg 39; skip); with_reducible refine Writes.set_host ?_ ?_ _)
    | with_reducible exact Writes.refl _ _
    | (apply Writes.step; case k => with_reducible apply State.emit_writes)
    | with_reducible refine Writes.ite ?_ ?_
    | decide
    | split

theorem State.pauseLinked_writes  (s : State) (cq : Nat) (a : Nat) (b : Nat) :
    Writes [.queues] s (State.pauseLinked s cq a b) := by
  unfold State.pauseLinked
  repeat' first
    | dsimp only
    | ((conv => arg 3; arg 39; skip); with_reducible refine Writes.set_queues ?_ ?_ _ ?_)
    | with_reducible exact Writes.refl _ _
    | exact fun h => Table.wf_set _ _ _ _ h
    | exact fun h => Table.wf_mapVals _ _ _ h
    | exact fun h => Table.wf_filter _ _ _ h
    | exact fun h => Table.wf_foldl_set _ _ _ _ _ (Table.wf_filter _ _ _ h)
    | with_reducible refine Writes.ite ?_ ?_
    | decide
    | split

theorem State.resume_writes  (s : State) (cq : Nat) :
    Writes [.posted, .queues] s (State.resume s cq) := by
  unfold State.resume
  repeat' first
    | dsimp only
    | with_reducible exact Writes.refl _ _
    | (apply Writes.step; case k => with_reducible apply State.post_writes)
    | (apply Writes.step; case k => with_reducible apply State.pauseLinked_writes)
    | (apply Writes.step; case k => with_reducible apply State.setQ_writes)
    | with_reducible refine Writes.ite ?_ ?_
    | decide
    | split

theorem State.retire_writes  (s : State) (qid : Nat) (k : Nat) :
    Writes [.queues] s (State.retire s qid k) := by
  unfold State.retire
  repeat' first
    | dsimp only
    | with_reducible exact Writes.refl _ _
    | (apply Writes.step; case k => with_reducible apply State.setQ_writes)
    | decide

theorem State.writeCpl_writes  (s : State) (cq : Nat) (c : Cpl) :
    Writes [.regs, .out, .dram, .poison, .queues, .host, .flows] s (State.writeCpl s cq c) := by
  unfold State.writeCpl
  repeat' first
    | dsimp only
    | with_reducible exact Writes.refl _ _
    | (apply Writes.step; case k => with_reducible apply State.ringWrite_writes)
    | (apply Writes.step; case k => with_reducible apply State.retire_writes)
    | (apply Writes.step; case k => with_reducible apply State.flowLatency_writes)
    | with_reducible refine Writes.ite ?_ ?_
    | decide
    | (with_reducible (apply Writes.fst; case e => assumption))
    | split

theorem State.drainCq_writes  (s : State) (cq : Nat) (x2 : Nat) :
    Writes [.regs, .posted, .out, .dram, .poison, .queues, .host, .flows] s (State.drainCq s cq x2) := by
  induction x2 generalizing s with
  | zero =>
    unfold State.drainCq
    repeat' first
      | dsimp only
      | with_reducible exact Writes.refl _ _
      | (apply Writes.step; case k => with_reducible apply State.resume_writes)
      | (apply Writes.step; case k => with_reducible apply State.writeCpl_writes)
      | (apply Writes.step; case k => with_reducible apply State.setQ_writes)
      | with_reducible refine Writes.ite ?_ ?_
      | decide
      | (with_reducible (apply Writes.fst; case e => assumption))
      | split
  | succ k ih =>
    unfold State.drainCq
    repeat' first
      | dsimp only
      | with_reducible exact Writes.refl _ _
      | (apply Writes.step; case k => with_reducible apply ih)
      | (apply Writes.step; case k => with_reducible apply State.resume_writes)
      | (apply Writes.step; case k => with_reducible apply State.writeCpl_writes)
      | (apply Writes.step; case k => with_reducible apply State.setQ_writes)
      | with_reducible refine Writes.ite ?_ ?_
      | decide
      | (with_reducible (apply Writes.fst; case e => assumption))
      | split

theorem State.settleQuiet_writes  (s : State) :
    Writes [.regs, .mode, .posted, .out, .free] s (State.settleQuiet s) := by
  unfold State.settleQuiet
  repeat' first
    | dsimp only
    | with_reducible exact Writes.refl _ _
    | (apply Writes.step; case k => with_reducible apply State.transition_writes)
    | with_reducible refine Writes.ite ?_ ?_
    | decide
    | split

theorem State.eventTo_writes  (s : State) (eq : Nat) (code : Nat) (data : Nat) :
    Writes [.regs, .cnts, .out, .dram, .poison, .queues, .host] s (State.eventTo s eq code data) := by
  unfold State.eventTo
  repeat' first
    | dsimp only
    | with_reducible exact Writes.refl _ _
    | (apply Writes.step; case k => with_reducible apply State.ringWrite_writes)
    | (apply Writes.step; case k => with_reducible apply State.setQ_writes)
    | (apply Writes.step; case k => with_reducible apply State.count_writes)
    | with_reducible refine Writes.ite ?_ ?_
    | decide
    | split

theorem State.holdCopy_writes  (s : State) (h : Nat) (n : Nat) :
    Writes [.frames] s (State.holdCopy s h n) := by
  unfold State.holdCopy
  repeat' first
    | dsimp only
    | with_reducible exact Writes.refl _ _
    | (apply Writes.step; case k => with_reducible apply State.setFrame_writes)
    | decide

theorem State.signalPmes_writes  (s : State) :
    Writes [.out, .host] s (State.signalPmes s) := by
  unfold State.signalPmes
  repeat' first
    | dsimp only
    | with_reducible exact Writes.refl _ _
    | (apply Writes.step; case k => with_reducible apply State.signalPme_writes)
    | with_reducible refine Writes.foldl ?_ ?_
    | with_reducible refine Writes.foldlFst ?_ ?_
    | decide
    | intro _

theorem State.halt_writes  (s : State) (qid : Nat) (pos : Nat) (status : Nat) (detail : Nat) :
    Writes [.cnts, .posted, .queues] s (State.halt s qid pos status detail) := by
  unfold State.halt
  repeat' first
    | dsimp only
    | with_reducible exact Writes.refl _ _
    | (apply Writes.step; case k => with_reducible apply State.complete_writes)
    | (apply Writes.step; case k => with_reducible apply State.setQ_writes)
    | (apply Writes.step; case k => with_reducible apply State.post_writes)
    | with_reducible refine Writes.ite ?_ ?_
    | decide
    | split

theorem State.moveCpl_writes  (s : State) (cq : Nat) :
    Writes [.regs, .cnts, .posted, .out, .dram, .poison, .queues, .host, .flows] s (State.moveCpl s cq) := by
  unfold State.moveCpl
  repeat' first
    | dsimp only
    | with_reducible exact Writes.refl _ _
    | (apply Writes.step; case k => with_reducible apply State.resume_writes)
    | (apply Writes.step; case k => with_reducible apply State.writeCpl_writes)
    | (apply Writes.step; case k => with_reducible apply State.setQ_writes)
    | (apply Writes.step; case k => with_reducible apply State.pauseLinked_writes)
    | (apply Writes.step; case k => with_reducible apply State.post_writes)
    | (apply Writes.step; case k => with_reducible apply State.count_writes)
    | with_reducible refine Writes.ite ?_ ?_
    | decide
    | (with_reducible (apply Writes.fst; case e => assumption))
    | split

theorem State.dropCopy_writes  (s : State) (h : Nat) :
    Writes [.frames] s (State.dropCopy s h) := by
  unfold State.dropCopy
  repeat' first
    | dsimp only
    | with_reducible exact Writes.refl _ _
    | (apply Writes.step; case k => with_reducible apply State.setFrame_writes)
    | decide

theorem State.drainEvents_writes  (s : State) (eq : Nat) (x2 : Nat) :
    Writes [.regs, .out, .dram, .poison, .queues, .host] s (State.drainEvents s eq x2) := by
  induction x2 generalizing s with
  | zero =>
    unfold State.drainEvents
    repeat' first
      | dsimp only
      | with_reducible exact Writes.refl _ _
      | (apply Writes.step; case k => with_reducible apply State.ringWrite_writes)
      | (apply Writes.step; case k => with_reducible apply State.setQ_writes)
      | with_reducible refine Writes.ite ?_ ?_
      | decide
      | (with_reducible (apply Writes.fst; case e => assumption))
      | split
  | succ k ih =>
    unfold State.drainEvents
    repeat' first
      | dsimp only
      | with_reducible exact Writes.refl _ _
      | (apply Writes.step; case k => with_reducible apply ih)
      | (apply Writes.step; case k => with_reducible apply State.ringWrite_writes)
      | (apply Writes.step; case k => with_reducible apply State.setQ_writes)
      | with_reducible refine Writes.ite ?_ ?_
      | decide
      | (with_reducible (apply Writes.fst; case e => assumption))
      | split

end Sys2Proof.Machine
end

