-- ==== Sys2Proof/Laws/WritesSpine.lean ====
section
/-! SUPPORT. What each operation of Machine/Spine.lean writes. -/

namespace Sys2Proof.Machine

theorem State.storeContext_writes  (s : State) (i : Nat) :
    Writes [.dram, .poison] s (State.storeContext s i) := by
  unfold State.storeContext
  repeat' first
    | dsimp only
    | with_reducible exact Writes.refl _ _
    | (apply Writes.step; case k => with_reducible apply State.dramWrite_writes)
    | decide

theorem State.storeFlow_writes  (s : State) (i : Nat) :
    Writes [.dram, .poison] s (State.storeFlow s i) := by
  unfold State.storeFlow
  repeat' first
    | dsimp only
    | with_reducible exact Writes.refl _ _
    | (apply Writes.step; case k => with_reducible apply State.storeContext_writes)
    | (apply Writes.step; case k => with_reducible apply State.dramWrite_writes)
    | decide

theorem State.checkpoint_writes  (s : State) (i : Nat) :
    Writes [.dram, .poison, .flows] s (State.checkpoint s i) := by
  unfold State.checkpoint
  repeat' first
    | dsimp only
    | with_reducible exact Writes.refl _ _
    | (apply Writes.step; case k => with_reducible apply State.storeFlow_writes)
    | (apply Writes.step; case k => with_reducible apply State.setFlow_writes)
    | decide

theorem State.mapCredit_writes  (s : State) (k : Nat) (f : Credit → Credit) :
    Writes [.spine] s (State.mapCredit s k f) := by
  unfold State.mapCredit
  repeat' first
    | dsimp only
    | ((conv => arg 3; arg 39; skip); with_reducible refine Writes.set_spine ?_ ?_ _ ?_)
    | with_reducible exact Writes.refl _ _
    | exact fun h => Table.wf_set _ _ _ _ h
    | with_reducible refine Writes.ite ?_ ?_
    | decide
    | split

theorem State.spineSend_writes  (s : State) (k : Nat) (n : Nat) :
    Writes [.spine] s (State.spineSend s k n) := by
  unfold State.spineSend
  repeat' first
    | dsimp only
    | with_reducible exact Writes.refl _ _
    | (apply Writes.step; case k => with_reducible apply State.mapCredit_writes)
    | decide

theorem State.spineCross_writes  (s : State) (k : Nat) (n : Nat) :
    Writes [.spine] s (State.spineCross s k n) := by
  unfold State.spineCross
  repeat' first
    | dsimp only
    | with_reducible exact Writes.refl _ _
    | (apply Writes.step; case k => with_reducible apply State.mapCredit_writes)
    | decide

theorem State.flowCrosses_writes  (s : State) (d : Nat) :
    Writes [.spine] s (State.flowCrosses s d) := by
  unfold State.flowCrosses
  repeat' first
    | dsimp only
    | with_reducible exact Writes.refl _ _
    | (apply Writes.step; case k => with_reducible apply State.spineCross_writes)
    | decide

theorem State.returnFlow_writes  (s : State) (i : Nat) :
    Writes [.cnts, .spine, .dram, .poison, .flows] s (State.returnFlow s i) := by
  unfold State.returnFlow
  repeat' first
    | dsimp only
    | with_reducible exact Writes.refl _ _
    | (apply Writes.step; case k => with_reducible apply State.checkpoint_writes)
    | (apply Writes.step; case k => with_reducible apply State.flowCrosses_writes)
    | (apply Writes.step; case k => with_reducible apply State.count_writes)
    | (apply Writes.step; case k => with_reducible apply State.setFlow_writes)
    | decide
    | (with_reducible (apply Writes.fst; case e => assumption))
    | split

theorem State.lend_writes  (s : State) (i : Nat) (q : Nat) :
    Writes [.cnts, .spine, .dram, .poison, .flows] s (State.lend s i q) := by
  unfold State.lend
  repeat' first
    | dsimp only
    | with_reducible exact Writes.refl _ _
    | (apply Writes.step; case k => with_reducible apply State.returnFlow_writes)
    | (apply Writes.step; case k => with_reducible apply State.checkpoint_writes)
    | (apply Writes.step; case k => with_reducible apply State.count_writes)
    | (apply Writes.step; case k => with_reducible apply State.setFlow_writes)
    | with_reducible refine Writes.ite ?_ ?_
    | decide
    | (with_reducible (apply Writes.fst; case e => assumption))
    | split

theorem State.sendItem_writes  (s : State) (it : WorkItem) :
    Writes [.cnts, .spine, .dram, .poison, .flows] s ((State.sendItem s it).1) := by
  unfold State.sendItem
  repeat' first
    | dsimp only
    | with_reducible exact Writes.refl _ _
    | (apply Writes.step; case k => with_reducible apply State.spineSend_writes)
    | (apply Writes.step; case k => with_reducible apply State.lend_writes)
    | decide
    | (with_reducible (apply Writes.fst; case e => assumption))
    | split

theorem State.sendItems_writes  (s : State) :
    Writes [.cnts, .spine, .dram, .poison, .flows, .items] s (State.sendItems s) := by
  unfold State.sendItems
  repeat' first
    | dsimp only
    | ((conv => arg 3; arg 39; skip); with_reducible refine Writes.set_items ?_ ?_ _)
    | with_reducible exact Writes.refl _ _
    | (apply Writes.step; case k => with_reducible apply State.sendItem_writes)
    | with_reducible refine Writes.ite ?_ ?_
    | with_reducible refine Writes.foldl ?_ ?_
    | with_reducible refine Writes.foldlFst ?_ ?_
    | decide
    | intro _
    | split

theorem State.spineBack_writes  (s : State) (k : Nat) (n : Nat) :
    Writes [.spine] s (State.spineBack s k n) := by
  unfold State.spineBack
  repeat' first
    | dsimp only
    | with_reducible exact Writes.refl _ _
    | (apply Writes.step; case k => with_reducible apply State.mapCredit_writes)
    | decide

theorem State.spineFree_writes  (s : State) (k : Nat) (n : Nat) :
    Writes [.spine] s (State.spineFree s k n) := by
  unfold State.spineFree
  repeat' first
    | dsimp only
    | with_reducible exact Writes.refl _ _
    | (apply Writes.step; case k => with_reducible apply State.mapCredit_writes)
    | decide

theorem State.leaveSpine_writes  (s : State) (it : WorkItem) :
    Writes [.spine] s (State.leaveSpine s it) := by
  unfold State.leaveSpine
  repeat' first
    | dsimp only
    | with_reducible exact Writes.refl _ _
    | (apply Writes.step; case k => with_reducible apply State.spineFree_writes)
    | decide
    | (with_reducible (apply Writes.fst; case e => assumption))
    | split

theorem execCreditReturn_writes  (link : Fin 4) (vc : Fin 4) (dir : Fin 2) (n : Fin 17) (s : State) {s' : State}
    (h : execCreditReturn link vc dir n s = .next s') : Writes [.cnts, .spine, .dram, .poison, .flows, .items] s s' := by
  unfold execCreditReturn at h
  injection h with h
  subst h
  repeat' first
    | dsimp only
    | with_reducible exact Writes.refl _ _
    | (apply Writes.step; case k => with_reducible apply State.sendItems_writes)
    | (apply Writes.step; case k => with_reducible apply State.spineBack_writes)
    | decide

theorem State.recallItems_writes  (s : State) (q : Nat) :
    Writes [.cnts, .spine, .dram, .poison, .flows, .items] s (State.recallItems s q) := by
  unfold State.recallItems
  repeat' first
    | dsimp only
    | ((conv => arg 3; arg 39; skip); with_reducible refine Writes.set_items ?_ ?_ _)
    | with_reducible exact Writes.refl _ _
    | (apply Writes.step; case k => with_reducible apply State.leaveSpine_writes)
    | (apply Writes.step; case k => with_reducible apply State.sendItems_writes)
    | with_reducible refine Writes.ite ?_ ?_
    | with_reducible refine Writes.foldl ?_ ?_
    | with_reducible refine Writes.foldlFst ?_ ?_
    | decide
    | intro _
    | split

theorem State.returnItems_writes  (s : State) (q : Nat) (l : List WorkItem) :
    Writes [.spine, .items] s (State.returnItems s q l) := by
  unfold State.returnItems
  repeat' first
    | dsimp only
    | ((conv => arg 3; arg 39; skip); with_reducible refine Writes.set_items ?_ ?_ _)
    | with_reducible exact Writes.refl _ _
    | (apply Writes.step; case k => with_reducible apply State.spineCross_writes)
    | with_reducible refine Writes.foldl ?_ ?_
    | with_reducible refine Writes.foldlFst ?_ ?_
    | decide
    | intro _

end Sys2Proof.Machine
end

