-- ==== Sys2Proof/Laws/WritesGate.lean ====
section
/-! SUPPORT. What each operation of Machine/Gate.lean writes. -/

namespace Sys2Proof.Machine

theorem State.setPort_writes  (s : State) (n : Nat) (p : Port) :
    Writes [.ports] s (State.setPort s n p) := by
  unfold State.setPort
  repeat' first
    | dsimp only
    | ((conv => arg 3; arg 39; skip); with_reducible refine Writes.set_ports ?_ ?_ _ ?_)
    | with_reducible exact Writes.refl _ _
    | exact fun h => Table.wf_set _ _ _ _ h
    | decide

theorem State.postPortLimited_writes  (s : State) (n : Nat) (low : Nat) :
    Writes [.posted, .lastPost, .free] s (State.postPortLimited s n low) := by
  unfold State.postPortLimited
  repeat' first
    | dsimp only
    | with_reducible exact Writes.refl _ _
    | (apply Writes.step; case k => with_reducible apply State.postOpenLimited_writes)
    | decide

theorem State.copyEnds_writes  (s : State) (f : TxFrame) (status : Nat) (detail : Nat) :
    Writes [.cnts, .frames, .queues, .flows] s (State.copyEnds s f status detail) := by
  unfold State.copyEnds
  repeat' first
    | dsimp only
    | with_reducible exact Writes.refl _ _
    | (apply Writes.step; case k => with_reducible apply State.dropCopy_writes)
    | (apply Writes.step; case k => with_reducible apply State.flowDropped_writes)
    | (apply Writes.step; case k => with_reducible apply State.mapEntry_writes)
    | (apply Writes.step; case k => with_reducible apply State.complete_writes)
    | (apply Writes.step; case k => with_reducible apply State.countStatus_writes)
    | with_reducible refine Writes.ite ?_ ?_
    | with_reducible refine Writes.foldl ?_ ?_
    | with_reducible refine Writes.foldlFst ?_ ?_
    | decide
    | intro _
    | (with_reducible (apply Writes.fst; case e => assumption))
    | split

theorem State.settle_writes  (s : State) (n : Nat) :
    Writes [.ports] s (State.settle s n) := by
  unfold State.settle
  repeat' first
    | dsimp only
    | with_reducible exact Writes.refl _ _
    | (apply Writes.step; case k => with_reducible apply State.setPort_writes)
    | with_reducible refine Writes.foldl ?_ ?_
    | with_reducible refine Writes.foldlFst ?_ ?_
    | decide
    | intro _

theorem State.unqueue_writes  (s : State) (n : Nat) (f : TxFrame) :
    Writes [.ports] s (State.unqueue s n f) := by
  unfold State.unqueue
  repeat' first
    | dsimp only
    | with_reducible exact Writes.refl _ _
    | (apply Writes.step; case k => with_reducible apply State.settle_writes)
    | (apply Writes.step; case k => with_reducible apply State.setPort_writes)
    | decide

theorem State.dropLate_writes  (s : State) (n : Nat) (f : TxFrame) :
    Writes [.cnts, .posted, .lastPost, .free, .frames, .queues, .ports, .flows] s (State.dropLate s n f) := by
  unfold State.dropLate
  repeat' first
    | dsimp only
    | with_reducible exact Writes.refl _ _
    | (apply Writes.step; case k => with_reducible apply State.postPortLimited_writes)
    | (apply Writes.step; case k => with_reducible apply State.copyEnds_writes)
    | (apply Writes.step; case k => with_reducible apply State.count_writes)
    | (apply Writes.step; case k => with_reducible apply State.unqueue_writes)
    | decide

theorem State.charge_writes  (s : State) (n : Nat) (c : Nat) (nbits : Nat) :
    Writes [.ports] s (State.charge s n c nbits) := by
  unfold State.charge
  repeat' first
    | dsimp only
    | with_reducible exact Writes.refl _ _
    | (apply Writes.step; case k => with_reducible apply State.setPort_writes)
    | with_reducible refine Writes.ite ?_ ?_
    | decide
    | split

theorem State.toHub_writes  (s : State) (n : Nat) (f : TxFrame) :
    Writes [.ports] s (State.toHub s n f) := by
  unfold State.toHub
  repeat' first
    | dsimp only
    | with_reducible exact Writes.refl _ _
    | (apply Writes.step; case k => with_reducible apply State.setPort_writes)
    | decide

theorem State.postPort_writes  (s : State) (n : Nat) (low : Nat) :
    Writes [.posted, .free] s (State.postPort s n low) := by
  unfold State.postPort
  repeat' first
    | dsimp only
    | with_reducible exact Writes.refl _ _
    | (apply Writes.step; case k => with_reducible apply State.postOpen_writes)
    | decide

theorem State.neverOpens_writes  (s : State) (n : Nat) (f : TxFrame) :
    Writes [.cnts, .posted, .lastPost, .free, .frames, .queues, .flows] s (State.neverOpens s n f) := by
  unfold State.neverOpens
  repeat' first
    | dsimp only
    | with_reducible exact Writes.refl _ _
    | (apply Writes.step; case k => with_reducible apply State.postPortLimited_writes)
    | (apply Writes.step; case k => with_reducible apply State.copyEnds_writes)
    | (apply Writes.step; case k => with_reducible apply State.count_writes)
    | decide

theorem State.testHead_writes  (s : State) (n : Nat) (c : Nat) (x3 : Nat) :
    Writes [.cnts, .posted, .lastPost, .free, .frames, .queues, .ports, .flows] s (State.testHead s n c x3) := by
  induction x3 generalizing s with
  | zero =>
    unfold State.testHead
    repeat' first
      | dsimp only
      | with_reducible exact Writes.refl _ _
      | (apply Writes.step; case k => with_reducible apply State.dropLate_writes)
      | (apply Writes.step; case k => with_reducible apply State.count_writes)
      | (apply Writes.step; case k => with_reducible apply State.neverOpens_writes)
      | (apply Writes.step; case k => with_reducible apply State.unqueue_writes)
      | with_reducible refine Writes.ite ?_ ?_
      | decide
      | (with_reducible (apply Writes.fst; case e => assumption))
      | split
  | succ k ih =>
    unfold State.testHead
    repeat' first
      | dsimp only
      | with_reducible exact Writes.refl _ _
      | (apply Writes.step; case k => with_reducible apply ih)
      | (apply Writes.step; case k => with_reducible apply State.dropLate_writes)
      | (apply Writes.step; case k => with_reducible apply State.count_writes)
      | (apply Writes.step; case k => with_reducible apply State.neverOpens_writes)
      | (apply Writes.step; case k => with_reducible apply State.unqueue_writes)
      | with_reducible refine Writes.ite ?_ ?_
      | decide
      | (with_reducible (apply Writes.fst; case e => assumption))
      | split

theorem State.testHeads_writes  (s : State) (n : Nat) :
    Writes [.cnts, .posted, .lastPost, .free, .frames, .queues, .ports, .flows] s (State.testHeads s n) := by
  unfold State.testHeads
  repeat' first
    | dsimp only
    | with_reducible exact Writes.refl _ _
    | (apply Writes.step; case k => with_reducible apply State.testHead_writes)
    | with_reducible refine Writes.foldl ?_ ?_
    | with_reducible refine Writes.foldlFst ?_ ?_
    | decide
    | intro _

theorem State.dropAllLate_writes  (s : State) (n : Nat) (plcaWaitNs : Nat) :
    Writes [.cnts, .posted, .lastPost, .free, .frames, .queues, .ports, .flows] s (State.dropAllLate s n plcaWaitNs) := by
  unfold State.dropAllLate
  repeat' first
    | dsimp only
    | with_reducible exact Writes.refl _ _
    | (apply Writes.step; case k => with_reducible apply State.dropLate_writes)
    | with_reducible refine Writes.foldl ?_ ?_
    | with_reducible refine Writes.foldlFst ?_ ?_
    | decide
    | intro _

end Sys2Proof.Machine
end

