-- ==== Sys2Proof/Laws/WritesClassify.lean ====
section
/-! SUPPORT. What each operation of Machine/Classify.lean writes. -/

namespace Sys2Proof.Machine

theorem State.touch_writes  (s : State) (gs : List (Nat × Nat)) :
    Writes [.flows] s (State.touch s gs) := by
  unfold State.touch
  repeat' first
    | dsimp only
    | ((conv => arg 3; arg 39; skip); with_reducible refine Writes.set_flows ?_ ?_ _)
    | with_reducible exact Writes.refl _ _
    | decide

end Sys2Proof.Machine
end

