-- ==== Sys2Proof/Laws/WritesFlowRun.lean ====
section
/-! SUPPORT. What each operation of Machine/FlowRun.lean writes. -/

namespace Sys2Proof.Machine

theorem State.oweFrame_writes  (s : State) (h : Nat) :
    Writes [.items] s (State.oweFrame s h) := by
  unfold State.oweFrame
  repeat' first
    | dsimp only
    | ((conv => arg 3; arg 39; skip); with_reducible refine Writes.set_items ?_ ?_ _)
    | with_reducible exact Writes.refl _ _
    | with_reducible refine Writes.ite ?_ ?_
    | decide
    | split

theorem State.sendPairCopies_writes  (s : State) (x1 : Nat) :
    Writes [.out, .frames, .pairLink] s (State.sendPairCopies s x1) := by
  induction x1 generalizing s with
  | zero =>
    unfold State.sendPairCopies
    repeat' first
      | dsimp only
      | ((conv => arg 3; arg 39; skip); with_reducible refine Writes.set_pairLink ?_ ?_ _)
      | with_reducible exact Writes.refl _ _
      | (apply Writes.step; case k => with_reducible apply State.emit_writes)
      | (apply Writes.step; case k => with_reducible apply State.dropCopy_writes)
      | with_reducible refine Writes.ite ?_ ?_
      | decide
      | (with_reducible (apply Writes.fst; case e => assumption))
      | split
  | succ k ih =>
    unfold State.sendPairCopies
    repeat' first
      | dsimp only
      | ((conv => arg 3; arg 39; skip); with_reducible refine Writes.set_pairLink ?_ ?_ _)
      | with_reducible exact Writes.refl _ _
      | (apply Writes.step; case k => with_reducible apply ih)
      | (apply Writes.step; case k => with_reducible apply State.emit_writes)
      | (apply Writes.step; case k => with_reducible apply State.dropCopy_writes)
      | with_reducible refine Writes.ite ?_ ?_
      | decide
      | (with_reducible (apply Writes.fst; case e => assumption))
      | split

theorem State.dispatchItem_writes  (s : State) (r : RxFrame) (i : Nat) :
    Writes [.cnts, .spine, .frames, .dram, .poison, .flows, .items, .itemSeq] s (State.dispatchItem s r i) := by
  unfold State.dispatchItem
  repeat' first
    | dsimp only
    | ((conv => arg 3; arg 39; skip); with_reducible refine Writes.set_items_itemSeq ?_ ?_ _ _)
    | with_reducible exact Writes.refl _ _
    | (apply Writes.step; case k => with_reducible apply State.holdCopy_writes)
    | (apply Writes.step; case k => with_reducible apply State.sendItems_writes)
    | with_reducible refine Writes.ite ?_ ?_
    | decide
    | split

theorem State.discard_writes  (s : State) (r : RxFrame) (status : Nat) (detail : Nat) :
    Writes [.cnts, .frames, .queues] s (State.discard s r status detail) := by
  unfold State.discard
  repeat' first
    | dsimp only
    | with_reducible exact Writes.refl _ _
    | (apply Writes.step; case k => with_reducible apply State.complete_writes)
    | (apply Writes.step; case k => with_reducible apply State.dropCopy_writes)
    | decide
    | (with_reducible (apply Writes.fst; case e => assumption))
    | split

theorem State.postFlow_writes  (s : State) (low : Nat) (i : Nat) :
    Writes [.posted, .lastPost] s (State.postFlow s low i) := by
  unfold State.postFlow
  repeat' first
    | dsimp only
    | with_reducible exact Writes.refl _ _
    | (apply Writes.step; case k => with_reducible apply State.postLimited_writes)
    | decide

theorem State.recover_writes  (s : State) (i : Nat) (b : List Byte) (rxUp : Nat) :
    Writes [.posted, .lastPost, .flows] s ((State.recover s i b rxUp).1) := by
  unfold State.recover
  repeat' first
    | dsimp only
    | with_reducible exact Writes.refl _ _
    | (apply Writes.step; case k => with_reducible apply State.postFlow_writes)
    | (apply Writes.step; case k => with_reducible apply State.setFlow_writes)
    | (apply Writes.step; case k => with_reducible apply State.flowStat_writes)
    | with_reducible refine Writes.ite ?_ ?_
    | decide
    | (with_reducible (apply Writes.fst; case e => assumption))
    | split

theorem State.toRxq_writes  (s : State) (qid : Nat) (c : RxCopy) :
    Writes [.frames, .queues] s (State.toRxq s qid c) := by
  unfold State.toRxq
  repeat' first
    | dsimp only
    | with_reducible exact Writes.refl _ _
    | (apply Writes.step; case k => with_reducible apply State.holdCopy_writes)
    | (apply Writes.step; case k => with_reducible apply State.setQ_writes)
    | decide

theorem State.toPort_writes  (s : State) (n : Nat) (f : TxFrame) (grown : Bool) :
    Writes [.cnts, .frames, .queues, .ports, .flows] s (State.toPort s n f grown) := by
  unfold State.toPort
  repeat' first
    | dsimp only
    | with_reducible exact Writes.refl _ _
    | (apply Writes.step; case k => with_reducible apply State.holdCopy_writes)
    | (apply Writes.step; case k => with_reducible apply State.copyEnds_writes)
    | (apply Writes.step; case k => with_reducible apply State.toHub_writes)
    | with_reducible refine Writes.ite ?_ ?_
    | decide
    | split

theorem State.toPair_writes  (s : State) (c : PairCopy) :
    Writes [.out, .frames, .flows, .pairLink] s (State.toPair s c) := by
  unfold State.toPair
  repeat' first
    | dsimp only
    | ((conv => arg 3; arg 39; skip); with_reducible refine Writes.set_pairLink ?_ ?_ _)
    | with_reducible exact Writes.refl _ _
    | (apply Writes.step; case k => with_reducible apply State.holdCopy_writes)
    | (apply Writes.step; case k => with_reducible apply State.sendPairCopies_writes)
    | (apply Writes.step; case k => with_reducible apply State.flowDropped_writes)
    | with_reducible refine Writes.ite ?_ ?_
    | decide
    | split

theorem State.deliverFlow_writes  (s : State) (r : RxFrame) (i : Nat) (dei : Bool) :
    Writes [.cnts, .out, .frames, .queues, .ports, .flows, .items, .pairLink, .recCopies] s (State.deliverFlow s r i dei) := by
  unfold State.deliverFlow
  repeat' first
    | dsimp only
    | ((conv => arg 3; arg 39; skip); with_reducible refine Writes.set_flows ?_ ?_ _)
    | ((conv => arg 3; arg 39; skip); with_reducible refine Writes.set_recCopies ?_ ?_ _)
    | with_reducible exact Writes.refl _ _
    | (apply Writes.step; case k => with_reducible apply State.setFlow_writes)
    | (apply Writes.step; case k => with_reducible apply State.mapEntry_writes)
    | (apply Writes.step; case k => with_reducible apply State.toRxq_writes)
    | (apply Writes.step; case k => with_reducible apply State.flowDropped_writes)
    | (apply Writes.step; case k => with_reducible apply State.toPort_writes)
    | (apply Writes.step; case k => with_reducible apply State.toPair_writes)
    | (apply Writes.step; case k => with_reducible apply State.oweFrame_writes)
    | (apply Writes.step; case k => with_reducible apply State.holdCopy_writes)
    | with_reducible refine Writes.ite ?_ ?_
    | with_reducible refine Writes.foldl ?_ ?_
    | with_reducible refine Writes.foldlFst ?_ ?_
    | decide
    | intro _
    | (with_reducible (apply Writes.fst; case e => assumption))
    | split

theorem State.finishFlow_writes  (s : State) (r : RxFrame) (j : Nat) (dei : Bool) :
    Writes [.cnts, .out, .frames, .queues, .ports, .flows, .items, .pairLink, .recCopies] s (State.finishFlow s r j dei) := by
  unfold State.finishFlow
  repeat' first
    | dsimp only
    | with_reducible exact Writes.refl _ _
    | (apply Writes.step; case k => with_reducible apply State.dropCopy_writes)
    | (apply Writes.step; case k => with_reducible apply State.deliverFlow_writes)
    | decide

theorem State.recoverFinish_writes  (s : State) (r : RxFrame) (j : Nat) (dei : Bool) :
    Writes [.cnts, .posted, .lastPost, .out, .frames, .queues, .ports, .flows, .items, .pairLink, .recCopies] s (State.recoverFinish s r j dei) := by
  unfold State.recoverFinish
  repeat' first
    | dsimp only
    | with_reducible exact Writes.refl _ _
    | (apply Writes.step; case k => with_reducible apply State.recover_writes)
    | (apply Writes.step; case k => with_reducible apply State.finishFlow_writes)
    | (apply Writes.step; case k => with_reducible apply State.discard_writes)
    | with_reducible refine Writes.ite ?_ ?_
    | decide
    | (with_reducible (apply Writes.fst; case e => assumption))
    | split

theorem State.individualFinish_writes  (s : State) (r : RxFrame) (i : Nat) (j : Nat) (dei : Bool) :
    Writes [.cnts, .posted, .lastPost, .out, .frames, .queues, .ports, .flows, .items, .pairLink, .recCopies] s (State.individualFinish s r i j dei) := by
  unfold State.individualFinish
  repeat' first
    | dsimp only
    | with_reducible exact Writes.refl _ _
    | (apply Writes.step; case k => with_reducible apply State.discard_writes)
    | (apply Writes.step; case k => with_reducible apply State.flowStat_writes)
    | (apply Writes.step; case k => with_reducible apply State.recoverFinish_writes)
    | (apply Writes.step; case k => with_reducible apply State.finishFlow_writes)
    | with_reducible refine Writes.ite ?_ ?_
    | decide
    | split

theorem State.policedFinish_writes  (s : State) (r : RxFrame) (f : Flow) (i : Nat) (dei : Bool) :
    Writes [.cnts, .posted, .lastPost, .out, .frames, .queues, .ports, .flows, .items, .pairLink, .recCopies] s (State.policedFinish s r f i dei) := by
  unfold State.policedFinish
  repeat' first
    | dsimp only
    | with_reducible exact Writes.refl _ _
    | (apply Writes.step; case k => with_reducible apply State.recover_writes)
    | (apply Writes.step; case k => with_reducible apply State.individualFinish_writes)
    | (apply Writes.step; case k => with_reducible apply State.discard_writes)
    | (apply Writes.step; case k => with_reducible apply State.recoverFinish_writes)
    | (apply Writes.step; case k => with_reducible apply State.finishFlow_writes)
    | with_reducible refine Writes.ite ?_ ?_
    | decide
    | (with_reducible (apply Writes.fst; case e => assumption))
    | split

theorem State.afterPolice_writes  (s : State) (r : RxFrame) (i : Nat) (x : Flow × Bool × Bool) :
    Writes [.cnts, .posted, .lastPost, .out, .spine, .frames, .dram, .poison, .queues, .ports, .flows, .items, .itemSeq, .pairLink, .recCopies] s (State.afterPolice s r i x) := by
  unfold State.afterPolice
  repeat' first
    | dsimp only
    | with_reducible exact Writes.refl _ _
    | (apply Writes.step; case k => with_reducible apply State.dispatchItem_writes)
    | (apply Writes.step; case k => with_reducible apply State.setFlow_writes)
    | (apply Writes.step; case k => with_reducible apply State.discard_writes)
    | (apply Writes.step; case k => with_reducible apply State.policedFinish_writes)
    | with_reducible refine Writes.ite ?_ ?_
    | decide
    | split

theorem State.runFlow_writes  (s : State) (r : RxFrame) (i : Nat) :
    Writes [.cnts, .posted, .lastPost, .out, .spine, .frames, .dram, .poison, .queues, .ports, .flows, .items, .itemSeq, .pairLink, .recCopies] s (State.runFlow s r i) := by
  unfold State.runFlow
  repeat' first
    | dsimp only
    | with_reducible exact Writes.refl _ _
    | (apply Writes.step; case k => with_reducible apply State.afterPolice_writes)
    | decide

theorem State.missed_writes  (s : State) (r : RxFrame) :
    Writes [.cnts, .posted, .lastPost, .free, .frames, .queues] s (State.missed s r) := by
  unfold State.missed
  repeat' first
    | dsimp only
    | with_reducible exact Writes.refl _ _
    | (apply Writes.step; case k => with_reducible apply State.postFlow_writes)
    | (apply Writes.step; case k => with_reducible apply State.count_writes)
    | (apply Writes.step; case k => with_reducible apply State.draw_writes)
    | (apply Writes.step; case k => with_reducible apply State.discard_writes)
    | (apply Writes.step; case k => with_reducible apply State.toRxq_writes)
    | (apply Writes.step; case k => with_reducible apply State.dropCopy_writes)
    | with_reducible refine Writes.ite ?_ ?_
    | decide
    | (with_reducible (apply Writes.fst; case e => assumption))
    | split

theorem State.handle_writes  (s : State) (r : RxFrame) :
    Writes [.cnts, .posted, .lastPost, .out, .free, .spine, .frames, .dram, .poison, .queues, .ports, .flows, .items, .itemSeq, .pairLink, .recCopies] s (State.handle s r) := by
  unfold State.handle
  repeat' first
    | dsimp only
    | with_reducible exact Writes.refl _ _
    | (apply Writes.step; case k => with_reducible apply State.touch_writes)
    | (apply Writes.step; case k => with_reducible apply State.count_writes)
    | (apply Writes.step; case k => with_reducible apply State.runFlow_writes)
    | (apply Writes.step; case k => with_reducible apply State.missed_writes)
    | with_reducible refine Writes.ite ?_ ?_
    | decide
    | (with_reducible (apply Writes.fst; case e => assumption))
    | split

theorem State.proceed_writes  (s : State) :
    Writes [.cnts, .posted, .lastPost, .out, .free, .spine, .frames, .dram, .poison, .queues, .ports, .flows, .items, .itemSeq, .pairLink, .recCopies] s (State.proceed s) := by
  unfold State.proceed
  repeat' first
    | dsimp only
    | ((conv => arg 3; arg 39; skip); with_reducible refine Writes.set_flows ?_ ?_ _)
    | with_reducible exact Writes.refl _ _
    | (apply Writes.step; case k => with_reducible apply State.handle_writes)
    | with_reducible refine Writes.ite ?_ ?_
    | with_reducible refine Writes.foldl ?_ ?_
    | with_reducible refine Writes.foldlFst ?_ ?_
    | decide
    | intro _
    | split

theorem State.classifyOrWait_writes  (s : State) (r : RxFrame) :
    Writes [.cnts, .posted, .lastPost, .out, .free, .spine, .frames, .dram, .poison, .queues, .ports, .flows, .items, .itemSeq, .pairLink, .recCopies] s (State.classifyOrWait s r) := by
  unfold State.classifyOrWait
  repeat' first
    | dsimp only
    | ((conv => arg 3; arg 39; skip); with_reducible refine Writes.set_flows ?_ ?_ _)
    | with_reducible exact Writes.refl _ _
    | (apply Writes.step; case k => with_reducible apply State.handle_writes)
    | with_reducible refine Writes.ite ?_ ?_
    | decide
    | split

end Sys2Proof.Machine
end

