-- ==== Sys2Proof/Laws/WritesSched.lean ====
section
/-! SUPPORT. What each operation of Machine/Sched.lean writes. -/

namespace Sys2Proof.Machine

theorem State.deferHead_writes  (s : State) (n : Nat) (f : TxFrame) :
    Writes [.cnts, .ports] s (State.deferHead s n f) := by
  unfold State.deferHead
  repeat' first
    | dsimp only
    | with_reducible exact Writes.refl _ _
    | (apply Writes.step; case k => with_reducible apply State.count_writes)
    | (apply Writes.step; case k => with_reducible apply State.setPort_writes)
    | with_reducible refine Writes.ite ?_ ?_
    | decide
    | split

theorem State.offerOf_writes  (s : State) (n : Nat) (c : Nat) :
    Writes [.cnts, .ports] s ((State.offerOf s n c).1) := by
  unfold State.offerOf
  repeat' first
    | dsimp only
    | with_reducible exact Writes.refl _ _
    | (apply Writes.step; case k => with_reducible apply State.deferHead_writes)
    | with_reducible refine Writes.ite ?_ ?_
    | decide
    | (with_reducible (apply Writes.fst; case e => assumption))
    | split

theorem State.choose_writes  (s : State) (n : Nat) (x2 : List Nat) :
    Writes [.cnts, .ports] s ((State.choose s n x2).1) := by
  induction x2 generalizing s with
  | nil =>
    unfold State.choose
    repeat' first
      | dsimp only
      | with_reducible exact Writes.refl _ _
      | (apply Writes.step; case k => with_reducible apply State.offerOf_writes)
      | decide
      | (with_reducible (apply Writes.fst; case e => assumption))
      | split
  | cons a x ih =>
    unfold State.choose
    repeat' first
      | dsimp only
      | with_reducible exact Writes.refl _ _
      | (apply Writes.step; case k => with_reducible apply ih)
      | (apply Writes.step; case k => with_reducible apply State.offerOf_writes)
      | decide
      | (with_reducible (apply Writes.fst; case e => assumption))
      | split

theorem State.leadMiss_writes  (s : State) (n : Nat) :
    Writes [.cnts, .posted, .lastPost, .free] s (State.leadMiss s n) := by
  unfold State.leadMiss
  repeat' first
    | dsimp only
    | with_reducible exact Writes.refl _ _
    | (apply Writes.step; case k => with_reducible apply State.postPortLimited_writes)
    | (apply Writes.step; case k => with_reducible apply State.count_writes)
    | decide

theorem State.windowOpens_writes  (s : State) (n : Nat) (c : Nat) :
    Writes [.cnts, .posted, .lastPost, .free] s (State.windowOpens s n c) := by
  unfold State.windowOpens
  repeat' first
    | dsimp only
    | with_reducible exact Writes.refl _ _
    | (apply Writes.step; case k => with_reducible apply State.leadMiss_writes)
    | with_reducible refine Writes.ite ?_ ?_
    | decide
    | split

theorem State.splitFrame_writes  (s : State) (n : Nat) (m : OnMedium) :
    Writes [.cnts, .out, .ports] s (State.splitFrame s n m) := by
  unfold State.splitFrame
  repeat' first
    | dsimp only
    | with_reducible exact Writes.refl _ _
    | (apply Writes.step; case k => with_reducible apply State.count_writes)
    | (apply Writes.step; case k => with_reducible apply State.charge_writes)
    | (apply Writes.step; case k => with_reducible apply State.settle_writes)
    | (apply Writes.step; case k => with_reducible apply State.emit_writes)
    | (apply Writes.step; case k => with_reducible apply State.setPort_writes)
    | decide

theorem State.startFrame_writes  (s : State) (n : Nat) (plcaWaitNs : Nat) (f : TxFrame) :
    Writes [.cnts, .ports] s (State.startFrame s n plcaWaitNs f) := by
  unfold State.startFrame
  repeat' first
    | dsimp only
    | with_reducible exact Writes.refl _ _
    | (apply Writes.step; case k => with_reducible apply State.count_writes)
    | (apply Writes.step; case k => with_reducible apply State.unqueue_writes)
    | (apply Writes.step; case k => with_reducible apply State.setPort_writes)
    | with_reducible refine Writes.ite ?_ ?_
    | decide
    | split

theorem State.startChoice_writes  (s : State) (n : Nat) (plcaWaitNs : Nat) (c : State.Choice) :
    Writes [.cnts, .ports] s (State.startChoice s n plcaWaitNs c) := by
  unfold State.startChoice
  repeat' first
    | dsimp only
    | with_reducible exact Writes.refl _ _
    | (apply Writes.step; case k => with_reducible apply State.startFrame_writes)
    | (apply Writes.step; case k => with_reducible apply State.setPort_writes)
    | decide
    | (with_reducible (apply Writes.fst; case e => assumption))
    | split

theorem State.transmitStart_writes  (s : State) (n : Nat) (plcaWaitNs : Nat) :
    Writes [.cnts, .posted, .lastPost, .out, .free, .frames, .queues, .ports, .flows] s (State.transmitStart s n plcaWaitNs) := by
  unfold State.transmitStart
  repeat' first
    | dsimp only
    | with_reducible exact Writes.refl _ _
    | (apply Writes.step; case k => with_reducible apply State.splitFrame_writes)
    | (apply Writes.step; case k => with_reducible apply State.dropAllLate_writes)
    | (apply Writes.step; case k => with_reducible apply State.setPort_writes)
    | (apply Writes.step; case k => with_reducible apply State.testHeads_writes)
    | (apply Writes.step; case k => with_reducible apply State.choose_writes)
    | (apply Writes.step; case k => with_reducible apply State.settle_writes)
    | (apply Writes.step; case k => with_reducible apply State.startChoice_writes)
    | with_reducible refine Writes.ite ?_ ?_
    | decide
    | (with_reducible (apply Writes.fst; case e => assumption))
    | split

theorem execFrameTransmitStart_writes  (port : Fin 12) (plcaWaitNs : Nat) (s : State) {s' : State}
    (h : execFrameTransmitStart port plcaWaitNs s = .next s') : Writes [.cnts, .posted, .lastPost, .out, .free, .frames, .queues, .ports, .flows] s s' := by
  unfold execFrameTransmitStart at h
  injection h with h
  subst h
  repeat' first
    | dsimp only
    | with_reducible exact Writes.refl _ _
    | (apply Writes.step; case k => with_reducible apply State.transmitStart_writes)
    | decide

theorem State.copyRegs_writes (s : State) (src dst len : Nat) :
    Writes [.regs, .mode] s (State.copyRegs s src dst len) := by
  unfold State.copyRegs
  refine Writes.set_regs (Writes.refl _ _) (by decide) _ ?_
  exact fun h => Table.wf_foldl_set _ _ _ _ _ (Table.wf_filter _ _ _ h)

theorem State.copyRegs_writes_ne (s : State) (src dst len : Nat) (h : Reg.GLB_MODE < dst) :
    Writes [.regs] s (State.copyRegs s src dst len) := by
  have k := State.copyRegs_writes s src dst len
  refine ⟨fun p hp => ?_, k.canon, k.free, k.out⟩
  by_cases hm : p = .mode
  · subst hm
    show Table.get regReset (List.foldl _ _ _) Reg.GLB_MODE = Table.get regReset s.regs Reg.GLB_MODE
    rw [Table.get_foldl_set_other _ _ _ _ _ (fun p => Nat.ne_of_gt (Nat.lt_of_lt_of_le h (Nat.le_add_left _ _)))]
    refine Table.get_filter _ (fun a => !(Nat.ble dst a && Nat.blt a (dst + len))) _ ?_
    have : Nat.ble dst Reg.GLB_MODE = false := by
      rw [Bool.eq_false_iff]; intro e; have := Nat.ble_eq.mp e; omega
    simp [this]
  · exact k.same p (by intro e; cases p <;> simp_all)

theorem State.meetClose_writes  (s : State) (n : Nat) (gates : Nat) :
    Writes [.cnts, .posted, .lastPost, .out, .free, .ports] s (State.meetClose s n gates) := by
  unfold State.meetClose
  repeat' first
    | dsimp only
    | with_reducible exact Writes.refl _ _
    | (apply Writes.step; case k => with_reducible apply State.splitFrame_writes)
    | (apply Writes.step; case k => with_reducible apply State.setPort_writes)
    | (apply Writes.step; case k => with_reducible apply State.postPortLimited_writes)
    | (apply Writes.step; case k => with_reducible apply State.count_writes)
    | with_reducible refine Writes.ite ?_ ?_
    | decide
    | (with_reducible (apply Writes.fst; case e => assumption))
    | split

theorem State.gateRefresh_writes  (s : State) (n : Nat) :
    Writes [.regs, .cnts, .posted, .lastPost, .out, .free, .ports] s (State.gateRefresh s n) := by
  unfold State.gateRefresh
  repeat' first
    | dsimp only
    | with_reducible exact Writes.refl _ _
    | (apply Writes.step; case k => (with_reducible apply State.setFld_writes_ne) <;> first | decide | (dsimp only [Reg.PORT_GATE_STATUS, Reg.PORT_GATE_STATUS_GATES, Reg.PORT_GATE_STATUS_OPER_ENTRY, Reg.GLB_MODE, Field.of]; omega) | (split <;> decide))
    | (apply Writes.step; case k => with_reducible apply State.setPort_writes)
    | (apply Writes.step; case k => with_reducible apply State.settle_writes)
    | (apply Writes.step; case k => with_reducible apply State.meetClose_writes)
    | (apply Writes.step; case k => with_reducible apply State.windowOpens_writes)
    | with_reducible refine Writes.ite ?_ ?_
    | with_reducible refine Writes.foldl ?_ ?_
    | with_reducible refine Writes.foldlFst ?_ ?_
    | decide
    | intro _
    | split

theorem State.gclChange_writes  (s : State) (n : Nat) :
    Writes [.regs, .cnts, .posted, .lastPost, .out, .free, .frames, .queues, .ports, .flows] s (State.gclChange s n) := by
  unfold State.gclChange
  repeat' first
    | dsimp only
    | with_reducible exact Writes.refl _ _
    | (apply Writes.step; case k => (with_reducible apply State.copyRegs_writes_ne) <;> first | decide | (dsimp only [Reg.PORT_ADMIN_BASE_LO, Reg.PORT_ADMIN_CYCLE, Reg.PORT_ADMIN_CYCLE_EXT, Reg.PORT_ADMIN_GCL_LO, Reg.PORT_ADMIN_LEN, Reg.PORT_ADMIN_LEN_LEN, Reg.PORT_GATE_STATUS, Reg.PORT_GATE_STATUS_ACTIVE, Reg.PORT_GATE_STATUS_HOLD, Reg.PORT_OPER_BASE_LO, Reg.PORT_OPER_CYCLE, Reg.PORT_OPER_CYCLE_EXT, Reg.PORT_OPER_GCL_LO, Reg.PORT_OPER_LEN, Reg.PORT_OPER_LEN_LEN, Reg.GLB_MODE, Field.of]; omega) | (split <;> decide))
    | (apply Writes.step; case k => (with_reducible apply State.wrFull_writes_ne) <;> first | decide | (dsimp only [Reg.PORT_ADMIN_BASE_LO, Reg.PORT_ADMIN_CYCLE, Reg.PORT_ADMIN_CYCLE_EXT, Reg.PORT_ADMIN_GCL_LO, Reg.PORT_ADMIN_LEN, Reg.PORT_ADMIN_LEN_LEN, Reg.PORT_GATE_STATUS, Reg.PORT_GATE_STATUS_ACTIVE, Reg.PORT_GATE_STATUS_HOLD, Reg.PORT_OPER_BASE_LO, Reg.PORT_OPER_CYCLE, Reg.PORT_OPER_CYCLE_EXT, Reg.PORT_OPER_GCL_LO, Reg.PORT_OPER_LEN, Reg.PORT_OPER_LEN_LEN, Reg.GLB_MODE, Field.of]; omega) | (split <;> decide))
    | (apply Writes.step; case k => (with_reducible apply State.wr_writes_ne) <;> first | decide | (dsimp only [Reg.PORT_ADMIN_BASE_LO, Reg.PORT_ADMIN_CYCLE, Reg.PORT_ADMIN_CYCLE_EXT, Reg.PORT_ADMIN_GCL_LO, Reg.PORT_ADMIN_LEN, Reg.PORT_ADMIN_LEN_LEN, Reg.PORT_GATE_STATUS, Reg.PORT_GATE_STATUS_ACTIVE, Reg.PORT_GATE_STATUS_HOLD, Reg.PORT_OPER_BASE_LO, Reg.PORT_OPER_CYCLE, Reg.PORT_OPER_CYCLE_EXT, Reg.PORT_OPER_GCL_LO, Reg.PORT_OPER_LEN, Reg.PORT_OPER_LEN_LEN, Reg.GLB_MODE, Field.of]; omega) | (split <;> decide))
    | (apply Writes.step; case k => (with_reducible apply State.setFlag_writes_ne) <;> first | decide | (dsimp only [Reg.PORT_ADMIN_BASE_LO, Reg.PORT_ADMIN_CYCLE, Reg.PORT_ADMIN_CYCLE_EXT, Reg.PORT_ADMIN_GCL_LO, Reg.PORT_ADMIN_LEN, Reg.PORT_ADMIN_LEN_LEN, Reg.PORT_GATE_STATUS, Reg.PORT_GATE_STATUS_ACTIVE, Reg.PORT_GATE_STATUS_HOLD, Reg.PORT_OPER_BASE_LO, Reg.PORT_OPER_CYCLE, Reg.PORT_OPER_CYCLE_EXT, Reg.PORT_OPER_GCL_LO, Reg.PORT_OPER_LEN, Reg.PORT_OPER_LEN_LEN, Reg.GLB_MODE, Field.of]; omega) | (split <;> decide))
    | (apply Writes.step; case k => (with_reducible apply State.setFld_writes_ne) <;> first | decide | (dsimp only [Reg.PORT_ADMIN_BASE_LO, Reg.PORT_ADMIN_CYCLE, Reg.PORT_ADMIN_CYCLE_EXT, Reg.PORT_ADMIN_GCL_LO, Reg.PORT_ADMIN_LEN, Reg.PORT_ADMIN_LEN_LEN, Reg.PORT_GATE_STATUS, Reg.PORT_GATE_STATUS_ACTIVE, Reg.PORT_GATE_STATUS_HOLD, Reg.PORT_OPER_BASE_LO, Reg.PORT_OPER_CYCLE, Reg.PORT_OPER_CYCLE_EXT, Reg.PORT_OPER_GCL_LO, Reg.PORT_OPER_LEN, Reg.PORT_OPER_LEN_LEN, Reg.GLB_MODE, Field.of]; omega) | (split <;> decide))
    | (apply Writes.step; case k => with_reducible apply State.setPort_writes)
    | (apply Writes.step; case k => with_reducible apply State.testHeads_writes)
    | (apply Writes.step; case k => with_reducible apply State.gateRefresh_writes)
    | (apply Writes.step; case k => with_reducible apply State.postPort_writes)
    | with_reducible refine Writes.ite ?_ ?_
    | decide
    | split

theorem State.releaseHold_writes  (s : State) (n : Nat) :
    Writes [.regs, .ports] s (State.releaseHold s n) := by
  unfold State.releaseHold
  repeat' first
    | dsimp only
    | with_reducible exact Writes.refl _ _
    | (apply Writes.step; case k => with_reducible apply State.settle_writes)
    | (apply Writes.step; case k => (with_reducible apply State.setFlag_writes_ne) <;> first | decide | (dsimp only [Reg.PORT_GATE_STATUS, Reg.PORT_GATE_STATUS_HOLD, Reg.GLB_MODE, Field.of]; omega) | (split <;> decide))
    | with_reducible refine Writes.ite ?_ ?_
    | decide
    | split

theorem execHoldRelease_writes  (port : Fin 12) (s : State) {s' : State}
    (h : execHoldRelease port s = .next s') : Writes [.regs, .ports] s s' := by
  unfold execHoldRelease at h
  injection h with h
  subst h
  repeat' first
    | dsimp only
    | with_reducible exact Writes.refl _ _
    | (apply Writes.step; case k => with_reducible apply State.releaseHold_writes)
    | decide

theorem State.refuseGcl_writes  (s : State) (n : Nat) (error : Nat) :
    Writes [.regs, .posted, .free] s (State.refuseGcl s n error) := by
  unfold State.refuseGcl
  repeat' first
    | dsimp only
    | with_reducible exact Writes.refl _ _
    | (apply Writes.step; case k => with_reducible apply State.postPort_writes)
    | (apply Writes.step; case k => (with_reducible apply State.setFld_writes_ne) <;> first | decide | (dsimp only [Reg.PORT_GATE_STATUS, Reg.PORT_GATE_STATUS_ERROR, Reg.GLB_MODE, Field.of]; omega) | (split <;> decide))
    | decide

theorem execGclGo_writes  (port : Fin 12) (s : State) {s' : State}
    (h : execGclGo port s = .next s') : Writes [.regs, .posted, .free] s s' := by
  unfold execGclGo at h
  injection h with h
  subst h
  repeat' first
    | dsimp only
    | with_reducible exact Writes.refl _ _
    | (apply Writes.step; case k => (with_reducible apply State.setFld_writes_ne) <;> first | decide | (dsimp only [Reg.PORT_GATE_STATUS, Reg.PORT_GATE_STATUS_STATE, Reg.GLB_MODE, Field.of]; omega) | (split <;> decide))
    | (apply Writes.step; case k => with_reducible apply State.refuseGcl_writes)
    | with_reducible refine Writes.ite ?_ ?_
    | decide
    | split

theorem execCbsCreditRecovered_writes  (port : Fin 12) (s : State) {s' : State}
    (h : execCbsCreditRecovered port s = .next s') : Writes [.ports] s s' := by
  unfold execCbsCreditRecovered at h
  injection h with h
  subst h
  repeat' first
    | dsimp only
    | with_reducible exact Writes.refl _ _
    | (apply Writes.step; case k => with_reducible apply State.settle_writes)
    | decide

theorem State.freeMedium_writes  (s : State) (n : Nat) (m : OnMedium) :
    Writes [.ports] s (State.freeMedium s n m) := by
  unfold State.freeMedium
  repeat' first
    | dsimp only
    | with_reducible exact Writes.refl _ _
    | (apply Writes.step; case k => with_reducible apply State.setPort_writes)
    | decide

theorem State.applySlope_writes  (s : State) (n : Nat) (c : Nat) :
    Writes [.ports] s (State.applySlope s n c) := by
  unfold State.applySlope
  repeat' first
    | dsimp only
    | with_reducible exact Writes.refl _ _
    | (apply Writes.step; case k => with_reducible apply State.settle_writes)
    | (apply Writes.step; case k => with_reducible apply State.setPort_writes)
    | with_reducible refine Writes.ite ?_ ?_
    | decide
    | split

theorem State.transmitEnd_writes  (s : State) (n : Nat) :
    Writes [.regs, .cnts, .posted, .lastPost, .out, .free, .frames, .queues, .ports, .flows] s (State.transmitEnd s n) := by
  unfold State.transmitEnd
  repeat' first
    | dsimp only
    | with_reducible exact Writes.refl _ _
    | (apply Writes.step; case k => with_reducible apply State.freeMedium_writes)
    | (apply Writes.step; case k => with_reducible apply State.setPort_writes)
    | (apply Writes.step; case k => with_reducible apply State.settle_writes)
    | (apply Writes.step; case k => with_reducible apply State.emit_writes)
    | (apply Writes.step; case k => (with_reducible apply State.putBit_writes_ne) <;> first | decide | (dsimp only [Reg.PORT_FC_STATUS, Reg.PORT_FC_STATUS_XOFF_SENT, Reg.GLB_MODE, Field.of]; omega) | (split <;> decide))
    | (apply Writes.step; case k => with_reducible apply State.count_writes)
    | (apply Writes.step; case k => with_reducible apply State.charge_writes)
    | (apply Writes.step; case k => with_reducible apply State.applySlope_writes)
    | (apply Writes.step; case k => with_reducible apply State.countN_writes)
    | (apply Writes.step; case k => with_reducible apply State.flowLatency_writes)
    | (apply Writes.step; case k => with_reducible apply State.copyEnds_writes)
    | (apply Writes.step; case k => with_reducible apply State.testHeads_writes)
    | with_reducible refine Writes.ite ?_ ?_
    | decide
    | (with_reducible (apply Writes.fst; case e => assumption))
    | split

theorem execFrameTransmitEnd_writes  (port : Fin 12) (s : State) {s' : State}
    (h : execFrameTransmitEnd port s = .next s') : Writes [.regs, .cnts, .posted, .lastPost, .out, .free, .frames, .queues, .ports, .flows] s s' := by
  unfold execFrameTransmitEnd at h
  injection h with h
  subst h
  repeat' first
    | dsimp only
    | with_reducible exact Writes.refl _ _
    | (apply Writes.step; case k => with_reducible apply State.transmitEnd_writes)
    | decide

theorem State.headerArrival_writes  (s : State) (n : Nat) (c : Nat) :
    Writes [.cnts, .posted, .lastPost, .free, .frames, .queues, .ports, .flows] s (State.headerArrival s n c) := by
  unfold State.headerArrival
  repeat' first
    | dsimp only
    | with_reducible exact Writes.refl _ _
    | (apply Writes.step; case k => with_reducible apply State.neverOpens_writes)
    | (apply Writes.step; case k => with_reducible apply State.setPort_writes)
    | (apply Writes.step; case k => with_reducible apply State.leadMiss_writes)
    | (apply Writes.step; case k => with_reducible apply State.settle_writes)
    | (apply Writes.step; case k => with_reducible apply State.testHead_writes)
    | with_reducible refine Writes.ite ?_ ?_
    | decide
    | (with_reducible (apply Writes.fst; case e => assumption))
    | split

theorem State.pendGcl_writes  (s : State) (n : Nat) :
    Writes [.regs, .ports] s (State.pendGcl s n) := by
  unfold State.pendGcl
  repeat' first
    | dsimp only
    | with_reducible exact Writes.refl _ _
    | (apply Writes.step; case k => with_reducible apply State.setPort_writes)
    | (apply Writes.step; case k => (with_reducible apply State.setFld_writes_ne) <;> first | decide | (dsimp only [Reg.PORT_ADMIN_BASE_LO, Reg.PORT_ADMIN_CYCLE, Reg.PORT_ADMIN_CYCLE_CYCLE_NS, Reg.PORT_CHANGE_TIME_LO, Reg.PORT_GATE_STATUS, Reg.PORT_GATE_STATUS_STATE, Reg.TB_SETUP_MARGIN, Reg.TB_SETUP_MARGIN_MARGIN_NS, Reg.GLB_MODE, Field.of]; omega) | (split <;> decide))
    | (apply Writes.step; case k => (with_reducible apply State.wrFull_writes_ne) <;> first | decide | (dsimp only [Reg.PORT_ADMIN_BASE_LO, Reg.PORT_ADMIN_CYCLE, Reg.PORT_ADMIN_CYCLE_CYCLE_NS, Reg.PORT_CHANGE_TIME_LO, Reg.PORT_GATE_STATUS, Reg.PORT_GATE_STATUS_STATE, Reg.TB_SETUP_MARGIN, Reg.TB_SETUP_MARGIN_MARGIN_NS, Reg.GLB_MODE, Field.of]; omega) | (split <;> decide))
    | decide

theorem execHeaderArrival_writes  (port : Fin 12) (cls : Fin 8) (s : State) {s' : State}
    (h : execHeaderArrival port cls s = .next s') : Writes [.cnts, .posted, .lastPost, .free, .frames, .queues, .ports, .flows] s s' := by
  unfold execHeaderArrival at h
  injection h with h
  subst h
  repeat' first
    | dsimp only
    | with_reducible exact Writes.refl _ _
    | (apply Writes.step; case k => with_reducible apply State.headerArrival_writes)
    | decide

theorem execGateEntryStart_writes  (port : Fin 12) (s : State) {s' : State}
    (h : execGateEntryStart port s = .next s') : Writes [.regs, .cnts, .posted, .lastPost, .out, .free, .ports] s s' := by
  unfold execGateEntryStart at h
  injection h with h
  subst h
  repeat' first
    | dsimp only
    | with_reducible exact Writes.refl _ _
    | (apply Writes.step; case k => with_reducible apply State.gateRefresh_writes)
    | decide

theorem execGclValidated_writes  (port : Fin 12) (s : State) {s' : State}
    (h : execGclValidated port s = .next s') : Writes [.regs, .posted, .free, .ports] s s' := by
  unfold execGclValidated at h
  injection h with h
  subst h
  repeat' first
    | dsimp only
    | with_reducible exact Writes.refl _ _
    | (apply Writes.step; case k => (with_reducible apply State.setFld_writes_ne) <;> first | decide | (dsimp only [Reg.PORT_GATE_ERROR, Reg.PORT_GATE_ERROR_ENTRY, Reg.PORT_GATE_STATUS, Reg.PORT_GATE_STATUS_STATE, Reg.GLB_MODE, Field.of]; omega) | (split <;> decide))
    | (apply Writes.step; case k => with_reducible apply State.refuseGcl_writes)
    | (apply Writes.step; case k => with_reducible apply State.pendGcl_writes)
    | with_reducible refine Writes.ite ?_ ?_
    | decide
    | (with_reducible (apply Writes.fst; case e => assumption))
    | split

theorem State.assertHold_writes  (s : State) (n : Nat) :
    Writes [.regs, .cnts, .out, .ports] s (State.assertHold s n) := by
  unfold State.assertHold
  repeat' first
    | dsimp only
    | with_reducible exact Writes.refl _ _
    | (apply Writes.step; case k => with_reducible apply State.count_writes)
    | (apply Writes.step; case k => with_reducible apply State.settle_writes)
    | (apply Writes.step; case k => (with_reducible apply State.setFlag_writes_ne) <;> first | decide | (dsimp only [Reg.PORT_GATE_STATUS, Reg.PORT_GATE_STATUS_HOLD, Reg.GLB_MODE, Field.of]; omega) | (split <;> decide))
    | (apply Writes.step; case k => with_reducible apply State.splitFrame_writes)
    | (apply Writes.step; case k => with_reducible apply State.setPort_writes)
    | with_reducible refine Writes.ite ?_ ?_
    | decide
    | (with_reducible (apply Writes.fst; case e => assumption))
    | split

theorem execHoldAssert_writes  (port : Fin 12) (s : State) {s' : State}
    (h : execHoldAssert port s = .next s') : Writes [.regs, .cnts, .out, .ports] s s' := by
  unfold execHoldAssert at h
  injection h with h
  subst h
  repeat' first
    | dsimp only
    | with_reducible exact Writes.refl _ _
    | (apply Writes.step; case k => with_reducible apply State.assertHold_writes)
    | decide

theorem execGclCancel_writes  (port : Fin 12) (s : State) {s' : State}
    (h : execGclCancel port s = .next s') : Writes [.regs] s s' := by
  unfold execGclCancel at h
  injection h with h
  subst h
  repeat' first
    | dsimp only
    | with_reducible exact Writes.refl _ _
    | (apply Writes.step; case k => (with_reducible apply State.setFld_writes_ne) <;> first | decide | (dsimp only [Reg.PORT_GATE_STATUS, Reg.PORT_GATE_STATUS_STATE, Reg.GLB_MODE, Field.of]; omega) | (split <;> decide))
    | with_reducible refine Writes.ite ?_ ?_
    | decide
    | (with_reducible (apply Writes.fst; case e => assumption))
    | split

theorem execCbsSlopeWrite_writes  (port : Fin 12) (cls : Fin 8) (value : BitVec 25) (s : State) {s' : State}
    (h : execCbsSlopeWrite port cls value s = .next s') : Writes [.regs, .cnts, .ports] s s' := by
  unfold execCbsSlopeWrite at h
  injection h with h
  subst h
  repeat' first
    | dsimp only
    | with_reducible exact Writes.refl _ _
    | (apply Writes.step; case k => with_reducible apply State.count_writes)
    | (apply Writes.step; case k => (with_reducible apply State.setFld_writes_ne) <;> first | decide | (dsimp only [Reg.PORT_CBS_LO, Reg.PORT_CBS_SLOPE, Reg.PORT_CBS_SLOPE_IDLE_SLOPE, Reg.PORT_MAC_CTRL, Reg.PORT_MAC_CTRL_MAX_FRAME, Reg.GLB_MODE, Field.of]; omega) | (split <;> decide))
    | (apply Writes.step; case k => (with_reducible apply State.wrN_writes_ne) <;> first | decide | (dsimp only [Reg.PORT_CBS_LO, Reg.PORT_CBS_SLOPE, Reg.PORT_CBS_SLOPE_IDLE_SLOPE, Reg.PORT_MAC_CTRL, Reg.PORT_MAC_CTRL_MAX_FRAME, Reg.GLB_MODE, Field.of]; omega) | (split <;> decide))
    | (apply Writes.step; case k => with_reducible apply State.applySlope_writes)
    | with_reducible refine Writes.ite ?_ ?_
    | with_reducible refine Writes.foldl ?_ ?_
    | with_reducible refine Writes.foldlFst ?_ ?_
    | decide
    | intro _
    | split

theorem execLateDropped_writes  (port : Fin 12) (plcaWaitNs : Nat) (s : State) {s' : State}
    (h : execLateDropped port plcaWaitNs s = .next s') : Writes [.cnts, .posted, .lastPost, .free, .frames, .queues, .ports, .flows] s s' := by
  unfold execLateDropped at h
  injection h with h
  subst h
  repeat' first
    | dsimp only
    | with_reducible exact Writes.refl _ _
    | (apply Writes.step; case k => with_reducible apply State.testHeads_writes)
    | (apply Writes.step; case k => with_reducible apply State.dropAllLate_writes)
    | decide

theorem execLaunchTimeDue_writes  (port : Fin 12) (s : State) {s' : State}
    (h : execLaunchTimeDue port s = .next s') : Writes [.cnts, .posted, .lastPost, .free, .frames, .queues, .ports, .flows] s s' := by
  unfold execLaunchTimeDue at h
  injection h with h
  subst h
  repeat' first
    | dsimp only
    | with_reducible exact Writes.refl _ _
    | (apply Writes.step; case k => with_reducible apply State.testHeads_writes)
    | decide

theorem execAdminCopyDone_writes  (port : Fin 12) (s : State) {s' : State}
    (h : execAdminCopyDone port s = .next s') : Writes [.regs, .ports] s s' := by
  unfold execAdminCopyDone at h
  injection h with h
  subst h
  repeat' first
    | dsimp only
    | with_reducible exact Writes.refl _ _
    | (apply Writes.step; case k => (with_reducible apply State.copyRegs_writes_ne) <;> first | decide | (dsimp only [Reg.PORT_ADMIN_GCL_LO, Reg.PORT_GATE_STATUS, Reg.PORT_GATE_STATUS_STATE, Reg.PORT_OPER_GCL_LO, Reg.GLB_MODE, Field.of]; omega) | (split <;> decide))
    | (apply Writes.step; case k => with_reducible apply State.setPort_writes)
    | (apply Writes.step; case k => (with_reducible apply State.setFld_writes_ne) <;> first | decide | (dsimp only [Reg.PORT_ADMIN_GCL_LO, Reg.PORT_GATE_STATUS, Reg.PORT_GATE_STATUS_STATE, Reg.PORT_OPER_GCL_LO, Reg.GLB_MODE, Field.of]; omega) | (split <;> decide))
    | with_reducible refine Writes.ite ?_ ?_
    | decide
    | split

end Sys2Proof.Machine
end

