-- ==== Sys2Proof/Laws/WritesEvtCore.lean ====
section
/-! SUPPORT. What each operation of Machine/EvtCore.lean writes. -/

namespace Sys2Proof.Machine

theorem State.setPin_writes  (s : State) (n : Nat) (p : EvtPin) :
    Writes [.regs, .evt] s (State.setPin s n p) := by
  unfold State.setPin
  repeat' first
    | dsimp only
    | ((conv => arg 3; arg 39; skip); with_reducible refine Writes.set_evt ?_ ?_ _)
    | with_reducible exact Writes.refl _ _
    | (apply Writes.step; case k => (with_reducible apply State.setFlag_writes_ne) <;> first | decide | (dsimp only [Reg.EVT_PIN_STATUS, Reg.EVT_PIN_STATUS_FIFO, Reg.EVT_PIN_STATUS_RUNNING, Reg.GLB_MODE, Field.of]; omega) | (split <;> decide))
    | (apply Writes.step; case k => (with_reducible apply State.setFld_writes_ne) <;> first | decide | (dsimp only [Reg.EVT_PIN_STATUS, Reg.EVT_PIN_STATUS_FIFO, Reg.EVT_PIN_STATUS_RUNNING, Reg.GLB_MODE, Field.of]; omega) | (split <;> decide))
    | decide

theorem State.setPinLevel_writes  (s : State) (n : Nat) (b : Bool) :
    Writes [.regs] s (State.setPinLevel s n b) := by
  unfold State.setPinLevel
  repeat' first
    | dsimp only
    | with_reducible exact Writes.refl _ _
    | (apply Writes.step; case k => (with_reducible apply State.wrN_writes_ne) <;> first | decide | (dsimp only [Reg.EVT_LEVEL_IN, Reg.GLB_MODE, Field.of]; omega) | (split <;> decide))
    | decide

theorem State.evtRecord_writes  (s : State) (n : Nat) (code : Nat) (data : Nat) :
    Writes [.regs, .cnts, .evt] s (State.evtRecord s n code data) := by
  unfold State.evtRecord
  repeat' first
    | dsimp only
    | ((conv => arg 3; arg 39; skip); with_reducible refine Writes.set_evt ?_ ?_ _)
    | with_reducible exact Writes.refl _ _
    | (apply Writes.step; case k => with_reducible apply State.count_writes)
    | (apply Writes.step; case k => with_reducible apply State.setPin_writes)
    | with_reducible refine Writes.ite ?_ ?_
    | decide
    | split

theorem State.evtFlush_writes  (s : State) (n : Nat) :
    Writes [.regs, .cnts, .evt] s (State.evtFlush s n) := by
  unfold State.evtFlush
  repeat' first
    | dsimp only
    | with_reducible exact Writes.refl _ _
    | (apply Writes.step; case k => with_reducible apply State.count_writes)
    | (apply Writes.step; case k => with_reducible apply State.setPin_writes)
    | (apply Writes.step; case k => with_reducible apply State.evtRecord_writes)
    | decide
    | (with_reducible (apply Writes.fst; case e => assumption))
    | split

theorem State.evtEnd_writes  (s : State) (n : Nat) :
    Writes [.regs, .cnts, .evt] s (State.evtEnd s n) := by
  unfold State.evtEnd
  repeat' first
    | dsimp only
    | with_reducible exact Writes.refl _ _
    | (apply Writes.step; case k => with_reducible apply State.evtFlush_writes)
    | (apply Writes.step; case k => with_reducible apply State.setPin_writes)
    | decide

theorem State.evtRefuse_writes  (s : State) (n : Nat) (error : Nat) :
    Writes [.regs, .cnts, .evt] s (State.evtRefuse s n error) := by
  unfold State.evtRefuse
  repeat' first
    | dsimp only
    | with_reducible exact Writes.refl _ _
    | (apply Writes.step; case k => with_reducible apply State.evtRecord_writes)
    | (apply Writes.step; case k => (with_reducible apply State.setFld_writes_ne) <;> first | decide | (dsimp only [Reg.EVT_PIN_STATUS, Reg.EVT_PIN_STATUS_ERROR, Reg.GLB_MODE, Field.of]; omega) | (split <;> decide))
    | decide

theorem State.evtRingStop_writes  (s : State) :
    Writes [.regs, .cnts, .evt] s (State.evtRingStop s) := by
  unfold State.evtRingStop
  repeat' first
    | dsimp only
    | with_reducible exact Writes.refl _ _
    | (apply Writes.step; case k => with_reducible apply State.evtRefuse_writes)
    | (apply Writes.step; case k => with_reducible apply State.evtEnd_writes)
    | with_reducible refine Writes.ite ?_ ?_
    | with_reducible refine Writes.foldl ?_ ?_
    | with_reducible refine Writes.foldlFst ?_ ?_
    | decide
    | intro _
    | (with_reducible (apply Writes.fst; case e => assumption))
    | split

end Sys2Proof.Machine
end

