-- ==== Sys2Proof/Laws/WritesRingCore.lean ====
section
/-! SUPPORT. What each operation of Machine/RingCore.lean writes. -/

namespace Sys2Proof.Machine

theorem State.launchAt_writes  (s : State) (nominal : Int) :
    Writes [.free] s ((State.launchAt s nominal).1) := by
  unfold State.launchAt
  repeat' first
    | dsimp only
    | with_reducible exact Writes.refl _ _
    | (apply Writes.step; case k => with_reducible apply State.draw_writes)
    | decide

theorem State.sendRingBytes_writes  (s : State) (n : Nat) (b : List Byte) :
    Writes [.cnts, .out] s (State.sendRingBytes s n b) := by
  unfold State.sendRingBytes
  repeat' first
    | dsimp only
    | with_reducible exact Writes.refl _ _
    | (apply Writes.step; case k => with_reducible apply State.emit_writes)
    | (apply Writes.step; case k => with_reducible apply State.countN_writes)
    | (apply Writes.step; case k => with_reducible apply State.count_writes)
    | with_reducible refine Writes.ite ?_ ?_
    | decide
    | split

theorem State.sendRing_writes  (s : State) (ports : List Nat) (h : RingHdr) (payload : List Byte) :
    Writes [.cnts, .out] s (State.sendRing s ports h payload) := by
  unfold State.sendRing
  repeat' first
    | dsimp only
    | with_reducible exact Writes.refl _ _
    | (apply Writes.step; case k => with_reducible apply State.sendRingBytes_writes)
    | with_reducible refine Writes.foldl ?_ ?_
    | with_reducible refine Writes.foldlFst ?_ ?_
    | decide
    | intro _

theorem State.sendClaim_writes  (s : State) (yields : Bool) :
    Writes [.cnts, .out, .free] s (State.sendClaim s yields) := by
  unfold State.sendClaim
  repeat' first
    | dsimp only
    | with_reducible exact Writes.refl _ _
    | (apply Writes.step; case k => with_reducible apply State.launchAt_writes)
    | (apply Writes.step; case k => with_reducible apply State.count_writes)
    | (apply Writes.step; case k => with_reducible apply State.sendRing_writes)
    | decide
    | (with_reducible (apply Writes.fst; case e => assumption))
    | split

theorem State.startMeasure_writes  (s : State) (n : Nat) :
    Writes [.cnts, .out, .free, .ring] s (State.startMeasure s n) := by
  unfold State.startMeasure
  repeat' first
    | dsimp only
    | ((conv => arg 3; arg 39; skip); with_reducible refine Writes.set_ring ?_ ?_ _)
    | with_reducible exact Writes.refl _ _
    | (apply Writes.step; case k => with_reducible apply State.launchAt_writes)
    | (apply Writes.step; case k => with_reducible apply State.sendRing_writes)
    | with_reducible refine Writes.ite ?_ ?_
    | with_reducible refine Writes.foldl ?_ ?_
    | with_reducible refine Writes.foldlFst ?_ ?_
    | decide
    | intro _
    | (with_reducible (apply Writes.fst; case e => assumption))
    | split

theorem State.measureCycle_writes  (s : State) (n : Nat) :
    Writes [.cnts, .posted, .out, .free, .ring] s (State.measureCycle s n) := by
  unfold State.measureCycle
  repeat' first
    | dsimp only
    | ((conv => arg 3; arg 39; skip); with_reducible refine Writes.set_ring ?_ ?_ _)
    | with_reducible exact Writes.refl _ _
    | (apply Writes.step; case k => with_reducible apply State.launchAt_writes)
    | (apply Writes.step; case k => with_reducible apply State.sendRing_writes)
    | (apply Writes.step; case k => with_reducible apply State.postOpen_writes)
    | (apply Writes.step; case k => with_reducible apply State.startMeasure_writes)
    | with_reducible refine Writes.ite ?_ ?_
    | with_reducible refine Writes.foldl ?_ ?_
    | with_reducible refine Writes.foldlFst ?_ ?_
    | decide
    | intro _
    | (with_reducible (apply Writes.fst; case e => assumption))
    | split

theorem State.ringStops_writes  (s : State) :
    Writes [.regs, .cnts, .engines, .evt] s (State.ringStops s) := by
  unfold State.ringStops
  repeat' first
    | dsimp only
    | ((conv => arg 3; arg 39; skip); with_reducible refine Writes.set_engines ?_ ?_ _ (fun h => h))
    | with_reducible exact Writes.refl _ _
    | (apply Writes.step; case k => with_reducible apply State.evtRingStop_writes)
    | with_reducible refine Writes.ite ?_ ?_
    | decide
    | (with_reducible (apply Writes.fst; case e => assumption))
    | split

theorem State.setRing_writes  (s : State) (v : Nat) :
    Writes [.regs, .cnts, .posted, .free, .ring, .engines, .evt] s (State.setRing s v) := by
  unfold State.setRing
  repeat' first
    | dsimp only
    | ((conv => arg 3; arg 39; skip); with_reducible refine Writes.set_ring ?_ ?_ _)
    | with_reducible exact Writes.refl _ _
    | (apply Writes.step; case k => with_reducible apply State.postOpen_writes)
    | (apply Writes.step; case k => (with_reducible apply State.setFld_writes_ne) <;> first | decide | (dsimp only [Reg.RING_STATUS, Reg.RING_STATUS_STATE, Reg.GLB_MODE, Field.of]; omega) | (split <;> decide))
    | (apply Writes.step; case k => with_reducible apply State.ringStops_writes)
    | with_reducible refine Writes.ite ?_ ?_
    | decide
    | split

theorem State.runCycle_writes  (s : State) (n : Nat) :
    Writes [.cnts, .posted, .lastPost, .out, .free, .ring] s (State.runCycle s n) := by
  unfold State.runCycle
  repeat' first
    | dsimp only
    | ((conv => arg 3; arg 39; skip); with_reducible refine Writes.set_ring ?_ ?_ _)
    | with_reducible exact Writes.refl _ _
    | (apply Writes.step; case k => with_reducible apply State.launchAt_writes)
    | (apply Writes.step; case k => with_reducible apply State.postOpenLimited_writes)
    | (apply Writes.step; case k => with_reducible apply State.count_writes)
    | (apply Writes.step; case k => with_reducible apply State.sendRing_writes)
    | decide
    | (with_reducible (apply Writes.fst; case e => assumption))
    | split

theorem State.mapPoll_writes  (s : State) (c : Nat) (slot : Nat) (f : RingPoll → RingPoll) :
    Writes [.ring] s (State.mapPoll s c slot f) := by
  unfold State.mapPoll
  repeat' first
    | dsimp only
    | ((conv => arg 3; arg 39; skip); with_reducible refine Writes.set_ring ?_ ?_ _)
    | with_reducible exact Writes.refl _ _
    | with_reducible refine Writes.ite ?_ ?_
    | decide
    | split

theorem State.checkDelay_writes  (s : State) (a : Nat) (d : Nat) (dlim : Nat) :
    Writes [.posted, .free, .ring] s (State.checkDelay s a d dlim) := by
  unfold State.checkDelay
  repeat' first
    | dsimp only
    | ((conv => arg 3; arg 39; skip); with_reducible refine Writes.set_ring ?_ ?_ _)
    | with_reducible exact Writes.refl _ _
    | (apply Writes.step; case k => with_reducible apply State.postOpen_writes)
    | with_reducible refine Writes.ite ?_ ?_
    | decide
    | split

theorem State.freshRing_writes  (s : State) :
    Writes [.regs, .ring] s (State.freshRing s) := by
  unfold State.freshRing
  repeat' first
    | dsimp only
    | ((conv => arg 3; arg 39; skip); with_reducible refine Writes.set_ring ?_ ?_ _)
    | with_reducible exact Writes.refl _ _
    | (apply Writes.step; case k => (with_reducible apply State.setFlag_writes_ne) <;> first | decide | (dsimp only [Reg.RING_ETHERTYPE, Reg.RING_ETHERTYPE_ETHERTYPE, Reg.RING_STATUS, Reg.RING_STATUS_GRACE, Reg.RING_STATUS_LINE, Reg.GLB_MODE, Field.of]; omega) | (split <;> decide))
    | decide

theorem State.stopRing_writes  (s : State) :
    Writes [.regs, .cnts, .posted, .free, .ring, .engines, .evt] s (State.stopRing s) := by
  unfold State.stopRing
  repeat' first
    | dsimp only
    | with_reducible exact Writes.refl _ _
    | (apply Writes.step; case k => with_reducible apply State.freshRing_writes)
    | (apply Writes.step; case k => with_reducible apply State.setRing_writes)
    | decide

theorem State.yieldRing_writes  (s : State) :
    Writes [.regs, .cnts, .posted, .free, .ring, .engines, .evt] s (State.yieldRing s) := by
  unfold State.yieldRing
  repeat' first
    | dsimp only
    | with_reducible exact Writes.refl _ _
    | (apply Writes.step; case k => with_reducible apply State.setRing_writes)
    | (apply Writes.step; case k => with_reducible apply State.freshRing_writes)
    | decide

theorem State.startClaim_writes  (s : State) :
    Writes [.regs, .cnts, .posted, .free, .ring, .engines, .evt] s (State.startClaim s) := by
  unfold State.startClaim
  repeat' first
    | dsimp only
    | with_reducible exact Writes.refl _ _
    | (apply Writes.step; case k => with_reducible apply State.setRing_writes)
    | (apply Writes.step; case k => with_reducible apply State.freshRing_writes)
    | decide

theorem State.cycleState_writes  (s : State) (n : Nat) :
    Writes [.regs, .cnts, .posted, .free, .ring, .engines, .evt] s (State.cycleState s n) := by
  unfold State.cycleState
  repeat' first
    | dsimp only
    | with_reducible exact Writes.refl _ _
    | (apply Writes.step; case k => with_reducible apply State.setRing_writes)
    | with_reducible refine Writes.ite ?_ ?_
    | decide
    | split

theorem State.cycleGrace_writes  (s : State) (n : Nat) :
    Writes [.regs, .ring] s (State.cycleGrace s n) := by
  unfold State.cycleGrace
  repeat' first
    | dsimp only
    | ((conv => arg 3; arg 39; skip); with_reducible refine Writes.set_ring ?_ ?_ _)
    | with_reducible exact Writes.refl _ _
    | (apply Writes.step; case k => (with_reducible apply State.setFlag_writes_ne) <;> first | decide | (dsimp only [Reg.RING_STATUS, Reg.RING_STATUS_GRACE, Reg.GLB_MODE, Field.of]; omega) | (split <;> decide))
    | with_reducible refine Writes.ite ?_ ?_
    | decide
    | (with_reducible (apply Writes.fst; case e => assumption))
    | split

theorem State.declareBreak_writes  (s : State) :
    Writes [.regs, .cnts, .posted, .free, .ring] s (State.declareBreak s) := by
  unfold State.declareBreak
  repeat' first
    | dsimp only
    | ((conv => arg 3; arg 39; skip); with_reducible refine Writes.set_ring ?_ ?_ _)
    | with_reducible exact Writes.refl _ _
    | (apply Writes.step; case k => (with_reducible apply State.setFlag_writes_ne) <;> first | decide | (dsimp only [Reg.PORT_LEAD, Reg.PORT_LEAD_LEAD_NS, Reg.RING_STATUS, Reg.RING_STATUS_GRACE, Reg.GLB_MODE, Field.of]; omega) | (split <;> decide))
    | (apply Writes.step; case k => with_reducible apply State.postOpen_writes)
    | (apply Writes.step; case k => with_reducible apply State.count_writes)
    | with_reducible refine Writes.ite ?_ ?_
    | decide
    | split

theorem State.copyRingBank_writes  (s : State) :
    Writes [.regs] s (State.copyRingBank s) := by
  unfold State.copyRingBank
  repeat' first
    | dsimp only
    | with_reducible exact Writes.refl _ _
    | (apply Writes.step; case k => (with_reducible apply State.copyRegs_writes_ne) <;> first | decide | (dsimp only [Reg.GLB_MODE, Field.of]; omega) | (split <;> decide))
    | decide

theorem State.cycleTable_writes  (s : State) (n : Nat) :
    Writes [.regs, .posted, .free] s (State.cycleTable s n) := by
  unfold State.cycleTable
  repeat' first
    | dsimp only
    | with_reducible exact Writes.refl _ _
    | (apply Writes.step; case k => with_reducible apply State.postOpen_writes)
    | (apply Writes.step; case k => (with_reducible apply State.setFld_writes_ne) <;> first | decide | (dsimp only [Reg.RING_TABLE_CHANGE, Reg.RING_TABLE_CHANGE_CYCLE, Reg.RING_TABLE_STATUS, Reg.RING_TABLE_STATUS_STATE, Reg.GLB_MODE, Field.of]; omega) | (split <;> decide))
    | (apply Writes.step; case k => with_reducible apply State.copyRingBank_writes)
    | with_reducible refine Writes.ite ?_ ?_
    | decide
    | split

theorem State.cycleMode_writes  (s : State) (n : Nat) :
    Writes [.regs, .posted, .free, .ring] s (State.cycleMode s n) := by
  unfold State.cycleMode
  repeat' first
    | dsimp only
    | ((conv => arg 3; arg 39; skip); with_reducible refine Writes.set_ring ?_ ?_ _)
    | with_reducible exact Writes.refl _ _
    | (apply Writes.step; case k => (with_reducible apply State.setFlag_writes_ne) <;> first | decide | (dsimp only [Reg.RING_LAMBDA_B, Reg.RING_STATUS, Reg.RING_STATUS_GRACE, Reg.RING_STATUS_LINE, Reg.GLB_MODE, Field.of]; omega) | (split <;> decide))
    | (apply Writes.step; case k => (with_reducible apply State.wr_writes_ne) <;> first | decide | (dsimp only [Reg.RING_LAMBDA_B, Reg.RING_STATUS, Reg.RING_STATUS_GRACE, Reg.RING_STATUS_LINE, Reg.GLB_MODE, Field.of]; omega) | (split <;> decide))
    | (apply Writes.step; case k => with_reducible apply State.postOpen_writes)
    | with_reducible refine Writes.ite ?_ ?_
    | decide
    | (with_reducible (apply Writes.fst; case e => assumption))
    | split

theorem State.enterCycle_writes  (s : State) (n : Nat) :
    Writes [.regs, .cnts, .posted, .free, .ring, .engines, .evt] s (State.enterCycle s n) := by
  unfold State.enterCycle
  repeat' first
    | dsimp only
    | ((conv => arg 3; arg 39; skip); with_reducible refine Writes.set_ring ?_ ?_ _)
    | with_reducible exact Writes.refl _ _
    | (apply Writes.step; case k => (with_reducible apply State.setFld_writes_ne) <;> first | decide | (dsimp only [Reg.RING_ETHERTYPE, Reg.RING_ETHERTYPE_ETHERTYPE, Reg.RING_STATUS, Reg.RING_STATUS_CYCLE, Reg.GLB_MODE, Field.of]; omega) | (split <;> decide))
    | (apply Writes.step; case k => with_reducible apply State.cycleState_writes)
    | (apply Writes.step; case k => with_reducible apply State.cycleGrace_writes)
    | (apply Writes.step; case k => with_reducible apply State.declareBreak_writes)
    | (apply Writes.step; case k => with_reducible apply State.cycleTable_writes)
    | (apply Writes.step; case k => with_reducible apply State.cycleMode_writes)
    | with_reducible refine Writes.ite ?_ ?_
    | decide
    | split

theorem State.startCycle_writes  (s : State) :
    Writes [.regs, .cnts, .posted, .lastPost, .out, .free, .ring, .engines, .evt] s (State.startCycle s) := by
  unfold State.startCycle
  repeat' first
    | dsimp only
    | with_reducible exact Writes.refl _ _
    | (apply Writes.step; case k => with_reducible apply State.stopRing_writes)
    | (apply Writes.step; case k => with_reducible apply State.yieldRing_writes)
    | (apply Writes.step; case k => with_reducible apply State.startClaim_writes)
    | (apply Writes.step; case k => with_reducible apply State.runCycle_writes)
    | (apply Writes.step; case k => with_reducible apply State.enterCycle_writes)
    | with_reducible refine Writes.ite ?_ ?_
    | decide
    | split

theorem State.launchPoll_writes  (s : State) (n : Nat) (bank : RingBank) (b : BuiltPoll) :
    Writes [.cnts, .out, .free, .queues, .ring] s (State.launchPoll s n bank b) := by
  unfold State.launchPoll
  repeat' first
    | dsimp only
    | ((conv => arg 3; arg 39; skip); with_reducible refine Writes.set_ring ?_ ?_ _)
    | with_reducible exact Writes.refl _ _
    | (apply Writes.step; case k => with_reducible apply State.launchAt_writes)
    | (apply Writes.step; case k => with_reducible apply State.sendRing_writes)
    | (apply Writes.step; case k => with_reducible apply State.count_writes)
    | (apply Writes.step; case k => with_reducible apply State.complete_writes)
    | with_reducible refine Writes.ite ?_ ?_
    | decide
    | (with_reducible (apply Writes.fst; case e => assumption))
    | split

theorem State.ringReturn_writes  (s : State) (port : Nat) (type : Nat) (cycle : Nat) (ret : Bool) :
    Writes [.regs, .cnts, .posted, .free, .ring] s (State.ringReturn s port type cycle ret) := by
  unfold State.ringReturn
  repeat' first
    | dsimp only
    | ((conv => arg 3; arg 39; skip); with_reducible refine Writes.set_ring ?_ ?_ _)
    | with_reducible exact Writes.refl _ _
    | (apply Writes.step; case k => with_reducible apply State.declareBreak_writes)
    | with_reducible refine Writes.ite ?_ ?_
    | decide
    | split

theorem State.relayLaunch_writes  (s : State) :
    Writes [.cnts, .out, .ring] s (State.relayLaunch s) := by
  unfold State.relayLaunch
  repeat' first
    | dsimp only
    | ((conv => arg 3; arg 39; skip); with_reducible refine Writes.set_ring ?_ ?_ _)
    | with_reducible exact Writes.refl _ _
    | (apply Writes.step; case k => with_reducible apply State.sendRingBytes_writes)
    | with_reducible refine Writes.ite ?_ ?_
    | decide
    | (with_reducible (apply Writes.fst; case e => assumption))
    | split

theorem State.setStationBit_writes (s : State) (r a : Nat) (b : Bool) :
    Writes [.regs, .mode] s (State.setStationBit s r a b) := State.wrN_writes _ _ _

theorem State.setStationBit_writes_ne (s : State) (r a : Nat) (b : Bool) (h : Reg.GLB_MODE < r) :
    Writes [.regs] s (State.setStationBit s r a b) :=
  State.wrN_writes_ne _ _ _ (Nat.ne_of_gt (Nat.lt_of_lt_of_le h (Nat.le_add_right _ _)))

theorem State.notePeer_writes  (s : State) (a : Nat) (n : Nat) (good : Bool) :
    Writes [.ring] s (State.notePeer s a n good) := by
  unfold State.notePeer
  repeat' first
    | dsimp only
    | ((conv => arg 3; arg 39; skip); with_reducible refine Writes.set_ring ?_ ?_ _)
    | with_reducible exact Writes.refl _ _
    | with_reducible refine Writes.ite ?_ ?_
    | decide
    | split

theorem State.setStationRec_writes  (s : State) (a : Nat) (word : Nat) (lo : Nat) (width : Nat) (v : Nat) :
    Writes [.regs] s (State.setStationRec s a word lo width v) := by
  unfold State.setStationRec
  repeat' first
    | dsimp only
    | with_reducible exact Writes.refl _ _
    | (apply Writes.step; case k => (with_reducible apply State.wrN_writes_ne) <;> first | decide | (dsimp only [Reg.GLB_MODE, Field.of]; omega) | (split <;> decide))
    | decide

theorem State.missSlot_writes  (s : State) (p : RingPoll) :
    Writes [.regs, .cnts, .posted, .free, .ring] s (State.missSlot s p) := by
  unfold State.missSlot
  repeat' first
    | dsimp only
    | with_reducible exact Writes.refl _ _
    | (apply Writes.step; case k => with_reducible apply State.notePeer_writes)
    | (apply Writes.step; case k => with_reducible apply State.count_writes)
    | (apply Writes.step; case k => with_reducible apply State.setStationRec_writes)
    | (apply Writes.step; case k => with_reducible apply State.postOpen_writes)
    | (apply Writes.step; case k => (with_reducible apply State.setStationBit_writes_ne) <;> first | decide | (dsimp only [Reg.RING_EXCLUDED, Reg.RING_MISS_LIMIT, Reg.RING_MISS_LIMIT_LIMIT, Reg.GLB_MODE, Field.of]; omega) | (split <;> decide))
    | with_reducible refine Writes.ite ?_ ?_
    | decide
    | split

theorem State.setBridge_writes  (s : State) (b : Int) :
    Writes [.regs, .ring] s (State.setBridge s b) := by
  unfold State.setBridge
  repeat' first
    | dsimp only
    | ((conv => arg 3; arg 39; skip); with_reducible refine Writes.set_ring ?_ ?_ _)
    | with_reducible exact Writes.refl _ _
    | (apply Writes.step; case k => (with_reducible apply State.wr64_writes_ne) <;> first | decide | (dsimp only [Reg.RING_BRIDGE_LO, Reg.GLB_MODE, Field.of]; omega) | (split <;> decide))
    | decide

theorem State.standBy_writes  (s : State) :
    Writes [.regs, .cnts, .posted, .free, .ring, .engines, .evt] s (State.standBy s) := by
  unfold State.standBy
  repeat' first
    | dsimp only
    | ((conv => arg 3; arg 39; skip); with_reducible refine Writes.set_ring ?_ ?_ _)
    | with_reducible exact Writes.refl _ _
    | (apply Writes.step; case k => with_reducible apply State.setRing_writes)
    | decide

theorem State.losesActive_writes  (s : State) :
    Writes [.regs, .cnts, .posted, .free, .ring, .engines, .evt] s (State.losesActive s) := by
  unfold State.losesActive
  repeat' first
    | dsimp only
    | ((conv => arg 3; arg 39; skip); with_reducible refine Writes.set_ring ?_ ?_ _)
    | with_reducible exact Writes.refl _ _
    | (apply Writes.step; case k => with_reducible apply State.standBy_writes)
    | with_reducible refine Writes.ite ?_ ?_
    | decide
    | split

theorem State.loadRingSlot_writes  (s : State) (base : Nat) (k : Nat) (x : RingSlot) :
    Writes [.regs] s (State.loadRingSlot s base k x) := by
  unfold State.loadRingSlot
  repeat' first
    | dsimp only
    | with_reducible exact Writes.refl _ _
    | (apply Writes.step; case k => (with_reducible apply State.wrN_writes_ne) <;> first | decide | (dsimp only [Reg.GLB_MODE, Field.of]; omega) | (split <;> decide))
    | decide

theorem State.deliverReply_writes  (s : State) (p : RingPoll) (r : RingReply) :
    Writes [.regs, .cnts, .cells, .frames, .nextFrame, .queues, .ring] s (State.deliverReply s p r) := by
  unfold State.deliverReply
  repeat' first
    | dsimp only
    | ((conv => arg 3; arg 39; skip); with_reducible refine Writes.set_ring ?_ ?_ _)
    | with_reducible exact Writes.refl _ _
    | (apply Writes.step; case k => with_reducible apply State.setStationRec_writes)
    | (apply Writes.step; case k => with_reducible apply State.count_writes)
    | (apply Writes.step; case k => with_reducible apply State.notePeer_writes)
    | (apply Writes.step; case k => with_reducible apply State.allocFrame_writes)
    | (apply Writes.step; case k => with_reducible apply State.toRxq_writes)
    | with_reducible refine Writes.ite ?_ ?_
    | decide
    | split

theorem State.delayBack_writes  (s : State) (port : Nat) (seq : Nat) (side : Nat) (ageNs : Nat) :
    Writes [.ring] s (State.delayBack s port seq side ageNs) := by
  unfold State.delayBack
  repeat' first
    | dsimp only
    | ((conv => arg 3; arg 39; skip); with_reducible refine Writes.set_ring ?_ ?_ _)
    | with_reducible exact Writes.refl _ _
    | with_reducible refine Writes.ite ?_ ?_
    | decide
    | (with_reducible (apply Writes.fst; case e => assumption))
    | split

theorem State.replyReceive_writes  (s : State) (port : Nat) (h : RingHdr) (payload : List Byte) (ageNs : Nat) :
    Writes [.regs, .cnts, .posted, .lastPost, .free, .ring] s (State.replyReceive s port h payload ageNs) := by
  unfold State.replyReceive
  repeat' first
    | dsimp only
    | ((conv => arg 3; arg 39; skip); with_reducible refine Writes.set_ring ?_ ?_ _)
    | with_reducible exact Writes.refl _ _
    | (apply Writes.step; case k => with_reducible apply State.count_writes)
    | (apply Writes.step; case k => with_reducible apply State.checkDelay_writes)
    | (apply Writes.step; case k => with_reducible apply State.postOpenLimited_writes)
    | (apply Writes.step; case k => (with_reducible apply State.setStationBit_writes_ne) <;> first | decide | (dsimp only [Reg.RING_DRIFT, Reg.TB_LAT_RX, Reg.GLB_MODE, Field.of]; omega) | (split <;> decide))
    | (apply Writes.step; case k => with_reducible apply State.mapPoll_writes)
    | with_reducible refine Writes.ite ?_ ?_
    | decide
    | (with_reducible (apply Writes.fst; case e => assumption))
    | split

theorem State.loadRingMark_writes  (s : State) (base : Nat) (m : Nat) (x : RingMark) :
    Writes [.regs] s (State.loadRingMark s base m x) := by
  unfold State.loadRingMark
  repeat' first
    | dsimp only
    | with_reducible exact Writes.refl _ _
    | (apply Writes.step; case k => (with_reducible apply State.wrN_writes_ne) <;> first | decide | (dsimp only [Reg.GLB_MODE, Field.of]; omega) | (split <;> decide))
    | decide

theorem State.standbyDelay_writes  (s : State) (port : Nat) (h : RingHdr) (b : List Byte) (ageNs : Nat) :
    Writes [.ring] s (State.standbyDelay s port h b ageNs) := by
  unfold State.standbyDelay
  repeat' first
    | dsimp only
    | ((conv => arg 3; arg 39; skip); with_reducible refine Writes.set_ring ?_ ?_ _)
    | with_reducible exact Writes.refl _ _
    | with_reducible refine Writes.ite ?_ ?_
    | decide
    | (with_reducible (apply Writes.fst; case e => assumption))
    | split

theorem State.enterMeasure_writes  (s : State) (n : Nat) (c : Int) :
    Writes [.regs, .cnts, .posted, .free, .ring, .engines, .evt] s (State.enterMeasure s n c) := by
  unfold State.enterMeasure
  repeat' first
    | dsimp only
    | ((conv => arg 3; arg 39; skip); with_reducible refine Writes.set_ring ?_ ?_ _)
    | with_reducible exact Writes.refl _ _
    | (apply Writes.step; case k => (with_reducible apply State.setFlag_writes_ne) <;> first | decide | (dsimp only [Reg.RING_STATUS, Reg.RING_STATUS_GRACE, Reg.GLB_MODE, Field.of]; omega) | (split <;> decide))
    | (apply Writes.step; case k => with_reducible apply State.setRing_writes)
    | decide

theorem State.alignStandby_writes  (s : State) (h : RingHdr) (ageNs : Nat) :
    Writes [.regs, .ring] s (State.alignStandby s h ageNs) := by
  unfold State.alignStandby
  repeat' first
    | dsimp only
    | ((conv => arg 3; arg 39; skip); with_reducible refine Writes.set_ring ?_ ?_ _)
    | with_reducible exact Writes.refl _ _
    | (apply Writes.step; case k => with_reducible apply State.setBridge_writes)
    | (apply Writes.step; case k => (with_reducible apply State.setFld_writes_ne) <;> first | decide | (dsimp only [Reg.RING_ETHERTYPE, Reg.RING_ETHERTYPE_ETHERTYPE, Reg.RING_STATUS, Reg.RING_STATUS_CYCLE, Reg.GLB_MODE, Field.of]; omega) | (split <;> decide))
    | with_reducible refine Writes.ite ?_ ?_
    | decide
    | split

theorem State.standbyForward_writes  (s : State) (n : Nat) (b : List Byte) (ageNs : Nat) :
    Writes [.regs, .ring] s (State.standbyForward s n b ageNs) := by
  unfold State.standbyForward
  repeat' first
    | dsimp only
    | ((conv => arg 3; arg 39; skip); with_reducible refine Writes.set_ring ?_ ?_ _)
    | with_reducible exact Writes.refl _ _
    | (apply Writes.step; case k => with_reducible apply State.alignStandby_writes)
    | (apply Writes.step; case k => with_reducible apply State.standbyDelay_writes)
    | with_reducible refine Writes.ite ?_ ?_
    | decide
    | split

theorem State.slotDeadline_writes  (s : State) (c : Nat) (slot : Nat) :
    Writes [.regs, .cnts, .posted, .lastPost, .free, .cells, .frames, .nextFrame, .queues, .ring] s (State.slotDeadline s c slot) := by
  unfold State.slotDeadline
  repeat' first
    | dsimp only
    | with_reducible exact Writes.refl _ _
    | (apply Writes.step; case k => with_reducible apply State.mapPoll_writes)
    | (apply Writes.step; case k => with_reducible apply State.deliverReply_writes)
    | (apply Writes.step; case k => with_reducible apply State.missSlot_writes)
    | (apply Writes.step; case k => with_reducible apply State.postOpenLimited_writes)
    | (apply Writes.step; case k => with_reducible apply State.count_writes)
    | with_reducible refine Writes.ite ?_ ?_
    | decide
    | (with_reducible (apply Writes.fst; case e => assumption))
    | split

theorem State.claimReceive_writes  (s : State) (prio : Nat) (serial : Nat) :
    Writes [.regs, .cnts, .posted, .out, .free, .ring, .engines, .evt] s (State.claimReceive s prio serial) := by
  unfold State.claimReceive
  repeat' first
    | dsimp only
    | with_reducible exact Writes.refl _ _
    | (apply Writes.step; case k => with_reducible apply State.postOpen_writes)
    | (apply Writes.step; case k => with_reducible apply State.standBy_writes)
    | (apply Writes.step; case k => with_reducible apply State.sendClaim_writes)
    | with_reducible refine Writes.ite ?_ ?_
    | decide
    | split

theorem State.ringTick_writes  (s : State) :
    Writes [.cnts, .posted, .out, .free, .queues, .ring] s (State.ringTick s) := by
  unfold State.ringTick
  repeat' first
    | dsimp only
    | ((conv => arg 3; arg 39; skip); with_reducible refine Writes.set_ring ?_ ?_ _)
    | with_reducible exact Writes.refl _ _
    | (apply Writes.step; case k => with_reducible apply State.measureCycle_writes)
    | (apply Writes.step; case k => with_reducible apply State.launchPoll_writes)
    | with_reducible refine Writes.ite ?_ ?_
    | with_reducible refine Writes.foldl ?_ ?_
    | with_reducible refine Writes.foldlFst ?_ ?_
    | decide
    | intro _
    | (with_reducible (apply Writes.fst; case e => assumption))
    | split

theorem State.foreignMaster_writes  (s : State) :
    Writes [.regs, .cnts, .posted, .free, .ring, .engines, .evt] s (State.foreignMaster s) := by
  unfold State.foreignMaster
  repeat' first
    | dsimp only
    | ((conv => arg 3; arg 39; skip); with_reducible refine Writes.set_ring ?_ ?_ _)
    | with_reducible exact Writes.refl _ _
    | (apply Writes.step; case k => with_reducible apply State.standBy_writes)
    | (apply Writes.step; case k => with_reducible apply State.postOpen_writes)
    | (apply Writes.step; case k => with_reducible apply State.count_writes)
    | with_reducible refine Writes.ite ?_ ?_
    | decide
    | split

theorem State.winClaim_writes  (s : State) :
    Writes [.regs, .cnts, .posted, .free, .ring, .engines, .evt] s (State.winClaim s) := by
  unfold State.winClaim
  repeat' first
    | dsimp only
    | with_reducible exact Writes.refl _ _
    | (apply Writes.step; case k => with_reducible apply State.postOpen_writes)
    | (apply Writes.step; case k => with_reducible apply State.enterMeasure_writes)
    | (apply Writes.step; case k => with_reducible apply State.declareBreak_writes)
    | with_reducible refine Writes.ite ?_ ?_
    | decide
    | split

theorem State.loadRingBank_writes  (s : State) (oper : Bool) (sh : RingSheet) :
    Writes [.regs] s (State.loadRingBank s oper sh) := by
  unfold State.loadRingBank
  repeat' first
    | dsimp only
    | with_reducible exact Writes.refl _ _
    | (apply Writes.step; case k => with_reducible apply State.loadRingSlot_writes)
    | (apply Writes.step; case k => with_reducible apply State.loadRingMark_writes)
    | (apply Writes.step; case k => (with_reducible apply State.wrN_writes_ne) <;> first | decide | (dsimp only [Reg.GLB_MODE, Field.of]; omega) | (split <;> decide))
    | with_reducible refine Writes.ite ?_ ?_
    | with_reducible refine Writes.foldl ?_ ?_
    | with_reducible refine Writes.foldlFst ?_ ?_
    | decide
    | intro _
    | split

theorem State.buildPoll_writes  (s : State) (oper : Bool) (i : Nat) (k : RingSlot) :
    Writes [.cnts, .queues, .ring] s ((State.buildPoll s oper i k).1) := by
  unfold State.buildPoll
  repeat' first
    | dsimp only
    | ((conv => arg 3; arg 39; skip); with_reducible refine Writes.set_ring ?_ ?_ _)
    | with_reducible exact Writes.refl _ _
    | (apply Writes.step; case k => with_reducible apply State.count_writes)
    | (apply Writes.step; case k => with_reducible apply State.complete_writes)
    | with_reducible refine Writes.ite ?_ ?_
    | decide
    | (with_reducible (apply Writes.fst; case e => assumption))
    | split

theorem State.delayOut_writes  (s : State) (port : Nat) (seq : Nat) (side : Nat) (ret : Bool) (ageNs : Nat) :
    Writes [.regs, .cnts, .out, .ring] s (State.delayOut s port seq side ret ageNs) := by
  unfold State.delayOut
  repeat' first
    | dsimp only
    | ((conv => arg 3; arg 39; skip); with_reducible refine Writes.set_ring ?_ ?_ _)
    | with_reducible exact Writes.refl _ _
    | (apply Writes.step; case k => (with_reducible apply State.wrN_writes_ne) <;> first | decide | (dsimp only [Reg.RING_LAMBDA_A, Reg.RING_LAMBDA_B, Reg.GLB_MODE, Field.of]; omega) | (split <;> decide))
    | (apply Writes.step; case k => (with_reducible apply State.wr_writes_ne) <;> first | decide | (dsimp only [Reg.RING_LAMBDA_A, Reg.RING_LAMBDA_B, Reg.GLB_MODE, Field.of]; omega) | (split <;> decide))
    | (apply Writes.step; case k => with_reducible apply State.sendRing_writes)
    | with_reducible refine Writes.ite ?_ ?_
    | decide
    | (with_reducible (apply Writes.fst; case e => assumption))
    | split

theorem State.ringReceive_writes  (s : State) (port : Nat) (b : List Byte) (ageNs : Nat) :
    Writes [.regs, .cnts, .posted, .lastPost, .out, .free, .ring, .engines, .evt] s (State.ringReceive s port b ageNs) := by
  unfold State.ringReceive
  repeat' first
    | dsimp only
    | with_reducible exact Writes.refl _ _
    | (apply Writes.step; case k => with_reducible apply State.standbyForward_writes)
    | (apply Writes.step; case k => with_reducible apply State.count_writes)
    | (apply Writes.step; case k => with_reducible apply State.declareBreak_writes)
    | (apply Writes.step; case k => with_reducible apply State.replyReceive_writes)
    | (apply Writes.step; case k => with_reducible apply State.claimReceive_writes)
    | (apply Writes.step; case k => with_reducible apply State.ringReturn_writes)
    | (apply Writes.step; case k => with_reducible apply State.foreignMaster_writes)
    | (apply Writes.step; case k => with_reducible apply State.delayOut_writes)
    | (apply Writes.step; case k => with_reducible apply State.delayBack_writes)
    | with_reducible refine Writes.ite ?_ ?_
    | decide
    | split

theorem State.takeMastership_writes  (s : State) :
    Writes [.regs, .cnts, .posted, .free, .ring, .engines, .evt] s (State.takeMastership s) := by
  unfold State.takeMastership
  repeat' first
    | dsimp only
    | with_reducible exact Writes.refl _ _
    | (apply Writes.step; case k => (with_reducible apply State.setFlag_writes_ne) <;> first | decide | (dsimp only [Reg.RING_STATUS, Reg.RING_STATUS_LINE, Reg.GLB_MODE, Field.of]; omega) | (split <;> decide))
    | (apply Writes.step; case k => with_reducible apply State.enterMeasure_writes)
    | with_reducible refine Writes.ite ?_ ?_
    | decide
    | (with_reducible (apply Writes.fst; case e => assumption))
    | split

theorem State.buildCycle_writes  (s : State) (c : Nat) :
    Writes [.cnts, .queues, .ring] s (State.buildCycle s c) := by
  unfold State.buildCycle
  repeat' first
    | dsimp only
    | ((conv => arg 3; arg 39; skip); with_reducible refine Writes.set_ring ?_ ?_ _)
    | with_reducible exact Writes.refl _ _
    | (apply Writes.step; case k => with_reducible apply State.buildPoll_writes)
    | (apply Writes.step; case k => with_reducible apply State.count_writes)
    | with_reducible refine Writes.ite ?_ ?_
    | with_reducible refine Writes.foldl ?_ ?_
    | with_reducible refine Writes.foldlFst ?_ ?_
    | decide
    | intro _
    | (with_reducible (apply Writes.fst; case e => assumption))
    | split

end Sys2Proof.Machine
end

