-- ==== Sys2Proof/Laws/WritesRing.lean ====
section
/-! SUPPORT. What each operation of Machine/Ring.lean writes. -/

namespace Sys2Proof.Machine

theorem execReply_writes  (side : Fin 2) (cycle : BitVec 16) (slot : BitVec 12) (station : BitVec 8) (flags : BitVec 8) (d : BitVec 32) (payload : List Byte) (ageNs : Nat) (s : State) {s' : State}
    (h : execReply side cycle slot station flags d payload ageNs s = .next s') : Writes [.regs, .cnts, .posted, .lastPost, .free, .ring] s s' := by
  unfold execReply at h
  injection h with h
  subst h
  repeat' first
    | dsimp only
    | with_reducible exact Writes.refl _ _
    | (apply Writes.step; case k => with_reducible apply State.declareBreak_writes)
    | (apply Writes.step; case k => with_reducible apply State.replyReceive_writes)
    | with_reducible refine Writes.ite ?_ ?_
    | decide
    | split

theorem State.refuseTable_writes  (s : State) (error : Nat) (entry : Nat) :
    Writes [.regs, .posted, .free] s (State.refuseTable s error entry) := by
  unfold State.refuseTable
  repeat' first
    | dsimp only
    | with_reducible exact Writes.refl _ _
    | (apply Writes.step; case k => with_reducible apply State.postOpen_writes)
    | (apply Writes.step; case k => (with_reducible apply State.setFld_writes_ne) <;> first | decide | (dsimp only [Reg.RING_TABLE_STATUS, Reg.RING_TABLE_STATUS_ENTRY, Reg.RING_TABLE_STATUS_ERROR, Reg.GLB_MODE, Field.of]; omega) | (split <;> decide))
    | decide

theorem execRingEthertypeWrite_writes  (value : BitVec 16) (s : State) {s' : State}
    (h : execRingEthertypeWrite value s = .next s') : Writes [.regs, .ring] s s' := by
  unfold execRingEthertypeWrite at h
  injection h with h
  subst h
  repeat' first
    | dsimp only
    | ((conv => arg 3; arg 39; skip); with_reducible refine Writes.set_ring ?_ ?_ _)
    | with_reducible exact Writes.refl _ _
    | (apply Writes.step; case k => (with_reducible apply State.setFld_writes_ne) <;> first | decide | (dsimp only [Reg.RING_ETHERTYPE, Reg.RING_ETHERTYPE_ETHERTYPE, Reg.GLB_MODE, Field.of]; omega) | (split <;> decide))
    | with_reducible refine Writes.ite ?_ ?_
    | decide
    | split

theorem execStandbyRelayLaunch_writes  (s : State) {s' : State}
    (h : execStandbyRelayLaunch s = .next s') : Writes [.cnts, .out, .ring] s s' := by
  unfold execStandbyRelayLaunch at h
  injection h with h
  subst h
  repeat' first
    | dsimp only
    | with_reducible exact Writes.refl _ _
    | (apply Writes.step; case k => with_reducible apply State.relayLaunch_writes)
    | decide

theorem execDelayOutReceive_writes  (side : Fin 2) (seq : BitVec 16) (of : Fin 2) (ret : Bool) (ageNs : Nat) (s : State) {s' : State}
    (h : execDelayOutReceive side seq of ret ageNs s = .next s') : Writes [.regs, .cnts, .out, .ring] s s' := by
  unfold execDelayOutReceive at h
  injection h with h
  subst h
  repeat' first
    | dsimp only
    | with_reducible exact Writes.refl _ _
    | (apply Writes.step; case k => with_reducible apply State.delayOut_writes)
    | decide

theorem execRingListenEnd_writes  (s : State) {s' : State}
    (h : execRingListenEnd s = .next s') : Writes [.regs, .cnts, .posted, .free, .ring, .engines, .evt] s s' := by
  unfold execRingListenEnd at h
  injection h with h
  subst h
  repeat' first
    | dsimp only
    | with_reducible exact Writes.refl _ _
    | (apply Writes.step; case k => with_reducible apply State.startClaim_writes)
    | (apply Writes.step; case k => with_reducible apply State.standBy_writes)
    | with_reducible refine Writes.ite ?_ ?_
    | decide
    | split

theorem execClaimWon_writes  (s : State) {s' : State}
    (h : execClaimWon s = .next s') : Writes [.regs, .cnts, .posted, .free, .ring, .engines, .evt] s s' := by
  unfold execClaimWon at h
  injection h with h
  subst h
  repeat' first
    | dsimp only
    | with_reducible exact Writes.refl _ _
    | (apply Writes.step; case k => with_reducible apply State.winClaim_writes)
    | with_reducible refine Writes.ite ?_ ?_
    | decide
    | split

theorem execRingEnableWrite_writes  (enable : Bool) (s : State) {s' : State}
    (h : execRingEnableWrite enable s = .next s') : Writes [.regs, .cnts, .posted, .free, .ring, .engines, .evt] s s' := by
  unfold execRingEnableWrite at h
  injection h with h
  subst h
  repeat' first
    | dsimp only
    | ((conv => arg 3; arg 39; skip); with_reducible refine Writes.set_ring ?_ ?_ _)
    | with_reducible exact Writes.refl _ _
    | (apply Writes.step; case k => (with_reducible apply State.setFlag_writes_ne) <;> first | decide | (dsimp only [Reg.RING_CTRL, Reg.RING_CTRL_ENABLE, Reg.GLB_MODE, Field.of]; omega) | (split <;> decide))
    | (apply Writes.step; case k => with_reducible apply State.setRing_writes)
    | (apply Writes.step; case k => with_reducible apply State.setBridge_writes)
    | (apply Writes.step; case k => with_reducible apply State.freshRing_writes)
    | (apply Writes.step; case k => with_reducible apply State.stopRing_writes)
    | with_reducible refine Writes.ite ?_ ?_
    | decide
    | split

theorem execRingSlotDeadline_writes  (cycle : BitVec 16) (slot : BitVec 12) (s : State) {s' : State}
    (h : execRingSlotDeadline cycle slot s = .next s') : Writes [.regs, .cnts, .posted, .lastPost, .free, .cells, .frames, .nextFrame, .queues, .ring] s s' := by
  unfold execRingSlotDeadline at h
  injection h with h
  subst h
  repeat' first
    | dsimp only
    | with_reducible exact Writes.refl _ _
    | (apply Writes.step; case k => with_reducible apply State.slotDeadline_writes)
    | decide

theorem execRingTableValidated_writes  (s : State) {s' : State}
    (h : execRingTableValidated s = .next s') : Writes [.regs, .posted, .free, .ring] s s' := by
  unfold execRingTableValidated at h
  injection h with h
  subst h
  repeat' first
    | dsimp only
    | ((conv => arg 3; arg 39; skip); with_reducible refine Writes.set_ring ?_ ?_ _)
    | with_reducible exact Writes.refl _ _
    | (apply Writes.step; case k => with_reducible apply State.refuseTable_writes)
    | (apply Writes.step; case k => (with_reducible apply State.setFld_writes_ne) <;> first | decide | (dsimp only [Reg.RING_TABLE_CHANGE, Reg.RING_TABLE_CHANGE_CYCLE, Reg.RING_TABLE_STATUS, Reg.RING_TABLE_STATUS_STATE, Reg.TB_SETUP_MARGIN, Reg.TB_SETUP_MARGIN_MARGIN_NS, Reg.GLB_MODE, Field.of]; omega) | (split <;> decide))
    | with_reducible refine Writes.ite ?_ ?_
    | decide
    | (with_reducible (apply Writes.fst; case e => assumption))
    | split

theorem execClaimSend_writes  (s : State) {s' : State}
    (h : execClaimSend s = .next s') : Writes [.cnts, .out, .free, .ring] s s' := by
  unfold execClaimSend at h
  injection h with h
  subst h
  repeat' first
    | dsimp only
    | ((conv => arg 3; arg 39; skip); with_reducible refine Writes.set_ring ?_ ?_ _)
    | with_reducible exact Writes.refl _ _
    | (apply Writes.step; case k => with_reducible apply State.sendClaim_writes)
    | with_reducible refine Writes.ite ?_ ?_
    | decide
    | split

theorem execForeignMaster_writes  (s : State) {s' : State}
    (h : execForeignMaster s = .next s') : Writes [.regs, .cnts, .posted, .free, .ring, .engines, .evt] s s' := by
  unfold execForeignMaster at h
  injection h with h
  subst h
  repeat' first
    | dsimp only
    | with_reducible exact Writes.refl _ _
    | (apply Writes.step; case k => with_reducible apply State.foreignMaster_writes)
    | decide

theorem execRingCycleBuild_writes  (cycle : BitVec 16) (s : State) {s' : State}
    (h : execRingCycleBuild cycle s = .next s') : Writes [.cnts, .queues, .ring] s s' := by
  unfold execRingCycleBuild at h
  injection h with h
  subst h
  repeat' first
    | dsimp only
    | with_reducible exact Writes.refl _ _
    | (apply Writes.step; case k => with_reducible apply State.buildCycle_writes)
    | decide

theorem execDelayBackReceive_writes  (side : Fin 2) (seq : BitVec 16) (of : Fin 2) (ageNs : Nat) (s : State) {s' : State}
    (h : execDelayBackReceive side seq of ageNs s = .next s') : Writes [.ring] s s' := by
  unfold execDelayBackReceive at h
  injection h with h
  subst h
  repeat' first
    | dsimp only
    | with_reducible exact Writes.refl _ _
    | (apply Writes.step; case k => with_reducible apply State.delayBack_writes)
    | decide

theorem execStandbyForward_writes  (side : Fin 2) (bytes : List Byte) (ageNs : Nat) (s : State) {s' : State}
    (h : execStandbyForward side bytes ageNs s = .next s') : Writes [.regs, .ring] s s' := by
  unfold execStandbyForward at h
  injection h with h
  subst h
  repeat' first
    | dsimp only
    | with_reducible exact Writes.refl _ _
    | (apply Writes.step; case k => with_reducible apply State.standbyForward_writes)
    | decide

theorem execRingReturnFrame_writes  (side : Fin 2) (type : BitVec 4) (cycle : BitVec 16) (ret : Bool) (s : State) {s' : State}
    (h : execRingReturnFrame side type cycle ret s = .next s') : Writes [.regs, .cnts, .posted, .free, .ring] s s' := by
  unfold execRingReturnFrame at h
  injection h with h
  subst h
  repeat' first
    | dsimp only
    | with_reducible exact Writes.refl _ _
    | (apply Writes.step; case k => with_reducible apply State.ringReturn_writes)
    | decide

theorem execRingTableCancel_writes  (s : State) {s' : State}
    (h : execRingTableCancel s = .next s') : Writes [.regs] s s' := by
  unfold execRingTableCancel at h
  injection h with h
  subst h
  repeat' first
    | dsimp only
    | with_reducible exact Writes.refl _ _
    | (apply Writes.step; case k => (with_reducible apply State.setFld_writes_ne) <;> first | decide | (dsimp only [Reg.RING_TABLE_STATUS, Reg.RING_TABLE_STATUS_STATE, Reg.GLB_MODE, Field.of]; omega) | (split <;> decide))
    | decide

theorem execRingReadmit_writes  (station : BitVec 8) (s : State) {s' : State}
    (h : execRingReadmit station s = .next s') : Writes [.regs] s s' := by
  unfold execRingReadmit at h
  injection h with h
  subst h
  repeat' first
    | dsimp only
    | with_reducible exact Writes.refl _ _
    | (apply Writes.step; case k => with_reducible apply State.setStationRec_writes)
    | (apply Writes.step; case k => (with_reducible apply State.setStationBit_writes_ne) <;> first | decide | (dsimp only [Reg.RING_EXCLUDED, Reg.GLB_MODE, Field.of]; omega) | (split <;> decide))
    | decide

theorem execClaimReceive_writes  (priority : BitVec 8) (serial : BitVec 64) (s : State) {s' : State}
    (h : execClaimReceive priority serial s = .next s') : Writes [.regs, .cnts, .posted, .out, .free, .ring, .engines, .evt] s s' := by
  unfold execClaimReceive at h
  injection h with h
  subst h
  repeat' first
    | dsimp only
    | with_reducible exact Writes.refl _ _
    | (apply Writes.step; case k => with_reducible apply State.claimReceive_writes)
    | decide

theorem execRingHoldoffEnd_writes  (s : State) {s' : State}
    (h : execRingHoldoffEnd s = .next s') : Writes [.ring] s s' := by
  unfold execRingHoldoffEnd at h
  injection h with h
  subst h
  repeat' first
    | dsimp only
    | ((conv => arg 3; arg 39; skip); with_reducible refine Writes.set_ring ?_ ?_ _)
    | with_reducible exact Writes.refl _ _
    | with_reducible refine Writes.ite ?_ ?_
    | decide
    | split

theorem execRingTableGo_writes  (s : State) {s' : State}
    (h : execRingTableGo s = .next s') : Writes [.regs, .posted, .free] s s' := by
  unfold execRingTableGo at h
  injection h with h
  subst h
  repeat' first
    | dsimp only
    | with_reducible exact Writes.refl _ _
    | (apply Writes.step; case k => (with_reducible apply State.setFld_writes_ne) <;> first | decide | (dsimp only [Reg.RING_TABLE_STATUS, Reg.RING_TABLE_STATUS_STATE, Reg.GLB_MODE, Field.of]; omega) | (split <;> decide))
    | (apply Writes.step; case k => with_reducible apply State.refuseTable_writes)
    | with_reducible refine Writes.ite ?_ ?_
    | decide
    | split

theorem execHeal_writes  (s : State) {s' : State}
    (h : execHeal s = .next s') : Writes [.ring] s s' := by
  unfold execHeal at h
  injection h with h
  subst h
  repeat' first
    | dsimp only
    | ((conv => arg 3; arg 39; skip); with_reducible refine Writes.set_ring ?_ ?_ _)
    | with_reducible exact Writes.refl _ _
    | with_reducible refine Writes.ite ?_ ?_
    | decide
    | split

theorem execRingCycleReturnTimeout_writes  (s : State) {s' : State}
    (h : execRingCycleReturnTimeout s = .next s') : Writes [.regs, .cnts, .posted, .free, .ring] s s' := by
  unfold execRingCycleReturnTimeout at h
  injection h with h
  subst h
  repeat' first
    | dsimp only
    | with_reducible exact Writes.refl _ _
    | (apply Writes.step; case k => with_reducible apply State.declareBreak_writes)
    | with_reducible refine Writes.ite ?_ ?_
    | decide
    | (with_reducible (apply Writes.fst; case e => assumption))
    | split

theorem execMeasure_writes  (s : State) {s' : State}
    (h : execMeasure s = .next s') : Writes [.ring] s s' := by
  unfold execMeasure at h
  injection h with h
  subst h
  repeat' first
    | dsimp only
    | ((conv => arg 3; arg 39; skip); with_reducible refine Writes.set_ring ?_ ?_ _)
    | with_reducible exact Writes.refl _ _
    | with_reducible refine Writes.ite ?_ ?_
    | decide
    | split

end Sys2Proof.Machine
end

