-- ==== Sys2Proof/Laws/WritesPorts.lean ====
section
/-! SUPPORT. What each operation of Machine/Ports.lean writes. -/

namespace Sys2Proof.Machine

theorem State.logRx_writes  (s : State) (n : Nat) :
    Writes [.ports] s (State.logRx s n) := by
  unfold State.logRx
  repeat' first
    | dsimp only
    | with_reducible exact Writes.refl _ _
    | (apply Writes.step; case k => with_reducible apply State.setPort_writes)
    | decide

theorem State.takeBack_writes  (s : State) (n : Nat) :
    Writes [.cnts, .ports] s (State.takeBack s n) := by
  unfold State.takeBack
  repeat' first
    | dsimp only
    | with_reducible exact Writes.refl _ _
    | (apply Writes.step; case k => with_reducible apply State.count_writes)
    | (apply Writes.step; case k => with_reducible apply State.setPort_writes)
    | decide
    | (with_reducible (apply Writes.fst; case e => assumption))
    | split

theorem State.declareDown_writes  (s : State) (n : Nat) :
    Writes [.regs, .cnts, .posted, .free, .ports, .ring] s (State.declareDown s n) := by
  unfold State.declareDown
  repeat' first
    | dsimp only
    | with_reducible exact Writes.refl _ _
    | (apply Writes.step; case k => with_reducible apply State.count_writes)
    | (apply Writes.step; case k => (with_reducible apply State.setFlag_writes_ne) <;> first | decide | (dsimp only [Reg.PORT_LINK_STATUS, Reg.PORT_LINK_STATUS_UP, Reg.GLB_MODE, Field.of]; omega) | (split <;> decide))
    | (apply Writes.step; case k => with_reducible apply State.logRx_writes)
    | (apply Writes.step; case k => with_reducible apply State.settle_writes)
    | (apply Writes.step; case k => with_reducible apply State.takeBack_writes)
    | (apply Writes.step; case k => with_reducible apply State.postPort_writes)
    | (apply Writes.step; case k => with_reducible apply State.declareBreak_writes)
    | with_reducible refine Writes.ite ?_ ?_
    | decide
    | split

theorem State.linkLoss_writes  (s : State) (n : Nat) :
    Writes [.regs, .cnts, .posted, .free, .ports, .ring] s (State.linkLoss s n) := by
  unfold State.linkLoss
  repeat' first
    | dsimp only
    | with_reducible exact Writes.refl _ _
    | (apply Writes.step; case k => with_reducible apply State.declareDown_writes)
    | with_reducible refine Writes.ite ?_ ?_
    | decide
    | split

theorem State.stopClass_writes  (s : State) (n : Nat) (c : Nat) (quanta : Nat) :
    Writes [.regs, .ports] s (State.stopClass s n c quanta) := by
  unfold State.stopClass
  repeat' first
    | dsimp only
    | with_reducible exact Writes.refl _ _
    | (apply Writes.step; case k => with_reducible apply State.settle_writes)
    | (apply Writes.step; case k => (with_reducible apply State.putBit_writes_ne) <;> first | decide | (dsimp only [Reg.PORT_FC_STATUS, Reg.PORT_FC_STATUS_STOPPED, Reg.GLB_MODE, Field.of]; omega) | (split <;> decide))
    | (apply Writes.step; case k => with_reducible apply State.setPort_writes)
    | with_reducible refine Writes.ite ?_ ?_
    | decide
    | split

theorem State.pauseReceive_writes  (s : State) (n : Nat) (quanta : Nat) :
    Writes [.regs, .cnts, .ports] s (State.pauseReceive s n quanta) := by
  unfold State.pauseReceive
  repeat' first
    | dsimp only
    | with_reducible exact Writes.refl _ _
    | (apply Writes.step; case k => with_reducible apply State.count_writes)
    | (apply Writes.step; case k => with_reducible apply State.stopClass_writes)
    | with_reducible refine Writes.ite ?_ ?_
    | with_reducible refine Writes.foldl ?_ ?_
    | with_reducible refine Writes.foldlFst ?_ ?_
    | decide
    | intro _
    | split

theorem State.countFec_writes  (s : State) (n : Nat) (r : RxLine) :
    Writes [.cnts, .posted, .lastPost, .free] s (State.countFec s n r) := by
  unfold State.countFec
  repeat' first
    | dsimp only
    | with_reducible exact Writes.refl _ _
    | (apply Writes.step; case k => with_reducible apply State.countN_writes)
    | (apply Writes.step; case k => with_reducible apply State.postPortLimited_writes)
    | with_reducible refine Writes.ite ?_ ?_
    | decide
    | split

theorem State.testPatterns_writes (s v : State) (n : Nat) (b : List Byte) :
    Writes [.regs, .cnts, .posted, .lastPost, .free] s (State.testPatterns s v n b) := by
  unfold State.testPatterns
  repeat' first
    | with_reducible refine Writes.foldl ?_ ?_
    | with_reducible exact Writes.refl _ _
    | (apply Writes.step; case k => with_reducible apply State.postPortLimited_writes)
    | (apply Writes.step; case k => with_reducible apply State.count_writes)
    | (apply Writes.step; case k => (with_reducible apply State.putBit_writes_ne) <;> (dsimp only [Reg.PORT_PAT_MATCH_MATCH, Reg.PORT_PAT_MATCH, Reg.GLB_MODE]; omega))
    | decide
    | intro _
    | split

theorem State.pfcReceive_writes  (s : State) (n : Nat) (enable : BitVec 8) (quanta : Nat → Nat) :
    Writes [.regs, .cnts, .ports] s (State.pfcReceive s n enable quanta) := by
  unfold State.pfcReceive
  repeat' first
    | dsimp only
    | with_reducible exact Writes.refl _ _
    | (apply Writes.step; case k => with_reducible apply State.count_writes)
    | (apply Writes.step; case k => with_reducible apply State.stopClass_writes)
    | with_reducible refine Writes.ite ?_ ?_
    | with_reducible refine Writes.foldl ?_ ?_
    | with_reducible refine Writes.foldlFst ?_ ?_
    | decide
    | intro _
    | split

theorem State.queueFlowControl_writes  (s : State) (n : Nat) (prio : Nat) (quanta : Nat) :
    Writes [.ports] s (State.queueFlowControl s n prio quanta) := by
  unfold State.queueFlowControl
  repeat' first
    | dsimp only
    | with_reducible exact Writes.refl _ _
    | (apply Writes.step; case k => with_reducible apply State.setPort_writes)
    | decide

theorem State.setOccupancy_writes  (s : State) (n : Nat) (prio : Nat) (cells : Nat) :
    Writes [.ports] s (State.setOccupancy s n prio cells) := by
  unfold State.setOccupancy
  repeat' first
    | dsimp only
    | with_reducible exact Writes.refl _ _
    | (apply Writes.step; case k => with_reducible apply State.setPort_writes)
    | (apply Writes.step; case k => with_reducible apply State.queueFlowControl_writes)
    | with_reducible refine Writes.ite ?_ ?_
    | decide
    | split

theorem State.steerPtp_writes  (s : State) (r : RxFrame) :
    Writes [.free, .frames, .queues] s (State.steerPtp s r) := by
  unfold State.steerPtp
  repeat' first
    | dsimp only
    | with_reducible exact Writes.refl _ _
    | (apply Writes.step; case k => with_reducible apply State.dropCopy_writes)
    | (apply Writes.step; case k => with_reducible apply State.toRxq_writes)
    | (apply Writes.step; case k => with_reducible apply State.draw_writes)
    | with_reducible refine Writes.ite ?_ ?_
    | decide
    | (with_reducible (apply Writes.fst; case e => assumption))
    | split

theorem State.acceptFrame_writes  (s : State) (n : Nat) (b : List Byte) (ageNs : Nat) :
    Writes [.regs, .cnts, .posted, .lastPost, .out, .free, .spine, .cells, .frames, .nextFrame, .dram, .poison, .queues, .ports, .flows, .items, .itemSeq, .pairLink, .recCopies, .ring, .engines, .evt] s (State.acceptFrame s n b ageNs) := by
  unfold State.acceptFrame
  repeat' first
    | dsimp only
    | with_reducible exact Writes.refl _ _
    | (apply Writes.step; case k => with_reducible apply State.countN_writes)
    | (apply Writes.step; case k => with_reducible apply State.count_writes)
    | (apply Writes.step; case k => with_reducible apply State.ringReceive_writes)
    | (apply Writes.step; case k => with_reducible apply State.holdCopy_writes)
    | (apply Writes.step; case k => with_reducible apply State.allocFrame_writes)
    | (apply Writes.step; case k => with_reducible apply State.setOccupancy_writes)
    | (apply Writes.step; case k => with_reducible apply State.steerPtp_writes)
    | (apply Writes.step; case k => with_reducible apply State.classifyOrWait_writes)
    | with_reducible refine Writes.ite ?_ ?_
    | decide
    | split

theorem State.filterFrame_writes  (s : State) (n : Nat) (b : List Byte) (ageNs : Nat) :
    Writes [.regs, .cnts, .posted, .lastPost, .out, .free, .spine, .cells, .frames, .nextFrame, .dram, .poison, .queues, .ports, .flows, .items, .itemSeq, .pairLink, .recCopies, .ring, .engines, .evt] s (State.filterFrame s n b ageNs) := by
  unfold State.filterFrame
  repeat' first
    | dsimp only
    | with_reducible exact Writes.refl _ _
    | (apply Writes.step; case k => with_reducible apply State.count_writes)
    | (apply Writes.step; case k => with_reducible apply State.testPatterns_writes)
    | (apply Writes.step; case k => with_reducible apply State.pauseReceive_writes)
    | (apply Writes.step; case k => with_reducible apply State.pfcReceive_writes)
    | (apply Writes.step; case k => with_reducible apply State.acceptFrame_writes)
    | with_reducible refine Writes.ite ?_ ?_
    | decide
    | (with_reducible (apply Writes.fst; case e => assumption))
    | split

theorem State.frameReceive_writes  (s : State) (n : Nat) (b : List Byte) (r : RxLine) (ageNs : Nat) :
    Writes [.regs, .cnts, .posted, .lastPost, .out, .free, .spine, .cells, .frames, .nextFrame, .dram, .poison, .queues, .ports, .flows, .items, .itemSeq, .pairLink, .recCopies, .ring, .engines, .evt] s (State.frameReceive s n b r ageNs) := by
  unfold State.frameReceive
  repeat' first
    | dsimp only
    | with_reducible exact Writes.refl _ _
    | (apply Writes.step; case k => with_reducible apply State.countFec_writes)
    | (apply Writes.step; case k => with_reducible apply State.count_writes)
    | (apply Writes.step; case k => with_reducible apply State.filterFrame_writes)
    | with_reducible refine Writes.ite ?_ ?_
    | decide
    | split

theorem execFrameReceive_writes  (port : Fin 12) (bytes : List Byte) (line : RxLine) (ageNs : Nat) (s : State) {s' : State}
    (h : execFrameReceive port bytes line ageNs s = .next s') : Writes [.regs, .cnts, .posted, .lastPost, .out, .free, .spine, .cells, .frames, .nextFrame, .dram, .poison, .queues, .ports, .flows, .items, .itemSeq, .pairLink, .recCopies, .ring, .engines, .evt] s s' := by
  unfold execFrameReceive at h
  injection h with h
  subst h
  repeat' first
    | dsimp only
    | with_reducible exact Writes.refl _ _
    | (apply Writes.step; case k => with_reducible apply State.frameReceive_writes)
    | decide

theorem execAdminDownWrite_writes  (port : Fin 12) (value : Word) (s : State) {s' : State}
    (h : execAdminDownWrite port value s = .next s') : Writes [.regs, .cnts, .posted, .free, .ports, .ring] s s' := by
  unfold execAdminDownWrite at h
  injection h with h
  subst h
  repeat' first
    | dsimp only
    | with_reducible exact Writes.refl _ _
    | (apply Writes.step; case k => (with_reducible apply State.wr_writes_ne) <;> first | decide | (dsimp only [Reg.PORT_LINK_CTRL, Reg.PORT_LINK_CTRL_ADMIN_DOWN, Reg.GLB_MODE, Field.of]; omega) | (split <;> decide))
    | (apply Writes.step; case k => with_reducible apply State.declareDown_writes)
    | (apply Writes.step; case k => with_reducible apply State.setPort_writes)
    | with_reducible refine Writes.ite ?_ ?_
    | decide
    | split

theorem State.sendVerify_writes  (s : State) (n : Nat) :
    Writes [.out, .ports] s (State.sendVerify s n) := by
  unfold State.sendVerify
  repeat' first
    | dsimp only
    | with_reducible exact Writes.refl _ _
    | (apply Writes.step; case k => with_reducible apply State.emit_writes)
    | (apply Writes.step; case k => with_reducible apply State.setPort_writes)
    | decide

theorem State.assemblyError_writes  (s : State) (n : Nat) :
    Writes [.cnts, .ports] s (State.assemblyError s n) := by
  unfold State.assemblyError
  repeat' first
    | dsimp only
    | with_reducible exact Writes.refl _ _
    | (apply Writes.step; case k => with_reducible apply State.count_writes)
    | (apply Writes.step; case k => with_reducible apply State.setPort_writes)
    | decide

theorem State.verifyReceive_writes  (s : State) (n : Nat) :
    Writes [.out] s (State.verifyReceive s n) := by
  unfold State.verifyReceive
  repeat' first
    | dsimp only
    | with_reducible exact Writes.refl _ _
    | (apply Writes.step; case k => with_reducible apply State.emit_writes)
    | with_reducible refine Writes.ite ?_ ?_
    | decide
    | split

theorem execVerifyReceive_writes  (port : Fin 8) (s : State) {s' : State}
    (h : execVerifyReceive port s = .next s') : Writes [.out] s s' := by
  unfold execVerifyReceive at h
  injection h with h
  subst h
  repeat' first
    | dsimp only
    | with_reducible exact Writes.refl _ _
    | (apply Writes.step; case k => with_reducible apply State.verifyReceive_writes)
    | decide

theorem execVerifyTimeout_writes  (port : Fin 8) (s : State) {s' : State}
    (h : execVerifyTimeout port s = .next s') : Writes [.regs, .posted, .out, .free, .ports] s s' := by
  unfold execVerifyTimeout at h
  injection h with h
  subst h
  repeat' first
    | dsimp only
    | with_reducible exact Writes.refl _ _
    | (apply Writes.step; case k => with_reducible apply State.sendVerify_writes)
    | (apply Writes.step; case k => (with_reducible apply State.setFld_writes_ne) <;> first | decide | (dsimp only [Reg.PORT_LINK_STATUS, Reg.PORT_LINK_STATUS_UP, Reg.PORT_MM_STATUS, Reg.PORT_MM_STATUS_ATTEMPTS, Reg.PORT_MM_STATUS_VSTATE, Reg.GLB_MODE, Field.of]; omega) | (split <;> decide))
    | (apply Writes.step; case k => with_reducible apply State.postPort_writes)
    | with_reducible refine Writes.ite ?_ ?_
    | decide
    | split

theorem execFcStopExpire_writes  (port : Fin 12) (cls : Fin 8) (s : State) {s' : State}
    (h : execFcStopExpire port cls s = .next s') : Writes [.regs, .ports] s s' := by
  unfold execFcStopExpire at h
  injection h with h
  subst h
  repeat' first
    | dsimp only
    | with_reducible exact Writes.refl _ _
    | (apply Writes.step; case k => with_reducible apply State.stopClass_writes)
    | with_reducible refine Writes.ite ?_ ?_
    | decide
    | split

theorem State.startVerify_writes  (s : State) (n : Nat) :
    Writes [.regs, .out, .ports] s (State.startVerify s n) := by
  unfold State.startVerify
  repeat' first
    | dsimp only
    | with_reducible exact Writes.refl _ _
    | (apply Writes.step; case k => with_reducible apply State.sendVerify_writes)
    | (apply Writes.step; case k => (with_reducible apply State.setFld_writes_ne) <;> first | decide | (dsimp only [Reg.PORT_LINK_STATUS, Reg.PORT_LINK_STATUS_UP, Reg.PORT_MEDIA, Reg.PORT_MEDIA_PREEMPT_CAP, Reg.PORT_MM_CTRL, Reg.PORT_MM_CTRL_ENABLE, Reg.PORT_MM_CTRL_VERIFY_DIS, Reg.PORT_MM_STATUS, Reg.PORT_MM_STATUS_ATTEMPTS, Reg.PORT_MM_STATUS_VSTATE, Reg.GLB_MODE, Field.of]; omega) | (split <;> decide))
    | with_reducible refine Writes.ite ?_ ?_
    | decide
    | split

theorem execMmEnableWrite_writes  (port : Fin 8) (value : Word) (s : State) {s' : State}
    (h : execMmEnableWrite port value s = .next s') : Writes [.regs, .out, .ports] s s' := by
  unfold execMmEnableWrite at h
  injection h with h
  subst h
  repeat' first
    | dsimp only
    | with_reducible exact Writes.refl _ _
    | (apply Writes.step; case k => (with_reducible apply State.wr_writes_ne) <;> first | decide | (dsimp only [Reg.PORT_LINK_STATUS, Reg.PORT_LINK_STATUS_UP, Reg.PORT_MEDIA, Reg.PORT_MEDIA_PREEMPT_CAP, Reg.PORT_MM_CTRL, Reg.PORT_MM_CTRL_ENABLE, Reg.PORT_MM_CTRL_VERIFY_DIS, Reg.PORT_MM_STATUS, Reg.PORT_MM_STATUS_ATTEMPTS, Reg.PORT_MM_STATUS_VSTATE, Reg.GLB_MODE, Field.of]; omega) | (split <;> decide))
    | (apply Writes.step; case k => with_reducible apply State.startVerify_writes)
    | (apply Writes.step; case k => (with_reducible apply State.setFld_writes_ne) <;> first | decide | (dsimp only [Reg.PORT_LINK_STATUS, Reg.PORT_LINK_STATUS_UP, Reg.PORT_MEDIA, Reg.PORT_MEDIA_PREEMPT_CAP, Reg.PORT_MM_CTRL, Reg.PORT_MM_CTRL_ENABLE, Reg.PORT_MM_CTRL_VERIFY_DIS, Reg.PORT_MM_STATUS, Reg.PORT_MM_STATUS_ATTEMPTS, Reg.PORT_MM_STATUS_VSTATE, Reg.GLB_MODE, Field.of]; omega) | (split <;> decide))
    | (apply Writes.step; case k => with_reducible apply State.settle_writes)
    | with_reducible refine Writes.ite ?_ ?_
    | decide
    | split

theorem State.declareUp_writes  (s : State) (n : Nat) :
    Writes [.regs, .posted, .out, .free, .ports] s (State.declareUp s n) := by
  unfold State.declareUp
  repeat' first
    | dsimp only
    | with_reducible exact Writes.refl _ _
    | (apply Writes.step; case k => with_reducible apply State.settle_writes)
    | (apply Writes.step; case k => with_reducible apply State.startVerify_writes)
    | (apply Writes.step; case k => with_reducible apply State.postPort_writes)
    | (apply Writes.step; case k => (with_reducible apply State.setFlag_writes_ne) <;> first | decide | (dsimp only [Reg.PORT_LINK_CTRL, Reg.PORT_LINK_CTRL_ADMIN_DOWN, Reg.PORT_LINK_CTRL_UP_HOLD_MS, Reg.PORT_LINK_STATUS, Reg.PORT_LINK_STATUS_UP, Reg.GLB_MODE, Field.of]; omega) | (split <;> decide))
    | (apply Writes.step; case k => with_reducible apply State.logRx_writes)
    | with_reducible refine Writes.ite ?_ ?_
    | decide
    | split

theorem execLinkUp_writes  (port : Fin 12) (s : State) {s' : State}
    (h : execLinkUp port s = .next s') : Writes [.regs, .posted, .out, .free, .ports] s s' := by
  unfold execLinkUp at h
  injection h with h
  subst h
  repeat' first
    | dsimp only
    | with_reducible exact Writes.refl _ _
    | (apply Writes.step; case k => with_reducible apply State.declareUp_writes)
    | decide

theorem State.cellRelease_writes  (s : State) (h : Nat) :
    Writes [.cells, .frames, .ports] s (State.cellRelease s h) := by
  unfold State.cellRelease
  repeat' first
    | dsimp only
    | ((conv => arg 3; arg 39; skip); with_reducible refine Writes.set_cells ?_ ?_ _)
    | with_reducible exact Writes.refl _ _
    | (apply Writes.step; case k => with_reducible apply State.setFrame_writes)
    | (apply Writes.step; case k => with_reducible apply State.setOccupancy_writes)
    | with_reducible refine Writes.ite ?_ ?_
    | decide
    | (with_reducible (apply Writes.fst; case e => assumption))
    | split

theorem State.respondReceive_writes  (s : State) (n : Nat) :
    Writes [.regs, .posted, .free, .ports] s (State.respondReceive s n) := by
  unfold State.respondReceive
  repeat' first
    | dsimp only
    | with_reducible exact Writes.refl _ _
    | (apply Writes.step; case k => with_reducible apply State.postPort_writes)
    | (apply Writes.step; case k => with_reducible apply State.settle_writes)
    | (apply Writes.step; case k => (with_reducible apply State.setFld_writes_ne) <;> first | decide | (dsimp only [Reg.PORT_LINK_STATUS, Reg.PORT_LINK_STATUS_UP, Reg.PORT_MM_STATUS, Reg.PORT_MM_STATUS_VSTATE, Reg.GLB_MODE, Field.of]; omega) | (split <;> decide))
    | with_reducible refine Writes.ite ?_ ?_
    | decide
    | split

theorem State.fragmentReceive_writes  (s : State) (n : Nat) (smd : Nat) (count : Nat) (b : List Byte) (last : Bool) (mcrc : Nat) (r : RxLine) (ageNs : Nat) :
    Writes [.regs, .cnts, .posted, .lastPost, .out, .free, .spine, .cells, .frames, .nextFrame, .dram, .poison, .queues, .ports, .flows, .items, .itemSeq, .pairLink, .recCopies, .ring, .engines, .evt] s (State.fragmentReceive s n smd count b last mcrc r ageNs) := by
  unfold State.fragmentReceive
  repeat' first
    | dsimp only
    | with_reducible exact Writes.refl _ _
    | (apply Writes.step; case k => with_reducible apply State.frameReceive_writes)
    | (apply Writes.step; case k => with_reducible apply State.verifyReceive_writes)
    | (apply Writes.step; case k => with_reducible apply State.respondReceive_writes)
    | (apply Writes.step; case k => with_reducible apply State.assemblyError_writes)
    | (apply Writes.step; case k => with_reducible apply State.count_writes)
    | (apply Writes.step; case k => with_reducible apply State.setPort_writes)
    | with_reducible refine Writes.ite ?_ ?_
    | decide
    | (with_reducible (apply Writes.fst; case e => assumption))
    | split

theorem execMmFragmentReceive_writes  (port : Fin 8) (smd : BitVec 8) (count : BitVec 8) (bytes : List Byte) (last : Bool) (mcrc : BitVec 32) (line : RxLine) (ageNs : Nat) (s : State) {s' : State}
    (h : execMmFragmentReceive port smd count bytes last mcrc line ageNs s = .next s') : Writes [.regs, .cnts, .posted, .lastPost, .out, .free, .spine, .cells, .frames, .nextFrame, .dram, .poison, .queues, .ports, .flows, .items, .itemSeq, .pairLink, .recCopies, .ring, .engines, .evt] s s' := by
  unfold execMmFragmentReceive at h
  injection h with h
  subst h
  repeat' first
    | dsimp only
    | with_reducible exact Writes.refl _ _
    | (apply Writes.step; case k => with_reducible apply State.fragmentReceive_writes)
    | decide

theorem State.noteLink_writes (s old : State) (n : Nat) : Writes [.ports] s (State.noteLink s old n) :=
  State.setPort_writes _ _ _

theorem State.pcsReport_writes  (s : State) (n : Nat) (r : PcsReport) :
    Writes [.regs, .cnts, .posted, .free, .ports, .ring] s (State.pcsReport s n r) := by
  unfold State.pcsReport
  repeat' first
    | dsimp only
    | with_reducible exact Writes.refl _ _
    | (apply Writes.step; case k => (with_reducible apply State.setFlag_writes_ne) <;> first | decide | (dsimp only [Reg.PORT_LINK_STATUS, Reg.PORT_LINK_STATUS_AN_DONE, Reg.PORT_LINK_STATUS_FEC_LOCK, Reg.PORT_LINK_STATUS_PCS_LOCK, Reg.PORT_LINK_STATUS_PHY_SPEED, Reg.PORT_LINK_STATUS_REMOTE_FAULT, Reg.PORT_LINK_STATUS_SPEED_MISMATCH, Reg.PORT_MEDIA, Reg.PORT_MEDIA_FEC, Reg.PORT_MEDIA_MEDIA, Reg.PORT_MEDIA_SPEED, Reg.GLB_MODE, Field.of]; omega) | (split <;> decide))
    | (apply Writes.step; case k => (with_reducible apply State.setFld_writes_ne) <;> first | decide | (dsimp only [Reg.PORT_LINK_STATUS, Reg.PORT_LINK_STATUS_AN_DONE, Reg.PORT_LINK_STATUS_FEC_LOCK, Reg.PORT_LINK_STATUS_PCS_LOCK, Reg.PORT_LINK_STATUS_PHY_SPEED, Reg.PORT_LINK_STATUS_REMOTE_FAULT, Reg.PORT_LINK_STATUS_SPEED_MISMATCH, Reg.PORT_MEDIA, Reg.PORT_MEDIA_FEC, Reg.PORT_MEDIA_MEDIA, Reg.PORT_MEDIA_SPEED, Reg.GLB_MODE, Field.of]; omega) | (split <;> decide))
    | (apply Writes.step; case k => with_reducible apply State.setPort_writes)
    | (apply Writes.step; case k => with_reducible apply State.noteLink_writes)
    | (apply Writes.step; case k => with_reducible apply State.postPort_writes)
    | (apply Writes.step; case k => with_reducible apply State.declareDown_writes)
    | with_reducible refine Writes.ite ?_ ?_
    | decide
    | (with_reducible (apply Writes.fst; case e => assumption))
    | split

theorem execPfcReceive_writes  (port : Fin 12) (enable : BitVec 8) (quanta : BitVec 128) (s : State) {s' : State}
    (h : execPfcReceive port enable quanta s = .next s') : Writes [.regs, .cnts, .ports] s s' := by
  unfold execPfcReceive at h
  injection h with h
  subst h
  repeat' first
    | dsimp only
    | with_reducible exact Writes.refl _ _
    | (apply Writes.step; case k => with_reducible apply State.pfcReceive_writes)
    | with_reducible refine Writes.ite ?_ ?_
    | decide
    | split

theorem execMdioPoll_writes  (up : BitVec 6) (s : State) {s' : State}
    (h : execMdioPoll up s = .next s') : Writes [.ports] s s' := by
  unfold execMdioPoll at h
  injection h with h
  subst h
  repeat' first
    | dsimp only
    | with_reducible exact Writes.refl _ _
    | (apply Writes.step; case k => with_reducible apply State.setPort_writes)
    | with_reducible refine Writes.foldl ?_ ?_
    | with_reducible refine Writes.foldlFst ?_ ?_
    | decide
    | intro _

theorem State.applyPlca_writes  (s : State) (n : Nat) :
    Writes [.ports] s (State.applyPlca s n) := by
  unfold State.applyPlca
  repeat' first
    | dsimp only
    | with_reducible exact Writes.refl _ _
    | (apply Writes.step; case k => with_reducible apply State.setPort_writes)
    | (apply Writes.step; case k => with_reducible apply State.noteLink_writes)
    | decide

theorem State.beacon_writes  (s : State) (n : Nat) :
    Writes [.regs, .out, .ports] s (State.beacon s n) := by
  unfold State.beacon
  repeat' first
    | dsimp only
    | with_reducible exact Writes.refl _ _
    | (apply Writes.step; case k => with_reducible apply State.applyPlca_writes)
    | (apply Writes.step; case k => (with_reducible apply State.setFlag_writes_ne) <;> first | decide | (dsimp only [Reg.PORT_PLCA_STATUS, Reg.PORT_PLCA_STATUS_ACTIVE, Reg.GLB_MODE, Field.of]; omega) | (split <;> decide))
    | (apply Writes.step; case k => with_reducible apply State.setPort_writes)
    | (apply Writes.step; case k => with_reducible apply State.emit_writes)
    | (apply Writes.step; case k => with_reducible apply State.noteLink_writes)
    | with_reducible refine Writes.ite ?_ ?_
    | decide
    | split

theorem execPlcaBeaconReceive_writes  (t1s : Fin 4) (s : State) {s' : State}
    (h : execPlcaBeaconReceive t1s s = .next s') : Writes [.regs, .out, .ports] s s' := by
  unfold execPlcaBeaconReceive at h
  injection h with h
  subst h
  repeat' first
    | dsimp only
    | with_reducible exact Writes.refl _ _
    | (apply Writes.step; case k => with_reducible apply State.beacon_writes)
    | decide

theorem execCollisions_writes  (t1s : Fin 4) (s : State) {s' : State}
    (h : execCollisions t1s s = .next s') : Writes [.cnts, .ports] s s' := by
  unfold execCollisions at h
  injection h with h
  subst h
  repeat' first
    | dsimp only
    | with_reducible exact Writes.refl _ _
    | (apply Writes.step; case k => with_reducible apply State.count_writes)
    | (apply Writes.step; case k => with_reducible apply State.setPort_writes)
    | (apply Writes.step; case k => with_reducible apply State.settle_writes)
    | (apply Writes.step; case k => with_reducible apply State.takeBack_writes)
    | with_reducible refine Writes.ite ?_ ?_
    | decide
    | (with_reducible (apply Writes.fst; case e => assumption))
    | split

theorem execWakePatternMatch_writes  (k : Fin 6) (frame : WireFrame) (s : State) {s' : State}
    (h : execWakePatternMatch k frame s = .next s') : Writes [.regs, .pwr] s s' := by
  unfold execWakePatternMatch at h
  injection h with h
  subst h
  repeat' first
    | dsimp only
    | ((conv => arg 3; arg 39; skip); with_reducible refine Writes.set_pwr ?_ ?_ _)
    | with_reducible exact Writes.refl _ _
    | (apply Writes.step; case k => (with_reducible apply State.putBit_writes_ne) <;> first | decide | (dsimp only [Reg.GLB_WAKE_CAUSE, Reg.GLB_WAKE_CAUSE_PORT, Reg.PORT_MAC_CTRL, Reg.PORT_MAC_CTRL_MAX_FRAME, Reg.GLB_MODE, Field.of]; omega) | (split <;> decide))
    | with_reducible refine Writes.ite ?_ ?_
    | decide
    | split

theorem execPauseReceive_writes  (port : Fin 12) (quanta : BitVec 16) (s : State) {s' : State}
    (h : execPauseReceive port quanta s = .next s') : Writes [.regs, .cnts, .ports] s s' := by
  unfold execPauseReceive at h
  injection h with h
  subst h
  repeat' first
    | dsimp only
    | with_reducible exact Writes.refl _ _
    | (apply Writes.step; case k => with_reducible apply State.pauseReceive_writes)
    | with_reducible refine Writes.ite ?_ ?_
    | decide
    | split

theorem execFcRefresh_writes  (port : Fin 12) (prio : Fin 8) (s : State) {s' : State}
    (h : execFcRefresh port prio s = .next s') : Writes [.ports] s s' := by
  unfold execFcRefresh at h
  injection h with h
  subst h
  repeat' first
    | dsimp only
    | with_reducible exact Writes.refl _ _
    | (apply Writes.step; case k => with_reducible apply State.queueFlowControl_writes)
    | with_reducible refine Writes.ite ?_ ?_
    | decide
    | split

theorem execPlcaBeaconLoss_writes  (t1s : Fin 4) (s : State) {s' : State}
    (h : execPlcaBeaconLoss t1s s = .next s') : Writes [.regs, .cnts, .posted, .free, .ports] s s' := by
  unfold execPlcaBeaconLoss at h
  injection h with h
  subst h
  repeat' first
    | dsimp only
    | with_reducible exact Writes.refl _ _
    | (apply Writes.step; case k => with_reducible apply State.noteLink_writes)
    | (apply Writes.step; case k => with_reducible apply State.postPort_writes)
    | (apply Writes.step; case k => (with_reducible apply State.setFlag_writes_ne) <;> first | decide | (dsimp only [Reg.PORT_PLCA_STATUS, Reg.PORT_PLCA_STATUS_ACTIVE, Reg.GLB_MODE, Field.of]; omega) | (split <;> decide))
    | (apply Writes.step; case k => with_reducible apply State.count_writes)
    | with_reducible refine Writes.ite ?_ ?_
    | decide
    | split

theorem execPcsLockChange_writes  (port : Fin 12) (report : PcsReport) (s : State) {s' : State}
    (h : execPcsLockChange port report s = .next s') : Writes [.regs, .cnts, .posted, .free, .ports, .ring] s s' := by
  unfold execPcsLockChange at h
  injection h with h
  subst h
  repeat' first
    | dsimp only
    | with_reducible exact Writes.refl _ _
    | (apply Writes.step; case k => with_reducible apply State.pcsReport_writes)
    | decide

theorem execRespondReceive_writes  (port : Fin 8) (s : State) {s' : State}
    (h : execRespondReceive port s = .next s') : Writes [.regs, .posted, .free, .ports] s s' := by
  unfold execRespondReceive at h
  injection h with h
  subst h
  repeat' first
    | dsimp only
    | with_reducible exact Writes.refl _ _
    | (apply Writes.step; case k => with_reducible apply State.respondReceive_writes)
    | decide

theorem execLinkDown_writes  (port : Fin 12) (s : State) {s' : State}
    (h : execLinkDown port s = .next s') : Writes [.regs, .cnts, .posted, .free, .ports, .ring] s s' := by
  unfold execLinkDown at h
  injection h with h
  subst h
  repeat' first
    | dsimp only
    | with_reducible exact Writes.refl _ _
    | (apply Writes.step; case k => with_reducible apply State.linkLoss_writes)
    | decide

end Sys2Proof.Machine
end

