-- ==== Sys2Proof/Laws/WritesEngCore.lean ====
section
/-! SUPPORT. What each operation of Machine/EngCore.lean writes. -/

namespace Sys2Proof.Machine

theorem State.setEngState_writes  (s : State) (e : Nat) (v : Nat) :
    Writes [.regs] s (State.setEngState s e v) := by
  unfold State.setEngState
  repeat' first
    | dsimp only
    | with_reducible exact Writes.refl _ _
    | (apply Writes.step; case k => (with_reducible apply State.setFld_writes_ne) <;> first | decide | (dsimp only [Reg.ENG_ROLE, Reg.ENG_ROLE_STATE, Reg.GLB_MODE, Field.of]; omega) | (split <;> decide))
    | decide

theorem State.setEng_writes  (s : State) (e : Nat) (g : Engine) :
    Writes [.engines] s (State.setEng s e g) := by
  unfold State.setEng
  repeat' first
    | dsimp only
    | ((conv => arg 3; arg 39; skip); with_reducible refine Writes.set_engines ?_ ?_ _ (fun h => h))
    | with_reducible exact Writes.refl _ _
    | decide

theorem State.clearEngine_writes  (s : State) (e : Nat) :
    Writes [.engines] s (State.clearEngine s e) := by
  unfold State.clearEngine
  repeat' first
    | dsimp only
    | with_reducible exact Writes.refl _ _
    | (apply Writes.step; case k => with_reducible apply State.setEng_writes)
    | decide

theorem State.setFolioQueue_writes  (s : State) (f : Nat) (l : List WorkItem) :
    Writes [.regs, .engines] s (State.setFolioQueue s f l) := by
  unfold State.setFolioQueue
  repeat' first
    | dsimp only
    | ((conv => arg 3; arg 39; skip); with_reducible refine Writes.set_engines ?_ ?_ _ (fun h => h))
    | with_reducible exact Writes.refl _ _
    | (apply Writes.step; case k => (with_reducible apply State.setFld_writes_ne) <;> first | decide | (dsimp only [Reg.ENG_FOLIO, Reg.ENG_FOLIO_DEPTH, Reg.ENG_FOLIO_HIGH_WATER, Reg.GLB_MODE, Field.of]; omega) | (split <;> decide))
    | with_reducible refine Writes.ite ?_ ?_
    | decide
    | split

theorem State.drainFolio_writes  (s : State) (f : Nat) :
    Writes [.regs, .cnts, .spine, .items, .engines] s (State.drainFolio s f) := by
  unfold State.drainFolio
  repeat' first
    | dsimp only
    | with_reducible exact Writes.refl _ _
    | (apply Writes.step; case k => with_reducible apply State.setEngState_writes)
    | (apply Writes.step; case k => with_reducible apply State.clearEngine_writes)
    | (apply Writes.step; case k => with_reducible apply State.returnItems_writes)
    | (apply Writes.step; case k => with_reducible apply State.countN_writes)
    | (apply Writes.step; case k => with_reducible apply State.setFolioQueue_writes)
    | with_reducible refine Writes.ite ?_ ?_
    | with_reducible refine Writes.foldl ?_ ?_
    | with_reducible refine Writes.foldlFst ?_ ?_
    | decide
    | intro _
    | split

theorem State.showCam_writes  (s : State) :
    Writes [.regs] s (State.showCam s) := by
  unfold State.showCam
  repeat' first
    | dsimp only
    | with_reducible exact Writes.refl _ _
    | (apply Writes.step; case k => (with_reducible apply State.setFld_writes_ne) <;> first | decide | (dsimp only [Reg.FLOW_CAM_STATUS, Reg.FLOW_CAM_STATUS_HIGH_WATER, Reg.FLOW_CAM_STATUS_USED, Reg.GLB_MODE, Field.of]; omega) | (split <;> decide))
    | with_reducible refine Writes.ite ?_ ?_
    | decide
    | split

theorem State.partCount_writes  (s : State) (p : Nat) (v : Nat) :
    Writes [.regs] s (State.partCount s p v) := by
  unfold State.partCount
  repeat' first
    | dsimp only
    | with_reducible exact Writes.refl _ _
    | (apply Writes.step; case k => (with_reducible apply State.setFld_writes_ne) <;> first | decide | (dsimp only [Reg.FLOW_PART_COUNT, Reg.FLOW_PART_COUNT_VALID_FLOWS, Reg.GLB_MODE, Field.of]; omega) | (split <;> decide))
    | decide

theorem State.removeFlow_writes  (s : State) (i : Nat) :
    Writes [.regs, .cnts, .spine, .dram, .poison, .flows] s (State.removeFlow s i) := by
  unfold State.removeFlow
  repeat' first
    | dsimp only
    | ((conv => arg 3; arg 39; skip); with_reducible refine Writes.set_flows ?_ ?_ _)
    | with_reducible exact Writes.refl _ _
    | (apply Writes.step; case k => with_reducible apply State.returnFlow_writes)
    | (apply Writes.step; case k => with_reducible apply State.setFlow_writes)
    | (apply Writes.step; case k => with_reducible apply State.showCam_writes)
    | (apply Writes.step; case k => with_reducible apply State.storeFlow_writes)
    | (apply Writes.step; case k => with_reducible apply State.partCount_writes)
    | decide

theorem State.writeBack_writes  (s : State) (addr : Nat) (r : FlowAnswer) :
    Writes [.out] s (State.writeBack s addr r) := by
  unfold State.writeBack
  repeat' first
    | dsimp only
    | with_reducible exact Writes.refl _ _
    | (apply Writes.step; case k => with_reducible apply State.emit_writes)
    | with_reducible refine Writes.ite ?_ ?_
    | decide
    | split

theorem State.flowAnswer_writes  (s : State) (src : CmdSrc) (addr : Nat) (op : Nat) (r : FlowAnswer) (wbOk : Bool) :
    Writes [.regs, .cnts, .posted, .out, .queues, .flows] s (State.flowAnswer s src addr op r wbOk) := by
  unfold State.flowAnswer
  repeat' first
    | dsimp only
    | ((conv => arg 3; arg 39; skip); with_reducible refine Writes.set_flows ?_ ?_ _)
    | with_reducible exact Writes.refl _ _
    | (apply Writes.step; case k => with_reducible apply State.writeBack_writes)
    | (apply Writes.step; case k => (with_reducible apply State.setFld_writes_ne) <;> first | decide | (dsimp only [Reg.FLOW_CMD_STATUS, Reg.FLOW_CMD_STATUS_OP, Reg.FLOW_CMD_STATUS_RESULT, Reg.FLOW_CMD_STATUS_STATE, Reg.GLB_MODE, Field.of]; omega) | (split <;> decide))
    | (apply Writes.step; case k => with_reducible apply State.post_writes)
    | (apply Writes.step; case k => with_reducible apply State.complete_writes)
    | with_reducible refine Writes.ite ?_ ?_
    | decide
    | (with_reducible (apply Writes.fst; case e => assumption))
    | split

theorem State.settleDelete_writes  (s : State) (flow : Option Nat) :
    Writes [.regs, .cnts, .posted, .out, .spine, .dram, .poison, .queues, .flows] s (State.settleDelete s flow) := by
  unfold State.settleDelete
  repeat' first
    | dsimp only
    | ((conv => arg 3; arg 39; skip); with_reducible refine Writes.set_flows ?_ ?_ _)
    | with_reducible exact Writes.refl _ _
    | (apply Writes.step; case k => with_reducible apply State.flowAnswer_writes)
    | (apply Writes.step; case k => with_reducible apply State.removeFlow_writes)
    | with_reducible refine Writes.ite ?_ ?_
    | decide
    | (with_reducible (apply Writes.fst; case e => assumption))
    | split

theorem State.returnLent_writes  (s : State) (q : Nat) :
    Writes [.cnts, .spine, .dram, .poison, .flows] s (State.returnLent s q) := by
  unfold State.returnLent
  repeat' first
    | dsimp only
    | with_reducible exact Writes.refl _ _
    | (apply Writes.step; case k => with_reducible apply State.returnFlow_writes)
    | with_reducible refine Writes.foldl ?_ ?_
    | with_reducible refine Writes.foldlFst ?_ ?_
    | decide
    | intro _

theorem State.migrateOut_writes  (s : State) (q : Nat) :
    Writes [.regs, .cnts, .units, .spine, .dram, .poison, .flows, .items, .engines] s (State.migrateOut s q) := by
  unfold State.migrateOut
  repeat' first
    | dsimp only
    | ((conv => arg 3; arg 39; skip); with_reducible refine Writes.set_units ?_ ?_ _)
    | with_reducible exact Writes.refl _ _
    | (apply Writes.step; case k => with_reducible apply State.recallItems_writes)
    | (apply Writes.step; case k => with_reducible apply State.drainFolio_writes)
    | (apply Writes.step; case k => with_reducible apply State.returnLent_writes)
    | decide

theorem State.migrateBack_writes  (s : State) (q : Nat) :
    Writes [.regs, .cnts, .units, .spine, .dram, .poison, .flows, .items, .engines] s (State.migrateBack s q) := by
  unfold State.migrateBack
  repeat' first
    | dsimp only
    | ((conv => arg 3; arg 39; skip); with_reducible refine Writes.set_units ?_ ?_ _)
    | with_reducible exact Writes.refl _ _
    | (apply Writes.step; case k => with_reducible apply State.returnFlow_writes)
    | (apply Writes.step; case k => with_reducible apply State.setFolioQueue_writes)
    | (apply Writes.step; case k => with_reducible apply State.recallItems_writes)
    | (apply Writes.step; case k => with_reducible apply State.returnItems_writes)
    | with_reducible refine Writes.ite ?_ ?_
    | with_reducible refine Writes.foldl ?_ ?_
    | with_reducible refine Writes.foldlFst ?_ ?_
    | decide
    | intro _
    | split

theorem State.respondHub_writes  (s : State) (e : Nat) (n : Nat) :
    Writes [.spine] s (State.respondHub s e n) := by
  unfold State.respondHub
  repeat' first
    | dsimp only
    | with_reducible exact Writes.refl _ _
    | (apply Writes.step; case k => with_reducible apply State.spineCross_writes)
    | decide

theorem State.settleOwed_writes  (s : State) (it : WorkItem) :
    Writes [.flows] s (State.settleOwed s it) := by
  unfold State.settleOwed
  repeat' first
    | dsimp only
    | with_reducible exact Writes.refl _ _
    | (apply Writes.step; case k => with_reducible apply State.flowDropped_writes)
    | with_reducible refine Writes.ite ?_ ?_
    | decide
    | split

theorem State.endItem_writes  (s : State) (e : Nat) :
    Writes [.regs, .cnts, .posted, .out, .spine, .frames, .dram, .poison, .queues, .flows, .engines] s (State.endItem s e) := by
  unfold State.endItem
  repeat' first
    | dsimp only
    | with_reducible exact Writes.refl _ _
    | (apply Writes.step; case k => with_reducible apply State.dropCopy_writes)
    | (apply Writes.step; case k => with_reducible apply State.respondHub_writes)
    | (apply Writes.step; case k => with_reducible apply State.settleOwed_writes)
    | (apply Writes.step; case k => with_reducible apply State.settleDelete_writes)
    | (apply Writes.step; case k => with_reducible apply State.setEngState_writes)
    | (apply Writes.step; case k => with_reducible apply State.setEng_writes)
    | decide
    | (with_reducible (apply Writes.fst; case e => assumption))
    | split

theorem State.startItem_writes  (s : State) (e : Nat) (it : WorkItem) :
    Writes [.regs, .engines] s (State.startItem s e it) := by
  unfold State.startItem
  repeat' first
    | dsimp only
    | with_reducible exact Writes.refl _ _
    | (apply Writes.step; case k => with_reducible apply State.setEngState_writes)
    | (apply Writes.step; case k => with_reducible apply State.setEng_writes)
    | with_reducible refine Writes.ite ?_ ?_
    | decide
    | split

theorem State.takeItem_writes  (s : State) (e : Nat) :
    Writes [.regs, .engines] s (State.takeItem s e) := by
  unfold State.takeItem
  repeat' first
    | dsimp only
    | with_reducible exact Writes.refl _ _
    | (apply Writes.step; case k => with_reducible apply State.startItem_writes)
    | (apply Writes.step; case k => with_reducible apply State.setFolioQueue_writes)
    | with_reducible refine Writes.ite ?_ ?_
    | decide
    | (with_reducible (apply Writes.fst; case e => assumption))
    | split

theorem State.takeAll_writes  (s : State) (f : Nat) :
    Writes [.regs, .engines] s (State.takeAll s f) := by
  unfold State.takeAll
  repeat' first
    | dsimp only
    | with_reducible exact Writes.refl _ _
    | (apply Writes.step; case k => with_reducible apply State.takeItem_writes)
    | with_reducible refine Writes.foldl ?_ ?_
    | with_reducible refine Writes.foldlFst ?_ ?_
    | decide
    | intro _

theorem State.raiseInt_writes  (s : State) (e : Nat) (op : Nat) :
    Writes [.engines] s (State.raiseInt s e op) := by
  unfold State.raiseInt
  repeat' first
    | dsimp only
    | with_reducible exact Writes.refl _ _
    | (apply Writes.step; case k => with_reducible apply State.setEng_writes)
    | decide

theorem State.raiseRoles_writes  (s : State) (f : Nat) (op : Nat) (roles : List Nat) :
    Writes [.engines] s (State.raiseRoles s f op roles) := by
  unfold State.raiseRoles
  repeat' first
    | dsimp only
    | with_reducible exact Writes.refl _ _
    | (apply Writes.step; case k => with_reducible apply State.raiseInt_writes)
    | with_reducible refine Writes.ite ?_ ?_
    | with_reducible refine Writes.foldl ?_ ?_
    | with_reducible refine Writes.foldlFst ?_ ?_
    | decide
    | intro _
    | split

theorem State.takeInt_writes  (s : State) (e : Nat) :
    Writes [.regs, .cnts, .engines] s (State.takeInt s e) := by
  unfold State.takeInt
  repeat' first
    | dsimp only
    | with_reducible exact Writes.refl _ _
    | (apply Writes.step; case k => with_reducible apply State.count_writes)
    | (apply Writes.step; case k => with_reducible apply State.setEngState_writes)
    | (apply Writes.step; case k => with_reducible apply State.setEng_writes)
    | with_reducible refine Writes.ite ?_ ?_
    | decide
    | (with_reducible (apply Writes.fst; case e => assumption))
    | split

theorem State.retireItem_writes  (s : State) (it : WorkItem) (detail : Nat) :
    Writes [.regs, .cnts, .posted, .out, .spine, .frames, .dram, .poison, .queues, .flows] s (State.retireItem s it detail) := by
  unfold State.retireItem
  repeat' first
    | dsimp only
    | with_reducible exact Writes.refl _ _
    | (apply Writes.step; case k => with_reducible apply State.complete_writes)
    | (apply Writes.step; case k => with_reducible apply State.settleDelete_writes)
    | (apply Writes.step; case k => with_reducible apply State.dropCopy_writes)
    | (apply Writes.step; case k => with_reducible apply State.settleOwed_writes)
    | decide
    | (with_reducible (apply Writes.fst; case e => assumption))
    | split

theorem State.recordAbort_writes  (s : State) (e : Nat) (addr : Nat) (opcode : Nat) (cause : Nat) :
    Writes [.regs, .cnts, .posted, .lastPost] s (State.recordAbort s e addr opcode cause) := by
  unfold State.recordAbort
  repeat' first
    | dsimp only
    | with_reducible exact Writes.refl _ _
    | (apply Writes.step; case k => with_reducible apply State.count_writes)
    | (apply Writes.step; case k => (with_reducible apply State.setFld_writes_ne) <;> first | decide | (dsimp only [Reg.ENG_ABORT_HI, Reg.ENG_ABORT_HI_CAUSE, Reg.ENG_ABORT_LO, Reg.ENG_ABORT_LO_ADDR, Reg.ENG_ABORT_LO_ENGINE, Reg.ENG_ABORT_LO_OPCODE, Reg.GLB_MODE, Field.of]; omega) | (split <;> decide))
    | (apply Writes.step; case k => with_reducible apply State.postLimited_writes)
    | with_reducible refine Writes.ite ?_ ?_
    | decide
    | split

theorem State.arriveAt_writes  (s : State) (f : Nat) (it : WorkItem) :
    Writes [.regs, .cnts, .posted, .lastPost, .out, .free, .spine, .frames, .dram, .poison, .queues, .flows, .engines] s (State.arriveAt s f it) := by
  unfold State.arriveAt
  repeat' first
    | dsimp only
    | with_reducible exact Writes.refl _ _
    | (apply Writes.step; case k => with_reducible apply State.retireItem_writes)
    | (apply Writes.step; case k => with_reducible apply State.draw_writes)
    | (apply Writes.step; case k => with_reducible apply State.recordAbort_writes)
    | (apply Writes.step; case k => with_reducible apply State.takeAll_writes)
    | (apply Writes.step; case k => with_reducible apply State.setFolioQueue_writes)
    | with_reducible refine Writes.ite ?_ ?_
    | decide
    | split

theorem State.flowCmdFails_writes  (s : State) :
    Writes [.regs, .posted, .free, .flows] s (State.flowCmdFails s) := by
  unfold State.flowCmdFails
  repeat' first
    | dsimp only
    | ((conv => arg 3; arg 39; skip); with_reducible refine Writes.set_flows ?_ ?_ _)
    | with_reducible exact Writes.refl _ _
    | (apply Writes.step; case k => with_reducible apply State.draw_writes)
    | (apply Writes.step; case k => with_reducible apply State.post_writes)
    | (apply Writes.step; case k => (with_reducible apply State.setFld_writes_ne) <;> first | decide | (dsimp only [Reg.FLOW_CMD_STATUS, Reg.FLOW_CMD_STATUS_STATE, Reg.GLB_MODE, Field.of]; omega) | (split <;> decide))
    | decide

theorem execWorkItemArrival_writes  (folio : Fin 32) (s : State) {s' : State}
    (h : execWorkItemArrival folio s = .next s') : Writes [.regs, .cnts, .posted, .lastPost, .out, .free, .spine, .frames, .dram, .poison, .queues, .flows, .items, .engines] s s' := by
  unfold execWorkItemArrival at h
  injection h with h
  subst h
  repeat' first
    | dsimp only
    | ((conv => arg 3; arg 39; skip); with_reducible refine Writes.set_items ?_ ?_ _)
    | with_reducible exact Writes.refl _ _
    | (apply Writes.step; case k => with_reducible apply State.arriveAt_writes)
    | (apply Writes.step; case k => with_reducible apply State.leaveSpine_writes)
    | with_reducible refine Writes.ite ?_ ?_
    | decide
    | (with_reducible (apply Writes.fst; case e => assumption))
    | split

theorem State.abort_writes  (s : State) (e : Nat) (cause : Nat) :
    Writes [.regs, .cnts, .posted, .lastPost, .out, .spine, .frames, .dram, .poison, .queues, .flows, .engines] s (State.abort s e cause) := by
  unfold State.abort
  repeat' first
    | dsimp only
    | with_reducible exact Writes.refl _ _
    | (apply Writes.step; case k => with_reducible apply State.recordAbort_writes)
    | (apply Writes.step; case k => with_reducible apply State.setEng_writes)
    | (apply Writes.step; case k => with_reducible apply State.retireItem_writes)
    | (apply Writes.step; case k => with_reducible apply State.takeItem_writes)
    | (apply Writes.step; case k => with_reducible apply State.endItem_writes)
    | decide
    | (with_reducible (apply Writes.fst; case e => assumption))
    | split

end Sys2Proof.Machine
end

