-- ==== Sys2Proof/Laws/WritesFlowCmd.lean ====
section
/-! SUPPORT. What each operation of Machine/FlowCmd.lean writes. -/

namespace Sys2Proof.Machine

theorem State.addCam_writes  (s : State) (e : CamEntry) :
    Writes [.flows] s (State.addCam s e) := by
  unfold State.addCam
  repeat' first
    | dsimp only
    | ((conv => arg 3; arg 39; skip); with_reducible refine Writes.set_flows ?_ ?_ _)
    | with_reducible exact Writes.refl _ _
    | decide

theorem State.insertFlow_writes  (s : State) (part : Nat) (p : FlowPart) (key : List Byte) (context : Nat) :
    Writes [.regs, .posted, .free, .dram, .poison, .flows] s ((State.insertFlow s part p key context).1) := by
  unfold State.insertFlow
  repeat' first
    | dsimp only
    | with_reducible exact Writes.refl _ _
    | (apply Writes.step; case k => with_reducible apply State.draw_writes)
    | (apply Writes.step; case k => with_reducible apply State.post_writes)
    | (apply Writes.step; case k => with_reducible apply State.storeFlow_writes)
    | (apply Writes.step; case k => with_reducible apply State.setFlow_writes)
    | (apply Writes.step; case k => with_reducible apply State.showCam_writes)
    | (apply Writes.step; case k => with_reducible apply State.addCam_writes)
    | (apply Writes.step; case k => with_reducible apply State.partCount_writes)
    | with_reducible refine Writes.ite ?_ ?_
    | decide
    | (with_reducible (apply Writes.fst; case e => assumption))
    | split

theorem State.keepFlow_writes  (s : State) (i : Nat) :
    Writes [.dram, .poison, .flows] s (State.keepFlow s i) := by
  unfold State.keepFlow
  repeat' first
    | dsimp only
    | with_reducible exact Writes.refl _ _
    | (apply Writes.step; case k => with_reducible apply State.checkpoint_writes)
    | (apply Writes.step; case k => with_reducible apply State.storeFlow_writes)
    | with_reducible refine Writes.ite ?_ ?_
    | decide
    | split

theorem State.modifyFlow_writes  (s : State) (i : Nat) (context : Nat) (resetState : Bool) :
    Writes [.cnts, .spine, .dram, .poison, .flows] s ((State.modifyFlow s i context resetState).1) := by
  unfold State.modifyFlow
  repeat' first
    | dsimp only
    | with_reducible exact Writes.refl _ _
    | (apply Writes.step; case k => with_reducible apply State.keepFlow_writes)
    | (apply Writes.step; case k => with_reducible apply State.setFlow_writes)
    | (apply Writes.step; case k => with_reducible apply State.returnFlow_writes)
    | with_reducible refine Writes.ite ?_ ?_
    | decide
    | split

theorem State.deleteFlow_writes  (s : State) (i : Nat) :
    Writes [.regs, .cnts, .spine, .dram, .poison, .flows] s ((State.deleteFlow s i).1) := by
  unfold State.deleteFlow
  repeat' first
    | dsimp only
    | with_reducible exact Writes.refl _ _
    | (apply Writes.step; case k => with_reducible apply State.removeFlow_writes)
    | with_reducible refine Writes.ite ?_ ?_
    | decide
    | split

theorem State.readFlow_writes  (s : State) (i : Nat) (clear : Bool) :
    Writes [.dram, .poison, .flows] s ((State.readFlow s i clear).1) := by
  unfold State.readFlow
  repeat' first
    | dsimp only
    | with_reducible exact Writes.refl _ _
    | (apply Writes.step; case k => with_reducible apply State.keepFlow_writes)
    | (apply Writes.step; case k => with_reducible apply State.setFlow_writes)
    | with_reducible refine Writes.ite ?_ ?_
    | decide
    | split

theorem State.genReset_writes  (s : State) (i : Nat) :
    Writes [.dram, .poison, .flows] s ((State.genReset s i).1) := by
  unfold State.genReset
  repeat' first
    | dsimp only
    | with_reducible exact Writes.refl _ _
    | (apply Writes.step; case k => with_reducible apply State.keepFlow_writes)
    | (apply Writes.step; case k => with_reducible apply State.setFlow_writes)
    | decide

theorem State.runFlowCmd_writes  (s : State) (b : FlowBlock) :
    Writes [.regs, .cnts, .posted, .free, .spine, .dram, .poison, .flows] s ((State.runFlowCmd s b).1) := by
  unfold State.runFlowCmd
  repeat' first
    | dsimp only
    | with_reducible exact Writes.refl _ _
    | (apply Writes.step; case k => with_reducible apply State.draw_writes)
    | (apply Writes.step; case k => with_reducible apply State.insertFlow_writes)
    | (apply Writes.step; case k => with_reducible apply State.modifyFlow_writes)
    | (apply Writes.step; case k => with_reducible apply State.deleteFlow_writes)
    | (apply Writes.step; case k => with_reducible apply State.readFlow_writes)
    | (apply Writes.step; case k => with_reducible apply State.keepFlow_writes)
    | (apply Writes.step; case k => with_reducible apply State.setFlow_writes)
    | (apply Writes.step; case k => with_reducible apply State.genReset_writes)
    | with_reducible refine Writes.ite ?_ ?_
    | decide
    | (with_reducible (apply Writes.fst; case e => assumption))
    | split

theorem State.runBlock_writes  (s : State) (src : CmdSrc) (b : FlowBlock) (wbOk : Bool) :
    Writes [.regs, .cnts, .posted, .out, .free, .spine, .dram, .poison, .queues, .flows] s (State.runBlock s src b wbOk) := by
  unfold State.runBlock
  repeat' first
    | dsimp only
    | ((conv => arg 3; arg 39; skip); with_reducible refine Writes.set_flows ?_ ?_ _)
    | with_reducible exact Writes.refl _ _
    | (apply Writes.step; case k => with_reducible apply State.runFlowCmd_writes)
    | (apply Writes.step; case k => with_reducible apply State.count_writes)
    | (apply Writes.step; case k => with_reducible apply State.mapEntry_writes)
    | (apply Writes.step; case k => with_reducible apply State.flowAnswer_writes)
    | with_reducible refine Writes.ite ?_ ?_
    | decide
    | (with_reducible (apply Writes.fst; case e => assumption))
    | split

theorem execRead_writes  (src : CmdSrc) (part : BitVec 8) (flags : BitVec 8) (flowIdx : BitVec 32) (key : BitVec 512) (s : State) {s' : State}
    (h : execRead src part flags flowIdx key s = .next s') : Writes [.regs, .cnts, .posted, .out, .free, .spine, .dram, .poison, .queues, .flows] s s' := by
  unfold execRead at h
  injection h with h
  subst h
  repeat' first
    | dsimp only
    | with_reducible exact Writes.refl _ _
    | (apply Writes.step; case k => with_reducible apply State.runBlock_writes)
    | decide

theorem execFlowModify_writes  (src : CmdSrc) (part : BitVec 8) (flags : BitVec 8) (flowIdx : BitVec 32) (key : BitVec 512) (context : BitVec 512) (s : State) {s' : State}
    (h : execFlowModify src part flags flowIdx key context s = .next s') : Writes [.regs, .cnts, .posted, .out, .free, .spine, .dram, .poison, .queues, .flows] s s' := by
  unfold execFlowModify at h
  injection h with h
  subst h
  repeat' first
    | dsimp only
    | with_reducible exact Writes.refl _ _
    | (apply Writes.step; case k => with_reducible apply State.runBlock_writes)
    | decide

theorem State.commitPolicer_writes  (s : State) (k : Nat) :
    Writes [.regs, .stage] s (State.commitPolicer s k) := by
  unfold State.commitPolicer
  repeat' first
    | dsimp only
    | with_reducible exact Writes.refl _ _
    | (apply Writes.step; case k => (with_reducible apply State.commitWords_writes_ne) <;> first | decide | (dsimp only [Reg.FLOW_POL_PROF_W0, Reg.GLB_MODE, Field.of]; omega) | (split <;> decide))
    | (apply Writes.step; case k => with_reducible apply State.dropStaged_writes)
    | with_reducible refine Writes.ite ?_ ?_
    | decide
    | split

theorem execDelete_writes  (src : CmdSrc) (part : BitVec 8) (flags : BitVec 8) (flowIdx : BitVec 32) (key : BitVec 512) (s : State) {s' : State}
    (h : execDelete src part flags flowIdx key s = .next s') : Writes [.regs, .cnts, .posted, .out, .free, .spine, .dram, .poison, .queues, .flows] s s' := by
  unfold execDelete at h
  injection h with h
  subst h
  repeat' first
    | dsimp only
    | with_reducible exact Writes.refl _ _
    | (apply Writes.step; case k => with_reducible apply State.runBlock_writes)
    | decide

theorem execInsert_writes  (src : CmdSrc) (part : BitVec 8) (key : BitVec 512) (context : BitVec 512) (s : State) {s' : State}
    (h : execInsert src part key context s = .next s') : Writes [.regs, .cnts, .posted, .out, .free, .spine, .dram, .poison, .queues, .flows] s s' := by
  unfold execInsert at h
  injection h with h
  subst h
  repeat' first
    | dsimp only
    | with_reducible exact Writes.refl _ _
    | (apply Writes.step; case k => with_reducible apply State.runBlock_writes)
    | decide

theorem State.sweepItem_writes  (s : State) (i : Nat) (f : Flow) :
    Writes [.cnts, .spine, .dram, .poison, .flows, .items, .itemSeq] s (State.sweepItem s i f) := by
  unfold State.sweepItem
  repeat' first
    | dsimp only
    | ((conv => arg 3; arg 39; skip); with_reducible refine Writes.set_items_itemSeq ?_ ?_ _ _)
    | with_reducible exact Writes.refl _ _
    | (apply Writes.step; case k => with_reducible apply State.sendItems_writes)
    | decide

theorem State.sweepFlow_writes  (s : State) (i : Nat) :
    Writes [.cnts, .posted, .lastPost, .spine, .dram, .poison, .flows, .items, .itemSeq] s (State.sweepFlow s i) := by
  unfold State.sweepFlow
  repeat' first
    | dsimp only
    | with_reducible exact Writes.refl _ _
    | (apply Writes.step; case k => with_reducible apply State.setFlow_writes)
    | (apply Writes.step; case k => with_reducible apply State.postFlow_writes)
    | (apply Writes.step; case k => with_reducible apply State.sweepItem_writes)
    | with_reducible refine Writes.ite ?_ ?_
    | decide
    | split

theorem execFlowRecoveryReset_writes  (src : CmdSrc) (part : BitVec 8) (flags : BitVec 8) (flowIdx : BitVec 32) (key : BitVec 512) (s : State) {s' : State}
    (h : execFlowRecoveryReset src part flags flowIdx key s = .next s') : Writes [.regs, .cnts, .posted, .out, .free, .spine, .dram, .poison, .queues, .flows] s s' := by
  unfold execFlowRecoveryReset at h
  injection h with h
  subst h
  repeat' first
    | dsimp only
    | with_reducible exact Writes.refl _ _
    | (apply Writes.step; case k => with_reducible apply State.runBlock_writes)
    | decide

theorem execFlowSweep_writes  (flow : BitVec 20) (s : State) {s' : State}
    (h : execFlowSweep flow s = .next s') : Writes [.cnts, .posted, .lastPost, .spine, .dram, .poison, .flows, .items, .itemSeq] s s' := by
  unfold execFlowSweep at h
  injection h with h
  subst h
  repeat' first
    | dsimp only
    | with_reducible exact Writes.refl _ _
    | (apply Writes.step; case k => with_reducible apply State.sweepFlow_writes)
    | decide

theorem execFlowIdleReturn_writes  (flow : BitVec 20) (s : State) {s' : State}
    (h : execFlowIdleReturn flow s = .next s') : Writes [.cnts, .spine, .dram, .poison, .flows] s s' := by
  unfold execFlowIdleReturn at h
  injection h with h
  subst h
  repeat' first
    | dsimp only
    | with_reducible exact Writes.refl _ _
    | (apply Writes.step; case k => with_reducible apply State.returnFlow_writes)
    | with_reducible refine Writes.ite ?_ ?_
    | decide
    | split

theorem State.commitFrer_writes  (s : State) (k : Nat) :
    Writes [.regs, .stage, .cnts, .posted] s (State.commitFrer s k) := by
  unfold State.commitFrer
  repeat' first
    | dsimp only
    | with_reducible exact Writes.refl _ _
    | (apply Writes.step; case k => with_reducible apply State.dropStaged_writes)
    | (apply Writes.step; case k => with_reducible apply State.post_writes)
    | (apply Writes.step; case k => with_reducible apply State.count_writes)
    | (apply Writes.step; case k => (with_reducible apply State.commitWords_writes_ne) <;> first | decide | (dsimp only [Reg.FLOW_FRER_PROF_W0, Reg.GLB_MODE, Field.of]; omega) | (split <;> decide))
    | with_reducible refine Writes.ite ?_ ?_
    | decide
    | split

theorem execFrerProfileCommit_writes  (profile : BitVec 8) (s : State) {s' : State}
    (h : execFrerProfileCommit profile s = .next s') : Writes [.regs, .stage, .cnts, .posted] s s' := by
  unfold execFrerProfileCommit at h
  injection h with h
  subst h
  repeat' first
    | dsimp only
    | with_reducible exact Writes.refl _ _
    | (apply Writes.step; case k => with_reducible apply State.commitFrer_writes)
    | decide

theorem State.evict_writes  (s : State) (g : Nat × Nat) :
    Writes [.dram, .poison] s (State.evict s g) := by
  unfold State.evict
  repeat' first
    | dsimp only
    | with_reducible exact Writes.refl _ _
    | (apply Writes.step; case k => with_reducible apply State.storeContext_writes)
    | with_reducible refine Writes.ite ?_ ?_
    | with_reducible refine Writes.foldl ?_ ?_
    | with_reducible refine Writes.foldlFst ?_ ?_
    | decide
    | intro _
    | split

theorem State.cacheFill_writes  (s : State) (part : Nat) (bucket : Nat) :
    Writes [.cnts, .posted, .lastPost, .out, .free, .spine, .frames, .dram, .poison, .queues, .ports, .flows, .items, .itemSeq, .pairLink, .recCopies] s (State.cacheFill s part bucket) := by
  unfold State.cacheFill
  repeat' first
    | dsimp only
    | ((conv => arg 3; arg 39; skip); with_reducible refine Writes.set_flows ?_ ?_ _)
    | with_reducible exact Writes.refl _ _
    | (apply Writes.step; case k => with_reducible apply State.evict_writes)
    | (apply Writes.step; case k => with_reducible apply State.proceed_writes)
    | (apply Writes.step; case k => with_reducible apply State.count_writes)
    | with_reducible refine Writes.ite ?_ ?_
    | with_reducible refine Writes.foldl ?_ ?_
    | with_reducible refine Writes.foldlFst ?_ ?_
    | decide
    | intro _
    | split

theorem execFlowCacheFill_writes  (part : BitVec 6) (bucket : BitVec 18) (s : State) {s' : State}
    (h : execFlowCacheFill part bucket s = .next s') : Writes [.cnts, .posted, .lastPost, .out, .free, .spine, .frames, .dram, .poison, .queues, .ports, .flows, .items, .itemSeq, .pairLink, .recCopies] s s' := by
  unfold execFlowCacheFill at h
  injection h with h
  subst h
  repeat' first
    | dsimp only
    | with_reducible exact Writes.refl _ _
    | (apply Writes.step; case k => with_reducible apply State.cacheFill_writes)
    | decide

theorem State.offerRole_writes  (s : State) (qid : Nat) (pos : Nat) (role : Nat) :
    Writes [.cnts, .queues, .engines] s (State.offerRole s qid pos role) := by
  unfold State.offerRole
  repeat' first
    | dsimp only
    | with_reducible exact Writes.refl _ _
    | (apply Writes.step; case k => with_reducible apply State.raiseRoles_writes)
    | (apply Writes.step; case k => with_reducible apply State.mapEntry_writes)
    | (apply Writes.step; case k => with_reducible apply State.complete_writes)
    | with_reducible refine Writes.ite ?_ ?_
    | decide
    | split

theorem State.cmdBlockRead_writes  (s : State) (src : CmdSrc) (fin : ReadEnd) (b : FlowBlock) (wbOk : Bool) :
    Writes [.regs, .cnts, .posted, .out, .free, .spine, .dram, .poison, .queues, .flows, .engines] s (State.cmdBlockRead s src fin b wbOk) := by
  unfold State.cmdBlockRead
  repeat' first
    | dsimp only
    | with_reducible exact Writes.refl _ _
    | (apply Writes.step; case k => with_reducible apply State.runBlock_writes)
    | (apply Writes.step; case k => with_reducible apply State.flowCmdFails_writes)
    | (apply Writes.step; case k => with_reducible apply State.halt_writes)
    | (apply Writes.step; case k => with_reducible apply State.offerRole_writes)
    | with_reducible refine Writes.ite ?_ ?_
    | decide
    | (with_reducible (apply Writes.fst; case e => assumption))
    | split

theorem State.pairTimeout_writes  (s : State) :
    Writes [.frames, .flows, .pairLink] s (State.pairTimeout s) := by
  unfold State.pairTimeout
  repeat' first
    | dsimp only
    | ((conv => arg 3; arg 39; skip); with_reducible refine Writes.set_pairLink ?_ ?_ _)
    | with_reducible exact Writes.refl _ _
    | (apply Writes.step; case k => with_reducible apply State.dropCopy_writes)
    | (apply Writes.step; case k => with_reducible apply State.flowDropped_writes)
    | with_reducible refine Writes.foldl ?_ ?_
    | with_reducible refine Writes.foldlFst ?_ ?_
    | decide
    | intro _

theorem execPairCopyTimeout_writes  (s : State) {s' : State}
    (h : execPairCopyTimeout s = .next s') : Writes [.frames, .flows, .pairLink] s s' := by
  unfold execPairCopyTimeout at h
  injection h with h
  subst h
  repeat' first
    | dsimp only
    | with_reducible exact Writes.refl _ _
    | (apply Writes.step; case k => with_reducible apply State.pairTimeout_writes)
    | decide

theorem execFlowCheckpoint_writes  (flow : BitVec 20) (s : State) {s' : State}
    (h : execFlowCheckpoint flow s = .next s') : Writes [.spine, .dram, .poison, .flows] s s' := by
  unfold execFlowCheckpoint at h
  injection h with h
  subst h
  repeat' first
    | dsimp only
    | with_reducible exact Writes.refl _ _
    | (apply Writes.step; case k => with_reducible apply State.checkpoint_writes)
    | (apply Writes.step; case k => with_reducible apply State.flowCrosses_writes)
    | with_reducible refine Writes.ite ?_ ?_
    | decide
    | (with_reducible (apply Writes.fst; case e => assumption))
    | split

theorem execFlowCmdGo_writes  (pf3 : Bool) (s : State) {s' : State}
    (h : execFlowCmdGo pf3 s = .next s') : Writes [.regs, .flows] s s' := by
  unfold execFlowCmdGo at h
  injection h with h
  subst h
  repeat' first
    | dsimp only
    | ((conv => arg 3; arg 39; skip); with_reducible refine Writes.set_flows ?_ ?_ _)
    | with_reducible exact Writes.refl _ _
    | (apply Writes.step; case k => (with_reducible apply State.setFld_writes_ne) <;> first | decide | (dsimp only [Reg.FLOW_CMD_STATUS, Reg.FLOW_CMD_STATUS_STATE, Reg.GLB_MODE, Field.of]; omega) | (split <;> decide))
    | with_reducible refine Writes.ite ?_ ?_
    | decide
    | split

theorem execCmdBlockRead_writes  (src : CmdSrc) (fin : ReadEnd) (block : FlowBlock) (wbOk : Bool) (s : State) {s' : State}
    (h : execCmdBlockRead src fin block wbOk s = .next s') : Writes [.regs, .cnts, .posted, .out, .free, .spine, .dram, .poison, .queues, .flows, .engines] s s' := by
  unfold execCmdBlockRead at h
  injection h with h
  subst h
  repeat' first
    | dsimp only
    | with_reducible exact Writes.refl _ _
    | (apply Writes.step; case k => with_reducible apply State.cmdBlockRead_writes)
    | decide

theorem execGenReset_writes  (src : CmdSrc) (part : BitVec 8) (flags : BitVec 8) (flowIdx : BitVec 32) (key : BitVec 512) (s : State) {s' : State}
    (h : execGenReset src part flags flowIdx key s = .next s') : Writes [.regs, .cnts, .posted, .out, .free, .spine, .dram, .poison, .queues, .flows] s s' := by
  unfold execGenReset at h
  injection h with h
  subst h
  repeat' first
    | dsimp only
    | with_reducible exact Writes.refl _ _
    | (apply Writes.step; case k => with_reducible apply State.runBlock_writes)
    | decide

theorem execPolicerProfileCommit_writes  (profile : BitVec 12) (s : State) {s' : State}
    (h : execPolicerProfileCommit profile s = .next s') : Writes [.regs, .stage] s s' := by
  unfold execPolicerProfileCommit at h
  injection h with h
  subst h
  repeat' first
    | dsimp only
    | with_reducible exact Writes.refl _ _
    | (apply Writes.step; case k => with_reducible apply State.commitPolicer_writes)
    | decide

theorem State.pairReceive_writes  (s : State) (lane : Nat) (b : List Byte) (ageNs : Nat) :
    Writes [.cnts, .posted, .lastPost, .out, .free, .spine, .cells, .frames, .nextFrame, .dram, .poison, .queues, .ports, .flows, .items, .itemSeq, .pairLink, .recCopies] s (State.pairReceive s lane b ageNs) := by
  unfold State.pairReceive
  repeat' first
    | dsimp only
    | with_reducible exact Writes.refl _ _
    | (apply Writes.step; case k => with_reducible apply State.holdCopy_writes)
    | (apply Writes.step; case k => with_reducible apply State.allocFrame_writes)
    | (apply Writes.step; case k => with_reducible apply State.classifyOrWait_writes)
    | with_reducible refine Writes.ite ?_ ?_
    | decide
    | split

theorem execPairLinkFrameReceive_writes  (lane : Fin 2) (bytes : List Byte) (ageNs : Nat) (s : State) {s' : State}
    (h : execPairLinkFrameReceive lane bytes ageNs s = .next s') : Writes [.cnts, .posted, .lastPost, .out, .free, .spine, .cells, .frames, .nextFrame, .dram, .poison, .queues, .ports, .flows, .items, .itemSeq, .pairLink, .recCopies] s s' := by
  unfold execPairLinkFrameReceive at h
  injection h with h
  subst h
  repeat' first
    | dsimp only
    | with_reducible exact Writes.refl _ _
    | (apply Writes.step; case k => with_reducible apply State.pairReceive_writes)
    | decide

end Sys2Proof.Machine
end

