-- ==== Sys2Proof/Laws/WritesQueueCmd.lean ====
section
/-! SUPPORT. What each operation of Machine/QueueCmd.lean writes. -/

namespace Sys2Proof.Machine

theorem State.refuseBuffer_writes  (s : State) (qid : Nat) (e : Entry) (detail : Nat) :
    Writes [.cnts, .queues] s (State.refuseBuffer s qid e detail) := by
  unfold State.refuseBuffer
  repeat' first
    | dsimp only
    | with_reducible exact Writes.refl _ _
    | (apply Writes.step; case k => with_reducible apply State.setQ_writes)
    | (apply Writes.step; case k => with_reducible apply State.complete_writes)
    | decide

theorem State.qmEnd_writes  (s : State) (fn : Nat) (op : Nat) (state : Nat) (result : Nat) :
    Writes [.regs] s (State.qmEnd s fn op state result) := by
  unfold State.qmEnd
  repeat' first
    | dsimp only
    | with_reducible exact Writes.refl _ _
    | (apply Writes.step; case k => (with_reducible apply State.setFld_writes_ne) <;> first | decide | (dsimp only [Reg.QM_QCMD_STATUS, Reg.QM_QCMD_STATUS_OP, Reg.QM_QCMD_STATUS_RESULT, Reg.QM_QCMD_STATUS_STATE, Reg.GLB_MODE, Field.of]; omega) | (split <;> decide))
    | decide

theorem State.qmRefuse_writes  (s : State) (fn : Nat) (op : Nat) (result : Nat) :
    Writes [.regs] s (State.qmRefuse s fn op result) := by
  unfold State.qmRefuse
  repeat' first
    | dsimp only
    | with_reducible exact Writes.refl _ _
    | (apply Writes.step; case k => with_reducible apply State.qmEnd_writes)
    | decide

/-- `qmOp` writes what the operation writes. -/
theorem State.qmOp_writes {l : List Part} {s : State} {fn op : Nat} {states : List Nat} {f : Nat → Queue → State}
    (hf : ∀ q x, Writes l s (f q x)) (hl : [.regs] ⊆ l) : Writes l s (State.qmOp s fn op states f) := by
  unfold State.qmOp
  repeat' first
    | with_reducible exact Writes.refl _ _
    | exact hf _ _
    | exact (Writes.refl _ _).step (State.qmRefuse_writes ..) hl
    | dsimp only
    | split

theorem State.qmDone_writes  (s : State) (fn : Nat) (op : Nat) :
    Writes [.regs] s (State.qmDone s fn op) := by
  unfold State.qmDone
  repeat' first
    | dsimp only
    | with_reducible exact Writes.refl _ _
    | (apply Writes.step; case k => with_reducible apply State.qmEnd_writes)
    | decide

theorem State.setQctx_writes  (s : State) (fn : Nat) (v : Nat) :
    Writes [.regs] s (State.setQctx s fn v) := by
  unfold State.setQctx
  repeat' first
    | dsimp only
    | with_reducible exact Writes.refl _ _
    | (apply Writes.step; case k => (with_reducible apply State.wrN_writes_ne) <;> first | decide | (dsimp only [Reg.QM_QCTX_W, Reg.GLB_MODE, Field.of]; omega) | (split <;> decide))
    | with_reducible refine Writes.foldl ?_ ?_
    | with_reducible refine Writes.foldlFst ?_ ?_
    | decide
    | intro _

theorem State.qmQuery_writes  (s : State) (fn : Nat) :
    Writes [.regs] s (State.qmQuery s fn) := by
  unfold State.qmQuery
  repeat' first
    | dsimp only
    | with_reducible exact Writes.refl _ _
    | (apply Writes.step; rotate_left; with_reducible apply State.qmOp_writes (l := [.regs]))
    | (apply Writes.step; case k => with_reducible apply State.qmDone_writes)
    | (apply Writes.step; case k => with_reducible apply State.setQctx_writes)
    | decide
    | intro _

theorem State.bodyRead_writes  (s : State) (qid : Nat) (pos : Nat) (b : List Byte) (poisoned : Bool) (e : Entry) :
    Writes [.cnts, .posted, .lastPost, .out, .free, .spine, .cells, .frames, .nextFrame, .dram, .poison, .queues, .ports, .flows, .items, .itemSeq, .pairLink, .recCopies, .ring] s (State.bodyRead s qid pos b poisoned e) := by
  unfold State.bodyRead
  repeat' first
    | dsimp only
    | ((conv => arg 3; arg 39; skip); with_reducible refine Writes.set_ring ?_ ?_ _)
    | with_reducible exact Writes.refl _ _
    | (apply Writes.step; case k => with_reducible apply State.mapEntry_writes)
    | (apply Writes.step; case k => with_reducible apply State.complete_writes)
    | (apply Writes.step; case k => with_reducible apply State.holdCopy_writes)
    | (apply Writes.step; case k => with_reducible apply State.allocFrame_writes)
    | (apply Writes.step; case k => with_reducible apply State.classifyOrWait_writes)
    | (apply Writes.step; case k => with_reducible apply State.toHub_writes)
    | with_reducible refine Writes.ite ?_ ?_
    | decide
    | split

theorem State.popRx_writes  (s : State) (qid : Nat) :
    Writes [.frames, .queues] s (State.popRx s qid) := by
  unfold State.popRx
  repeat' first
    | dsimp only
    | with_reducible exact Writes.refl _ _
    | (apply Writes.step; case k => with_reducible apply State.dropCopy_writes)
    | (apply Writes.step; case k => with_reducible apply State.setQ_writes)
    | decide
    | (with_reducible (apply Writes.fst; case e => assumption))
    | split

theorem State.dropRx_writes  (s : State) (qid : Nat) :
    Writes [.frames, .queues, .flows] s (State.dropRx s qid) := by
  unfold State.dropRx
  repeat' first
    | dsimp only
    | with_reducible exact Writes.refl _ _
    | (apply Writes.step; case k => with_reducible apply State.popRx_writes)
    | (apply Writes.step; case k => with_reducible apply State.flowDropped_writes)
    | decide
    | (with_reducible (apply Writes.fst; case e => assumption))
    | split

theorem State.endRx_writes  (s : State) (qid : Nat) (truncated : Bool) :
    Writes [.cnts, .frames, .queues] s (State.endRx s qid truncated) := by
  unfold State.endRx
  repeat' first
    | dsimp only
    | with_reducible exact Writes.refl _ _
    | (apply Writes.step; case k => with_reducible apply State.mapEntry_writes)
    | (apply Writes.step; case k => with_reducible apply State.count_writes)
    | (apply Writes.step; case k => with_reducible apply State.offer_writes)
    | (apply Writes.step; case k => with_reducible apply State.popRx_writes)
    | with_reducible refine Writes.ite ?_ ?_
    | decide
    | (with_reducible (apply Writes.fst; case e => assumption))
    | split

theorem State.clearRx_writes  (s : State) (qid : Nat) (x2 : Nat) :
    Writes [.cnts, .frames, .queues, .flows] s (State.clearRx s qid x2) := by
  induction x2 generalizing s with
  | zero =>
    unfold State.clearRx
    repeat' first
      | dsimp only
      | with_reducible exact Writes.refl _ _
      | (apply Writes.step; case k => with_reducible apply State.dropRx_writes)
      | (apply Writes.step; case k => with_reducible apply State.endRx_writes)
      | with_reducible refine Writes.ite ?_ ?_
      | decide
      | (with_reducible (apply Writes.fst; case e => assumption))
      | split
  | succ k ih =>
    unfold State.clearRx
    repeat' first
      | dsimp only
      | with_reducible exact Writes.refl _ _
      | (apply Writes.step; case k => with_reducible apply ih)
      | (apply Writes.step; case k => with_reducible apply State.dropRx_writes)
      | (apply Writes.step; case k => with_reducible apply State.endRx_writes)
      | with_reducible refine Writes.ite ?_ ?_
      | decide
      | (with_reducible (apply Writes.fst; case e => assumption))
      | split

theorem State.failFetch_writes  (s : State) (qid : Nat) (detail : Nat) :
    Writes [.cnts, .posted, .free, .frames, .queues, .flows] s (State.failFetch s qid detail) := by
  unfold State.failFetch
  repeat' first
    | dsimp only
    | with_reducible exact Writes.refl _ _
    | (apply Writes.step; case k => with_reducible apply State.setQ_writes)
    | (apply Writes.step; case k => with_reducible apply State.draw_writes)
    | (apply Writes.step; case k => with_reducible apply State.halt_writes)
    | (apply Writes.step; case k => with_reducible apply State.clearRx_writes)
    | with_reducible refine Writes.ite ?_ ?_
    | decide
    | split

theorem State.startHold_writes  (s : State) (qid : Nat) :
    Writes [.queues] s (State.startHold s qid) := by
  unfold State.startHold
  repeat' first
    | dsimp only
    | with_reducible exact Writes.refl _ _
    | (apply Writes.step; case k => with_reducible apply State.setQ_writes)
    | with_reducible refine Writes.ite ?_ ?_
    | decide
    | split

theorem State.holdExpire_writes  (s : State) (qid : Nat) :
    Writes [.cnts, .frames, .queues, .flows] s (State.holdExpire s qid) := by
  unfold State.holdExpire
  repeat' first
    | dsimp only
    | with_reducible exact Writes.refl _ _
    | (apply Writes.step; case k => with_reducible apply State.startHold_writes)
    | (apply Writes.step; case k => with_reducible apply State.count_writes)
    | (apply Writes.step; case k => with_reducible apply State.dropRx_writes)
    | (apply Writes.step; case k => with_reducible apply State.endRx_writes)
    | with_reducible refine Writes.ite ?_ ?_
    | decide
    | (with_reducible (apply Writes.fst; case e => assumption))
    | split

theorem State.qmCreate_writes  (s : State) (fn : Nat) :
    Writes [.regs, .queues] s (State.qmCreate s fn) := by
  unfold State.qmCreate
  repeat' first
    | dsimp only
    | with_reducible exact Writes.refl _ _
    | (apply Writes.step; rotate_left; with_reducible apply State.qmOp_writes (l := [.regs, .queues]))
    | (apply Writes.step; case k => with_reducible apply State.qmRefuse_writes)
    | (apply Writes.step; case k => with_reducible apply State.qmDone_writes)
    | (apply Writes.step; case k => with_reducible apply State.setQ_writes)
    | with_reducible refine Writes.ite ?_ ?_
    | decide
    | intro _
    | split

theorem execQmCreate_writes  (fn : BitVec 6) (s : State) {s' : State}
    (h : execQmCreate fn s = .next s') : Writes [.regs, .queues] s s' := by
  unfold execQmCreate at h
  injection h with h
  subst h
  repeat' first
    | dsimp only
    | with_reducible exact Writes.refl _ _
    | (apply Writes.step; case k => with_reducible apply State.qmCreate_writes)
    | decide

theorem execQmQuery_writes  (fn : BitVec 6) (s : State) {s' : State}
    (h : execQmQuery fn s = .next s') : Writes [.regs] s s' := by
  unfold execQmQuery at h
  injection h with h
  subst h
  repeat' first
    | dsimp only
    | with_reducible exact Writes.refl _ _
    | (apply Writes.step; case k => with_reducible apply State.qmQuery_writes)
    | decide

theorem State.fragmentTable_writes  (s : State) (qid : Nat) (pos : Nat) (fin : ReadEnd) (l : List (BitVec 128)) :
    Writes [.cnts, .posted, .queues] s (State.fragmentTable s qid pos fin l) := by
  unfold State.fragmentTable
  repeat' first
    | dsimp only
    | with_reducible exact Writes.refl _ _
    | (apply Writes.step; case k => with_reducible apply State.halt_writes)
    | (apply Writes.step; case k => with_reducible apply State.complete_writes)
    | (apply Writes.step; case k => with_reducible apply State.mapEntry_writes)
    | with_reducible refine Writes.ite ?_ ?_
    | decide
    | (with_reducible (apply Writes.fst; case e => assumption))
    | split

theorem State.txBody_writes  (s : State) (qid : Nat) (pos : Nat) (fin : ReadEnd) (b : List Byte) :
    Writes [.cnts, .posted, .lastPost, .out, .free, .spine, .cells, .frames, .nextFrame, .dram, .poison, .queues, .ports, .flows, .items, .itemSeq, .pairLink, .recCopies, .ring] s (State.txBody s qid pos fin b) := by
  unfold State.txBody
  repeat' first
    | dsimp only
    | with_reducible exact Writes.refl _ _
    | (apply Writes.step; case k => with_reducible apply State.complete_writes)
    | (apply Writes.step; case k => with_reducible apply State.bodyRead_writes)
    | with_reducible refine Writes.ite ?_ ?_
    | decide
    | (with_reducible (apply Writes.fst; case e => assumption))
    | split

theorem execTxBodyReadDone_writes  (qid : BitVec 20) (pos : Nat) (fin : ReadEnd) (body : List Byte) (s : State) {s' : State}
    (h : execTxBodyReadDone qid pos fin body s = .next s') : Writes [.cnts, .posted, .lastPost, .out, .free, .spine, .cells, .frames, .nextFrame, .dram, .poison, .queues, .ports, .flows, .items, .itemSeq, .pairLink, .recCopies, .ring] s s' := by
  unfold execTxBodyReadDone at h
  injection h with h
  subst h
  repeat' first
    | dsimp only
    | with_reducible exact Writes.refl _ _
    | (apply Writes.step; case k => with_reducible apply State.txBody_writes)
    | decide

theorem State.takeEntryBack_writes  (s : State) (qid : Nat) (pos : Nat) :
    Writes [.frames, .ports, .flows, .ring] s (State.takeEntryBack s qid pos) := by
  unfold State.takeEntryBack
  repeat' first
    | dsimp only
    | ((conv => arg 3; arg 39; skip); with_reducible refine Writes.set_ports_flows_ring ?_ ?_ _ _ _ ?_)
    | with_reducible exact Writes.refl _ _
    | exact fun h => Table.wf_set _ _ _ _ h
    | exact fun h => Table.wf_mapVals _ _ _ h
    | exact fun h => Table.wf_filter _ _ _ h
    | exact fun h => Table.wf_foldl_set _ _ _ _ _ (Table.wf_filter _ _ _ h)
    | (apply Writes.step; case k => with_reducible apply State.dropCopy_writes)
    | with_reducible refine Writes.foldl ?_ ?_
    | with_reducible refine Writes.foldlFst ?_ ?_
    | decide
    | intro _

theorem State.abortEntry_writes  (s : State) (qid : Nat) (e : Entry) :
    Writes [.cnts, .frames, .queues, .ports, .flows, .ring] s (State.abortEntry s qid e) := by
  unfold State.abortEntry
  repeat' first
    | dsimp only
    | with_reducible exact Writes.refl _ _
    | (apply Writes.step; case k => with_reducible apply State.complete_writes)
    | (apply Writes.step; case k => with_reducible apply State.takeEntryBack_writes)
    | with_reducible refine Writes.ite ?_ ?_
    | decide
    | split

theorem State.drainQueue_writes  (s : State) (qid : Nat) (reset : Bool) :
    Writes [.cnts, .frames, .queues, .ports, .flows, .ring] s (State.drainQueue s qid reset) := by
  unfold State.drainQueue
  repeat' first
    | dsimp only
    | with_reducible exact Writes.refl _ _
    | (apply Writes.step; case k => with_reducible apply State.clearRx_writes)
    | (apply Writes.step; case k => with_reducible apply State.setQ_writes)
    | (apply Writes.step; case k => with_reducible apply State.abortEntry_writes)
    | with_reducible refine Writes.foldl ?_ ?_
    | with_reducible refine Writes.foldlFst ?_ ?_
    | decide
    | intro _

theorem State.qmShutdown_writes  (s : State) (fn : Nat) :
    Writes [.regs, .cnts, .frames, .queues, .ports, .flows, .ring] s (State.qmShutdown s fn) := by
  unfold State.qmShutdown
  repeat' first
    | dsimp only
    | with_reducible exact Writes.refl _ _
    | (apply Writes.step; rotate_left; with_reducible apply State.qmOp_writes (l := [.regs, .cnts, .frames, .queues, .ports, .flows, .ring]))
    | (apply Writes.step; case k => with_reducible apply State.drainQueue_writes)
    | (apply Writes.step; case k => with_reducible apply State.qmEnd_writes)
    | (apply Writes.step; case k => with_reducible apply State.qmRefuse_writes)
    | with_reducible refine Writes.ite ?_ ?_
    | decide
    | intro _
    | split

theorem execQmShutdown_writes  (fn : BitVec 6) (s : State) {s' : State}
    (h : execQmShutdown fn s = .next s') : Writes [.regs, .cnts, .frames, .queues, .ports, .flows, .ring] s s' := by
  unfold execQmShutdown at h
  injection h with h
  subst h
  repeat' first
    | dsimp only
    | with_reducible exact Writes.refl _ _
    | (apply Writes.step; case k => with_reducible apply State.qmShutdown_writes)
    | decide

theorem State.takeEntry_writes  (s : State) (qid : Nat) (e : Entry) :
    Writes [.cnts, .queues] s (State.takeEntry s qid e) := by
  unfold State.takeEntry
  repeat' first
    | dsimp only
    | with_reducible exact Writes.refl _ _
    | (apply Writes.step; case k => with_reducible apply State.setQ_writes)
    | (apply Writes.step; case k => with_reducible apply State.count_writes)
    | (apply Writes.step; case k => with_reducible apply State.complete_writes)
    | with_reducible refine Writes.ite ?_ ?_
    | decide
    | (with_reducible (apply Writes.fst; case e => assumption))
    | split

theorem State.takeReady_writes  (s : State) (qid : Nat) (x2 : Nat) :
    Writes [.cnts, .queues] s (State.takeReady s qid x2) := by
  induction x2 generalizing s with
  | zero =>
    unfold State.takeReady
    repeat' first
      | dsimp only
      | with_reducible exact Writes.refl _ _
      | (apply Writes.step; case k => with_reducible apply State.refuseBuffer_writes)
      | (apply Writes.step; case k => with_reducible apply State.takeEntry_writes)
      | with_reducible refine Writes.ite ?_ ?_
      | decide
      | (with_reducible (apply Writes.fst; case e => assumption))
      | split
  | succ k ih =>
    unfold State.takeReady
    repeat' first
      | dsimp only
      | with_reducible exact Writes.refl _ _
      | (apply Writes.step; case k => with_reducible apply ih)
      | (apply Writes.step; case k => with_reducible apply State.refuseBuffer_writes)
      | (apply Writes.step; case k => with_reducible apply State.takeEntry_writes)
      | with_reducible refine Writes.ite ?_ ?_
      | decide
      | (with_reducible (apply Writes.fst; case e => assumption))
      | split

theorem State.takeWork_writes  (s : State) (qid : Nat) :
    Writes [.cnts, .queues] s (State.takeWork s qid) := by
  unfold State.takeWork
  repeat' first
    | dsimp only
    | with_reducible exact Writes.refl _ _
    | (apply Writes.step; case k => with_reducible apply State.takeReady_writes)
    | decide

theorem State.qmEnable_writes  (s : State) (fn : Nat) :
    Writes [.regs, .cnts, .posted, .out, .dram, .poison, .queues, .host, .flows] s (State.qmEnable s fn) := by
  unfold State.qmEnable
  repeat' first
    | dsimp only
    | with_reducible exact Writes.refl _ _
    | (apply Writes.step; rotate_left; with_reducible apply State.qmOp_writes (l := [.regs, .cnts, .posted, .out, .dram, .poison, .queues, .host, .flows]))
    | (apply Writes.step; case k => with_reducible apply State.qmRefuse_writes)
    | (apply Writes.step; case k => with_reducible apply State.qmDone_writes)
    | (apply Writes.step; case k => with_reducible apply State.setQ_writes)
    | (apply Writes.step; case k => with_reducible apply State.takeWork_writes)
    | (apply Writes.step; case k => with_reducible apply State.drainCq_writes)
    | (apply Writes.step; case k => with_reducible apply State.drainEvents_writes)
    | with_reducible refine Writes.ite ?_ ?_
    | decide
    | intro _
    | split

theorem execQmEnable_writes  (fn : BitVec 6) (s : State) {s' : State}
    (h : execQmEnable fn s = .next s') : Writes [.regs, .cnts, .posted, .out, .dram, .poison, .queues, .host, .flows] s s' := by
  unfold execQmEnable at h
  injection h with h
  subst h
  repeat' first
    | dsimp only
    | with_reducible exact Writes.refl _ _
    | (apply Writes.step; case k => with_reducible apply State.qmEnable_writes)
    | decide

theorem execFragmentTableRead_writes  (qid : BitVec 20) (pos : Nat) (fin : ReadEnd) (fragments : List (BitVec 128)) (s : State) {s' : State}
    (h : execFragmentTableRead qid pos fin fragments s = .next s') : Writes [.cnts, .posted, .queues] s s' := by
  unfold execFragmentTableRead at h
  injection h with h
  subst h
  repeat' first
    | dsimp only
    | with_reducible exact Writes.refl _ _
    | (apply Writes.step; case k => with_reducible apply State.fragmentTable_writes)
    | decide

theorem State.doorbell_writes  (s : State) (fn : Nat) (v : Nat) :
    Writes [.regs, .cnts, .posted, .lastPost, .out, .dram, .poison, .queues, .host, .flows] s (State.doorbell s fn v) := by
  unfold State.doorbell
  repeat' first
    | dsimp only
    | with_reducible exact Writes.refl _ _
    | (apply Writes.step; case k => with_reducible apply State.count_writes)
    | (apply Writes.step; case k => with_reducible apply State.postLimited_writes)
    | (apply Writes.step; case k => with_reducible apply State.setQ_writes)
    | (apply Writes.step; case k => with_reducible apply State.takeWork_writes)
    | (apply Writes.step; case k => with_reducible apply State.drainCq_writes)
    | (apply Writes.step; case k => with_reducible apply State.drainEvents_writes)
    | with_reducible refine Writes.ite ?_ ?_
    | decide
    | split

theorem State.readEntry_writes  (s : State) (qid : Nat) (pos : Nat) (v : BitVec 256) :
    Writes [.cnts, .queues] s (State.readEntry s qid pos v) := by
  unfold State.readEntry
  repeat' first
    | dsimp only
    | with_reducible exact Writes.refl _ _
    | (apply Writes.step; case k => with_reducible apply State.count_writes)
    | (apply Writes.step; case k => with_reducible apply State.setQ_writes)
    | with_reducible refine Writes.ite ?_ ?_
    | decide
    | (with_reducible (apply Writes.fst; case e => assumption))
    | split

theorem State.entryFetch_writes  (s : State) (qid : Nat) (fin : ReadEnd) (l : List (BitVec 256)) :
    Writes [.cnts, .posted, .free, .frames, .queues, .flows] s (State.entryFetch s qid fin l) := by
  unfold State.entryFetch
  repeat' first
    | dsimp only
    | with_reducible exact Writes.refl _ _
    | (apply Writes.step; case k => with_reducible apply State.failFetch_writes)
    | (apply Writes.step; case k => with_reducible apply State.readEntry_writes)
    | (apply Writes.step; case k => with_reducible apply State.takeWork_writes)
    | with_reducible refine Writes.ite ?_ ?_
    | with_reducible refine Writes.foldl ?_ ?_
    | with_reducible refine Writes.foldlFst ?_ ?_
    | decide
    | intro _
    | (with_reducible (apply Writes.fst; case e => assumption))
    | split

theorem execWorkEntryFetch_writes  (qid : BitVec 20) (fin : ReadEnd) (entries : List (BitVec 256)) (s : State) {s' : State}
    (h : execWorkEntryFetch qid fin entries s = .next s') : Writes [.cnts, .posted, .free, .frames, .queues, .flows] s s' := by
  unfold execWorkEntryFetch at h
  injection h with h
  subst h
  repeat' first
    | dsimp only
    | with_reducible exact Writes.refl _ _
    | (apply Writes.step; case k => with_reducible apply State.entryFetch_writes)
    | decide

theorem State.hostStore_writes  (s : State) (addr : Nat) (b : List Byte) (poisoned : Bool) :
    Writes [.cnts, .out, .free] s (State.hostStore s addr b poisoned) := by
  unfold State.hostStore
  repeat' first
    | dsimp only
    | with_reducible exact Writes.refl _ _
    | (apply Writes.step; case k => with_reducible apply State.countN_writes)
    | (apply Writes.step; case k => with_reducible apply State.emit_writes)
    | (apply Writes.step; case k => with_reducible apply State.draw_writes)
    | with_reducible refine Writes.ite ?_ ?_
    | decide
    | split

theorem State.useBuffer_writes  (s : State) (qid : Nat) (e : Entry) (c : RxCopy) :
    Writes [.cnts, .out, .free, .queues] s (State.useBuffer s qid e c) := by
  unfold State.useBuffer
  repeat' first
    | dsimp only
    | with_reducible exact Writes.refl _ _
    | (apply Writes.step; case k => with_reducible apply State.hostStore_writes)
    | (apply Writes.step; case k => with_reducible apply State.setQ_writes)
    | with_reducible refine Writes.ite ?_ ?_
    | decide
    | split

theorem State.deliverRx_writes  (s : State) (qid : Nat) (x2 : Nat) :
    Writes [.cnts, .out, .free, .frames, .queues] s (State.deliverRx s qid x2) := by
  induction x2 generalizing s with
  | zero =>
    unfold State.deliverRx
    repeat' first
      | dsimp only
      | with_reducible exact Writes.refl _ _
      | (apply Writes.step; case k => with_reducible apply State.setQ_writes)
      | (apply Writes.step; case k => with_reducible apply State.refuseBuffer_writes)
      | (apply Writes.step; case k => with_reducible apply State.takeWork_writes)
      | (apply Writes.step; case k => with_reducible apply State.endRx_writes)
      | (apply Writes.step; case k => with_reducible apply State.useBuffer_writes)
      | with_reducible refine Writes.ite ?_ ?_
      | decide
      | (with_reducible (apply Writes.fst; case e => assumption))
      | split
  | succ k ih =>
    unfold State.deliverRx
    repeat' first
      | dsimp only
      | with_reducible exact Writes.refl _ _
      | (apply Writes.step; case k => with_reducible apply ih)
      | (apply Writes.step; case k => with_reducible apply State.setQ_writes)
      | (apply Writes.step; case k => with_reducible apply State.refuseBuffer_writes)
      | (apply Writes.step; case k => with_reducible apply State.takeWork_writes)
      | (apply Writes.step; case k => with_reducible apply State.endRx_writes)
      | (apply Writes.step; case k => with_reducible apply State.useBuffer_writes)
      | with_reducible refine Writes.ite ?_ ?_
      | decide
      | (with_reducible (apply Writes.fst; case e => assumption))
      | split

theorem execRxDelivery_writes  (qid : BitVec 20) (s : State) {s' : State}
    (h : execRxDelivery qid s = .next s') : Writes [.cnts, .out, .free, .frames, .queues, .host] s s' := by
  unfold execRxDelivery at h
  injection h with h
  subst h
  repeat' first
    | dsimp only
    | with_reducible exact Writes.refl _ _
    | (apply Writes.step; case k => with_reducible apply State.signalPmes_writes)
    | (apply Writes.step; case k => with_reducible apply State.startHold_writes)
    | (apply Writes.step; case k => with_reducible apply State.deliverRx_writes)
    | with_reducible refine Writes.ite ?_ ?_
    | decide
    | split

theorem State.qmModify_writes  (s : State) (fn : Nat) :
    Writes [.regs, .queues] s (State.qmModify s fn) := by
  unfold State.qmModify
  repeat' first
    | dsimp only
    | with_reducible exact Writes.refl _ _
    | (apply Writes.step; rotate_left; with_reducible apply State.qmOp_writes (l := [.regs, .queues]))
    | (apply Writes.step; case k => with_reducible apply State.qmRefuse_writes)
    | (apply Writes.step; case k => with_reducible apply State.qmDone_writes)
    | (apply Writes.step; case k => with_reducible apply State.setQ_writes)
    | with_reducible refine Writes.ite ?_ ?_
    | decide
    | intro _
    | split

theorem execQmModify_writes  (fn : BitVec 6) (s : State) {s' : State}
    (h : execQmModify fn s = .next s') : Writes [.regs, .queues] s s' := by
  unfold execQmModify at h
  injection h with h
  subst h
  repeat' first
    | dsimp only
    | with_reducible exact Writes.refl _ _
    | (apply Writes.step; case k => with_reducible apply State.qmModify_writes)
    | decide

theorem State.drained_writes  (s : State) (qid : Nat) :
    Writes [.regs, .posted, .queues] s (State.drained s qid) := by
  unfold State.drained
  repeat' first
    | dsimp only
    | with_reducible exact Writes.refl _ _
    | (apply Writes.step; case k => with_reducible apply State.post_writes)
    | (apply Writes.step; case k => with_reducible apply State.setQ_writes)
    | (apply Writes.step; case k => with_reducible apply State.qmDone_writes)
    | with_reducible refine Writes.ite ?_ ?_
    | decide
    | split

theorem execDbBadWidth_writes  (s : State) {s' : State}
    (h : execDbBadWidth s = .next s') : Writes [.cnts] s s' := by
  unfold execDbBadWidth at h
  injection h with h
  subst h
  repeat' first
    | dsimp only
    | with_reducible exact Writes.refl _ _
    | (apply Writes.step; case k => with_reducible apply State.count_writes)
    | decide

theorem State.qmReset_writes  (s : State) (fn : Nat) :
    Writes [.regs, .cnts, .frames, .queues, .ports, .flows, .ring] s (State.qmReset s fn) := by
  unfold State.qmReset
  repeat' first
    | dsimp only
    | with_reducible exact Writes.refl _ _
    | (apply Writes.step; rotate_left; with_reducible apply State.qmOp_writes (l := [.regs, .cnts, .frames, .queues, .ports, .flows, .ring]))
    | (apply Writes.step; case k => with_reducible apply State.drainQueue_writes)
    | (apply Writes.step; case k => with_reducible apply State.qmEnd_writes)
    | (apply Writes.step; case k => with_reducible apply State.qmRefuse_writes)
    | (apply Writes.step; case k => with_reducible apply State.qmDone_writes)
    | (apply Writes.step; case k => with_reducible apply State.setQ_writes)
    | with_reducible refine Writes.ite ?_ ?_
    | decide
    | intro _
    | split

theorem execQmReset_writes  (fn : BitVec 6) (s : State) {s' : State}
    (h : execQmReset fn s = .next s') : Writes [.regs, .cnts, .frames, .queues, .ports, .flows, .ring] s s' := by
  unfold execQmReset at h
  injection h with h
  subst h
  repeat' first
    | dsimp only
    | with_reducible exact Writes.refl _ _
    | (apply Writes.step; case k => with_reducible apply State.qmReset_writes)
    | decide

theorem execRxHoldExpire_writes  (qid : BitVec 20) (s : State) {s' : State}
    (h : execRxHoldExpire qid s = .next s') : Writes [.cnts, .frames, .queues, .flows] s s' := by
  unfold execRxHoldExpire at h
  injection h with h
  subst h
  repeat' first
    | dsimp only
    | with_reducible exact Writes.refl _ _
    | (apply Writes.step; case k => with_reducible apply State.holdExpire_writes)
    | decide

theorem State.qmDestroy_writes  (s : State) (fn : Nat) :
    Writes [.regs, .queues] s (State.qmDestroy s fn) := by
  unfold State.qmDestroy
  repeat' first
    | dsimp only
    | with_reducible exact Writes.refl _ _
    | (apply Writes.step; rotate_left; with_reducible apply State.qmOp_writes (l := [.regs, .queues]))
    | (apply Writes.step; case k => with_reducible apply State.qmRefuse_writes)
    | (apply Writes.step; case k => with_reducible apply State.qmDone_writes)
    | (apply Writes.step; case k => with_reducible apply State.setQ_writes)
    | with_reducible refine Writes.ite ?_ ?_
    | decide
    | intro _
    | split

theorem execQmDestroy_writes  (fn : BitVec 6) (s : State) {s' : State}
    (h : execQmDestroy fn s = .next s') : Writes [.regs, .queues] s s' := by
  unfold execQmDestroy at h
  injection h with h
  subst h
  repeat' first
    | dsimp only
    | with_reducible exact Writes.refl _ _
    | (apply Writes.step; case k => with_reducible apply State.qmDestroy_writes)
    | decide

theorem execDrained_writes  (qid : BitVec 20) (s : State) {s' : State}
    (h : execDrained qid s = .next s') : Writes [.regs, .posted, .queues] s s' := by
  unfold execDrained at h
  injection h with h
  subst h
  repeat' first
    | dsimp only
    | with_reducible exact Writes.refl _ _
    | (apply Writes.step; case k => with_reducible apply State.drained_writes)
    | decide

theorem execEventPost_writes  (s : State) {s' : State}
    (h : execEventPost s = .next s') : Writes [.regs, .cnts, .posted, .out, .dram, .poison, .queues, .host] s s' := by
  unfold execEventPost at h
  injection h with h
  subst h
  repeat' first
    | dsimp only
    | ((conv => arg 3; arg 39; skip); with_reducible refine Writes.set_posted ?_ ?_ _)
    | with_reducible exact Writes.refl _ _
    | (apply Writes.step; case k => with_reducible apply State.signalPmes_writes)
    | (apply Writes.step; case k => with_reducible apply State.eventTo_writes)
    | (apply Writes.step; case k => with_reducible apply State.count_writes)
    | decide
    | (with_reducible (apply Writes.fst; case e => assumption))
    | split

end Sys2Proof.Machine
end

