-- ==== Sys2Proof/Laws/WritesDma.lean ====
section
/-! SUPPORT. What each operation of Machine/Dma.lean writes. -/

namespace Sys2Proof.Machine

theorem State.setChan_writes  (s : State) (c : Nat) (x : DmaChan) :
    Writes [.regs, .dma] s (State.setChan s c x) := by
  unfold State.setChan
  repeat' first
    | dsimp only
    | ((conv => arg 3; arg 39; skip); with_reducible refine Writes.set_dma ?_ ?_ _ ?_)
    | with_reducible exact Writes.refl _ _
    | exact fun h => Table.wf_set _ _ _ _ h
    | (apply Writes.step; case k => (with_reducible apply State.wrN_writes_ne) <;> first | decide | (dsimp only [Reg.DMA_CH_REMAIN, Reg.GLB_MODE, Field.of]; omega) | (split <;> decide))
    | decide

theorem State.setChState_writes  (s : State) (c : Nat) (v : Nat) :
    Writes [.regs] s (State.setChState s c v) := by
  unfold State.setChState
  repeat' first
    | dsimp only
    | with_reducible exact Writes.refl _ _
    | (apply Writes.step; case k => (with_reducible apply State.setFld_writes_ne) <;> first | decide | (dsimp only [Reg.DMA_CH_STATUS, Reg.DMA_CH_STATUS_STATE, Reg.GLB_MODE, Field.of]; omega) | (split <;> decide))
    | decide

theorem State.dmaCpl_writes  (s : State) (cq : Nat) (c : Nat) (status : Nat) (detail : Nat) (tag : Nat) (stamped : Bool) :
    Writes [.queues] s (State.dmaCpl s cq c status detail tag stamped) := by
  unfold State.dmaCpl
  repeat' first
    | dsimp only
    | with_reducible exact Writes.refl _ _
    | (apply Writes.step; case k => with_reducible apply State.setQ_writes)
    | with_reducible refine Writes.ite ?_ ?_
    | decide
    | split

theorem State.dmaHalt_writes  (s : State) (c : Nat) (status : Nat) (detail : Nat) :
    Writes [.regs, .cnts, .posted, .queues, .dma] s (State.dmaHalt s c status detail) := by
  unfold State.dmaHalt
  repeat' first
    | dsimp only
    | with_reducible exact Writes.refl _ _
    | (apply Writes.step; case k => with_reducible apply State.setChan_writes)
    | (apply Writes.step; case k => (with_reducible apply State.setFld_writes_ne) <;> first | decide | (dsimp only [Reg.DMA_CH_ERRCQ, Reg.DMA_CH_ERRCQ_CQ, Reg.DMA_CH_ERRCQ_EN, Reg.DMA_CH_STATUS, Reg.DMA_CH_STATUS_HALT_DETAIL, Reg.DMA_CH_STATUS_HALT_STATUS, Reg.GLB_MODE, Field.of]; omega) | (split <;> decide))
    | (apply Writes.step; case k => with_reducible apply State.setChState_writes)
    | (apply Writes.step; case k => with_reducible apply State.post_writes)
    | (apply Writes.step; case k => with_reducible apply State.count_writes)
    | (apply Writes.step; case k => with_reducible apply State.dmaCpl_writes)
    | with_reducible refine Writes.ite ?_ ?_
    | decide
    | split

theorem State.dmaWaitEnd_writes  (s : State) (c : Nat) :
    Writes [.regs, .dma] s (State.dmaWaitEnd s c) := by
  unfold State.dmaWaitEnd
  repeat' first
    | dsimp only
    | with_reducible exact Writes.refl _ _
    | (apply Writes.step; case k => with_reducible apply State.setChState_writes)
    | (apply Writes.step; case k => with_reducible apply State.setChan_writes)
    | decide

theorem State.setDmaPending_writes  (s : State) (c : Nat) (v : Nat) :
    Writes [.regs] s (State.setDmaPending s c v) := by
  unfold State.setDmaPending
  repeat' first
    | dsimp only
    | with_reducible exact Writes.refl _ _
    | (apply Writes.step; case k => (with_reducible apply State.setFld_writes_ne) <;> first | decide | (dsimp only [Reg.DMA_CH_STATUS, Reg.DMA_CH_STATUS_PENDING, Reg.GLB_MODE, Field.of]; omega) | (split <;> decide))
    | decide

theorem State.dmaWaitTest_writes  (s : State) (c : Nat) :
    Writes [.regs, .dma] s (State.dmaWaitTest s c) := by
  unfold State.dmaWaitTest
  repeat' first
    | dsimp only
    | with_reducible exact Writes.refl _ _
    | (apply Writes.step; case k => with_reducible apply State.dmaWaitEnd_writes)
    | (apply Writes.step; case k => with_reducible apply State.setDmaPending_writes)
    | (apply Writes.step; case k => (with_reducible apply State.wrN_writes_ne) <;> first | decide | (dsimp only [Reg.DMA_FLAGS, Reg.GLB_MODE, Field.of]; omega) | (split <;> decide))
    | with_reducible refine Writes.ite ?_ ?_
    | decide
    | split

theorem State.dmaSignal_writes  (s : State) (c : Nat) :
    Writes [.regs, .cnts, .posted, .queues, .dma] s (State.dmaSignal s c) := by
  unfold State.dmaSignal
  repeat' first
    | dsimp only
    | with_reducible exact Writes.refl _ _
    | (apply Writes.step; case k => with_reducible apply State.post_writes)
    | (apply Writes.step; case k => with_reducible apply State.setChan_writes)
    | (apply Writes.step; case k => with_reducible apply State.dmaCpl_writes)
    | (apply Writes.step; case k => with_reducible apply State.dmaHalt_writes)
    | (apply Writes.step; case k => (with_reducible apply State.wrN_writes_ne) <;> first | decide | (dsimp only [Reg.DMA_FLAGS, Reg.GLB_MODE, Field.of]; omega) | (split <;> decide))
    | with_reducible refine Writes.ite ?_ ?_
    | decide
    | split

theorem State.dmaIdle_writes  (s : State) (c : Nat) :
    Writes [.regs, .posted, .dma] s (State.dmaIdle s c) := by
  unfold State.dmaIdle
  repeat' first
    | dsimp only
    | with_reducible exact Writes.refl _ _
    | (apply Writes.step; case k => with_reducible apply State.post_writes)
    | (apply Writes.step; case k => with_reducible apply State.setChState_writes)
    | (apply Writes.step; case k => with_reducible apply State.setChan_writes)
    | with_reducible refine Writes.ite ?_ ?_
    | decide
    | split

theorem State.chanSettle_writes  (s : State) (c : Nat) :
    Writes [.regs, .cnts, .posted, .queues, .dma] s (State.chanSettle s c) := by
  unfold State.chanSettle
  repeat' first
    | dsimp only
    | with_reducible exact Writes.refl _ _
    | (apply Writes.step; case k => with_reducible apply State.dmaHalt_writes)
    | (apply Writes.step; case k => with_reducible apply State.setChan_writes)
    | (apply Writes.step; case k => with_reducible apply State.dmaWaitTest_writes)
    | (apply Writes.step; case k => with_reducible apply State.dmaSignal_writes)
    | (apply Writes.step; case k => with_reducible apply State.dmaIdle_writes)
    | with_reducible refine Writes.ite ?_ ?_
    | decide
    | split

theorem State.notePoison_writes  (s : State) (c : Nat) (b : DmaBurst) :
    Writes [.regs, .cnts, .dma] s (State.notePoison s c b) := by
  unfold State.notePoison
  repeat' first
    | dsimp only
    | with_reducible exact Writes.refl _ _
    | (apply Writes.step; case k => with_reducible apply State.setChan_writes)
    | (apply Writes.step; case k => with_reducible apply State.count_writes)
    | with_reducible refine Writes.ite ?_ ?_
    | decide
    | split

theorem State.segWrite_writes  (s : State) (x1 : List Seg) (x2 : List Byte) (x3 : Bool) :
    Writes [.cnts, .out, .free, .dram, .poison] s (State.segWrite s x1 x2 x3) := by
  induction x1 generalizing s x2 x3 with
  | nil =>
    unfold State.segWrite
    repeat' first
      | dsimp only
      | with_reducible exact Writes.refl _ _
      | (apply Writes.step; case k => with_reducible apply State.dramWrite_writes)
      | (apply Writes.step; case k => with_reducible apply State.hostStore_writes)
      | with_reducible refine Writes.ite ?_ ?_
      | decide
      | split
  | cons a x ih =>
    unfold State.segWrite
    repeat' first
      | dsimp only
      | with_reducible exact Writes.refl _ _
      | (apply Writes.step; case k => with_reducible apply ih)
      | (apply Writes.step; case k => with_reducible apply State.dramWrite_writes)
      | (apply Writes.step; case k => with_reducible apply State.hostStore_writes)
      | with_reducible refine Writes.ite ?_ ?_
      | decide
      | split

theorem State.dramBurst_writes  (s : State) (c : Nat) (b : DmaBurst) :
    Writes [.regs, .cnts, .out, .free, .dram, .poison, .dma] s (State.dramBurst s c b) := by
  unfold State.dramBurst
  repeat' first
    | dsimp only
    | with_reducible exact Writes.refl _ _
    | (apply Writes.step; case k => with_reducible apply State.notePoison_writes)
    | (apply Writes.step; case k => with_reducible apply State.count_writes)
    | (apply Writes.step; case k => with_reducible apply State.segWrite_writes)
    | with_reducible refine Writes.ite ?_ ?_
    | decide
    | (with_reducible (apply Writes.fst; case e => assumption))
    | split

theorem State.issueBursts_writes  (s : State) (c : Nat) (x2 : Nat) :
    Writes [.regs, .cnts, .posted, .out, .free, .dram, .poison, .queues, .dma] s (State.issueBursts s c x2) := by
  induction x2 generalizing s with
  | zero =>
    unfold State.issueBursts
    repeat' first
      | dsimp only
      | with_reducible exact Writes.refl _ _
      | (apply Writes.step; case k => with_reducible apply State.dmaHalt_writes)
      | (apply Writes.step; case k => with_reducible apply State.draw_writes)
      | (apply Writes.step; case k => with_reducible apply State.setDmaPending_writes)
      | (apply Writes.step; case k => with_reducible apply State.setChan_writes)
      | (apply Writes.step; case k => with_reducible apply State.dramBurst_writes)
      | with_reducible refine Writes.ite ?_ ?_
      | decide
      | split
  | succ k ih =>
    unfold State.issueBursts
    repeat' first
      | dsimp only
      | with_reducible exact Writes.refl _ _
      | (apply Writes.step; case k => with_reducible apply ih)
      | (apply Writes.step; case k => with_reducible apply State.dmaHalt_writes)
      | (apply Writes.step; case k => with_reducible apply State.draw_writes)
      | (apply Writes.step; case k => with_reducible apply State.setDmaPending_writes)
      | (apply Writes.step; case k => with_reducible apply State.setChan_writes)
      | (apply Writes.step; case k => with_reducible apply State.dramBurst_writes)
      | with_reducible refine Writes.ite ?_ ?_
      | decide
      | split

theorem State.advanceChan_writes  (s : State) (c : Nat) :
    Writes [.regs, .cnts, .posted, .out, .free, .dram, .poison, .queues, .dma] s (State.advanceChan s c) := by
  unfold State.advanceChan
  repeat' first
    | dsimp only
    | with_reducible exact Writes.refl _ _
    | (apply Writes.step; case k => with_reducible apply State.chanSettle_writes)
    | (apply Writes.step; case k => with_reducible apply State.issueBursts_writes)
    | decide

theorem State.dmaCopy_writes  (s : State) (c : Nat) (src : List Seg) (dst : List Seg) (total : Nat) :
    Writes [.regs, .cnts, .posted, .out, .free, .dram, .poison, .queues, .dma] s (State.dmaCopy s c src dst total) := by
  unfold State.dmaCopy
  repeat' first
    | dsimp only
    | with_reducible exact Writes.refl _ _
    | (apply Writes.step; case k => with_reducible apply State.advanceChan_writes)
    | (apply Writes.step; case k => with_reducible apply State.setChan_writes)
    | decide

theorem State.dmaRequestTo_writes  (s : State) (c : Nat) :
    Writes [.regs, .cnts, .posted, .lastPost, .out, .free, .dram, .poison, .queues, .dma] s (State.dmaRequestTo s c) := by
  unfold State.dmaRequestTo
  repeat' first
    | dsimp only
    | ((conv => arg 3; arg 39; skip); with_reducible refine Writes.set_lastPost ?_ ?_ _ ?_)
    | with_reducible exact Writes.refl _ _
    | exact fun h => Table.wf_set _ _ _ _ h
    | (apply Writes.step; case k => with_reducible apply State.count_writes)
    | (apply Writes.step; case k => with_reducible apply State.post_writes)
    | (apply Writes.step; case k => with_reducible apply State.setDmaPending_writes)
    | (apply Writes.step; case k => with_reducible apply State.advanceChan_writes)
    | with_reducible refine Writes.ite ?_ ?_
    | decide
    | split

theorem State.dmaLine_writes  (s : State) (k : Nat) :
    Writes [.regs, .cnts, .posted, .lastPost, .out, .free, .dram, .poison, .queues, .dma] s (State.dmaLine s k) := by
  unfold State.dmaLine
  repeat' first
    | dsimp only
    | with_reducible exact Writes.refl _ _
    | (apply Writes.step; case k => with_reducible apply State.dmaRequestTo_writes)
    | with_reducible refine Writes.ite ?_ ?_
    | with_reducible refine Writes.foldl ?_ ?_
    | with_reducible refine Writes.foldlFst ?_ ?_
    | decide
    | intro _
    | split

theorem State.dmaStop_writes  (s : State) (c : Nat) :
    Writes [.regs, .cnts, .posted, .queues, .dma] s (State.dmaStop s c) := by
  unfold State.dmaStop
  repeat' first
    | dsimp only
    | with_reducible exact Writes.refl _ _
    | (apply Writes.step; case k => with_reducible apply State.dmaHalt_writes)
    | (apply Writes.step; case k => with_reducible apply State.chanSettle_writes)
    | (apply Writes.step; case k => with_reducible apply State.setChState_writes)
    | (apply Writes.step; case k => with_reducible apply State.setChan_writes)
    | with_reducible refine Writes.ite ?_ ?_
    | decide
    | split

theorem State.watchLine_writes  (s : State) (c : Nat) (line : Option Nat) :
    Writes [.regs, .dma] s (State.watchLine s c line) := by
  unfold State.watchLine
  repeat' first
    | dsimp only
    | with_reducible exact Writes.refl _ _
    | (apply Writes.step; case k => with_reducible apply State.setDmaPending_writes)
    | (apply Writes.step; case k => with_reducible apply State.setChan_writes)
    | with_reducible refine Writes.ite ?_ ?_
    | decide
    | (with_reducible (apply Writes.fst; case e => assumption))
    | split

theorem State.dmaEnter_writes  (s : State) (c : Nat) (w : Nat) (next : Option (BitVec 6)) :
    Writes [.regs, .dma] s (State.dmaEnter s c w next) := by
  unfold State.dmaEnter
  repeat' first
    | dsimp only
    | with_reducible exact Writes.refl _ _
    | (apply Writes.step; case k => with_reducible apply State.setChan_writes)
    | (apply Writes.step; case k => with_reducible apply State.watchLine_writes)
    | (apply Writes.step; case k => (with_reducible apply State.setFld_writes_ne) <;> first | decide | (dsimp only [Reg.DMA_CH_PC, Reg.DMA_CH_PC_INDEX, Reg.GLB_MODE, Field.of]; omega) | (split <;> decide))
    | with_reducible refine Writes.ite ?_ ?_
    | decide
    | split

/-- `dmaRunWord` writes what the instruction writes. -/
theorem State.dmaRunWord_writes {l : List Part} {s : State} {c idx w : Nat} {fin : ReadEnd}
    {next : Option (BitVec 6)} {op : Nat} {sub : Option Nat}
    {f : Nat → State → State} (hf : ∀ w y, Writes l y (f w y)) (hl : [.regs, .cnts, .posted, .queues, .dma] ⊆ l) :
    Writes l s (State.dmaRunWord s c idx w fin next op sub f) := by
  unfold State.dmaRunWord
  repeat' first
    | with_reducible exact Writes.refl _ _
    | (apply Writes.step; case k => with_reducible apply State.dmaHalt_writes)
    | (apply Writes.step; case k => (with_reducible apply State.setFld_writes_ne) <;> (dsimp only [Reg.DMA_CH_PC_INDEX, Reg.DMA_CH_PC, Reg.GLB_MODE]; omega))
    | (apply Writes.step; case k => with_reducible apply hf)
    | (apply Writes.step; case k => with_reducible apply State.dmaEnter_writes)
    | with_reducible refine Writes.ite ?_ ?_
    | exact List.Subset.refl _
    | exact List.Subset.trans (by decide) hl
    | split

theorem State.settleAll_writes  (s : State) :
    Writes [.regs, .cnts, .posted, .queues, .dma] s (State.settleAll s) := by
  unfold State.settleAll
  repeat' first
    | dsimp only
    | with_reducible exact Writes.refl _ _
    | (apply Writes.step; case k => with_reducible apply State.chanSettle_writes)
    | with_reducible refine Writes.foldl ?_ ?_
    | with_reducible refine Writes.foldlFst ?_ ?_
    | decide
    | intro _

theorem State.burstData_writes  (s : State) (c : Nat) (id : Nat) (off : Nat) (data : List Byte) (poisoned : Bool) :
    Writes [.regs, .cnts, .posted, .out, .free, .dram, .poison, .queues, .dma] s (State.burstData s c id off data poisoned) := by
  unfold State.burstData
  repeat' first
    | dsimp only
    | with_reducible exact Writes.refl _ _
    | (apply Writes.step; case k => with_reducible apply State.notePoison_writes)
    | (apply Writes.step; case k => with_reducible apply State.segWrite_writes)
    | (apply Writes.step; case k => with_reducible apply State.advanceChan_writes)
    | (apply Writes.step; case k => with_reducible apply State.count_writes)
    | (apply Writes.step; case k => with_reducible apply State.setChan_writes)
    | with_reducible refine Writes.ite ?_ ?_
    | decide
    | (with_reducible (apply Writes.fst; case e => assumption))
    | split

theorem State.burstFails_writes  (s : State) (c : Nat) (id : Nat) (detail : Nat) :
    Writes [.regs, .cnts, .posted, .queues, .dma] s (State.burstFails s c id detail) := by
  unfold State.burstFails
  repeat' first
    | dsimp only
    | with_reducible exact Writes.refl _ _
    | (apply Writes.step; case k => with_reducible apply State.chanSettle_writes)
    | (apply Writes.step; case k => with_reducible apply State.setChan_writes)
    | (apply Writes.step; case k => with_reducible apply State.dmaHalt_writes)
    | (apply Writes.step; case k => with_reducible apply State.count_writes)
    | with_reducible refine Writes.ite ?_ ?_
    | decide
    | (with_reducible (apply Writes.fst; case e => assumption))
    | split

theorem execDmaReadCompletion_writes  (ch : Fin 32) (burst : Nat) (off : Nat) (data : List Byte) (fin : ReadEnd) (s : State) {s' : State}
    (h : execDmaReadCompletion ch burst off data fin s = .next s') : Writes [.regs, .cnts, .posted, .out, .free, .dram, .poison, .queues, .dma] s s' := by
  unfold execDmaReadCompletion at h
  injection h with h
  subst h
  repeat' first
    | dsimp only
    | with_reducible exact Writes.refl _ _
    | (apply Writes.step; case k => with_reducible apply State.settleAll_writes)
    | (apply Writes.step; case k => with_reducible apply State.burstData_writes)
    | (apply Writes.step; case k => with_reducible apply State.burstFails_writes)
    | decide
    | (with_reducible (apply Writes.fst; case e => assumption))
    | split

/-- `dmaRun` writes what the instruction writes. -/
theorem State.dmaRun_writes {l : List Part} {s : State} {c : Nat} {g : DmaFetch} {op : Nat} {sub : Option Nat}
    {f : Nat → State → State} (hf : ∀ w y, Writes l y (f w y)) (hl : [.regs, .cnts, .posted, .queues, .dma] ⊆ l) :
    Writes l s (State.dmaRun s c g op sub f) := by
  unfold State.dmaRun
  repeat' first
    | with_reducible exact Writes.refl _ _
    | (apply Writes.step; case k => with_reducible apply State.chanSettle_writes)
    | (apply Writes.step; case k => with_reducible apply State.dmaHalt_writes)
    | exact State.dmaRunWord_writes hf hl
    | with_reducible refine Writes.ite ?_ ?_
    | exact List.Subset.trans (by decide) hl

/-- `dmaListed` writes what the instruction writes. -/
theorem State.dmaListed_writes {l : List Part} {s : State} {c w addr bit off : Nat} {loc : Bool}
    {es : List (BitVec 128)} {fin : ReadEnd} {f : List Seg → Nat → State → State}
    (hf : ∀ a b y, Writes l y (f a b y)) (hl : [.regs, .cnts, .posted, .queues, .dma] ⊆ l) :
    Writes l s (State.dmaListed s c w addr bit off loc es fin f) := by
  unfold State.dmaListed
  repeat' first
    | with_reducible exact Writes.refl _ _
    | exact hf _ _ _
    | exact (Writes.refl _ _).step (State.dmaHalt_writes ..) hl
    | dsimp only
    | split

theorem execDmaScatter_writes  (ch : Fin 32) (f : DmaFetch) (list : List (BitVec 128)) (listFin : ReadEnd) (s : State) {s' : State}
    (h : execDmaScatter ch f list listFin s = .next s') : Writes [.regs, .cnts, .posted, .out, .free, .dram, .poison, .queues, .dma] s s' := by
  unfold execDmaScatter at h
  injection h with h
  subst h
  repeat' first
    | dsimp only
    | with_reducible exact Writes.refl _ _
    | (apply Writes.step; rotate_left; with_reducible apply State.dmaRun_writes (l := [.regs, .cnts, .posted, .out, .free, .dram, .poison, .queues, .dma]))
    | (apply Writes.step; rotate_left; with_reducible apply State.dmaListed_writes (l := [.regs, .cnts, .posted, .out, .free, .dram, .poison, .queues, .dma]))
    | (apply Writes.step; case k => with_reducible apply State.dmaCopy_writes)
    | decide
    | intro _

theorem State.lineRaised_writes  (s : State) (k : Nat) :
    Writes [.flows, .ring] s ((State.lineRaised s k).1) := by
  unfold State.lineRaised
  repeat' first
    | dsimp only
    | ((conv => arg 3; arg 39; skip); with_reducible refine Writes.set_flows ?_ ?_ _)
    | ((conv => arg 3; arg 39; skip); with_reducible refine Writes.set_ring ?_ ?_ _)
    | with_reducible exact Writes.refl _ _
    | with_reducible refine Writes.ite ?_ ?_
    | decide
    | split

theorem State.dmaRequest_writes  (s : State) (k : Nat) :
    Writes [.regs, .cnts, .posted, .lastPost, .out, .free, .dram, .poison, .queues, .flows, .ring, .dma] s (State.dmaRequest s k) := by
  unfold State.dmaRequest
  repeat' first
    | dsimp only
    | with_reducible exact Writes.refl _ _
    | (apply Writes.step; case k => with_reducible apply State.lineRaised_writes)
    | (apply Writes.step; case k => with_reducible apply State.settleAll_writes)
    | (apply Writes.step; case k => with_reducible apply State.dmaLine_writes)
    | with_reducible refine Writes.ite ?_ ?_
    | decide
    | (with_reducible (apply Writes.fst; case e => assumption))
    | split

theorem execDmaRequest_writes  (line : BitVec 6) (s : State) {s' : State}
    (h : execDmaRequest line s = .next s') : Writes [.regs, .cnts, .posted, .lastPost, .out, .free, .dram, .poison, .queues, .flows, .ring, .dma] s s' := by
  unfold execDmaRequest at h
  injection h with h
  subst h
  repeat' first
    | dsimp only
    | with_reducible exact Writes.refl _ _
    | (apply Writes.step; case k => with_reducible apply State.dmaRequest_writes)
    | decide

theorem execCompletionWrite_writes  (cq : BitVec 20) (s : State) {s' : State}
    (h : execCompletionWrite cq s = .next s') : Writes [.regs, .cnts, .posted, .out, .dram, .poison, .queues, .host, .flows, .dma] s s' := by
  unfold execCompletionWrite at h
  injection h with h
  subst h
  repeat' first
    | dsimp only
    | with_reducible exact Writes.refl _ _
    | (apply Writes.step; case k => with_reducible apply State.signalPmes_writes)
    | (apply Writes.step; case k => with_reducible apply State.settleAll_writes)
    | (apply Writes.step; case k => with_reducible apply State.moveCpl_writes)
    | with_reducible refine Writes.ite ?_ ?_
    | decide
    | split

theorem State.dmaLoop_writes  (s : State) (c : Nat) (w : Nat) :
    Writes [.regs, .dma] s (State.dmaLoop s c w) := by
  unfold State.dmaLoop
  repeat' first
    | dsimp only
    | with_reducible exact Writes.refl _ _
    | (apply Writes.step; case k => with_reducible apply State.setChan_writes)
    | with_reducible refine Writes.ite ?_ ?_
    | decide
    | split

theorem State.pathTimeout_writes  (s : State) (x1 : ReadPath) :
    Writes [.regs, .cnts, .posted, .free, .boot, .frames, .queues, .flows, .dma] s (State.pathTimeout s x1) := by
  unfold State.pathTimeout
  repeat' first
    | dsimp only
    | with_reducible exact Writes.refl _ _
    | (apply Writes.step; case k => with_reducible apply State.failFetch_writes)
    | (apply Writes.step; case k => with_reducible apply State.halt_writes)
    | (apply Writes.step; case k => with_reducible apply State.complete_writes)
    | (apply Writes.step; case k => with_reducible apply State.flowCmdFails_writes)
    | (apply Writes.step; case k => with_reducible apply State.mbEnd_writes)
    | (apply Writes.step; case k => with_reducible apply State.burstFails_writes)
    | (apply Writes.step; case k => with_reducible apply State.dmaHalt_writes)
    | with_reducible refine Writes.ite ?_ ?_
    | decide
    | (with_reducible (apply Writes.fst; case e => assumption))
    | split

theorem State.readTimeout_writes  (s : State) (path : ReadPath) (fn : Nat) (tag : Nat) :
    Writes [.regs, .cnts, .posted, .lastPost, .free, .boot, .frames, .queues, .host, .flows, .dma] s (State.readTimeout s path fn tag) := by
  unfold State.readTimeout
  repeat' first
    | dsimp only
    | ((conv => arg 3; arg 39; skip); with_reducible refine Writes.set_host ?_ ?_ _)
    | with_reducible exact Writes.refl _ _
    | (apply Writes.step; case k => with_reducible apply State.postOpenLimited_writes)
    | (apply Writes.step; case k => with_reducible apply State.count_writes)
    | (apply Writes.step; case k => with_reducible apply State.pathTimeout_writes)
    | with_reducible refine Writes.ite ?_ ?_
    | decide
    | split

theorem State.dmaHold_writes  (s : State) (c : Nat) :
    Writes [.regs, .cnts, .posted, .queues, .dma] s (State.dmaHold s c) := by
  unfold State.dmaHold
  repeat' first
    | dsimp only
    | with_reducible exact Writes.refl _ _
    | (apply Writes.step; case k => with_reducible apply State.chanSettle_writes)
    | (apply Writes.step; case k => with_reducible apply State.setChan_writes)
    | decide

theorem execDmaHalt_writes  (ch : Fin 32) (f : DmaFetch) (s : State) {s' : State}
    (h : execDmaHalt ch f s = .next s') : Writes [.regs, .cnts, .posted, .queues, .dma] s s' := by
  unfold execDmaHalt at h
  injection h with h
  subst h
  repeat' first
    | dsimp only
    | with_reducible exact Writes.refl _ _
    | (apply Writes.step; rotate_left; with_reducible apply State.dmaRun_writes (l := [.regs, .cnts, .posted, .queues, .dma]))
    | (apply Writes.step; case k => with_reducible apply State.dmaHold_writes)
    | decide
    | intro _

theorem execDmaSignalFlag_writes  (ch : Fin 32) (f : DmaFetch) (s : State) {s' : State}
    (h : execDmaSignalFlag ch f s = .next s') : Writes [.regs, .cnts, .posted, .queues, .dma] s s' := by
  unfold execDmaSignalFlag at h
  injection h with h
  subst h
  repeat' first
    | dsimp only
    | with_reducible exact Writes.refl _ _
    | (apply Writes.step; rotate_left; with_reducible apply State.dmaRun_writes (l := [.regs, .cnts, .posted, .queues, .dma]))
    | (apply Writes.step; case k => with_reducible apply State.settleAll_writes)
    | (apply Writes.step; case k => with_reducible apply State.dmaHold_writes)
    | decide
    | intro _

theorem State.dmaWait_writes  (s : State) (c : Nat) :
    Writes [.regs, .cnts, .posted, .queues, .dma] s (State.dmaWait s c) := by
  unfold State.dmaWait
  repeat' first
    | dsimp only
    | with_reducible exact Writes.refl _ _
    | (apply Writes.step; case k => with_reducible apply State.chanSettle_writes)
    | (apply Writes.step; case k => with_reducible apply State.setChState_writes)
    | (apply Writes.step; case k => with_reducible apply State.setChan_writes)
    | decide

theorem execDmaWaitTime_writes  (ch : Fin 32) (f : DmaFetch) (s : State) {s' : State}
    (h : execDmaWaitTime ch f s = .next s') : Writes [.regs, .cnts, .posted, .queues, .dma] s s' := by
  unfold execDmaWaitTime at h
  injection h with h
  subst h
  repeat' first
    | dsimp only
    | with_reducible exact Writes.refl _ _
    | (apply Writes.step; rotate_left; with_reducible apply State.dmaRun_writes (l := [.regs, .cnts, .posted, .queues, .dma]))
    | (apply Writes.step; case k => with_reducible apply State.dmaWait_writes)
    | decide
    | intro _

theorem execDmaLoop_writes  (ch : Fin 32) (f : DmaFetch) (s : State) {s' : State}
    (h : execDmaLoop ch f s = .next s') : Writes [.regs, .cnts, .posted, .queues, .dma] s s' := by
  unfold execDmaLoop at h
  injection h with h
  subst h
  repeat' first
    | dsimp only
    | with_reducible exact Writes.refl _ _
    | (apply Writes.step; rotate_left; with_reducible apply State.dmaRun_writes (l := [.regs, .cnts, .posted, .queues, .dma]))
    | (apply Writes.step; case k => with_reducible apply State.dmaLoop_writes)
    | decide
    | intro _

theorem execCplTimeout_writes  (path : ReadPath) (fn : BitVec 6) (tag : BitVec 10) (s : State) {s' : State}
    (h : execCplTimeout path fn tag s = .next s') : Writes [.regs, .cnts, .posted, .lastPost, .free, .boot, .frames, .queues, .host, .flows, .dma] s s' := by
  unfold execCplTimeout at h
  injection h with h
  subst h
  repeat' first
    | dsimp only
    | with_reducible exact Writes.refl _ _
    | (apply Writes.step; case k => with_reducible apply State.readTimeout_writes)
    | decide

theorem execDoorbell_writes  (fn : BitVec 6) (value : BitVec 64) (s : State) {s' : State}
    (h : execDoorbell fn value s = .next s') : Writes [.regs, .cnts, .posted, .lastPost, .out, .dram, .poison, .queues, .host, .flows, .dma] s s' := by
  unfold execDoorbell at h
  injection h with h
  subst h
  repeat' first
    | dsimp only
    | with_reducible exact Writes.refl _ _
    | (apply Writes.step; case k => with_reducible apply State.settleAll_writes)
    | (apply Writes.step; case k => with_reducible apply State.doorbell_writes)
    | decide

theorem execDmaStop_writes  (ch : Fin 32) (byRole : Bool) (s : State) {s' : State}
    (h : execDmaStop ch byRole s = .next s') : Writes [.regs, .cnts, .posted, .queues, .dma] s s' := by
  unfold execDmaStop at h
  injection h with h
  subst h
  repeat' first
    | dsimp only
    | with_reducible exact Writes.refl _ _
    | (apply Writes.step; case k => with_reducible apply State.dmaStop_writes)
    | with_reducible refine Writes.ite ?_ ?_
    | decide
    | split

theorem State.lateNotice_writes  (s : State) (qid : Nat) (pos : Nat) :
    Writes [.cnts, .queues] s (State.lateNotice s qid pos) := by
  unfold State.lateNotice
  repeat' first
    | dsimp only
    | with_reducible exact Writes.refl _ _
    | (apply Writes.step; case k => with_reducible apply State.count_writes)
    | (apply Writes.step; case k => with_reducible apply State.setQ_writes)
    | with_reducible refine Writes.ite ?_ ?_
    | decide
    | split

theorem State.lateCompletion_writes  (s : State) (fn : Nat) (tag : Nat) :
    Writes [.cnts, .posted, .lastPost, .free, .queues, .host] s (State.lateCompletion s fn tag) := by
  unfold State.lateCompletion
  repeat' first
    | dsimp only
    | ((conv => arg 3; arg 39; skip); with_reducible refine Writes.set_host ?_ ?_ _)
    | with_reducible exact Writes.refl _ _
    | (apply Writes.step; case k => with_reducible apply State.count_writes)
    | (apply Writes.step; case k => with_reducible apply State.postOpenLimited_writes)
    | (apply Writes.step; case k => with_reducible apply State.lateNotice_writes)
    | with_reducible refine Writes.ite ?_ ?_
    | decide
    | (with_reducible (apply Writes.fst; case e => assumption))
    | split

theorem execLateCompletion_writes  (fn : BitVec 6) (tag : BitVec 10) (s : State) {s' : State}
    (h : execLateCompletion fn tag s = .next s') : Writes [.cnts, .posted, .lastPost, .free, .queues, .host] s s' := by
  unfold execLateCompletion at h
  injection h with h
  subst h
  repeat' first
    | dsimp only
    | with_reducible exact Writes.refl _ _
    | (apply Writes.step; case k => with_reducible apply State.lateCompletion_writes)
    | decide

theorem execDmaFlagsWrite_writes  (value : BitVec 32) (s : State) {s' : State}
    (h : execDmaFlagsWrite value s = .next s') : Writes [.regs, .cnts, .posted, .queues, .dma] s s' := by
  unfold execDmaFlagsWrite at h
  injection h with h
  subst h
  repeat' first
    | dsimp only
    | with_reducible exact Writes.refl _ _
    | (apply Writes.step; case k => with_reducible apply State.settleAll_writes)
    | (apply Writes.step; case k => (with_reducible apply State.wr_writes_ne) <;> first | decide | (dsimp only [Reg.DMA_FLAGS, Reg.GLB_MODE, Field.of]; omega) | (split <;> decide))
    | decide

theorem State.dmaStart_writes  (s : State) (c : Nat) :
    Writes [.regs, .cnts, .posted, .queues, .dma] s (State.dmaStart s c) := by
  unfold State.dmaStart
  repeat' first
    | dsimp only
    | with_reducible exact Writes.refl _ _
    | (apply Writes.step; case k => with_reducible apply State.setDmaPending_writes)
    | (apply Writes.step; case k => with_reducible apply State.setChan_writes)
    | (apply Writes.step; case k => with_reducible apply State.setChState_writes)
    | (apply Writes.step; case k => (with_reducible apply State.setFld_writes_ne) <;> first | decide | (dsimp only [Reg.DMA_CH_PC, Reg.DMA_CH_PC_INDEX, Reg.DMA_CH_PROG_LO, Reg.GLB_MODE, Field.of]; omega) | (split <;> decide))
    | (apply Writes.step; case k => with_reducible apply State.dmaHalt_writes)
    | with_reducible refine Writes.ite ?_ ?_
    | decide
    | split

theorem execDmaStart_writes  (ch : Fin 32) (byRole : Bool) (s : State) {s' : State}
    (h : execDmaStart ch byRole s = .next s') : Writes [.regs, .cnts, .posted, .queues, .dma] s s' := by
  unfold execDmaStart at h
  injection h with h
  subst h
  repeat' first
    | dsimp only
    | with_reducible exact Writes.refl _ _
    | (apply Writes.step; case k => with_reducible apply State.dmaStart_writes)
    | with_reducible refine Writes.ite ?_ ?_
    | decide
    | split

theorem execDmaFence_writes  (ch : Fin 32) (f : DmaFetch) (s : State) {s' : State}
    (h : execDmaFence ch f s = .next s') : Writes [.regs, .cnts, .posted, .queues, .dma] s s' := by
  unfold execDmaFence at h
  injection h with h
  subst h
  repeat' first
    | dsimp only
    | with_reducible exact Writes.refl _ _
    | (apply Writes.step; rotate_left; with_reducible apply State.dmaRun_writes (l := [.regs, .cnts, .posted, .queues, .dma]))
    | (apply Writes.step; case k => with_reducible apply State.dmaHold_writes)
    | decide
    | intro _

theorem execDmaGather_writes  (ch : Fin 32) (f : DmaFetch) (list : List (BitVec 128)) (listFin : ReadEnd) (s : State) {s' : State}
    (h : execDmaGather ch f list listFin s = .next s') : Writes [.regs, .cnts, .posted, .out, .free, .dram, .poison, .queues, .dma] s s' := by
  unfold execDmaGather at h
  injection h with h
  subst h
  repeat' first
    | dsimp only
    | with_reducible exact Writes.refl _ _
    | (apply Writes.step; rotate_left; with_reducible apply State.dmaRun_writes (l := [.regs, .cnts, .posted, .out, .free, .dram, .poison, .queues, .dma]))
    | (apply Writes.step; rotate_left; with_reducible apply State.dmaListed_writes (l := [.regs, .cnts, .posted, .out, .free, .dram, .poison, .queues, .dma]))
    | (apply Writes.step; case k => with_reducible apply State.dmaCopy_writes)
    | decide
    | intro _

theorem execDmaWaitRequest_writes  (ch : Fin 32) (f : DmaFetch) (s : State) {s' : State}
    (h : execDmaWaitRequest ch f s = .next s') : Writes [.regs, .cnts, .posted, .queues, .dma] s s' := by
  unfold execDmaWaitRequest at h
  injection h with h
  subst h
  repeat' first
    | dsimp only
    | with_reducible exact Writes.refl _ _
    | (apply Writes.step; rotate_left; with_reducible apply State.dmaRun_writes (l := [.regs, .cnts, .posted, .queues, .dma]))
    | (apply Writes.step; case k => with_reducible apply State.dmaWait_writes)
    | decide
    | intro _

theorem execDmaTimer_writes  (k : Fin 4) (s : State) {s' : State}
    (h : execDmaTimer k s = .next s') : Writes [.regs, .cnts, .posted, .lastPost, .out, .free, .dram, .poison, .queues, .dma] s s' := by
  unfold execDmaTimer at h
  injection h with h
  subst h
  repeat' first
    | dsimp only
    | with_reducible exact Writes.refl _ _
    | (apply Writes.step; case k => with_reducible apply State.settleAll_writes)
    | (apply Writes.step; case k => with_reducible apply State.dmaLine_writes)
    | with_reducible refine Writes.ite ?_ ?_
    | decide
    | split

theorem execDmaSignalCompletion_writes  (ch : Fin 32) (f : DmaFetch) (s : State) {s' : State}
    (h : execDmaSignalCompletion ch f s = .next s') : Writes [.regs, .cnts, .posted, .queues, .dma] s s' := by
  unfold execDmaSignalCompletion at h
  injection h with h
  subst h
  repeat' first
    | dsimp only
    | with_reducible exact Writes.refl _ _
    | (apply Writes.step; rotate_left; with_reducible apply State.dmaRun_writes (l := [.regs, .cnts, .posted, .queues, .dma]))
    | (apply Writes.step; case k => with_reducible apply State.dmaHold_writes)
    | decide
    | intro _

theorem execDmaMove_writes  (ch : Fin 32) (f : DmaFetch) (s : State) {s' : State}
    (h : execDmaMove ch f s = .next s') : Writes [.regs, .cnts, .posted, .out, .free, .dram, .poison, .queues, .dma] s s' := by
  unfold execDmaMove at h
  injection h with h
  subst h
  repeat' first
    | dsimp only
    | with_reducible exact Writes.refl _ _
    | (apply Writes.step; rotate_left; with_reducible apply State.dmaRun_writes (l := [.regs, .cnts, .posted, .out, .free, .dram, .poison, .queues, .dma]))
    | (apply Writes.step; case k => with_reducible apply State.dmaCopy_writes)
    | decide
    | intro _

theorem State.tagExpires_writes  (s : State) (fn : Nat) (tag : Nat) :
    Writes [.host] s (State.tagExpires s fn tag) := by
  unfold State.tagExpires
  repeat' first
    | dsimp only
    | ((conv => arg 3; arg 39; skip); with_reducible refine Writes.set_host ?_ ?_ _)
    | with_reducible exact Writes.refl _ _
    | decide
    | (with_reducible (apply Writes.fst; case e => assumption))
    | split

theorem execClearReq_writes  (ch : Fin 32) (byRole : Bool) (s : State) {s' : State}
    (h : execClearReq ch byRole s = .next s') : Writes [.regs] s s' := by
  unfold execClearReq at h
  injection h with h
  subst h
  repeat' first
    | dsimp only
    | with_reducible exact Writes.refl _ _
    | (apply Writes.step; case k => with_reducible apply State.setDmaPending_writes)
    | with_reducible refine Writes.ite ?_ ?_
    | decide
    | split

theorem execDmaWaitFlag_writes  (ch : Fin 32) (f : DmaFetch) (s : State) {s' : State}
    (h : execDmaWaitFlag ch f s = .next s') : Writes [.regs, .cnts, .posted, .queues, .dma] s s' := by
  unfold execDmaWaitFlag at h
  injection h with h
  subst h
  repeat' first
    | dsimp only
    | with_reducible exact Writes.refl _ _
    | (apply Writes.step; rotate_left; with_reducible apply State.dmaRun_writes (l := [.regs, .cnts, .posted, .queues, .dma]))
    | (apply Writes.step; case k => with_reducible apply State.dmaWait_writes)
    | decide
    | intro _

theorem execTagQuarantineExpire_writes  (fn : BitVec 6) (tag : BitVec 10) (s : State) {s' : State}
    (h : execTagQuarantineExpire fn tag s = .next s') : Writes [.host] s s' := by
  unfold execTagQuarantineExpire at h
  injection h with h
  subst h
  repeat' first
    | dsimp only
    | with_reducible exact Writes.refl _ _
    | (apply Writes.step; case k => with_reducible apply State.tagExpires_writes)
    | decide

end Sys2Proof.Machine
end

