-- ==== Sys2Proof/Laws/WritesEvents.lean ====
section
/-! SUPPORT. What each operation of Machine/Events.lean writes. -/

namespace Sys2Proof.Machine

theorem State.evtDone_writes  (s : State) (n : Nat) :
    Writes [.regs, .cnts, .evt] s (State.evtDone s n) := by
  unfold State.evtDone
  repeat' first
    | dsimp only
    | with_reducible exact Writes.refl _ _
    | (apply Writes.step; case k => with_reducible apply State.evtRecord_writes)
    | (apply Writes.step; case k => with_reducible apply State.evtEnd_writes)
    | with_reducible refine Writes.ite ?_ ?_
    | decide
    | (with_reducible (apply Writes.fst; case e => assumption))
    | split

theorem State.evtSnapshot_writes  (s : State) (n : Nat) (count : Nat) (t16 : Nat) (ts : Nat) (cause : Nat) :
    Writes [.regs, .cnts, .evt] s (State.evtSnapshot s n count t16 ts cause) := by
  unfold State.evtSnapshot
  repeat' first
    | dsimp only
    | with_reducible exact Writes.refl _ _
    | (apply Writes.step; case k => (with_reducible apply State.wrN_writes_ne) <;> first | decide | (dsimp only [Reg.EVT_PIN_CTRL, Reg.EVT_PIN_CTRL_POST, Reg.EVT_PIN_LAST_COUNT, Reg.EVT_PIN_LAST_LO, Reg.GLB_MODE, Field.of]; omega) | (split <;> decide))
    | (apply Writes.step; case k => (with_reducible apply State.wrFull_writes_ne) <;> first | decide | (dsimp only [Reg.EVT_PIN_CTRL, Reg.EVT_PIN_CTRL_POST, Reg.EVT_PIN_LAST_COUNT, Reg.EVT_PIN_LAST_LO, Reg.GLB_MODE, Field.of]; omega) | (split <;> decide))
    | (apply Writes.step; case k => with_reducible apply State.count_writes)
    | (apply Writes.step; case k => with_reducible apply State.evtRecord_writes)
    | with_reducible refine Writes.ite ?_ ?_
    | decide
    | split

theorem State.evtForm_writes  (s : State) (n : Nat) :
    Writes [.regs, .cnts, .evt] s (State.evtForm s n) := by
  unfold State.evtForm
  repeat' first
    | dsimp only
    | with_reducible exact Writes.refl _ _
    | (apply Writes.step; case k => with_reducible apply State.setPin_writes)
    | (apply Writes.step; case k => with_reducible apply State.evtSnapshot_writes)
    | with_reducible refine Writes.ite ?_ ?_
    | decide
    | (with_reducible (apply Writes.fst; case e => assumption))
    | split

theorem State.evtStamped_writes  (s : State) (n : Nat) (code : Nat) (t16 : Nat) (level : Nat) (ts : Nat) :
    Writes [.regs, .cnts, .evt] s (State.evtStamped s n code t16 level ts) := by
  unfold State.evtStamped
  repeat' first
    | dsimp only
    | with_reducible exact Writes.refl _ _
    | (apply Writes.step; case k => (with_reducible apply State.wrFull_writes_ne) <;> first | decide | (dsimp only [Reg.EVT_PIN_CTRL, Reg.EVT_PIN_CTRL_POST, Reg.EVT_PIN_LAST_LO, Reg.EVT_PIN_STATUS, Reg.EVT_PIN_STATUS_SEQ, Reg.GLB_MODE, Field.of]; omega) | (split <;> decide))
    | (apply Writes.step; case k => (with_reducible apply State.setFld_writes_ne) <;> first | decide | (dsimp only [Reg.EVT_PIN_CTRL, Reg.EVT_PIN_CTRL_POST, Reg.EVT_PIN_LAST_LO, Reg.EVT_PIN_STATUS, Reg.EVT_PIN_STATUS_SEQ, Reg.GLB_MODE, Field.of]; omega) | (split <;> decide))
    | (apply Writes.step; case k => with_reducible apply State.evtRecord_writes)
    | with_reducible refine Writes.ite ?_ ?_
    | decide
    | split

theorem State.evtInput_writes  (s : State) (n : Nat) (level : Bool) :
    Writes [.regs, .evt] s (State.evtInput s n level) := by
  unfold State.evtInput
  repeat' first
    | dsimp only
    | with_reducible exact Writes.refl _ _
    | (apply Writes.step; case k => with_reducible apply State.setPin_writes)
    | with_reducible refine Writes.ite ?_ ?_
    | decide
    | split

theorem execEvtInputChange_writes  (pin : Fin 32) (level : Bool) (s : State) {s' : State}
    (h : execEvtInputChange pin level s = .next s') : Writes [.regs, .evt] s s' := by
  unfold execEvtInputChange at h
  injection h with h
  subst h
  repeat' first
    | dsimp only
    | with_reducible exact Writes.refl _ _
    | (apply Writes.step; case k => with_reducible apply State.evtInput_writes)
    | decide

theorem State.evtClear_writes  (s : State) (n : Nat) :
    Writes [.regs, .evt] s (State.evtClear s n) := by
  unfold State.evtClear
  repeat' first
    | dsimp only
    | with_reducible exact Writes.refl _ _
    | (apply Writes.step; case k => with_reducible apply State.setPin_writes)
    | (apply Writes.step; case k => (with_reducible apply State.wrN_writes_ne) <;> first | decide | (dsimp only [Reg.EVT_PIN_COUNT, Reg.GLB_MODE, Field.of]; omega) | (split <;> decide))
    | decide

theorem State.setSched_writes  (s : State) (n : Nat) (c : EvtSched) :
    Writes [.regs, .evt] s (State.setSched s n c) := by
  unfold State.setSched
  repeat' first
    | dsimp only
    | with_reducible exact Writes.refl _ _
    | (apply Writes.step; case k => with_reducible apply State.setPin_writes)
    | decide

theorem State.evtPassed_writes  (s : State) (n : Nat) (t : Int) :
    Writes [.regs, .cnts, .evt] s (State.evtPassed s n t) := by
  unfold State.evtPassed
  repeat' first
    | dsimp only
    | with_reducible exact Writes.refl _ _
    | (apply Writes.step; case k => with_reducible apply State.evtDone_writes)
    | (apply Writes.step; case k => with_reducible apply State.evtFlush_writes)
    | (apply Writes.step; case k => with_reducible apply State.setSched_writes)
    | with_reducible refine Writes.ite ?_ ?_
    | decide
    | (with_reducible (apply Writes.fst; case e => assumption))
    | split

theorem State.evtStep_writes  (s : State) (forward : Bool) :
    Writes [.regs, .cnts, .evt] s (State.evtStep s forward) := by
  unfold State.evtStep
  repeat' first
    | dsimp only
    | with_reducible exact Writes.refl _ _
    | (apply Writes.step; case k => with_reducible apply State.evtPassed_writes)
    | (apply Writes.step; case k => with_reducible apply State.setSched_writes)
    | with_reducible refine Writes.ite ?_ ?_
    | with_reducible refine Writes.foldl ?_ ?_
    | with_reducible refine Writes.foldlFst ?_ ?_
    | decide
    | intro _
    | (with_reducible (apply Writes.fst; case e => assumption))
    | split

theorem State.evtDrive_writes  (s : State) (v : Nat) :
    Writes [.regs] s (State.evtDrive s v) := by
  unfold State.evtDrive
  repeat' first
    | dsimp only
    | with_reducible exact Writes.refl _ _
    | (apply Writes.step; case k => with_reducible apply State.setPinLevel_writes)
    | (apply Writes.step; case k => (with_reducible apply State.wrN_writes_ne) <;> first | decide | (dsimp only [Reg.EVT_LEVEL_OUT, Reg.GLB_MODE, Field.of]; omega) | (split <;> decide))
    | with_reducible refine Writes.ite ?_ ?_
    | with_reducible refine Writes.foldl ?_ ?_
    | with_reducible refine Writes.foldlFst ?_ ?_
    | decide
    | intro _
    | split

theorem execEvtLevelOutWrite_writes  (value : BitVec 32) (s : State) {s' : State}
    (h : execEvtLevelOutWrite value s = .next s') : Writes [.regs] s s' := by
  unfold execEvtLevelOutWrite at h
  injection h with h
  subst h
  repeat' first
    | dsimp only
    | with_reducible exact Writes.refl _ _
    | (apply Writes.step; case k => with_reducible apply State.evtDrive_writes)
    | decide

theorem State.evtCtrl_writes  (s : State) (n : Nat) (v : Nat) :
    Writes [.regs, .cnts, .evt] s (State.evtCtrl s n v) := by
  unfold State.evtCtrl
  repeat' first
    | dsimp only
    | with_reducible exact Writes.refl _ _
    | (apply Writes.step; case k => (with_reducible apply State.setFld_writes_ne) <;> first | decide | (dsimp only [Reg.EVT_PIN_CTRL, Reg.EVT_PIN_CTRL_ARM, Reg.EVT_PIN_CTRL_POST, Reg.EVT_PIN_CTRL_REQ_SYNC, Reg.EVT_PIN_CTRL_SNAP_EVERY, Reg.GLB_MODE, Field.of]; omega) | (split <;> decide))
    | (apply Writes.step; case k => with_reducible apply State.evtEnd_writes)
    | with_reducible refine Writes.ite ?_ ?_
    | decide
    | split

theorem execEvtArmWrite_writes  (pin : Fin 32) (arm : Bool) (s : State) {s' : State}
    (h : execEvtArmWrite pin arm s = .next s') : Writes [.regs, .cnts, .evt] s s' := by
  unfold execEvtArmWrite at h
  injection h with h
  subst h
  repeat' first
    | dsimp only
    | with_reducible exact Writes.refl _ _
    | (apply Writes.step; case k => with_reducible apply State.evtCtrl_writes)
    | decide

theorem State.evtCountEdge_writes  (s : State) (n : Nat) (t16 : Nat) (ts : Nat) :
    Writes [.regs, .cnts, .evt] s (State.evtCountEdge s n t16 ts) := by
  unfold State.evtCountEdge
  repeat' first
    | dsimp only
    | with_reducible exact Writes.refl _ _
    | (apply Writes.step; case k => (with_reducible apply State.wrN_writes_ne) <;> first | decide | (dsimp only [Reg.EVT_PIN_COUNT, Reg.EVT_PIN_CTRL, Reg.EVT_PIN_CTRL_SNAP_EVERY, Reg.GLB_MODE, Field.of]; omega) | (split <;> decide))
    | (apply Writes.step; case k => with_reducible apply State.setPin_writes)
    | (apply Writes.step; case k => with_reducible apply State.evtSnapshot_writes)
    | with_reducible refine Writes.ite ?_ ?_
    | decide
    | split

theorem State.evtAccept_writes  (s : State) (n : Nat) :
    Writes [.regs, .cnts, .posted, .lastPost, .out, .free, .dram, .poison, .queues, .dma, .evt] s (State.evtAccept s n) := by
  unfold State.evtAccept
  repeat' first
    | dsimp only
    | with_reducible exact Writes.refl _ _
    | (apply Writes.step; case k => with_reducible apply State.setPin_writes)
    | (apply Writes.step; case k => with_reducible apply State.setPinLevel_writes)
    | (apply Writes.step; case k => with_reducible apply State.evtStamped_writes)
    | (apply Writes.step; case k => with_reducible apply State.count_writes)
    | (apply Writes.step; case k => with_reducible apply State.evtCountEdge_writes)
    | (apply Writes.step; case k => with_reducible apply State.dmaLine_writes)
    | with_reducible refine Writes.ite ?_ ?_
    | decide
    | (with_reducible (apply Writes.fst; case e => assumption))
    | split

theorem State.evtPulse_writes  (s : State) (n : Nat) (c : EvtSched) :
    Writes [.regs, .cnts, .posted, .lastPost, .out, .free, .dram, .poison, .queues, .dma, .evt] s (State.evtPulse s n c) := by
  unfold State.evtPulse
  repeat' first
    | dsimp only
    | with_reducible exact Writes.refl _ _
    | (apply Writes.step; case k => with_reducible apply State.setPinLevel_writes)
    | (apply Writes.step; case k => with_reducible apply State.setPin_writes)
    | (apply Writes.step; case k => with_reducible apply State.dmaLine_writes)
    | (apply Writes.step; case k => with_reducible apply State.evtStamped_writes)
    | (apply Writes.step; case k => with_reducible apply State.count_writes)
    | decide

theorem State.evtTarget_writes  (s : State) (n : Nat) :
    Writes [.regs, .cnts, .posted, .lastPost, .out, .free, .dram, .poison, .queues, .dma, .evt] s (State.evtTarget s n) := by
  unfold State.evtTarget
  repeat' first
    | dsimp only
    | with_reducible exact Writes.refl _ _
    | (apply Writes.step; case k => with_reducible apply State.evtDone_writes)
    | (apply Writes.step; case k => with_reducible apply State.setSched_writes)
    | (apply Writes.step; case k => with_reducible apply State.evtFlush_writes)
    | (apply Writes.step; case k => with_reducible apply State.evtPulse_writes)
    | (apply Writes.step; case k => with_reducible apply State.setPin_writes)
    | with_reducible refine Writes.ite ?_ ?_
    | decide
    | (with_reducible (apply Writes.fst; case e => assumption))
    | split

theorem execEvtTarget_writes  (pin : Fin 32) (s : State) {s' : State}
    (h : execEvtTarget pin s = .next s') : Writes [.regs, .cnts, .posted, .lastPost, .out, .free, .dram, .poison, .queues, .dma, .evt] s s' := by
  unfold execEvtTarget at h
  injection h with h
  subst h
  repeat' first
    | dsimp only
    | with_reducible exact Writes.refl _ _
    | (apply Writes.step; case k => with_reducible apply State.settleAll_writes)
    | (apply Writes.step; case k => with_reducible apply State.evtTarget_writes)
    | decide

theorem State.evtDeliver_writes  (s : State) (n : Nat) :
    Writes [.regs, .cnts, .out, .dram, .poison, .queues, .host, .evt] s (State.evtDeliver s n) := by
  unfold State.evtDeliver
  repeat' first
    | dsimp only
    | with_reducible exact Writes.refl _ _
    | (apply Writes.step; case k => with_reducible apply State.eventTo_writes)
    | (apply Writes.step; case k => with_reducible apply State.setPin_writes)
    | with_reducible refine Writes.ite ?_ ?_
    | decide
    | (with_reducible (apply Writes.fst; case e => assumption))
    | split

theorem execEvtRecordDeliver_writes  (pin : Fin 32) (s : State) {s' : State}
    (h : execEvtRecordDeliver pin s = .next s') : Writes [.regs, .cnts, .out, .dram, .poison, .queues, .host, .evt] s s' := by
  unfold execEvtRecordDeliver at h
  injection h with h
  subst h
  repeat' first
    | dsimp only
    | with_reducible exact Writes.refl _ _
    | (apply Writes.step; case k => with_reducible apply State.evtDeliver_writes)
    | decide

theorem execClear_writes  (pin : Fin 32) (s : State) {s' : State}
    (h : execClear pin s = .next s') : Writes [.regs, .evt] s s' := by
  unfold execClear at h
  injection h with h
  subst h
  repeat' first
    | dsimp only
    | with_reducible exact Writes.refl _ _
    | (apply Writes.step; case k => with_reducible apply State.evtClear_writes)
    | decide

theorem State.evtCommit_writes  (s : State) (n : Nat) (v : Nat) :
    Writes [.regs, .stage, .cnts, .evt] s (State.evtCommit s n v) := by
  unfold State.evtCommit
  repeat' first
    | dsimp only
    | with_reducible exact Writes.refl _ _
    | (apply Writes.step; case k => (with_reducible apply State.wrN_writes_ne) <;> first | decide | (dsimp only [Reg.EVT_PIN_CFG, Reg.EVT_PIN_CFG_ALIGN, Reg.EVT_PIN_CTRL, Reg.EVT_PIN_CTRL_ARM, Reg.EVT_PIN_PERIOD, Reg.EVT_PIN_PERIOD_PERIOD_NS, Reg.EVT_PIN_REPEAT, Reg.EVT_PIN_REPEAT_COUNT, Reg.EVT_PIN_REPEAT_EVERY, Reg.EVT_PIN_START, Reg.EVT_PIN_WIDTH, Reg.EVT_PIN_WIDTH_WIDTH_NS, Reg.TB_SETUP_MARGIN, Reg.TB_SETUP_MARGIN_MARGIN_NS, Reg.GLB_MODE, Field.of]; omega) | (split <;> decide))
    | (apply Writes.step; case k => (with_reducible apply State.commitWords_writes_ne) <;> first | decide | (dsimp only [Reg.EVT_PIN_CFG, Reg.EVT_PIN_CFG_ALIGN, Reg.EVT_PIN_CTRL, Reg.EVT_PIN_CTRL_ARM, Reg.EVT_PIN_PERIOD, Reg.EVT_PIN_PERIOD_PERIOD_NS, Reg.EVT_PIN_REPEAT, Reg.EVT_PIN_REPEAT_COUNT, Reg.EVT_PIN_REPEAT_EVERY, Reg.EVT_PIN_START, Reg.EVT_PIN_WIDTH, Reg.EVT_PIN_WIDTH_WIDTH_NS, Reg.TB_SETUP_MARGIN, Reg.TB_SETUP_MARGIN_MARGIN_NS, Reg.GLB_MODE, Field.of]; omega) | (split <;> decide))
    | (apply Writes.step; case k => with_reducible apply State.evtRefuse_writes)
    | (apply Writes.step; case k => with_reducible apply State.evtEnd_writes)
    | (apply Writes.step; case k => with_reducible apply State.evtPassed_writes)
    | (apply Writes.step; case k => with_reducible apply State.setSched_writes)
    | with_reducible refine Writes.ite ?_ ?_
    | decide
    | split

theorem execEvtEdgeAccept_writes  (pin : Fin 32) (s : State) {s' : State}
    (h : execEvtEdgeAccept pin s = .next s') : Writes [.regs, .cnts, .posted, .lastPost, .out, .free, .dram, .poison, .queues, .dma, .evt] s s' := by
  unfold execEvtEdgeAccept at h
  injection h with h
  subst h
  repeat' first
    | dsimp only
    | with_reducible exact Writes.refl _ _
    | (apply Writes.step; case k => with_reducible apply State.settleAll_writes)
    | (apply Writes.step; case k => with_reducible apply State.evtAccept_writes)
    | decide

theorem State.evtGateChange_writes  (s : State) (p : Nat) :
    Writes [.regs, .cnts, .evt] s (State.evtGateChange s p) := by
  unfold State.evtGateChange
  repeat' first
    | dsimp only
    | with_reducible exact Writes.refl _ _
    | (apply Writes.step; case k => with_reducible apply State.evtRefuse_writes)
    | (apply Writes.step; case k => with_reducible apply State.evtEnd_writes)
    | (apply Writes.step; case k => with_reducible apply State.setSched_writes)
    | with_reducible refine Writes.ite ?_ ?_
    | with_reducible refine Writes.foldl ?_ ?_
    | with_reducible refine Writes.foldlFst ?_ ?_
    | decide
    | intro _
    | (with_reducible (apply Writes.fst; case e => assumption))
    | split

theorem State.evtPulseEnd_writes  (s : State) (n : Nat) :
    Writes [.regs, .evt] s (State.evtPulseEnd s n) := by
  unfold State.evtPulseEnd
  repeat' first
    | dsimp only
    | with_reducible exact Writes.refl _ _
    | (apply Writes.step; case k => with_reducible apply State.setPinLevel_writes)
    | (apply Writes.step; case k => with_reducible apply State.setPin_writes)
    | with_reducible refine Writes.ite ?_ ?_
    | decide
    | split

theorem execEvtPulseEnd_writes  (pin : Fin 32) (s : State) {s' : State}
    (h : execEvtPulseEnd pin s = .next s') : Writes [.regs, .evt] s s' := by
  unfold execEvtPulseEnd at h
  injection h with h
  subst h
  repeat' first
    | dsimp only
    | with_reducible exact Writes.refl _ _
    | (apply Writes.step; case k => with_reducible apply State.evtPulseEnd_writes)
    | decide

theorem execEvtScheduleCommit_writes  (pin : Fin 32) (value : BitVec 32) (s : State) {s' : State}
    (h : execEvtScheduleCommit pin value s = .next s') : Writes [.regs, .stage, .cnts, .evt] s s' := by
  unfold execEvtScheduleCommit at h
  injection h with h
  subst h
  repeat' first
    | dsimp only
    | with_reducible exact Writes.refl _ _
    | (apply Writes.step; case k => with_reducible apply State.evtCommit_writes)
    | decide

theorem execEvtSnapshotForm_writes  (pin : Fin 32) (s : State) {s' : State}
    (h : execEvtSnapshotForm pin s = .next s') : Writes [.regs, .cnts, .evt] s s' := by
  unfold execEvtSnapshotForm at h
  injection h with h
  subst h
  repeat' first
    | dsimp only
    | with_reducible exact Writes.refl _ _
    | (apply Writes.step; case k => with_reducible apply State.evtForm_writes)
    | decide

end Sys2Proof.Machine
end

