-- ==== Sys2Proof/Laws/WritesEngines.lean ====
section
/-! SUPPORT. What each operation of Machine/Engines.lean writes. -/

namespace Sys2Proof.Machine

/-- `onWord` writes what the meaning of the word writes. -/
theorem State.onWord_writes {l : List Part} {s : State} {e : Nat} {f : Nat → State}
    (hf : ∀ w, Writes l s (f w)) (hl : [.regs, .cnts, .posted, .lastPost, .out, .spine, .frames, .dram, .poison, .queues, .flows, .engines] ⊆ l) : Writes l s (State.onWord s e f) := by
  unfold State.onWord
  repeat' first
    | with_reducible exact Writes.refl _ _
    | exact hf _
    | exact (Writes.refl _ _).step (State.abort_writes ..) hl
    | dsimp only
    | split

/-- `unit` writes what the unit's operation writes. -/
theorem State.unit_writes {l : List Part} {s : State} {e u : Nat} {names : Nat → Bool} {f : Nat → State → State}
    (hf : ∀ w y, Writes l y (f w y)) (hl : [.regs, .cnts, .posted, .lastPost, .out, .spine, .frames, .dram, .poison, .queues, .flows, .engines] ⊆ l) : Writes l s (State.unit s e u names f) := by
  unfold State.unit
  refine State.onWord_writes (fun w => ?_) hl
  dsimp only
  split
  · refine Writes.step (Writes.step (Writes.refl _ _) (State.setEng_writes ..) ?_) (hf _ _) (List.Subset.refl l)
    exact List.Subset.trans (by decide) hl
  · exact Writes.refl _ _

theorem State.drawN_writes  (s : State) (n : Nat) :
    Writes [.free] s (State.drawN s n) := by
  unfold State.drawN
  repeat' first
    | dsimp only
    | ((conv => arg 3; arg 39; skip); with_reducible refine Writes.set_free ?_ ?_ _ ?_)
    | with_reducible exact Writes.refl _ _
    | exact Nat.le_succ _
    | exact Nat.le_add_right _ _
    | decide

theorem State.hubStage_writes  (s : State) (e : Nat) (code : Nat) (privileged : Bool) :
    Writes [.regs, .cnts, .posted, .lastPost, .out, .free, .spine, .frames, .dram, .poison, .queues, .flows, .engines] s (State.hubStage s e code privileged) := by
  unfold State.hubStage
  repeat' first
    | dsimp only
    | with_reducible exact Writes.refl _ _
    | (apply Writes.step; rotate_left; with_reducible apply State.unit_writes (l := [.regs, .cnts, .posted, .lastPost, .out, .free, .spine, .frames, .dram, .poison, .queues, .flows, .engines]))
    | (apply Writes.step; case k => with_reducible apply State.abort_writes)
    | (apply Writes.step; case k => with_reducible apply State.drawN_writes)
    | (apply Writes.step; case k => with_reducible apply State.setEng_writes)
    | with_reducible refine Writes.ite ?_ ?_
    | decide
    | intro _
    | split

theorem execTimeAdj_writes  (e : Fin 160) (s : State) {s' : State}
    (h : execTimeAdj e s = .next s') : Writes [.regs, .cnts, .posted, .lastPost, .out, .free, .spine, .frames, .dram, .poison, .queues, .flows, .engines] s s' := by
  unfold execTimeAdj at h
  injection h with h
  subst h
  repeat' first
    | dsimp only
    | with_reducible exact Writes.refl _ _
    | (apply Writes.step; case k => with_reducible apply State.hubStage_writes)
    | decide

theorem State.result_writes  (s : State) (e : Nat) (prec : Nat) (reg : Nat) (v : BitVec 64) :
    Writes [.engines] s (State.result s e prec reg v) := by
  unfold State.result
  repeat' first
    | dsimp only
    | with_reducible exact Writes.refl _ _
    | (apply Writes.step; case k => with_reducible apply State.setEng_writes)
    | decide

theorem State.alu_writes  (s : State) (e : Nat) (k : Nat) (op : Nat) :
    Writes [.regs, .cnts, .posted, .lastPost, .out, .free, .spine, .frames, .dram, .poison, .queues, .flows, .engines] s (State.alu s e k op) := by
  unfold State.alu
  repeat' first
    | dsimp only
    | with_reducible exact Writes.refl _ _
    | (apply Writes.step; rotate_left; with_reducible apply State.unit_writes (l := [.regs, .cnts, .posted, .lastPost, .out, .free, .spine, .frames, .dram, .poison, .queues, .flows, .engines]))
    | (apply Writes.step; case k => with_reducible apply State.result_writes)
    | (apply Writes.step; case k => with_reducible apply State.setEng_writes)
    | (apply Writes.step; case k => with_reducible apply State.draw_writes)
    | with_reducible refine Writes.ite ?_ ?_
    | decide
    | intro _
    | split

theorem execSub32s_writes  (e : Fin 160) (k : Fin 2) (s : State) {s' : State}
    (h : execSub32s e k s = .next s') : Writes [.regs, .cnts, .posted, .lastPost, .out, .free, .spine, .frames, .dram, .poison, .queues, .flows, .engines] s s' := by
  unfold execSub32s at h
  injection h with h
  subst h
  repeat' first
    | dsimp only
    | with_reducible exact Writes.refl _ _
    | (apply Writes.step; case k => with_reducible apply State.alu_writes)
    | decide

theorem State.endWord_writes  (s : State) (e : Nat) (w : Nat) (pc : Nat) :
    Writes [.engines] s (State.endWord s e w pc) := by
  unfold State.endWord
  repeat' first
    | dsimp only
    | with_reducible exact Writes.refl _ _
    | (apply Writes.step; case k => with_reducible apply State.setEng_writes)
    | with_reducible refine Writes.ite ?_ ?_
    | decide
    | (with_reducible (apply Writes.fst; case e => assumption))
    | split

theorem State.spareTakes_writes  (s : State) (e : Nat) (g : Engine) :
    Writes [.regs, .posted, .units, .engines] s (State.spareTakes s e g) := by
  unfold State.spareTakes
  repeat' first
    | dsimp only
    | ((conv => arg 3; arg 39; skip); with_reducible refine Writes.set_units ?_ ?_ _)
    | with_reducible exact Writes.refl _ _
    | (apply Writes.step; case k => (with_reducible apply State.setFlag_writes_ne) <;> first | decide | (dsimp only [Reg.ENG_FOLIO, Reg.ENG_FOLIO_SPARE_USED, Reg.ENG_ROLE, Reg.ENG_ROLE_PRIV, Reg.ENG_ROLE_ROLE, Reg.ENG_ROLE_SLOT, Reg.GLB_MODE, Field.of]; omega) | (split <;> decide))
    | (apply Writes.step; case k => (with_reducible apply State.setFld_writes_ne) <;> first | decide | (dsimp only [Reg.ENG_FOLIO, Reg.ENG_FOLIO_SPARE_USED, Reg.ENG_ROLE, Reg.ENG_ROLE_PRIV, Reg.ENG_ROLE_ROLE, Reg.ENG_ROLE_SLOT, Reg.GLB_MODE, Field.of]; omega) | (split <;> decide))
    | (apply Writes.step; case k => with_reducible apply State.setEngState_writes)
    | (apply Writes.step; case k => with_reducible apply State.setEng_writes)
    | (apply Writes.step; case k => with_reducible apply State.post_writes)
    | with_reducible refine Writes.ite ?_ ?_
    | decide
    | split

theorem State.migrationDone_writes  (s : State) (e : Nat) :
    Writes [.regs, .mode, .cnts, .posted, .out, .free, .units, .engines] s (State.migrationDone s e) := by
  unfold State.migrationDone
  repeat' first
    | dsimp only
    | with_reducible exact Writes.refl _ _
    | (apply Writes.step; case k => with_reducible apply State.count_writes)
    | (apply Writes.step; case k => with_reducible apply State.spareTakes_writes)
    | (apply Writes.step; case k => with_reducible apply State.degrade_writes)
    | (apply Writes.step; case k => with_reducible apply State.setFlag_writes)
    | (apply Writes.step; case k => with_reducible apply State.post_writes)
    | (apply Writes.step; case k => with_reducible apply State.takeItem_writes)
    | with_reducible refine Writes.ite ?_ ?_
    | decide
    | split

theorem execMigrationDone_writes  (e : Fin 160) (s : State) {s' : State}
    (h : execMigrationDone e s = .next s') : Writes [.regs, .mode, .cnts, .posted, .out, .free, .units, .engines] s s' := by
  unfold execMigrationDone at h
  injection h with h
  subst h
  repeat' first
    | dsimp only
    | with_reducible exact Writes.refl _ _
    | (apply Writes.step; case k => with_reducible apply State.migrationDone_writes)
    | decide

theorem execAdd_writes  (e : Fin 160) (k : Fin 2) (s : State) {s' : State}
    (h : execAdd e k s = .next s') : Writes [.regs, .cnts, .posted, .lastPost, .out, .free, .spine, .frames, .dram, .poison, .queues, .flows, .engines] s s' := by
  unfold execAdd at h
  injection h with h
  subst h
  repeat' first
    | dsimp only
    | with_reducible exact Writes.refl _ _
    | (apply Writes.step; case k => with_reducible apply State.alu_writes)
    | decide

theorem State.commandReply_writes  (s : State) (e : Nat) :
    Writes [.cnts, .free, .queues] s (State.commandReply s e) := by
  unfold State.commandReply
  repeat' first
    | dsimp only
    | with_reducible exact Writes.refl _ _
    | (apply Writes.step; case k => with_reducible apply State.complete_writes)
    | (apply Writes.step; case k => with_reducible apply State.draw_writes)
    | with_reducible refine Writes.ite ?_ ?_
    | decide
    | (with_reducible (apply Writes.fst; case e => assumption))
    | split

theorem State.timeAdjust_writes  (s : State) (e : Nat) :
    Writes [.regs, .posted, .free, .engines, .tb] s (State.timeAdjust s e) := by
  unfold State.timeAdjust
  repeat' first
    | dsimp only
    | ((conv => arg 3; arg 39; skip); with_reducible refine Writes.set_tb ?_ ?_ _)
    | with_reducible exact Writes.refl _ _
    | (apply Writes.step; case k => with_reducible apply State.drawN_writes)
    | (apply Writes.step; case k => with_reducible apply State.requestStep_writes)
    | (apply Writes.step; case k => with_reducible apply State.slewTo_writes)
    | (apply Writes.step; case k => with_reducible apply State.setEng_writes)
    | with_reducible refine Writes.ite ?_ ?_
    | decide
    | split

theorem State.mapItem_writes  (s : State) (e : Nat) (f : WorkItem → WorkItem) :
    Writes [.engines] s (State.mapItem s e f) := by
  unfold State.mapItem
  repeat' first
    | dsimp only
    | with_reducible exact Writes.refl _ _
    | (apply Writes.step; case k => with_reducible apply State.setEng_writes)
    | decide

theorem State.paid_writes  (s : State) (e : Nat) :
    Writes [.engines] s (State.paid s e) := by
  unfold State.paid
  repeat' first
    | dsimp only
    | with_reducible exact Writes.refl _ _
    | (apply Writes.step; case k => with_reducible apply State.mapItem_writes)
    | decide

theorem State.publishHub_writes  (s : State) (e : Nat) (h : HubOp) :
    Writes [.regs, .cnts, .posted, .out, .free, .frames, .dram, .poison, .queues, .ports, .flows, .pairLink, .recCopies, .engines, .tb] s (State.publishHub s e h) := by
  unfold State.publishHub
  repeat' first
    | dsimp only
    | ((conv => arg 3; arg 39; skip); with_reducible refine Writes.set_recCopies ?_ ?_ _)
    | with_reducible exact Writes.refl _ _
    | (apply Writes.step; case k => with_reducible apply State.post_writes)
    | (apply Writes.step; case k => with_reducible apply State.drawN_writes)
    | (apply Writes.step; case k => with_reducible apply State.dramWrite_writes)
    | (apply Writes.step; case k => with_reducible apply State.commandReply_writes)
    | (apply Writes.step; case k => with_reducible apply State.timeAdjust_writes)
    | (apply Writes.step; case k => with_reducible apply State.toRxq_writes)
    | (apply Writes.step; case k => with_reducible apply State.paid_writes)
    | (apply Writes.step; case k => with_reducible apply State.flowDropped_writes)
    | (apply Writes.step; case k => with_reducible apply State.toPort_writes)
    | (apply Writes.step; case k => with_reducible apply State.holdCopy_writes)
    | (apply Writes.step; case k => with_reducible apply State.draw_writes)
    | (apply Writes.step; case k => with_reducible apply State.toPair_writes)
    | (apply Writes.step; case k => with_reducible apply State.mapItem_writes)
    | (apply Writes.step; case k => with_reducible apply State.dropCopy_writes)
    | (apply Writes.step; case k => with_reducible apply State.complete_writes)
    | with_reducible refine Writes.ite ?_ ?_
    | decide
    | (with_reducible (apply Writes.fst; case e => assumption))
    | split

theorem execCrc32_writes  (e : Fin 160) (k : Fin 2) (s : State) {s' : State}
    (h : execCrc32 e k s = .next s') : Writes [.regs, .cnts, .posted, .lastPost, .out, .free, .spine, .frames, .dram, .poison, .queues, .flows, .engines] s s' := by
  unfold execCrc32 at h
  injection h with h
  subst h
  repeat' first
    | dsimp only
    | with_reducible exact Writes.refl _ _
    | (apply Writes.step; case k => with_reducible apply State.alu_writes)
    | decide

theorem execEmitPair_writes  (e : Fin 160) (s : State) {s' : State}
    (h : execEmitPair e s = .next s') : Writes [.regs, .cnts, .posted, .lastPost, .out, .free, .spine, .frames, .dram, .poison, .queues, .flows, .engines] s s' := by
  unfold execEmitPair at h
  injection h with h
  subst h
  repeat' first
    | dsimp only
    | with_reducible exact Writes.refl _ _
    | (apply Writes.step; case k => with_reducible apply State.hubStage_writes)
    | decide

/-- `closeWord` writes what the end of the word writes. -/
theorem State.closeWord_writes {l : List Part} {s : State} {e mode : Nat} {f : Nat → State}
    (hf : ∀ w, Writes l s (f w)) (hl : [.regs, .cnts, .posted, .lastPost, .out, .spine, .frames, .dram, .poison, .queues, .flows, .engines] ⊆ l) : Writes l s (State.closeWord s e mode f) := by
  unfold State.closeWord
  refine State.onWord_writes (fun w => ?_) hl
  dsimp only
  split
  · exact hf w
  · exact Writes.refl _ _

theorem State.call_writes  (s : State) (e : Nat) :
    Writes [.regs, .cnts, .posted, .lastPost, .out, .spine, .frames, .dram, .poison, .queues, .flows, .engines] s (State.call s e) := by
  unfold State.call
  repeat' first
    | dsimp only
    | with_reducible exact Writes.refl _ _
    | (apply Writes.step; rotate_left; with_reducible apply State.closeWord_writes (l := [.regs, .cnts, .posted, .lastPost, .out, .spine, .frames, .dram, .poison, .queues, .flows, .engines]))
    | (apply Writes.step; case k => with_reducible apply State.abort_writes)
    | (apply Writes.step; case k => with_reducible apply State.endWord_writes)
    | (apply Writes.step; case k => with_reducible apply State.setEng_writes)
    | with_reducible refine Writes.ite ?_ ?_
    | decide
    | intro _
    | split

theorem execLdi64_writes  (e : Fin 160) (s : State) {s' : State}
    (h : execLdi64 e s = .next s') : Writes [.regs, .cnts, .posted, .lastPost, .out, .free, .spine, .frames, .dram, .poison, .queues, .flows, .engines] s s' := by
  unfold execLdi64 at h
  injection h with h
  subst h
  repeat' first
    | dsimp only
    | with_reducible exact Writes.refl _ _
    | (apply Writes.step; case k => with_reducible apply State.alu_writes)
    | decide

theorem execFrameWrite_writes  (e : Fin 160) (s : State) {s' : State}
    (h : execFrameWrite e s = .next s') : Writes [.regs, .cnts, .posted, .lastPost, .out, .free, .spine, .frames, .dram, .poison, .queues, .flows, .engines] s s' := by
  unfold execFrameWrite at h
  injection h with h
  subst h
  repeat' first
    | dsimp only
    | with_reducible exact Writes.refl _ _
    | (apply Writes.step; case k => with_reducible apply State.hubStage_writes)
    | decide

theorem execMax_writes  (e : Fin 160) (k : Fin 2) (s : State) {s' : State}
    (h : execMax e k s = .next s') : Writes [.regs, .cnts, .posted, .lastPost, .out, .free, .spine, .frames, .dram, .poison, .queues, .flows, .engines] s s' := by
  unfold execMax at h
  injection h with h
  subst h
  repeat' first
    | dsimp only
    | with_reducible exact Writes.refl _ _
    | (apply Writes.step; case k => with_reducible apply State.alu_writes)
    | decide

theorem State.stageOp_writes  (s : State) (e : Nat) (o : ShadowOp) :
    Writes [.regs, .cnts, .posted, .lastPost, .out, .spine, .frames, .dram, .poison, .queues, .flows, .engines] s (State.stageOp s e o) := by
  unfold State.stageOp
  repeat' first
    | dsimp only
    | with_reducible exact Writes.refl _ _
    | (apply Writes.step; case k => with_reducible apply State.abort_writes)
    | (apply Writes.step; case k => with_reducible apply State.setEng_writes)
    | with_reducible refine Writes.ite ?_ ?_
    | decide
    | split

theorem State.insert_writes  (s : State) (e : Nat) :
    Writes [.regs, .cnts, .posted, .lastPost, .out, .spine, .frames, .dram, .poison, .queues, .flows, .engines] s (State.insert s e) := by
  unfold State.insert
  repeat' first
    | dsimp only
    | with_reducible exact Writes.refl _ _
    | (apply Writes.step; rotate_left; with_reducible apply State.unit_writes (l := [.regs, .cnts, .posted, .lastPost, .out, .spine, .frames, .dram, .poison, .queues, .flows, .engines]))
    | (apply Writes.step; case k => with_reducible apply State.abort_writes)
    | (apply Writes.step; case k => with_reducible apply State.stageOp_writes)
    | with_reducible refine Writes.ite ?_ ?_
    | decide
    | intro _
    | split

theorem execMin_writes  (e : Fin 160) (k : Fin 2) (s : State) {s' : State}
    (h : execMin e k s = .next s') : Writes [.regs, .cnts, .posted, .lastPost, .out, .free, .spine, .frames, .dram, .poison, .queues, .flows, .engines] s s' := by
  unfold execMin at h
  injection h with h
  subst h
  repeat' first
    | dsimp only
    | with_reducible exact Writes.refl _ _
    | (apply Writes.step; case k => with_reducible apply State.alu_writes)
    | decide

theorem State.safePoint_writes  (s : State) (e : Nat) :
    Writes [.regs, .cnts, .engines] s (State.safePoint s e) := by
  unfold State.safePoint
  repeat' first
    | dsimp only
    | with_reducible exact Writes.refl _ _
    | (apply Writes.step; case k => with_reducible apply State.setEngState_writes)
    | (apply Writes.step; case k => with_reducible apply State.takeItem_writes)
    | (apply Writes.step; case k => with_reducible apply State.takeInt_writes)
    | with_reducible refine Writes.ite ?_ ?_
    | decide
    | split

theorem execSafePoint_writes  (e : Fin 160) (s : State) {s' : State}
    (h : execSafePoint e s = .next s') : Writes [.regs, .cnts, .engines] s s' := by
  unfold execSafePoint at h
  injection h with h
  subst h
  repeat' first
    | dsimp only
    | with_reducible exact Writes.refl _ _
    | (apply Writes.step; case k => with_reducible apply State.safePoint_writes)
    | decide

theorem State.handlerReturn_writes  (s : State) (e : Nat) (w : Nat) :
    Writes [.regs, .engines] s (State.handlerReturn s e w) := by
  unfold State.handlerReturn
  repeat' first
    | dsimp only
    | with_reducible exact Writes.refl _ _
    | (apply Writes.step; case k => with_reducible apply State.endWord_writes)
    | (apply Writes.step; case k => with_reducible apply State.setEngState_writes)
    | (apply Writes.step; case k => with_reducible apply State.setEng_writes)
    | (apply Writes.step; case k => with_reducible apply State.takeItem_writes)
    | with_reducible refine Writes.ite ?_ ?_
    | decide
    | split

theorem State.ret_writes  (s : State) (e : Nat) :
    Writes [.regs, .cnts, .posted, .lastPost, .out, .spine, .frames, .dram, .poison, .queues, .flows, .engines] s (State.ret s e) := by
  unfold State.ret
  repeat' first
    | dsimp only
    | with_reducible exact Writes.refl _ _
    | (apply Writes.step; rotate_left; with_reducible apply State.closeWord_writes (l := [.regs, .cnts, .posted, .lastPost, .out, .spine, .frames, .dram, .poison, .queues, .flows, .engines]))
    | (apply Writes.step; case k => with_reducible apply State.handlerReturn_writes)
    | (apply Writes.step; case k => with_reducible apply State.abort_writes)
    | (apply Writes.step; case k => with_reducible apply State.endWord_writes)
    | (apply Writes.step; case k => with_reducible apply State.setEng_writes)
    | with_reducible refine Writes.ite ?_ ?_
    | decide
    | intro _
    | (with_reducible (apply Writes.fst; case e => assumption))
    | split

theorem execRet_writes  (e : Fin 160) (s : State) {s' : State}
    (h : execRet e s = .next s') : Writes [.regs, .cnts, .posted, .lastPost, .out, .spine, .frames, .dram, .poison, .queues, .flows, .engines] s s' := by
  unfold execRet at h
  injection h with h
  subst h
  repeat' first
    | dsimp only
    | with_reducible exact Writes.refl _ _
    | (apply Writes.step; case k => with_reducible apply State.ret_writes)
    | decide

theorem execRol_writes  (e : Fin 160) (k : Fin 2) (s : State) {s' : State}
    (h : execRol e k s = .next s') : Writes [.regs, .cnts, .posted, .lastPost, .out, .free, .spine, .frames, .dram, .poison, .queues, .flows, .engines] s s' := by
  unfold execRol at h
  injection h with h
  subst h
  repeat' first
    | dsimp only
    | with_reducible exact Writes.refl _ _
    | (apply Writes.step; case k => with_reducible apply State.alu_writes)
    | decide

theorem State.setFlowByte_writes  (s : State) (i : Nat) (k : Nat) (b : Byte) :
    Writes [.flows] s (State.setFlowByte s i k b) := by
  unfold State.setFlowByte
  repeat' first
    | dsimp only
    | with_reducible exact Writes.refl _ _
    | (apply Writes.step; case k => with_reducible apply State.setFlow_writes)
    | with_reducible refine Writes.ite ?_ ?_
    | decide
    | split

theorem State.setQctxByte_writes  (s : State) (qid : Nat) (k : Nat) (b : Byte) :
    Writes [.queues] s (State.setQctxByte s qid k b) := by
  unfold State.setQctxByte
  repeat' first
    | dsimp only
    | with_reducible exact Writes.refl _ _
    | (apply Writes.step; case k => with_reducible apply State.setQ_writes)
    | decide

theorem State.spaceWrite_writes  (s : State) (e : Nat) (space : Nat) (a : Nat) (b : Byte) :
    Writes [.queues, .flows, .engines] s (State.spaceWrite s e space a b) := by
  unfold State.spaceWrite
  repeat' first
    | dsimp only
    | ((conv => arg 3; arg 39; skip); with_reducible refine Writes.set_engines ?_ ?_ _ (fun h => by first | exact h | exact Table.wf_set _ _ _ _ h | exact Table.wf_filter _ _ _ h))
    | with_reducible exact Writes.refl _ _
    | (apply Writes.step; case k => with_reducible apply State.mapItem_writes)
    | (apply Writes.step; case k => with_reducible apply State.setFlowByte_writes)
    | (apply Writes.step; case k => with_reducible apply State.setQctxByte_writes)
    | (apply Writes.step; case k => with_reducible apply State.setEng_writes)
    | with_reducible refine Writes.ite ?_ ?_
    | decide
    | (with_reducible (apply Writes.fst; case e => assumption))
    | split

theorem State.publishOp_writes  (s : State) (e : Nat) (o : ShadowOp) :
    Writes [.free, .queues, .flows, .engines] s (State.publishOp s e o) := by
  unfold State.publishOp
  repeat' first
    | dsimp only
    | with_reducible exact Writes.refl _ _
    | (apply Writes.step; case k => with_reducible apply State.spaceWrite_writes)
    | (apply Writes.step; case k => with_reducible apply State.draw_writes)
    | with_reducible refine Writes.ite ?_ ?_
    | with_reducible refine Writes.foldl ?_ ?_
    | with_reducible refine Writes.foldlFst ?_ ?_
    | decide
    | intro _
    | split

theorem State.writeMem_writes  (s : State) (e : Nat) (op : Nat) :
    Writes [.regs, .cnts, .posted, .lastPost, .out, .free, .spine, .frames, .dram, .poison, .queues, .flows, .engines] s (State.writeMem s e op) := by
  unfold State.writeMem
  repeat' first
    | dsimp only
    | with_reducible exact Writes.refl _ _
    | (apply Writes.step; rotate_left; with_reducible apply State.unit_writes (l := [.regs, .cnts, .posted, .lastPost, .out, .free, .spine, .frames, .dram, .poison, .queues, .flows, .engines]))
    | (apply Writes.step; case k => with_reducible apply State.abort_writes)
    | (apply Writes.step; case k => with_reducible apply State.draw_writes)
    | (apply Writes.step; case k => with_reducible apply State.publishOp_writes)
    | (apply Writes.step; case k => with_reducible apply State.stageOp_writes)
    | with_reducible refine Writes.ite ?_ ?_
    | decide
    | intro _
    | (with_reducible (apply Writes.fst; case e => assumption))
    | split

theorem execBitclr_writes  (e : Fin 160) (s : State) {s' : State}
    (h : execBitclr e s = .next s') : Writes [.regs, .cnts, .posted, .lastPost, .out, .free, .spine, .frames, .dram, .poison, .queues, .flows, .engines] s s' := by
  unfold execBitclr at h
  injection h with h
  subst h
  repeat' first
    | dsimp only
    | with_reducible exact Writes.refl _ _
    | (apply Writes.step; case k => with_reducible apply State.writeMem_writes)
    | decide

theorem State.wait_writes  (s : State) (e : Nat) :
    Writes [.regs, .cnts, .posted, .lastPost, .out, .spine, .frames, .dram, .poison, .queues, .flows, .engines] s (State.wait s e) := by
  unfold State.wait
  repeat' first
    | dsimp only
    | with_reducible exact Writes.refl _ _
    | (apply Writes.step; rotate_left; with_reducible apply State.onWord_writes (l := [.regs, .cnts, .posted, .lastPost, .out, .spine, .frames, .dram, .poison, .queues, .flows, .engines]))
    | (apply Writes.step; case k => with_reducible apply State.setEngState_writes)
    | (apply Writes.step; case k => with_reducible apply State.setEng_writes)
    | (apply Writes.step; rotate_left; with_reducible apply State.closeWord_writes (l := [.regs, .cnts, .posted, .lastPost, .out, .spine, .frames, .dram, .poison, .queues, .flows, .engines]))
    | (apply Writes.step; case k => with_reducible apply State.endWord_writes)
    | with_reducible refine Writes.ite ?_ ?_
    | decide
    | intro _
    | split

theorem execWait_writes  (e : Fin 160) (s : State) {s' : State}
    (h : execWait e s = .next s') : Writes [.regs, .cnts, .posted, .lastPost, .out, .spine, .frames, .dram, .poison, .queues, .flows, .engines] s s' := by
  unfold execWait at h
  injection h with h
  subst h
  repeat' first
    | dsimp only
    | with_reducible exact Writes.refl _ _
    | (apply Writes.step; case k => with_reducible apply State.wait_writes)
    | decide

theorem State.boundExceeded_writes  (s : State) (e : Nat) :
    Writes [.regs, .cnts, .posted, .lastPost, .out, .spine, .frames, .dram, .poison, .queues, .flows, .engines] s (State.boundExceeded s e) := by
  unfold State.boundExceeded
  repeat' first
    | dsimp only
    | with_reducible exact Writes.refl _ _
    | (apply Writes.step; case k => with_reducible apply State.abort_writes)
    | with_reducible refine Writes.ite ?_ ?_
    | decide
    | split

theorem execBoundExceeded_writes  (e : Fin 160) (s : State) {s' : State}
    (h : execBoundExceeded e s = .next s') : Writes [.regs, .cnts, .posted, .lastPost, .out, .spine, .frames, .dram, .poison, .queues, .flows, .engines] s s' := by
  unfold execBoundExceeded at h
  injection h with h
  subst h
  repeat' first
    | dsimp only
    | with_reducible exact Writes.refl _ _
    | (apply Writes.step; case k => with_reducible apply State.boundExceeded_writes)
    | decide

theorem State.publish_writes  (s : State) (e : Nat) :
    Writes [.regs, .cnts, .posted, .out, .free, .spine, .frames, .dram, .poison, .queues, .ports, .flows, .pairLink, .recCopies, .engines, .tb] s (State.publish s e) := by
  unfold State.publish
  repeat' first
    | dsimp only
    | with_reducible exact Writes.refl _ _
    | (apply Writes.step; case k => with_reducible apply State.respondHub_writes)
    | (apply Writes.step; case k => with_reducible apply State.spineCross_writes)
    | (apply Writes.step; case k => with_reducible apply State.publishOp_writes)
    | (apply Writes.step; case k => with_reducible apply State.publishHub_writes)
    | (apply Writes.step; case k => with_reducible apply State.setEng_writes)
    | with_reducible refine Writes.ite ?_ ?_
    | with_reducible refine Writes.foldl ?_ ?_
    | with_reducible refine Writes.foldlFst ?_ ?_
    | decide
    | intro _
    | split

theorem State.commit_writes  (s : State) (e : Nat) :
    Writes [.regs, .cnts, .posted, .lastPost, .out, .free, .spine, .frames, .dram, .poison, .queues, .ports, .flows, .pairLink, .recCopies, .engines, .tb] s (State.commit s e) := by
  unfold State.commit
  repeat' first
    | dsimp only
    | with_reducible exact Writes.refl _ _
    | (apply Writes.step; rotate_left; with_reducible apply State.unit_writes (l := [.regs, .cnts, .posted, .lastPost, .out, .free, .spine, .frames, .dram, .poison, .queues, .ports, .flows, .pairLink, .recCopies, .engines, .tb]))
    | (apply Writes.step; case k => with_reducible apply State.publish_writes)
    | decide
    | intro _

theorem execCommit_writes  (e : Fin 160) (s : State) {s' : State}
    (h : execCommit e s = .next s') : Writes [.regs, .cnts, .posted, .lastPost, .out, .free, .spine, .frames, .dram, .poison, .queues, .ports, .flows, .pairLink, .recCopies, .engines, .tb] s s' := by
  unfold execCommit at h
  injection h with h
  subst h
  repeat' first
    | dsimp only
    | with_reducible exact Writes.refl _ _
    | (apply Writes.step; case k => with_reducible apply State.commit_writes)
    | decide

theorem State.readCrosses_writes  (s : State) (e : Nat) :
    Writes [.spine] s (State.readCrosses s e) := by
  unfold State.readCrosses
  repeat' first
    | dsimp only
    | with_reducible exact Writes.refl _ _
    | (apply Writes.step; case k => with_reducible apply State.spineCross_writes)
    | decide

theorem State.hubReply_writes  (s : State) (e : Nat) (code : Nat) :
    Writes [.regs, .cnts, .posted, .lastPost, .out, .free, .spine, .frames, .dram, .poison, .queues, .flows, .engines] s (State.hubReply s e code) := by
  unfold State.hubReply
  repeat' first
    | dsimp only
    | with_reducible exact Writes.refl _ _
    | (apply Writes.step; rotate_left; with_reducible apply State.unit_writes (l := [.regs, .cnts, .posted, .lastPost, .out, .free, .spine, .frames, .dram, .poison, .queues, .flows, .engines]))
    | (apply Writes.step; case k => with_reducible apply State.readCrosses_writes)
    | (apply Writes.step; case k => with_reducible apply State.result_writes)
    | (apply Writes.step; case k => with_reducible apply State.drawN_writes)
    | (apply Writes.step; case k => with_reducible apply State.setEng_writes)
    | with_reducible refine Writes.ite ?_ ?_
    | decide
    | intro _
    | split

theorem execNop_writes  (x0 : Fin 160) (x1 : Fin 2) (s : State) {s' : State}
    (h : execNop x0 x1 s = .next s') : Writes [] s s' := by
  unfold execNop at h
  injection h with h
  subst h
  repeat' first
    | dsimp only
    | with_reducible exact Writes.refl _ _
    | decide

theorem execShl_writes  (e : Fin 160) (k : Fin 2) (s : State) {s' : State}
    (h : execShl e k s = .next s') : Writes [.regs, .cnts, .posted, .lastPost, .out, .free, .spine, .frames, .dram, .poison, .queues, .flows, .engines] s s' := by
  unfold execShl at h
  injection h with h
  subst h
  repeat' first
    | dsimp only
    | with_reducible exact Writes.refl _ _
    | (apply Writes.step; case k => with_reducible apply State.alu_writes)
    | decide

theorem State.dispatch_writes  (s : State) (e : Nat) :
    Writes [.regs, .cnts, .posted, .lastPost, .out, .spine, .frames, .dram, .poison, .queues, .flows, .engines] s (State.dispatch s e) := by
  unfold State.dispatch
  repeat' first
    | dsimp only
    | with_reducible exact Writes.refl _ _
    | (apply Writes.step; rotate_left; with_reducible apply State.closeWord_writes (l := [.regs, .cnts, .posted, .lastPost, .out, .spine, .frames, .dram, .poison, .queues, .flows, .engines]))
    | (apply Writes.step; case k => with_reducible apply State.endItem_writes)
    | (apply Writes.step; case k => with_reducible apply State.endWord_writes)
    | (apply Writes.step; case k => with_reducible apply State.takeItem_writes)
    | (apply Writes.step; case k => with_reducible apply State.setEng_writes)
    | with_reducible refine Writes.ite ?_ ?_
    | decide
    | intro _
    | split

theorem execDispatch_writes  (e : Fin 160) (s : State) {s' : State}
    (h : execDispatch e s = .next s') : Writes [.regs, .cnts, .posted, .lastPost, .out, .spine, .frames, .dram, .poison, .queues, .flows, .engines] s s' := by
  unfold execDispatch at h
  injection h with h
  subst h
  repeat' first
    | dsimp only
    | with_reducible exact Writes.refl _ _
    | (apply Writes.step; case k => with_reducible apply State.dispatch_writes)
    | decide

theorem execOr_writes  (e : Fin 160) (k : Fin 2) (s : State) {s' : State}
    (h : execOr e k s = .next s') : Writes [.regs, .cnts, .posted, .lastPost, .out, .free, .spine, .frames, .dram, .poison, .queues, .flows, .engines] s s' := by
  unfold execOr at h
  injection h with h
  subst h
  repeat' first
    | dsimp only
    | with_reducible exact Writes.refl _ _
    | (apply Writes.step; case k => with_reducible apply State.alu_writes)
    | decide

theorem execXor_writes  (e : Fin 160) (k : Fin 2) (s : State) {s' : State}
    (h : execXor e k s = .next s') : Writes [.regs, .cnts, .posted, .lastPost, .out, .free, .spine, .frames, .dram, .poison, .queues, .flows, .engines] s s' := by
  unfold execXor at h
  injection h with h
  subst h
  repeat' first
    | dsimp only
    | with_reducible exact Writes.refl _ _
    | (apply Writes.step; case k => with_reducible apply State.alu_writes)
    | decide

theorem State.extract_writes  (s : State) (e : Nat) :
    Writes [.regs, .cnts, .posted, .lastPost, .out, .free, .spine, .frames, .dram, .poison, .queues, .flows, .engines] s (State.extract s e) := by
  unfold State.extract
  repeat' first
    | dsimp only
    | with_reducible exact Writes.refl _ _
    | (apply Writes.step; rotate_left; with_reducible apply State.unit_writes (l := [.regs, .cnts, .posted, .lastPost, .out, .free, .spine, .frames, .dram, .poison, .queues, .flows, .engines]))
    | (apply Writes.step; case k => with_reducible apply State.abort_writes)
    | (apply Writes.step; case k => with_reducible apply State.result_writes)
    | (apply Writes.step; case k => with_reducible apply State.draw_writes)
    | with_reducible refine Writes.ite ?_ ?_
    | decide
    | intro _
    | split

theorem State.planMigration_writes  (s : State) (e : Nat) :
    Writes [.regs, .engines] s (State.planMigration s e) := by
  unfold State.planMigration
  repeat' first
    | dsimp only
    | with_reducible exact Writes.refl _ _
    | (apply Writes.step; case k => (with_reducible apply State.setFlag_writes_ne) <;> first | decide | (dsimp only [Reg.ENG_SPARE_STATUS, Reg.ENG_SPARE_STATUS_BUSY, Reg.GLB_MODE, Field.of]; omega) | (split <;> decide))
    | (apply Writes.step; case k => with_reducible apply State.setEng_writes)
    | (apply Writes.step; case k => with_reducible apply State.setEngState_writes)
    | with_reducible refine Writes.ite ?_ ?_
    | decide
    | split

theorem State.spareGo_writes  (s : State) (e : Nat) :
    Writes [.regs, .posted, .engines] s (State.spareGo s e) := by
  unfold State.spareGo
  repeat' first
    | dsimp only
    | with_reducible exact Writes.refl _ _
    | (apply Writes.step; case k => (with_reducible apply State.setFld_writes_ne) <;> first | decide | (dsimp only [Reg.ENG_SPARE_STATUS, Reg.ENG_SPARE_STATUS_ENGINE, Reg.ENG_SPARE_STATUS_REFUSAL, Reg.GLB_MODE, Field.of]; omega) | (split <;> decide))
    | (apply Writes.step; case k => with_reducible apply State.planMigration_writes)
    | (apply Writes.step; case k => with_reducible apply State.post_writes)
    | with_reducible refine Writes.ite ?_ ?_
    | decide
    | split

theorem execSub16s_writes  (e : Fin 160) (k : Fin 2) (s : State) {s' : State}
    (h : execSub16s e k s = .next s') : Writes [.regs, .cnts, .posted, .lastPost, .out, .free, .spine, .frames, .dram, .poison, .queues, .flows, .engines] s s' := by
  unfold execSub16s at h
  injection h with h
  subst h
  repeat' first
    | dsimp only
    | with_reducible exact Writes.refl _ _
    | (apply Writes.step; case k => with_reducible apply State.alu_writes)
    | decide

theorem State.seq_writes  (s : State) (e : Nat) :
    Writes [.regs, .cnts, .posted, .lastPost, .out, .spine, .frames, .dram, .poison, .queues, .flows, .engines] s (State.seq s e) := by
  unfold State.seq
  repeat' first
    | dsimp only
    | with_reducible exact Writes.refl _ _
    | (apply Writes.step; rotate_left; with_reducible apply State.closeWord_writes (l := [.regs, .cnts, .posted, .lastPost, .out, .spine, .frames, .dram, .poison, .queues, .flows, .engines]))
    | (apply Writes.step; case k => with_reducible apply State.endWord_writes)
    | decide
    | intro _

theorem execMulhi_writes  (e : Fin 160) (k : Fin 2) (s : State) {s' : State}
    (h : execMulhi e k s = .next s') : Writes [.regs, .cnts, .posted, .lastPost, .out, .free, .spine, .frames, .dram, .poison, .queues, .flows, .engines] s s' := by
  unfold execMulhi at h
  injection h with h
  subst h
  repeat' first
    | dsimp only
    | with_reducible exact Writes.refl _ _
    | (apply Writes.step; case k => with_reducible apply State.alu_writes)
    | decide

theorem execDramWrite_writes  (e : Fin 160) (s : State) {s' : State}
    (h : execDramWrite e s = .next s') : Writes [.regs, .cnts, .posted, .lastPost, .out, .free, .spine, .frames, .dram, .poison, .queues, .flows, .engines] s s' := by
  unfold execDramWrite at h
  injection h with h
  subst h
  repeat' first
    | dsimp only
    | with_reducible exact Writes.refl _ _
    | (apply Writes.step; case k => with_reducible apply State.hubStage_writes)
    | decide

theorem State.endMigration_writes  (s : State) (f : Nat) :
    Writes [.regs, .engines] s (State.endMigration s f) := by
  unfold State.endMigration
  repeat' first
    | dsimp only
    | with_reducible exact Writes.refl _ _
    | (apply Writes.step; case k => (with_reducible apply State.setFlag_writes_ne) <;> first | decide | (dsimp only [Reg.ENG_SPARE_STATUS, Reg.ENG_SPARE_STATUS_BUSY, Reg.ENG_SPARE_STATUS_ENGINE, Reg.GLB_MODE, Field.of]; omega) | (split <;> decide))
    | (apply Writes.step; case k => with_reducible apply State.setEng_writes)
    | (apply Writes.step; case k => with_reducible apply State.setEngState_writes)
    | with_reducible refine Writes.ite ?_ ?_
    | decide
    | split

theorem execForeEdge_writes  (e : Fin 160) (s : State) {s' : State}
    (h : execForeEdge e s = .next s') : Writes [.regs, .cnts, .posted, .lastPost, .out, .free, .spine, .frames, .dram, .poison, .queues, .flows, .engines] s s' := by
  unfold execForeEdge at h
  injection h with h
  subst h
  repeat' first
    | dsimp only
    | with_reducible exact Writes.refl _ _
    | (apply Writes.step; case k => with_reducible apply State.hubStage_writes)
    | decide

theorem execRoleTimerExpire_writes  (e : Fin 160) (s : State) {s' : State}
    (h : execRoleTimerExpire e s = .next s') : Writes [.engines] s s' := by
  unfold execRoleTimerExpire at h
  injection h with h
  subst h
  repeat' first
    | dsimp only
    | with_reducible exact Writes.refl _ _
    | (apply Writes.step; case k => with_reducible apply State.raiseInt_writes)
    | (apply Writes.step; case k => with_reducible apply State.setEng_writes)
    | with_reducible refine Writes.ite ?_ ?_
    | decide
    | (with_reducible (apply Writes.fst; case e => assumption))
    | split

theorem execDramRead_writes  (e : Fin 160) (s : State) {s' : State}
    (h : execDramRead e s = .next s') : Writes [.regs, .cnts, .posted, .lastPost, .out, .free, .spine, .frames, .dram, .poison, .queues, .flows, .engines] s s' := by
  unfold execDramRead at h
  injection h with h
  subst h
  repeat' first
    | dsimp only
    | with_reducible exact Writes.refl _ _
    | (apply Writes.step; case k => with_reducible apply State.hubReply_writes)
    | decide

theorem State.branch_writes  (s : State) (e : Nat) :
    Writes [.regs, .cnts, .posted, .lastPost, .out, .spine, .frames, .dram, .poison, .queues, .flows, .engines] s (State.branch s e) := by
  unfold State.branch
  repeat' first
    | dsimp only
    | with_reducible exact Writes.refl _ _
    | (apply Writes.step; rotate_left; with_reducible apply State.closeWord_writes (l := [.regs, .cnts, .posted, .lastPost, .out, .spine, .frames, .dram, .poison, .queues, .flows, .engines]))
    | (apply Writes.step; case k => with_reducible apply State.endWord_writes)
    | (apply Writes.step; case k => with_reducible apply State.abort_writes)
    | with_reducible refine Writes.ite ?_ ?_
    | decide
    | intro _
    | split

theorem State.load_writes  (s : State) (e : Nat) :
    Writes [.regs, .cnts, .posted, .lastPost, .out, .free, .spine, .frames, .dram, .poison, .queues, .flows, .engines] s (State.load s e) := by
  unfold State.load
  repeat' first
    | dsimp only
    | with_reducible exact Writes.refl _ _
    | (apply Writes.step; rotate_left; with_reducible apply State.unit_writes (l := [.regs, .cnts, .posted, .lastPost, .out, .free, .spine, .frames, .dram, .poison, .queues, .flows, .engines]))
    | (apply Writes.step; case k => with_reducible apply State.abort_writes)
    | (apply Writes.step; case k => with_reducible apply State.result_writes)
    | (apply Writes.step; case k => with_reducible apply State.draw_writes)
    | decide
    | intro _
    | (with_reducible (apply Writes.fst; case e => assumption))
    | split

theorem execLoad_writes  (e : Fin 160) (s : State) {s' : State}
    (h : execLoad e s = .next s') : Writes [.regs, .cnts, .posted, .lastPost, .out, .free, .spine, .frames, .dram, .poison, .queues, .flows, .engines] s s' := by
  unfold execLoad at h
  injection h with h
  subst h
  repeat' first
    | dsimp only
    | with_reducible exact Writes.refl _ _
    | (apply Writes.step; case k => with_reducible apply State.load_writes)
    | decide

theorem execBitset_writes  (e : Fin 160) (s : State) {s' : State}
    (h : execBitset e s = .next s') : Writes [.regs, .cnts, .posted, .lastPost, .out, .free, .spine, .frames, .dram, .poison, .queues, .flows, .engines] s s' := by
  unfold execBitset at h
  injection h with h
  subst h
  repeat' first
    | dsimp only
    | with_reducible exact Writes.refl _ _
    | (apply Writes.step; case k => with_reducible apply State.writeMem_writes)
    | decide

theorem State.commitProg_writes  (s : State) (e : Nat) :
    Writes [.regs, .cnts, .posted, .lastPost, .out, .free, .spine, .frames, .dram, .poison, .queues, .ports, .flows, .pairLink, .recCopies, .engines, .tb] s (State.commitProg s e) := by
  unfold State.commitProg
  repeat' first
    | dsimp only
    | with_reducible exact Writes.refl _ _
    | (apply Writes.step; rotate_left; with_reducible apply State.unit_writes (l := [.regs, .cnts, .posted, .lastPost, .out, .free, .spine, .frames, .dram, .poison, .queues, .ports, .flows, .pairLink, .recCopies, .engines, .tb]))
    | (apply Writes.step; case k => with_reducible apply State.mapItem_writes)
    | (apply Writes.step; case k => with_reducible apply State.publish_writes)
    | decide
    | intro _

theorem execFieldInsert_writes  (e : Fin 160) (s : State) {s' : State}
    (h : execFieldInsert e s = .next s') : Writes [.regs, .cnts, .posted, .lastPost, .out, .spine, .frames, .dram, .poison, .queues, .flows, .engines] s s' := by
  unfold execFieldInsert at h
  injection h with h
  subst h
  repeat' first
    | dsimp only
    | with_reducible exact Writes.refl _ _
    | (apply Writes.step; case k => with_reducible apply State.insert_writes)
    | decide

theorem execBr_writes  (e : Fin 160) (s : State) {s' : State}
    (h : execBr e s = .next s') : Writes [.regs, .cnts, .posted, .lastPost, .out, .spine, .frames, .dram, .poison, .queues, .flows, .engines] s s' := by
  unfold execBr at h
  injection h with h
  subst h
  repeat' first
    | dsimp only
    | with_reducible exact Writes.refl _ _
    | (apply Writes.step; case k => with_reducible apply State.branch_writes)
    | decide

theorem execReadHub_writes  (e : Fin 160) (s : State) {s' : State}
    (h : execReadHub e s = .next s') : Writes [.regs, .cnts, .posted, .lastPost, .out, .free, .spine, .frames, .dram, .poison, .queues, .flows, .engines] s s' := by
  unfold execReadHub at h
  injection h with h
  subst h
  repeat' first
    | dsimp only
    | with_reducible exact Writes.refl _ _
    | (apply Writes.step; case k => with_reducible apply State.hubReply_writes)
    | decide

theorem execCmp_writes  (e : Fin 160) (k : Fin 2) (s : State) {s' : State}
    (h : execCmp e k s = .next s') : Writes [.regs, .cnts, .posted, .lastPost, .out, .free, .spine, .frames, .dram, .poison, .queues, .flows, .engines] s s' := by
  unfold execCmp at h
  injection h with h
  subst h
  repeat' first
    | dsimp only
    | with_reducible exact Writes.refl _ _
    | (apply Writes.step; case k => with_reducible apply State.alu_writes)
    | decide

theorem execSar_writes  (e : Fin 160) (k : Fin 2) (s : State) {s' : State}
    (h : execSar e k s = .next s') : Writes [.regs, .cnts, .posted, .lastPost, .out, .free, .spine, .frames, .dram, .poison, .queues, .flows, .engines] s s' := by
  unfold execSar at h
  injection h with h
  subst h
  repeat' first
    | dsimp only
    | with_reducible exact Writes.refl _ _
    | (apply Writes.step; case k => with_reducible apply State.alu_writes)
    | decide

theorem execMov_writes  (e : Fin 160) (k : Fin 2) (s : State) {s' : State}
    (h : execMov e k s = .next s') : Writes [.regs, .cnts, .posted, .lastPost, .out, .free, .spine, .frames, .dram, .poison, .queues, .flows, .engines] s s' := by
  unfold execMov at h
  injection h with h
  subst h
  repeat' first
    | dsimp only
    | with_reducible exact Writes.refl _ _
    | (apply Writes.step; case k => with_reducible apply State.alu_writes)
    | decide

theorem execEmitPort_writes  (e : Fin 160) (s : State) {s' : State}
    (h : execEmitPort e s = .next s') : Writes [.regs, .cnts, .posted, .lastPost, .out, .free, .spine, .frames, .dram, .poison, .queues, .flows, .engines] s s' := by
  unfold execEmitPort at h
  injection h with h
  subst h
  repeat' first
    | dsimp only
    | with_reducible exact Writes.refl _ _
    | (apply Writes.step; case k => with_reducible apply State.hubStage_writes)
    | decide

theorem execEmitRxq_writes  (e : Fin 160) (s : State) {s' : State}
    (h : execEmitRxq e s = .next s') : Writes [.regs, .cnts, .posted, .lastPost, .out, .free, .spine, .frames, .dram, .poison, .queues, .flows, .engines] s s' := by
  unfold execEmitRxq at h
  injection h with h
  subst h
  repeat' first
    | dsimp only
    | with_reducible exact Writes.refl _ _
    | (apply Writes.step; case k => with_reducible apply State.hubStage_writes)
    | decide

theorem execShr_writes  (e : Fin 160) (k : Fin 2) (s : State) {s' : State}
    (h : execShr e k s = .next s') : Writes [.regs, .cnts, .posted, .lastPost, .out, .free, .spine, .frames, .dram, .poison, .queues, .flows, .engines] s s' := by
  unfold execShr at h
  injection h with h
  subst h
  repeat' first
    | dsimp only
    | with_reducible exact Writes.refl _ _
    | (apply Writes.step; case k => with_reducible apply State.alu_writes)
    | decide

theorem execBswap_writes  (e : Fin 160) (k : Fin 2) (s : State) {s' : State}
    (h : execBswap e k s = .next s') : Writes [.regs, .cnts, .posted, .lastPost, .out, .free, .spine, .frames, .dram, .poison, .queues, .flows, .engines] s s' := by
  unfold execBswap at h
  injection h with h
  subst h
  repeat' first
    | dsimp only
    | with_reducible exact Writes.refl _ _
    | (apply Writes.step; case k => with_reducible apply State.alu_writes)
    | decide

theorem execCmdReply_writes  (e : Fin 160) (s : State) {s' : State}
    (h : execCmdReply e s = .next s') : Writes [.regs, .cnts, .posted, .lastPost, .out, .free, .spine, .frames, .dram, .poison, .queues, .flows, .engines] s s' := by
  unfold execCmdReply at h
  injection h with h
  subst h
  repeat' first
    | dsimp only
    | with_reducible exact Writes.refl _ _
    | (apply Writes.step; case k => with_reducible apply State.hubStage_writes)
    | decide

theorem execEngineSpareGo_writes  (engine : BitVec 8) (s : State) {s' : State}
    (h : execEngineSpareGo engine s = .next s') : Writes [.regs, .posted, .engines] s s' := by
  unfold execEngineSpareGo at h
  injection h with h
  subst h
  repeat' first
    | dsimp only
    | with_reducible exact Writes.refl _ _
    | (apply Writes.step; case k => with_reducible apply State.spareGo_writes)
    | decide

theorem execStore_writes  (e : Fin 160) (s : State) {s' : State}
    (h : execStore e s = .next s') : Writes [.regs, .cnts, .posted, .lastPost, .out, .free, .spine, .frames, .dram, .poison, .queues, .flows, .engines] s s' := by
  unfold execStore at h
  injection h with h
  subst h
  repeat' first
    | dsimp only
    | with_reducible exact Writes.refl _ _
    | (apply Writes.step; case k => with_reducible apply State.writeMem_writes)
    | decide

theorem execAnd_writes  (e : Fin 160) (k : Fin 2) (s : State) {s' : State}
    (h : execAnd e k s = .next s') : Writes [.regs, .cnts, .posted, .lastPost, .out, .free, .spine, .frames, .dram, .poison, .queues, .flows, .engines] s s' := by
  unfold execAnd at h
  injection h with h
  subst h
  repeat' first
    | dsimp only
    | with_reducible exact Writes.refl _ _
    | (apply Writes.step; case k => with_reducible apply State.alu_writes)
    | decide

theorem execMul_writes  (e : Fin 160) (k : Fin 2) (s : State) {s' : State}
    (h : execMul e k s = .next s') : Writes [.regs, .cnts, .posted, .lastPost, .out, .free, .spine, .frames, .dram, .poison, .queues, .flows, .engines] s s' := by
  unfold execMul at h
  injection h with h
  subst h
  repeat' first
    | dsimp only
    | with_reducible exact Writes.refl _ _
    | (apply Writes.step; case k => with_reducible apply State.alu_writes)
    | decide

theorem execEmitRec_writes  (e : Fin 160) (s : State) {s' : State}
    (h : execEmitRec e s = .next s') : Writes [.regs, .cnts, .posted, .lastPost, .out, .free, .spine, .frames, .dram, .poison, .queues, .flows, .engines] s s' := by
  unfold execEmitRec at h
  injection h with h
  subst h
  repeat' first
    | dsimp only
    | with_reducible exact Writes.refl _ _
    | (apply Writes.step; case k => with_reducible apply State.hubStage_writes)
    | decide

theorem execProg_writes  (e : Fin 160) (s : State) {s' : State}
    (h : execProg e s = .next s') : Writes [.regs, .cnts, .posted, .lastPost, .out, .free, .spine, .frames, .dram, .poison, .queues, .ports, .flows, .pairLink, .recCopies, .engines, .tb] s s' := by
  unfold execProg at h
  injection h with h
  subst h
  repeat' first
    | dsimp only
    | with_reducible exact Writes.refl _ _
    | (apply Writes.step; case k => with_reducible apply State.commitProg_writes)
    | decide

theorem execAdd16_writes  (e : Fin 160) (k : Fin 2) (s : State) {s' : State}
    (h : execAdd16 e k s = .next s') : Writes [.regs, .cnts, .posted, .lastPost, .out, .free, .spine, .frames, .dram, .poison, .queues, .flows, .engines] s s' := by
  unfold execAdd16 at h
  injection h with h
  subst h
  repeat' first
    | dsimp only
    | with_reducible exact Writes.refl _ _
    | (apply Writes.step; case k => with_reducible apply State.alu_writes)
    | decide

theorem execClz_writes  (e : Fin 160) (k : Fin 2) (s : State) {s' : State}
    (h : execClz e k s = .next s') : Writes [.regs, .cnts, .posted, .lastPost, .out, .free, .spine, .frames, .dram, .poison, .queues, .flows, .engines] s s' := by
  unfold execClz at h
  injection h with h
  subst h
  repeat' first
    | dsimp only
    | with_reducible exact Writes.refl _ _
    | (apply Writes.step; case k => with_reducible apply State.alu_writes)
    | decide

theorem execSub_writes  (e : Fin 160) (k : Fin 2) (s : State) {s' : State}
    (h : execSub e k s = .next s') : Writes [.regs, .cnts, .posted, .lastPost, .out, .free, .spine, .frames, .dram, .poison, .queues, .flows, .engines] s s' := by
  unfold execSub at h
  injection h with h
  subst h
  repeat' first
    | dsimp only
    | with_reducible exact Writes.refl _ _
    | (apply Writes.step; case k => with_reducible apply State.alu_writes)
    | decide

theorem execComplete_writes  (e : Fin 160) (s : State) {s' : State}
    (h : execComplete e s = .next s') : Writes [.regs, .cnts, .posted, .lastPost, .out, .free, .spine, .frames, .dram, .poison, .queues, .flows, .engines] s s' := by
  unfold execComplete at h
  injection h with h
  subst h
  repeat' first
    | dsimp only
    | with_reducible exact Writes.refl _ _
    | (apply Writes.step; case k => with_reducible apply State.hubStage_writes)
    | decide

theorem execCall_writes  (e : Fin 160) (s : State) {s' : State}
    (h : execCall e s = .next s') : Writes [.regs, .cnts, .posted, .lastPost, .out, .spine, .frames, .dram, .poison, .queues, .flows, .engines] s s' := by
  unfold execCall at h
  injection h with h
  subst h
  repeat' first
    | dsimp only
    | with_reducible exact Writes.refl _ _
    | (apply Writes.step; case k => with_reducible apply State.call_writes)
    | decide

theorem execAddm_writes  (e : Fin 160) (s : State) {s' : State}
    (h : execAddm e s = .next s') : Writes [.regs, .cnts, .posted, .lastPost, .out, .free, .spine, .frames, .dram, .poison, .queues, .flows, .engines] s s' := by
  unfold execAddm at h
  injection h with h
  subst h
  repeat' first
    | dsimp only
    | with_reducible exact Writes.refl _ _
    | (apply Writes.step; case k => with_reducible apply State.writeMem_writes)
    | decide

theorem execSeq_writes  (e : Fin 160) (s : State) {s' : State}
    (h : execSeq e s = .next s') : Writes [.regs, .cnts, .posted, .lastPost, .out, .spine, .frames, .dram, .poison, .queues, .flows, .engines] s s' := by
  unfold execSeq at h
  injection h with h
  subst h
  repeat' first
    | dsimp only
    | with_reducible exact Writes.refl _ _
    | (apply Writes.step; case k => with_reducible apply State.seq_writes)
    | decide

theorem execPopcnt_writes  (e : Fin 160) (k : Fin 2) (s : State) {s' : State}
    (h : execPopcnt e k s = .next s') : Writes [.regs, .cnts, .posted, .lastPost, .out, .free, .spine, .frames, .dram, .poison, .queues, .flows, .engines] s s' := by
  unfold execPopcnt at h
  injection h with h
  subst h
  repeat' first
    | dsimp only
    | with_reducible exact Writes.refl _ _
    | (apply Writes.step; case k => with_reducible apply State.alu_writes)
    | decide

theorem execEvent_writes  (e : Fin 160) (s : State) {s' : State}
    (h : execEvent e s = .next s') : Writes [.regs, .cnts, .posted, .lastPost, .out, .free, .spine, .frames, .dram, .poison, .queues, .flows, .engines] s s' := by
  unfold execEvent at h
  injection h with h
  subst h
  repeat' first
    | dsimp only
    | with_reducible exact Writes.refl _ _
    | (apply Writes.step; case k => with_reducible apply State.hubStage_writes)
    | decide

theorem execExtract_writes  (e : Fin 160) (s : State) {s' : State}
    (h : execExtract e s = .next s') : Writes [.regs, .cnts, .posted, .lastPost, .out, .free, .spine, .frames, .dram, .poison, .queues, .flows, .engines] s s' := by
  unfold execExtract at h
  injection h with h
  subst h
  repeat' first
    | dsimp only
    | with_reducible exact Writes.refl _ _
    | (apply Writes.step; case k => with_reducible apply State.extract_writes)
    | decide

theorem execDrop_writes  (e : Fin 160) (s : State) {s' : State}
    (h : execDrop e s = .next s') : Writes [.regs, .cnts, .posted, .lastPost, .out, .free, .spine, .frames, .dram, .poison, .queues, .flows, .engines] s s' := by
  unfold execDrop at h
  injection h with h
  subst h
  repeat' first
    | dsimp only
    | with_reducible exact Writes.refl _ _
    | (apply Writes.step; case k => with_reducible apply State.hubStage_writes)
    | decide

theorem execFrameRead_writes  (e : Fin 160) (s : State) {s' : State}
    (h : execFrameRead e s = .next s') : Writes [.regs, .cnts, .posted, .lastPost, .out, .free, .spine, .frames, .dram, .poison, .queues, .flows, .engines] s s' := by
  unfold execFrameRead at h
  injection h with h
  subst h
  repeat' first
    | dsimp only
    | with_reducible exact Writes.refl _ _
    | (apply Writes.step; case k => with_reducible apply State.hubReply_writes)
    | decide

end Sys2Proof.Machine
end

