-- ==== Sys2Proof/Laws/WritesCart.lean ====
section
/-! SUPPORT. What each operation of Machine/Cart.lean writes. -/

namespace Sys2Proof.Machine

theorem State.nvme_writes  (s : State) (op : NvmeOp) (again : Bool) :
    Writes [.cart] s (State.nvme s op again) := by
  unfold State.nvme
  repeat' first
    | dsimp only
    | ((conv => arg 3; arg 39; skip); with_reducible refine Writes.set_cart ?_ ?_ _)
    | with_reducible exact Writes.refl _ _
    | decide

theorem State.toRide_writes  (s : State) (x1 : Nat) :
    Writes [.cart] s (State.toRide s x1) := by
  induction x1 generalizing s with
  | zero =>
    unfold State.toRide
    repeat' first
      | dsimp only
      | ((conv => arg 3; arg 39; skip); with_reducible refine Writes.set_cart ?_ ?_ _)
      | with_reducible exact Writes.refl _ _
      | with_reducible refine Writes.ite ?_ ?_
      | decide
      | (with_reducible (apply Writes.fst; case e => assumption))
      | split
  | succ k ih =>
    unfold State.toRide
    repeat' first
      | dsimp only
      | ((conv => arg 3; arg 39; skip); with_reducible refine Writes.set_cart ?_ ?_ _)
      | with_reducible exact Writes.refl _ _
      | (apply Writes.step; case k => with_reducible apply ih)
      | with_reducible refine Writes.ite ?_ ?_
      | decide
      | (with_reducible (apply Writes.fst; case e => assumption))
      | split

theorem State.cartLinkOff_writes  (s : State) :
    Writes [.regs] s (State.cartLinkOff s) := by
  unfold State.cartLinkOff
  repeat' first
    | dsimp only
    | with_reducible exact Writes.refl _ _
    | (apply Writes.step; case k => (with_reducible apply State.setFlag_writes_ne) <;> first | decide | (dsimp only [Reg.SLOT_STATUS, Reg.SLOT_STATUS_DLLA, Reg.SLOT_STATUS_DLLSC, Reg.SLOT_STATUS_SPEED, Reg.SLOT_STATUS_WIDTH, Reg.GLB_MODE, Field.of]; omega) | (split <;> decide))
    | (apply Writes.step; case k => (with_reducible apply State.setFld_writes_ne) <;> first | decide | (dsimp only [Reg.SLOT_STATUS, Reg.SLOT_STATUS_DLLA, Reg.SLOT_STATUS_DLLSC, Reg.SLOT_STATUS_SPEED, Reg.SLOT_STATUS_WIDTH, Reg.GLB_MODE, Field.of]; omega) | (split <;> decide))
    | with_reducible refine Writes.ite ?_ ?_
    | decide
    | split

theorem State.cartPowerOff_writes  (s : State) :
    Writes [.regs, .cart] s (State.cartPowerOff s) := by
  unfold State.cartPowerOff
  repeat' first
    | dsimp only
    | ((conv => arg 3; arg 39; skip); with_reducible refine Writes.set_cart ?_ ?_ _)
    | with_reducible exact Writes.refl _ _
    | (apply Writes.step; case k => with_reducible apply State.cartLinkOff_writes)
    | decide

theorem State.bayEnter_writes  (s : State) (v : Nat) :
    Writes [.regs, .posted, .cart] s (State.bayEnter s v) := by
  unfold State.bayEnter
  repeat' first
    | dsimp only
    | ((conv => arg 3; arg 39; skip); with_reducible refine Writes.set_cart ?_ ?_ _)
    | with_reducible exact Writes.refl _ _
    | (apply Writes.step; case k => with_reducible apply State.post_writes)
    | (apply Writes.step; case k => (with_reducible apply State.setFld_writes_ne) <;> first | decide | (dsimp only [Reg.SLOT_STATE, Reg.SLOT_STATE_STATE, Reg.GLB_MODE, Field.of]; omega) | (split <;> decide))
    | (apply Writes.step; case k => with_reducible apply State.cartPowerOff_writes)
    | with_reducible refine Writes.ite ?_ ?_
    | decide
    | split

theorem State.setBay_writes  (s : State) (v : Nat) :
    Writes [.regs, .posted, .cart] s (State.setBay s v) := by
  unfold State.setBay
  repeat' first
    | dsimp only
    | with_reducible exact Writes.refl _ _
    | (apply Writes.step; case k => with_reducible apply State.toRide_writes)
    | (apply Writes.step; case k => with_reducible apply State.bayEnter_writes)
    | decide

theorem State.bayReject_writes  (s : State) :
    Writes [.regs, .posted, .cart] s (State.bayReject s) := by
  unfold State.bayReject
  repeat' first
    | dsimp only
    | with_reducible exact Writes.refl _ _
    | (apply Writes.step; case k => with_reducible apply State.post_writes)
    | (apply Writes.step; case k => with_reducible apply State.setBay_writes)
    | (apply Writes.step; case k => with_reducible apply State.cartPowerOff_writes)
    | with_reducible refine Writes.ite ?_ ?_
    | decide
    | split

theorem State.nvmeWrites_writes  (s : State) (seq : Nat) (x2 : Nat) :
    Writes [.cart] s (State.nvmeWrites s seq x2) := by
  induction x2 generalizing s with
  | zero =>
    unfold State.nvmeWrites
    repeat' first
      | dsimp only
      | with_reducible exact Writes.refl _ _
      | (apply Writes.step; case k => with_reducible apply State.nvme_writes)
      | decide
      | split
  | succ k ih =>
    unfold State.nvmeWrites
    repeat' first
      | dsimp only
      | with_reducible exact Writes.refl _ _
      | (apply Writes.step; case k => with_reducible apply ih)
      | (apply Writes.step; case k => with_reducible apply State.nvme_writes)
      | decide
      | split

theorem State.cartKick_writes  (s : State) :
    Writes [.out, .cart] s (State.cartKick s) := by
  unfold State.cartKick
  repeat' first
    | dsimp only
    | ((conv => arg 3; arg 39; skip); with_reducible refine Writes.set_cart ?_ ?_ _)
    | with_reducible exact Writes.refl _ _
    | (apply Writes.step; case k => with_reducible apply State.nvme_writes)
    | (apply Writes.step; case k => with_reducible apply State.emit_writes)
    | (apply Writes.step; case k => with_reducible apply State.nvmeWrites_writes)
    | with_reducible refine Writes.ite ?_ ?_
    | decide
    | (with_reducible (apply Writes.fst; case e => assumption))
    | split

theorem State.cartGo_writes  (s : State) :
    Writes [.regs, .posted, .out, .cart] s (State.cartGo s) := by
  unfold State.cartGo
  repeat' first
    | dsimp only
    | ((conv => arg 3; arg 39; skip); with_reducible refine Writes.set_cart ?_ ?_ _)
    | with_reducible exact Writes.refl _ _
    | (apply Writes.step; case k => with_reducible apply State.cartKick_writes)
    | (apply Writes.step; case k => with_reducible apply State.setBay_writes)
    | with_reducible refine Writes.ite ?_ ?_
    | decide
    | split

theorem State.writeLabelCopy_writes  (s : State) (copy : Nat) (l : CartLabel) :
    Writes [.out] s (State.writeLabelCopy s copy l) := by
  unfold State.writeLabelCopy
  repeat' first
    | dsimp only
    | with_reducible exact Writes.refl _ _
    | (apply Writes.step; case k => with_reducible apply State.emit_writes)
    | decide

theorem State.labelAfresh_writes  (s : State) :
    Writes [.out, .cart] s (State.labelAfresh s) := by
  unfold State.labelAfresh
  repeat' first
    | dsimp only
    | ((conv => arg 3; arg 39; skip); with_reducible refine Writes.set_cart ?_ ?_ _)
    | with_reducible exact Writes.refl _ _
    | (apply Writes.step; case k => with_reducible apply State.nvme_writes)
    | (apply Writes.step; case k => with_reducible apply State.writeLabelCopy_writes)
    | decide

theorem State.cartClass_writes  (s : State) :
    Writes [.regs, .posted, .out, .cart] s (State.cartClass s) := by
  unfold State.cartClass
  repeat' first
    | dsimp only
    | ((conv => arg 3; arg 39; skip); with_reducible refine Writes.set_cart ?_ ?_ _)
    | with_reducible exact Writes.refl _ _
    | (apply Writes.step; case k => with_reducible apply State.cartGo_writes)
    | (apply Writes.step; case k => with_reducible apply State.setBay_writes)
    | (apply Writes.step; case k => with_reducible apply State.labelAfresh_writes)
    | with_reducible refine Writes.ite ?_ ?_
    | with_reducible refine Writes.foldl ?_ ?_
    | with_reducible refine Writes.foldlFst ?_ ?_
    | decide
    | intro _
    | (with_reducible (apply Writes.fst; case e => assumption))
    | split

theorem State.segmentLabel_writes  (s : State) (seq : Nat) (slot : Nat) :
    Writes [.out, .cart] s (State.segmentLabel s seq slot) := by
  unfold State.segmentLabel
  repeat' first
    | dsimp only
    | ((conv => arg 3; arg 39; skip); with_reducible refine Writes.set_cart ?_ ?_ _)
    | with_reducible exact Writes.refl _ _
    | (apply Writes.step; case k => with_reducible apply State.writeLabelCopy_writes)
    | (apply Writes.step; case k => with_reducible apply State.nvme_writes)
    | decide
    | (with_reducible (apply Writes.fst; case e => assumption))
    | split

theorem State.bayFault_writes  (s : State) :
    Writes [.regs, .posted, .cart] s (State.bayFault s) := by
  unfold State.bayFault
  repeat' first
    | dsimp only
    | with_reducible exact Writes.refl _ _
    | (apply Writes.step; case k => with_reducible apply State.setBay_writes)
    | (apply Writes.step; case k => with_reducible apply State.toRide_writes)
    | (apply Writes.step; case k => with_reducible apply State.cartPowerOff_writes)
    | with_reducible refine Writes.ite ?_ ?_
    | decide
    | split

theorem State.segmentFails_writes  (s : State) (seq : Nat) :
    Writes [.regs, .cnts, .posted, .lastPost, .out, .cart] s (State.segmentFails s seq) := by
  unfold State.segmentFails
  repeat' first
    | dsimp only
    | ((conv => arg 3; arg 39; skip); with_reducible refine Writes.set_cart ?_ ?_ _)
    | with_reducible exact Writes.refl _ _
    | (apply Writes.step; case k => with_reducible apply State.postLimited_writes)
    | (apply Writes.step; case k => with_reducible apply State.count_writes)
    | (apply Writes.step; case k => with_reducible apply State.bayFault_writes)
    | (apply Writes.step; case k => with_reducible apply State.cartKick_writes)
    | with_reducible refine Writes.ite ?_ ?_
    | decide
    | split

theorem State.showBacklog_writes  (s : State) :
    Writes [.regs] s (State.showBacklog s) := by
  unfold State.showBacklog
  repeat' first
    | dsimp only
    | with_reducible exact Writes.refl _ _
    | (apply Writes.step; case k => (with_reducible apply State.setFld_writes_ne) <;> first | decide | (dsimp only [Reg.SLOT_BACKLOG, Reg.SLOT_BACKLOG_SEGMENTS, Reg.GLB_MODE, Field.of]; omega) | (split <;> decide))
    | decide

theorem State.segmentDone_writes  (s : State) (seq : Nat) :
    Writes [.regs, .cnts, .posted, .lastPost, .out, .free, .dram, .poison, .queues, .dma, .cart] s (State.segmentDone s seq) := by
  unfold State.segmentDone
  repeat' first
    | dsimp only
    | ((conv => arg 3; arg 39; skip); with_reducible refine Writes.set_cart ?_ ?_ _)
    | with_reducible exact Writes.refl _ _
    | (apply Writes.step; case k => with_reducible apply State.postLimited_writes)
    | (apply Writes.step; case k => with_reducible apply State.count_writes)
    | (apply Writes.step; case k => with_reducible apply State.showBacklog_writes)
    | (apply Writes.step; case k => with_reducible apply State.dmaLine_writes)
    | (apply Writes.step; case k => with_reducible apply State.cartKick_writes)
    | (apply Writes.step; case k => with_reducible apply State.setBay_writes)
    | with_reducible refine Writes.ite ?_ ?_
    | decide
    | (with_reducible (apply Writes.fst; case e => assumption))
    | split

theorem State.nvmeDone_writes  (s : State) (op : NvmeOp) (d : NvmeData) :
    Writes [.regs, .cnts, .posted, .lastPost, .out, .free, .dram, .poison, .queues, .dma, .cart] s (State.nvmeDone s op d) := by
  unfold State.nvmeDone
  repeat' first
    | dsimp only
    | ((conv => arg 3; arg 39; skip); with_reducible refine Writes.set_cart ?_ ?_ _)
    | with_reducible exact Writes.refl _ _
    | (apply Writes.step; case k => with_reducible apply State.nvme_writes)
    | (apply Writes.step; case k => (with_reducible apply State.wr64_writes_ne) <;> first | decide | (dsimp only [Reg.SLOT_CAP_LO, Reg.SLOT_REC_CTRL, Reg.SLOT_REC_CTRL_VERIFY, Reg.GLB_MODE, Field.of]; omega) | (split <;> decide))
    | (apply Writes.step; case k => with_reducible apply State.bayReject_writes)
    | (apply Writes.step; case k => with_reducible apply State.cartClass_writes)
    | (apply Writes.step; case k => with_reducible apply State.writeLabelCopy_writes)
    | (apply Writes.step; case k => with_reducible apply State.cartGo_writes)
    | (apply Writes.step; case k => with_reducible apply State.segmentLabel_writes)
    | (apply Writes.step; case k => with_reducible apply State.segmentFails_writes)
    | (apply Writes.step; case k => with_reducible apply State.segmentDone_writes)
    | with_reducible refine Writes.ite ?_ ?_
    | decide
    | (with_reducible (apply Writes.fst; case e => assumption))
    | split

theorem State.nvmeFailed_writes  (s : State) (op : NvmeOp) :
    Writes [.regs, .cnts, .posted, .lastPost, .out, .cart] s (State.nvmeFailed s op) := by
  unfold State.nvmeFailed
  repeat' first
    | dsimp only
    | ((conv => arg 3; arg 39; skip); with_reducible refine Writes.set_cart ?_ ?_ _)
    | with_reducible exact Writes.refl _ _
    | (apply Writes.step; case k => with_reducible apply State.bayFault_writes)
    | (apply Writes.step; case k => with_reducible apply State.bayReject_writes)
    | (apply Writes.step; case k => with_reducible apply State.nvme_writes)
    | (apply Writes.step; case k => with_reducible apply State.cartClass_writes)
    | (apply Writes.step; case k => with_reducible apply State.segmentFails_writes)
    | decide
    | (with_reducible (apply Writes.fst; case e => assumption))
    | split

theorem State.nvmeCompletion_writes  (s : State) (id : Nat) (ok : Bool) (d : NvmeData) :
    Writes [.regs, .cnts, .posted, .lastPost, .out, .free, .dram, .poison, .queues, .dma, .cart] s (State.nvmeCompletion s id ok d) := by
  unfold State.nvmeCompletion
  repeat' first
    | dsimp only
    | ((conv => arg 3; arg 39; skip); with_reducible refine Writes.set_cart ?_ ?_ _)
    | with_reducible exact Writes.refl _ _
    | (apply Writes.step; case k => with_reducible apply State.nvmeDone_writes)
    | (apply Writes.step; case k => with_reducible apply State.nvme_writes)
    | (apply Writes.step; case k => with_reducible apply State.count_writes)
    | (apply Writes.step; case k => with_reducible apply State.nvmeFailed_writes)
    | with_reducible refine Writes.ite ?_ ?_
    | decide
    | (with_reducible (apply Writes.fst; case e => assumption))
    | split

theorem execNvmeCompletion_writes  (id : Nat) (ok : Bool) (d : NvmeData) (s : State) {s' : State}
    (h : execNvmeCompletion id ok d s = .next s') : Writes [.regs, .cnts, .posted, .lastPost, .out, .free, .dram, .poison, .queues, .dma, .cart] s s' := by
  unfold execNvmeCompletion at h
  injection h with h
  subst h
  repeat' first
    | dsimp only
    | with_reducible exact Writes.refl _ _
    | (apply Writes.step; case k => with_reducible apply State.nvmeCompletion_writes)
    | decide

theorem State.appendRecord_writes  (s : State) (c : RecCopy) :
    Writes [.cnts, .frames, .cart] s (State.appendRecord s c) := by
  unfold State.appendRecord
  repeat' first
    | dsimp only
    | ((conv => arg 3; arg 39; skip); with_reducible refine Writes.set_cart ?_ ?_ _)
    | with_reducible exact Writes.refl _ _
    | (apply Writes.step; case k => with_reducible apply State.dropCopy_writes)
    | (apply Writes.step; case k => with_reducible apply State.count_writes)
    | with_reducible refine Writes.ite ?_ ?_
    | decide
    | (with_reducible (apply Writes.fst; case e => assumption))
    | split

theorem State.openSegment_writes  (s : State) (c : RecCopy) :
    Writes [.regs, .cnts, .posted, .frames, .cart] s (State.openSegment s c) := by
  unfold State.openSegment
  repeat' first
    | dsimp only
    | ((conv => arg 3; arg 39; skip); with_reducible refine Writes.set_cart ?_ ?_ _)
    | with_reducible exact Writes.refl _ _
    | (apply Writes.step; case k => with_reducible apply State.toRide_writes)
    | (apply Writes.step; case k => (with_reducible apply State.wr64_writes_ne) <;> first | decide | (dsimp only [Reg.SLOT_NEXT_SEQ_LO, Reg.GLB_MODE, Field.of]; omega) | (split <;> decide))
    | (apply Writes.step; case k => with_reducible apply State.appendRecord_writes)
    | (apply Writes.step; case k => with_reducible apply State.dropCopy_writes)
    | (apply Writes.step; case k => with_reducible apply State.count_writes)
    | (apply Writes.step; case k => with_reducible apply State.post_writes)
    | with_reducible refine Writes.ite ?_ ?_
    | decide
    | split

theorem execCartLinkTimeout_writes  (s : State) {s' : State}
    (h : execCartLinkTimeout s = .next s') : Writes [.regs, .posted, .cart] s s' := by
  unfold execCartLinkTimeout at h
  injection h with h
  subst h
  repeat' first
    | dsimp only
    | with_reducible exact Writes.refl _ _
    | (apply Writes.step; case k => with_reducible apply State.setBay_writes)
    | with_reducible refine Writes.ite ?_ ?_
    | decide
    | split

theorem execCartInsertSettled_writes  (s : State) {s' : State}
    (h : execCartInsertSettled s = .next s') : Writes [.regs, .posted, .cart] s s' := by
  unfold execCartInsertSettled at h
  injection h with h
  subst h
  repeat' first
    | dsimp only
    | with_reducible exact Writes.refl _ _
    | (apply Writes.step; case k => with_reducible apply State.setBay_writes)
    | with_reducible refine Writes.ite ?_ ?_
    | decide
    | split

theorem State.cartGone_writes  (s : State) :
    Writes [.cnts, .posted, .cart] s (State.cartGone s) := by
  unfold State.cartGone
  repeat' first
    | dsimp only
    | ((conv => arg 3; arg 39; skip); with_reducible refine Writes.set_cart ?_ ?_ _)
    | with_reducible exact Writes.refl _ _
    | (apply Writes.step; case k => with_reducible apply State.post_writes)
    | (apply Writes.step; case k => with_reducible apply State.countN_writes)
    | decide
    | (with_reducible (apply Writes.fst; case e => assumption))
    | split

theorem State.powerFault_writes  (s : State) :
    Writes [.regs, .cnts, .posted, .cart] s (State.powerFault s) := by
  unfold State.powerFault
  repeat' first
    | dsimp only
    | with_reducible exact Writes.refl _ _
    | (apply Writes.step; case k => (with_reducible apply State.setFlag_writes_ne) <;> first | decide | (dsimp only [Reg.SLOT_STATUS, Reg.SLOT_STATUS_PFD, Reg.GLB_MODE, Field.of]; omega) | (split <;> decide))
    | (apply Writes.step; case k => with_reducible apply State.post_writes)
    | (apply Writes.step; case k => with_reducible apply State.bayFault_writes)
    | (apply Writes.step; case k => with_reducible apply State.cartGone_writes)
    | with_reducible refine Writes.ite ?_ ?_
    | decide
    | split

theorem execPowerFault_writes  (s : State) {s' : State}
    (h : execPowerFault s = .next s') : Writes [.regs, .cnts, .posted, .cart] s s' := by
  unfold execPowerFault at h
  injection h with h
  subst h
  repeat' first
    | dsimp only
    | with_reducible exact Writes.refl _ _
    | (apply Writes.step; case k => with_reducible apply State.powerFault_writes)
    | decide

theorem execCartLinkDown_writes  (s : State) {s' : State}
    (h : execCartLinkDown s = .next s') : Writes [.regs, .posted, .cart] s s' := by
  unfold execCartLinkDown at h
  injection h with h
  subst h
  repeat' first
    | dsimp only
    | ((conv => arg 3; arg 39; skip); with_reducible refine Writes.set_cart ?_ ?_ _)
    | with_reducible exact Writes.refl _ _
    | (apply Writes.step; case k => with_reducible apply State.setBay_writes)
    | (apply Writes.step; case k => with_reducible apply State.cartLinkOff_writes)
    | with_reducible refine Writes.ite ?_ ?_
    | decide
    | split

theorem execCartShutdownTimeout_writes  (s : State) {s' : State}
    (h : execCartShutdownTimeout s = .next s') : Writes [.regs, .posted, .cart] s s' := by
  unfold execCartShutdownTimeout at h
  injection h with h
  subst h
  repeat' first
    | dsimp only
    | with_reducible exact Writes.refl _ _
    | (apply Writes.step; case k => with_reducible apply State.setBay_writes)
    | with_reducible refine Writes.ite ?_ ?_
    | decide
    | (with_reducible (apply Writes.fst; case e => assumption))
    | split

theorem State.surprise_writes  (s : State) :
    Writes [.regs, .cnts, .posted, .cart] s (State.surprise s) := by
  unfold State.surprise
  repeat' first
    | dsimp only
    | with_reducible exact Writes.refl _ _
    | (apply Writes.step; case k => with_reducible apply State.count_writes)
    | (apply Writes.step; case k => with_reducible apply State.setBay_writes)
    | (apply Writes.step; case k => with_reducible apply State.toRide_writes)
    | (apply Writes.step; case k => with_reducible apply State.cartPowerOff_writes)
    | with_reducible refine Writes.ite ?_ ?_
    | decide
    | split

theorem State.latchChange_writes  (s : State) (isOpen : Bool) :
    Writes [.regs, .cnts, .posted, .pwr, .cart] s (State.latchChange s isOpen) := by
  unfold State.latchChange
  repeat' first
    | dsimp only
    | ((conv => arg 3; arg 39; skip); with_reducible refine Writes.set_cart ?_ ?_ _)
    | ((conv => arg 3; arg 39; skip); with_reducible refine Writes.set_pwr ?_ ?_ _)
    | with_reducible exact Writes.refl _ _
    | (apply Writes.step; case k => (with_reducible apply State.setFlag_writes_ne) <;> first | decide | (dsimp only [Reg.SLOT_STATUS, Reg.SLOT_STATUS_MRLSC, Reg.GLB_MODE, Field.of]; omega) | (split <;> decide))
    | (apply Writes.step; case k => with_reducible apply State.surprise_writes)
    | (apply Writes.step; case k => with_reducible apply State.cartGone_writes)
    | with_reducible refine Writes.ite ?_ ?_
    | decide
    | split

theorem execCartLatchChange_writes  (isOpen : Bool) (s : State) {s' : State}
    (h : execCartLatchChange isOpen s = .next s') : Writes [.regs, .cnts, .posted, .pwr, .cart] s s' := by
  unfold execCartLatchChange at h
  injection h with h
  subst h
  repeat' first
    | dsimp only
    | with_reducible exact Writes.refl _ _
    | (apply Writes.step; case k => with_reducible apply State.latchChange_writes)
    | decide

theorem execCartPerstRelease_writes  (s : State) {s' : State}
    (h : execCartPerstRelease s = .next s') : Writes [.cart] s s' := by
  unfold execCartPerstRelease at h
  injection h with h
  subst h
  repeat' first
    | dsimp only
    | ((conv => arg 3; arg 39; skip); with_reducible refine Writes.set_cart ?_ ?_ _)
    | with_reducible exact Writes.refl _ _
    | with_reducible refine Writes.ite ?_ ?_
    | decide
    | split

theorem State.button_writes  (s : State) :
    Writes [.regs, .cnts, .posted, .out, .cart] s (State.button s) := by
  unfold State.button
  repeat' first
    | dsimp only
    | ((conv => arg 3; arg 39; skip); with_reducible refine Writes.set_cart ?_ ?_ _)
    | with_reducible exact Writes.refl _ _
    | (apply Writes.step; case k => (with_reducible apply State.setFlag_writes_ne) <;> first | decide | (dsimp only [Reg.SLOT_STATUS, Reg.SLOT_STATUS_ABP, Reg.GLB_MODE, Field.of]; omega) | (split <;> decide))
    | (apply Writes.step; case k => with_reducible apply State.setBay_writes)
    | (apply Writes.step; case k => with_reducible apply State.cartKick_writes)
    | (apply Writes.step; case k => with_reducible apply State.count_writes)
    | with_reducible refine Writes.ite ?_ ?_
    | decide
    | split

theorem execCartButtonPress_writes  (s : State) {s' : State}
    (h : execCartButtonPress s = .next s') : Writes [.regs, .cnts, .posted, .out, .cart] s s' := by
  unfold execCartButtonPress at h
  injection h with h
  subst h
  repeat' first
    | dsimp only
    | with_reducible exact Writes.refl _ _
    | (apply Writes.step; case k => with_reducible apply State.button_writes)
    | decide

theorem State.closeSegment_writes  (s : State) (byTime : Bool) :
    Writes [.regs, .cnts, .posted, .lastPost, .out, .free, .dram, .poison, .queues, .dma, .cart] s (State.closeSegment s byTime) := by
  unfold State.closeSegment
  repeat' first
    | dsimp only
    | ((conv => arg 3; arg 39; skip); with_reducible refine Writes.set_cart ?_ ?_ _)
    | with_reducible exact Writes.refl _ _
    | (apply Writes.step; case k => with_reducible apply State.dmaLine_writes)
    | (apply Writes.step; case k => with_reducible apply State.showBacklog_writes)
    | (apply Writes.step; case k => with_reducible apply State.cartKick_writes)
    | (apply Writes.step; case k => with_reducible apply State.toRide_writes)
    | decide
    | (with_reducible (apply Writes.fst; case e => assumption))
    | split

theorem State.recordingCopy_writes  (s : State) :
    Writes [.regs, .cnts, .posted, .lastPost, .out, .free, .frames, .dram, .poison, .queues, .recCopies, .dma, .cart] s (State.recordingCopy s) := by
  unfold State.recordingCopy
  repeat' first
    | dsimp only
    | ((conv => arg 3; arg 39; skip); with_reducible refine Writes.set_recCopies ?_ ?_ _)
    | with_reducible exact Writes.refl _ _
    | (apply Writes.step; case k => with_reducible apply State.openSegment_writes)
    | (apply Writes.step; case k => with_reducible apply State.closeSegment_writes)
    | (apply Writes.step; case k => with_reducible apply State.appendRecord_writes)
    | with_reducible refine Writes.ite ?_ ?_
    | decide
    | (with_reducible (apply Writes.fst; case e => assumption))
    | split

theorem execRecordingCopy_writes  (s : State) {s' : State}
    (h : execRecordingCopy s = .next s') : Writes [.regs, .cnts, .posted, .lastPost, .out, .free, .frames, .dram, .poison, .queues, .recCopies, .dma, .cart] s s' := by
  unfold execRecordingCopy at h
  injection h with h
  subst h
  repeat' first
    | dsimp only
    | with_reducible exact Writes.refl _ _
    | (apply Writes.step; case k => with_reducible apply State.settleAll_writes)
    | (apply Writes.step; case k => with_reducible apply State.recordingCopy_writes)
    | decide

theorem State.cartBringUp_writes  (s : State) :
    Writes [.cart] s (State.cartBringUp s) := by
  unfold State.cartBringUp
  repeat' first
    | dsimp only
    | ((conv => arg 3; arg 39; skip); with_reducible refine Writes.set_cart ?_ ?_ _)
    | with_reducible exact Writes.refl _ _
    | (apply Writes.step; case k => with_reducible apply State.nvme_writes)
    | decide

theorem State.nvmeTimeout_writes  (s : State) (id : Nat) :
    Writes [.regs, .posted, .cart] s (State.nvmeTimeout s id) := by
  unfold State.nvmeTimeout
  repeat' first
    | dsimp only
    | ((conv => arg 3; arg 39; skip); with_reducible refine Writes.set_cart ?_ ?_ _)
    | with_reducible exact Writes.refl _ _
    | (apply Writes.step; case k => with_reducible apply State.cartBringUp_writes)
    | (apply Writes.step; case k => with_reducible apply State.bayFault_writes)
    | with_reducible refine Writes.ite ?_ ?_
    | decide
    | (with_reducible (apply Writes.fst; case e => assumption))
    | split

theorem execSegmentCloseTimeout_writes  (s : State) {s' : State}
    (h : execSegmentCloseTimeout s = .next s') : Writes [.regs, .cnts, .posted, .lastPost, .out, .free, .dram, .poison, .queues, .dma, .cart] s s' := by
  unfold execSegmentCloseTimeout at h
  injection h with h
  subst h
  repeat' first
    | dsimp only
    | with_reducible exact Writes.refl _ _
    | (apply Writes.step; case k => with_reducible apply State.settleAll_writes)
    | (apply Writes.step; case k => with_reducible apply State.closeSegment_writes)
    | with_reducible refine Writes.ite ?_ ?_
    | decide
    | (with_reducible (apply Writes.fst; case e => assumption))
    | split

theorem State.presence_writes  (s : State) (present : Bool) :
    Writes [.regs, .cnts, .posted, .pwr, .cart] s (State.presence s present) := by
  unfold State.presence
  repeat' first
    | dsimp only
    | ((conv => arg 3; arg 39; skip); with_reducible refine Writes.set_cart ?_ ?_ _)
    | ((conv => arg 3; arg 39; skip); with_reducible refine Writes.set_pwr ?_ ?_ _)
    | with_reducible exact Writes.refl _ _
    | (apply Writes.step; case k => (with_reducible apply State.setFlag_writes_ne) <;> first | decide | (dsimp only [Reg.SLOT_STATUS, Reg.SLOT_STATUS_PDC, Reg.GLB_MODE, Field.of]; omega) | (split <;> decide))
    | (apply Writes.step; case k => with_reducible apply State.setBay_writes)
    | (apply Writes.step; case k => with_reducible apply State.surprise_writes)
    | (apply Writes.step; case k => with_reducible apply State.cartGone_writes)
    | with_reducible refine Writes.ite ?_ ?_
    | decide
    | split

theorem execCartPresenceChange_writes  (present : Bool) (s : State) {s' : State}
    (h : execCartPresenceChange present s = .next s') : Writes [.regs, .cnts, .posted, .pwr, .cart] s s' := by
  unfold execCartPresenceChange at h
  injection h with h
  subst h
  repeat' first
    | dsimp only
    | with_reducible exact Writes.refl _ _
    | (apply Writes.step; case k => with_reducible apply State.presence_writes)
    | decide

theorem execCartShutdownDone_writes  (s : State) {s' : State}
    (h : execCartShutdownDone s = .next s') : Writes [.regs, .posted, .cart] s s' := by
  unfold execCartShutdownDone at h
  injection h with h
  subst h
  repeat' first
    | dsimp only
    | with_reducible exact Writes.refl _ _
    | (apply Writes.step; case k => with_reducible apply State.setBay_writes)
    | with_reducible refine Writes.ite ?_ ?_
    | decide
    | split

theorem execNvmeTimeout_writes  (id : Nat) (s : State) {s' : State}
    (h : execNvmeTimeout id s = .next s') : Writes [.regs, .posted, .cart] s s' := by
  unfold execNvmeTimeout at h
  injection h with h
  subst h
  repeat' first
    | dsimp only
    | with_reducible exact Writes.refl _ _
    | (apply Writes.step; case k => with_reducible apply State.nvmeTimeout_writes)
    | decide

theorem execLabel_writes  (s : State) {s' : State}
    (h : execLabel s = .next s') : Writes [.out, .cart] s s' := by
  unfold execLabel at h
  injection h with h
  subst h
  repeat' first
    | dsimp only
    | with_reducible exact Writes.refl _ _
    | (apply Writes.step; case k => with_reducible apply State.labelAfresh_writes)
    | with_reducible refine Writes.ite ?_ ?_
    | decide
    | split

theorem execCartLinkUp_writes  (speed : BitVec 3) (width : BitVec 4) (s : State) {s' : State}
    (h : execCartLinkUp speed width s = .next s') : Writes [.regs, .posted, .cart] s s' := by
  unfold execCartLinkUp at h
  injection h with h
  subst h
  repeat' first
    | dsimp only
    | with_reducible exact Writes.refl _ _
    | (apply Writes.step; case k => (with_reducible apply State.setFlag_writes_ne) <;> first | decide | (dsimp only [Reg.SLOT_STATUS, Reg.SLOT_STATUS_DLLA, Reg.SLOT_STATUS_DLLSC, Reg.SLOT_STATUS_SPEED, Reg.SLOT_STATUS_WIDTH, Reg.GLB_MODE, Field.of]; omega) | (split <;> decide))
    | (apply Writes.step; case k => (with_reducible apply State.setFld_writes_ne) <;> first | decide | (dsimp only [Reg.SLOT_STATUS, Reg.SLOT_STATUS_DLLA, Reg.SLOT_STATUS_DLLSC, Reg.SLOT_STATUS_SPEED, Reg.SLOT_STATUS_WIDTH, Reg.GLB_MODE, Field.of]; omega) | (split <;> decide))
    | (apply Writes.step; case k => with_reducible apply State.cartBringUp_writes)
    | (apply Writes.step; case k => with_reducible apply State.setBay_writes)
    | with_reducible refine Writes.ite ?_ ?_
    | decide
    | split

theorem execBadInbound_writes  (addr : Nat) (len : Nat) (s : State) {s' : State}
    (h : execBadInbound addr len s = .next s') : Writes [.cnts, .posted, .lastPost] s s' := by
  unfold execBadInbound at h
  injection h with h
  subst h
  repeat' first
    | dsimp only
    | with_reducible exact Writes.refl _ _
    | (apply Writes.step; case k => with_reducible apply State.postLimited_writes)
    | (apply Writes.step; case k => with_reducible apply State.count_writes)
    | with_reducible refine Writes.ite ?_ ?_
    | decide
    | (with_reducible (apply Writes.fst; case e => assumption))
    | split

theorem execCartStopTimeout_writes  (s : State) {s' : State}
    (h : execCartStopTimeout s = .next s') : Writes [.regs, .posted, .out, .cart] s s' := by
  unfold execCartStopTimeout at h
  injection h with h
  subst h
  repeat' first
    | dsimp only
    | with_reducible exact Writes.refl _ _
    | (apply Writes.step; case k => with_reducible apply State.cartKick_writes)
    | (apply Writes.step; case k => with_reducible apply State.setBay_writes)
    | with_reducible refine Writes.ite ?_ ?_
    | decide
    | split

end Sys2Proof.Machine
end

