-- ==== Sys2Proof/Laws/WritesHealth.lean ====
section
/-! SUPPORT. What each operation of Machine/Health.lean writes. -/

namespace Sys2Proof.Machine

theorem State.poisonFrame_writes  (s : State) (h : Nat) :
    Writes [.queues, .ports, .flows, .items, .recCopies, .engines] s (State.poisonFrame s h) := by
  unfold State.poisonFrame
  repeat' first
    | dsimp only
    | ((conv => arg 3; arg 39; skip); with_reducible refine Writes.set_queues_ports_flows_items_recCopies_engines ?_ ?_ _ _ _ _ _ _ ?_ ?_ (fun h => h))
    | with_reducible exact Writes.refl _ _
    | exact fun h => Table.wf_set _ _ _ _ h
    | exact fun h => Table.wf_mapVals _ _ _ h
    | exact fun h => Table.wf_filter _ _ _ h
    | exact fun h => Table.wf_foldl_set _ _ _ _ _ (Table.wf_filter _ _ _ h)
    | with_reducible refine Writes.ite ?_ ?_
    | decide
    | split

theorem State.quireResetBegin_writes  (s : State) (q : Nat) :
    Writes [.regs, .cnts, .units, .spine, .dram, .poison, .flows, .items, .engines] s (State.quireResetBegin s q) := by
  unfold State.quireResetBegin
  repeat' first
    | dsimp only
    | ((conv => arg 3; arg 39; skip); with_reducible refine Writes.set_engines ?_ ?_ _ (fun h => by first | exact h | exact Table.wf_set _ _ _ _ h | exact Table.wf_filter _ _ _ h))
    | with_reducible exact Writes.refl _ _
    | (apply Writes.step; case k => with_reducible apply State.migrateOut_writes)
    | (apply Writes.step; case k => with_reducible apply State.setEngState_writes)
    | (apply Writes.step; case k => with_reducible apply State.setEng_writes)
    | with_reducible refine Writes.ite ?_ ?_
    | with_reducible refine Writes.foldl ?_ ?_
    | with_reducible refine Writes.foldlFst ?_ ?_
    | decide
    | intro _
    | split

theorem State.quireResetStart_writes  (s : State) (q : Nat) (waits : Bool) :
    Writes [.regs, .mode, .cnts, .units, .spine, .dram, .poison, .flows, .items, .engines] s (State.quireResetStart s q waits) := by
  unfold State.quireResetStart
  repeat' first
    | dsimp only
    | with_reducible exact Writes.refl _ _
    | (apply Writes.step; case k => with_reducible apply State.showDegraded_writes)
    | (apply Writes.step; case k => with_reducible apply State.putBit_writes)
    | (apply Writes.step; case k => with_reducible apply State.setFlag_writes)
    | (apply Writes.step; case k => with_reducible apply State.quireResetBegin_writes)
    | with_reducible refine Writes.ite ?_ ?_
    | decide
    | split

theorem State.eccUe_writes  (s : State) :
    Writes [.posted, .lastPost, .free] s (State.eccUe s) := by
  unfold State.eccUe
  repeat' first
    | dsimp only
    | with_reducible exact Writes.refl _ _
    | (apply Writes.step; case k => with_reducible apply State.postOpenLimited_writes)
    | decide

theorem State.unbind_writes  (s : State) :
    Writes [.regs, .posted, .free, .pair] s (State.unbind s) := by
  unfold State.unbind
  repeat' first
    | dsimp only
    | ((conv => arg 3; arg 39; skip); with_reducible refine Writes.set_pair ?_ ?_ _)
    | with_reducible exact Writes.refl _ _
    | (apply Writes.step; case k => with_reducible apply State.postOpen_writes)
    | (apply Writes.step; case k => (with_reducible apply State.setFld_writes_ne) <;> first | decide | (dsimp only [Reg.GUARD_PAIR_STATUS, Reg.GUARD_PAIR_STATUS_PARTNER_VOTE, Reg.GLB_MODE, Field.of]; omega) | (split <;> decide))
    | with_reducible refine Writes.ite ?_ ?_
    | decide
    | split

theorem State.loadPairEpoch_writes  (s : State) :
    Writes [.regs] s (State.loadPairEpoch s) := by
  unfold State.loadPairEpoch
  repeat' first
    | dsimp only
    | with_reducible exact Writes.refl _ _
    | (apply Writes.step; case k => (with_reducible apply State.wrN_writes_ne) <;> first | decide | (dsimp only [Reg.RING_EXCLUDED, Reg.GLB_MODE, Field.of]; omega) | (split <;> decide))
    | (apply Writes.step; case k => with_reducible apply State.loadRingBank_writes)
    | (apply Writes.step; case k => with_reducible apply State.setStationRec_writes)
    | (apply Writes.step; case k => (with_reducible apply State.setStationBit_writes_ne) <;> first | decide | (dsimp only [Reg.RING_EXCLUDED, Reg.GLB_MODE, Field.of]; omega) | (split <;> decide))
    | with_reducible refine Writes.foldl ?_ ?_
    | with_reducible refine Writes.foldlFst ?_ ?_
    | decide
    | intro _
    | (with_reducible (apply Writes.fst; case e => assumption))
    | split

theorem State.restartFlow_writes  (s : State) (i : Nat) :
    Writes [.cnts, .posted, .lastPost, .flows] s (State.restartFlow s i) := by
  unfold State.restartFlow
  repeat' first
    | dsimp only
    | with_reducible exact Writes.refl _ _
    | (apply Writes.step; case k => with_reducible apply State.count_writes)
    | (apply Writes.step; case k => with_reducible apply State.setFlow_writes)
    | (apply Writes.step; case k => with_reducible apply State.postFlow_writes)
    | with_reducible refine Writes.ite ?_ ?_
    | decide
    | split

theorem State.restartLent_writes  (s : State) (q : Nat) :
    Writes [.cnts, .posted, .lastPost, .flows] s (State.restartLent s q) := by
  unfold State.restartLent
  repeat' first
    | dsimp only
    | with_reducible exact Writes.refl _ _
    | (apply Writes.step; case k => with_reducible apply State.restartFlow_writes)
    | with_reducible refine Writes.foldl ?_ ?_
    | with_reducible refine Writes.foldlFst ?_ ?_
    | decide
    | intro _

theorem State.loseItem_writes  (s : State) (it : WorkItem) :
    Writes [.regs, .cnts, .posted, .out, .spine, .cells, .frames, .dram, .poison, .queues, .ports, .flows] s (State.loseItem s it) := by
  unfold State.loseItem
  repeat' first
    | dsimp only
    | with_reducible exact Writes.refl _ _
    | (apply Writes.step; case k => with_reducible apply State.cellRelease_writes)
    | (apply Writes.step; case k => with_reducible apply State.retireItem_writes)
    | decide

theorem State.pairRecovery_writes  (s : State) :
    Writes [.flows] s (State.pairRecovery s) := by
  unfold State.pairRecovery
  repeat' first
    | dsimp only
    | with_reducible exact Writes.refl _ _
    | (apply Writes.step; case k => with_reducible apply State.setFlow_writes)
    | with_reducible refine Writes.ite ?_ ?_
    | with_reducible refine Writes.foldl ?_ ?_
    | with_reducible refine Writes.foldlFst ?_ ?_
    | decide
    | intro _
    | (with_reducible (apply Writes.fst; case e => assumption))
    | split

theorem State.endWork_writes  (s : State) :
    Writes [.regs, .mode, .imp, .units, .engines, .guard] s (State.endWork s) := by
  unfold State.endWork
  repeat' first
    | dsimp only
    | ((conv => arg 3; arg 39; skip); with_reducible refine Writes.set_imp_units_guard ?_ ?_ _ _ _)
    | with_reducible exact Writes.refl _ _
    | (apply Writes.step; case k => with_reducible apply State.setFlag_writes)
    | (apply Writes.step; case k => with_reducible apply State.setFld_writes)
    | (apply Writes.step; case k => with_reducible apply State.showDegraded_writes)
    | (apply Writes.step; case k => with_reducible apply State.endMigration_writes)
    | with_reducible refine Writes.ite ?_ ?_
    | decide
    | split

theorem State.pairCount_writes  (s : State) :
    Writes [.regs, .cnts, .posted, .free, .flows, .ring, .engines, .evt] s (State.pairCount s) := by
  unfold State.pairCount
  repeat' first
    | dsimp only
    | with_reducible exact Writes.refl _ _
    | (apply Writes.step; case k => (with_reducible apply State.setFld_writes_ne) <;> first | decide | (dsimp only [Reg.GUARD_PAIR_STATUS, Reg.GUARD_PAIR_STATUS_ARB_FOR, Reg.GUARD_PAIR_STATUS_OWN_VOTE, Reg.GUARD_PAIR_STATUS_PARTNER_VOTE, Reg.GUARD_PAIR_STATUS_ROLE, Reg.GUARD_PAIR_STATUS_VOTES, Reg.GLB_MODE, Field.of]; omega) | (split <;> decide))
    | (apply Writes.step; case k => (with_reducible apply State.setFlag_writes_ne) <;> first | decide | (dsimp only [Reg.GUARD_PAIR_STATUS, Reg.GUARD_PAIR_STATUS_ARB_FOR, Reg.GUARD_PAIR_STATUS_OWN_VOTE, Reg.GUARD_PAIR_STATUS_PARTNER_VOTE, Reg.GUARD_PAIR_STATUS_ROLE, Reg.GUARD_PAIR_STATUS_VOTES, Reg.GLB_MODE, Field.of]; omega) | (split <;> decide))
    | (apply Writes.step; case k => with_reducible apply State.post_writes)
    | (apply Writes.step; case k => with_reducible apply State.pairRecovery_writes)
    | (apply Writes.step; case k => with_reducible apply State.loadPairEpoch_writes)
    | (apply Writes.step; case k => with_reducible apply State.count_writes)
    | (apply Writes.step; case k => with_reducible apply State.losesActive_writes)
    | (apply Writes.step; case k => with_reducible apply State.takeMastership_writes)
    | with_reducible refine Writes.ite ?_ ?_
    | decide
    | split

theorem State.pairUpdate_writes  (s : State) :
    Writes [.regs, .cnts, .posted, .free, .flows, .ring, .engines, .evt] s (State.pairUpdate s) := by
  unfold State.pairUpdate
  repeat' first
    | dsimp only
    | with_reducible exact Writes.refl _ _
    | (apply Writes.step; case k => with_reducible apply State.pairCount_writes)
    | decide

theorem State.enterHeld_writes  (s : State) (cause : Nat) :
    Writes [.regs, .mode, .cnts, .posted, .out, .free, .imp, .units, .ports, .flows, .ring, .engines, .evt, .cart, .guard, .tb] s (State.enterHeld s cause) := by
  unfold State.enterHeld
  repeat' first
    | dsimp only
    | ((conv => arg 3; arg 39; skip); with_reducible refine Writes.set_cart ?_ ?_ _)
    | ((conv => arg 3; arg 39; skip); with_reducible refine Writes.set_evt ?_ ?_ _)
    | ((conv => arg 3; arg 39; skip); with_reducible refine Writes.set_tb ?_ ?_ _)
    | with_reducible exact Writes.refl _ _
    | (apply Writes.step; case k => with_reducible apply State.endWork_writes)
    | (apply Writes.step; case k => with_reducible apply State.transition_writes)
    | (apply Writes.step; case k => with_reducible apply State.stopRing_writes)
    | (apply Writes.step; case k => with_reducible apply State.declareDown_writes)
    | (apply Writes.step; case k => with_reducible apply State.setPin_writes)
    | (apply Writes.step; case k => with_reducible apply State.wrN_writes)
    | (apply Writes.step; case k => with_reducible apply State.cartPowerOff_writes)
    | (apply Writes.step; case k => with_reducible apply State.pairUpdate_writes)
    | with_reducible refine Writes.ite ?_ ?_
    | with_reducible refine Writes.foldl ?_ ?_
    | with_reducible refine Writes.foldlFst ?_ ?_
    | decide
    | intro _
    | split

theorem State.recordFault_writes  (s : State) (code : Nat) (unit : Nat) :
    Writes [.regs, .cnts, .posted, .guard] s (State.recordFault s code unit) := by
  unfold State.recordFault
  repeat' first
    | dsimp only
    | ((conv => arg 3; arg 39; skip); with_reducible refine Writes.set_guard ?_ ?_ _)
    | with_reducible exact Writes.refl _ _
    | (apply Writes.step; case k => with_reducible apply State.post_writes)
    | (apply Writes.step; case k => with_reducible apply State.count_writes)
    | (apply Writes.step; case k => (with_reducible apply State.setFld_writes_ne) <;> first | decide | (dsimp only [Reg.HLTH_FAULT, Reg.HLTH_FAULT_CODE, Reg.HLTH_FAULT_WHERE, Reg.GLB_MODE, Field.of]; omega) | (split <;> decide))
    | with_reducible refine Writes.ite ?_ ?_
    | decide
    | split

theorem State.fatal_writes  (s : State) (code : Nat) (unit : Nat) :
    Writes [.regs, .mode, .cnts, .posted, .out, .free, .imp, .units, .ports, .flows, .ring, .engines, .evt, .cart, .guard, .tb] s (State.fatal s code unit) := by
  unfold State.fatal
  repeat' first
    | dsimp only
    | with_reducible exact Writes.refl _ _
    | (apply Writes.step; case k => with_reducible apply State.enterHeld_writes)
    | (apply Writes.step; case k => with_reducible apply State.recordFault_writes)
    | decide

theorem State.reimpPhase_writes  (s : State) :
    Writes [.regs] s (State.reimpPhase s) := by
  unfold State.reimpPhase
  repeat' first
    | dsimp only
    | with_reducible exact Writes.refl _ _
    | (apply Writes.step; case k => (with_reducible apply State.setFld_writes_ne) <;> first | decide | (dsimp only [Reg.IMP_REIMP_STATUS, Reg.IMP_REIMP_STATUS_STATE, Reg.GLB_MODE, Field.of]; omega) | (split <;> decide))
    | with_reducible refine Writes.ite ?_ ?_
    | decide
    | split

theorem State.endReload_writes  (s : State) (q : Nat) :
    Writes [.regs, .imp] s (State.endReload s q) := by
  unfold State.endReload
  repeat' first
    | dsimp only
    | ((conv => arg 3; arg 39; skip); with_reducible refine Writes.set_imp ?_ ?_ _)
    | with_reducible exact Writes.refl _ _
    | (apply Writes.step; case k => with_reducible apply State.reimpPhase_writes)
    | with_reducible refine Writes.ite ?_ ?_
    | decide
    | split

theorem State.keepQuire_writes  (s : State) (q : Nat) :
    Writes [.regs, .cnts, .imp, .units, .spine, .dram, .poison, .flows, .items, .engines] s (State.keepQuire s q) := by
  unfold State.keepQuire
  repeat' first
    | dsimp only
    | with_reducible exact Writes.refl _ _
    | (apply Writes.step; case k => with_reducible apply State.migrateBack_writes)
    | (apply Writes.step; case k => with_reducible apply State.endReload_writes)
    | with_reducible refine Writes.ite ?_ ?_
    | decide
    | split

theorem State.tearEpoch_writes  (s : State) :
    Writes [.cnts, .posted, .lastPost, .free, .guard] s (State.tearEpoch s) := by
  unfold State.tearEpoch
  repeat' first
    | dsimp only
    | ((conv => arg 3; arg 39; skip); with_reducible refine Writes.set_guard ?_ ?_ _)
    | with_reducible exact Writes.refl _ _
    | (apply Writes.step; case k => with_reducible apply State.postOpenLimited_writes)
    | (apply Writes.step; case k => with_reducible apply State.count_writes)
    | with_reducible refine Writes.ite ?_ ?_
    | decide
    | split

theorem State.setGuard_writes  (s : State) (v : Nat) :
    Writes [.regs] s (State.setGuard s v) := by
  unfold State.setGuard
  repeat' first
    | dsimp only
    | with_reducible exact Writes.refl _ _
    | (apply Writes.step; case k => (with_reducible apply State.setFld_writes_ne) <;> first | decide | (dsimp only [Reg.GUARD_STATUS, Reg.GUARD_STATUS_STANDBY_VALID, Reg.GUARD_STATUS_STATE, Reg.GLB_MODE, Field.of]; omega) | (split <;> decide))
    | decide

theorem State.swapControl_writes  (s : State) :
    Writes [.regs, .cnts, .spine, .dram, .poison, .flows, .items, .engines, .guard] s (State.swapControl s) := by
  unfold State.swapControl
  repeat' first
    | dsimp only
    | ((conv => arg 3; arg 39; skip); with_reducible refine Writes.set_guard ?_ ?_ _)
    | ((conv => arg 3; arg 39; skip); with_reducible refine Writes.set_items ?_ ?_ _)
    | with_reducible exact Writes.refl _ _
    | (apply Writes.step; case k => with_reducible apply State.leaveSpine_writes)
    | (apply Writes.step; case k => with_reducible apply State.returnItems_writes)
    | (apply Writes.step; case k => with_reducible apply State.setFolioQueue_writes)
    | (apply Writes.step; case k => with_reducible apply State.sendItems_writes)
    | (apply Writes.step; case k => with_reducible apply State.setEng_writes)
    | (apply Writes.step; case k => (with_reducible apply State.setFlag_writes_ne) <;> first | decide | (dsimp only [Reg.GUARD_STATUS, Reg.GUARD_STATUS_ACTIVE, Reg.GUARD_STATUS_STANDBY, Reg.GUARD_STATUS_STANDBY_VALID, Reg.GLB_MODE, Field.of]; omega) | (split <;> decide))
    | (apply Writes.step; case k => (with_reducible apply State.setFld_writes_ne) <;> first | decide | (dsimp only [Reg.GUARD_STATUS, Reg.GUARD_STATUS_ACTIVE, Reg.GUARD_STATUS_STANDBY, Reg.GUARD_STATUS_STANDBY_VALID, Reg.GLB_MODE, Field.of]; omega) | (split <;> decide))
    | with_reducible refine Writes.ite ?_ ?_
    | with_reducible refine Writes.foldl ?_ ?_
    | with_reducible refine Writes.foldlFst ?_ ?_
    | decide
    | intro _
    | split

theorem State.controlLeft_writes  (s : State) (h : Option Handover) :
    Writes [.regs, .cnts, .units, .spine, .dram, .poison, .flows, .items, .engines] s (State.controlLeft s h) := by
  unfold State.controlLeft
  repeat' first
    | dsimp only
    | with_reducible exact Writes.refl _ _
    | (apply Writes.step; case k => with_reducible apply State.quireResetBegin_writes)
    | with_reducible refine Writes.ite ?_ ?_
    | decide
    | (with_reducible (apply Writes.fst; case e => assumption))
    | split

theorem State.takeoverRuns_writes  (s : State) (cause : Nat) :
    Writes [.regs, .cnts, .posted, .lastPost, .free, .imp, .units, .spine, .dram, .poison, .flows, .items, .engines, .guard] s (State.takeoverRuns s cause) := by
  unfold State.takeoverRuns
  repeat' first
    | dsimp only
    | ((conv => arg 3; arg 39; skip); with_reducible refine Writes.set_guard ?_ ?_ _)
    | with_reducible exact Writes.refl _ _
    | (apply Writes.step; case k => with_reducible apply State.keepQuire_writes)
    | (apply Writes.step; case k => (with_reducible apply State.setFld_writes_ne) <;> first | decide | (dsimp only [Reg.GUARD_LAST, Reg.GUARD_LAST_CAUSE, Reg.GLB_MODE, Field.of]; omega) | (split <;> decide))
    | (apply Writes.step; case k => with_reducible apply State.count_writes)
    | (apply Writes.step; case k => with_reducible apply State.post_writes)
    | (apply Writes.step; case k => with_reducible apply State.setEngState_writes)
    | (apply Writes.step; case k => with_reducible apply State.clearEngine_writes)
    | (apply Writes.step; case k => with_reducible apply State.tearEpoch_writes)
    | (apply Writes.step; case k => with_reducible apply State.setFolioQueue_writes)
    | (apply Writes.step; case k => with_reducible apply State.setGuard_writes)
    | (apply Writes.step; case k => with_reducible apply State.swapControl_writes)
    | (apply Writes.step; case k => with_reducible apply State.controlLeft_writes)
    | with_reducible refine Writes.ite ?_ ?_
    | with_reducible refine Writes.foldl ?_ ?_
    | with_reducible refine Writes.foldlFst ?_ ?_
    | decide
    | intro _
    | split

theorem State.takeover_writes  (s : State) (cause : Nat) :
    Writes [.regs, .mode, .cnts, .posted, .lastPost, .out, .free, .imp, .units, .spine, .dram, .poison, .ports, .flows, .items, .ring, .engines, .evt, .cart, .guard, .tb] s (State.takeover s cause) := by
  unfold State.takeover
  repeat' first
    | dsimp only
    | with_reducible exact Writes.refl _ _
    | (apply Writes.step; case k => with_reducible apply State.fatal_writes)
    | (apply Writes.step; case k => with_reducible apply State.takeoverRuns_writes)
    | with_reducible refine Writes.ite ?_ ?_
    | decide
    | split

theorem State.checkOrphan_writes  (s : State) (q : Nat) :
    Writes [.regs, .mode, .cnts, .posted, .out, .free, .imp, .units, .ports, .flows, .ring, .engines, .evt, .cart, .guard, .tb] s (State.checkOrphan s q) := by
  unfold State.checkOrphan
  repeat' first
    | dsimp only
    | with_reducible exact Writes.refl _ _
    | (apply Writes.step; case k => with_reducible apply State.fatal_writes)
    | with_reducible refine Writes.ite ?_ ?_
    | decide
    | split

theorem State.isolateQuire_writes  (s : State) (q : Nat) :
    Writes [.regs, .mode, .cnts, .posted, .out, .free, .imp, .units, .spine, .dram, .poison, .ports, .flows, .items, .ring, .engines, .evt, .cart, .guard, .tb] s (State.isolateQuire s q) := by
  unfold State.isolateQuire
  repeat' first
    | dsimp only
    | ((conv => arg 3; arg 39; skip); with_reducible refine Writes.set_units ?_ ?_ _)
    | with_reducible exact Writes.refl _ _
    | (apply Writes.step; case k => with_reducible apply State.endReload_writes)
    | (apply Writes.step; case k => with_reducible apply State.checkOrphan_writes)
    | (apply Writes.step; case k => with_reducible apply State.migrateOut_writes)
    | (apply Writes.step; case k => with_reducible apply State.degrade_writes)
    | with_reducible refine Writes.ite ?_ ?_
    | decide
    | split

theorem State.failsLoading_writes  (s : State) (q : Nat) :
    Writes [.regs, .mode, .cnts, .posted, .out, .free, .imp, .units, .spine, .dram, .poison, .ports, .flows, .items, .ring, .engines, .evt, .cart, .guard, .tb] s (State.failsLoading s q) := by
  unfold State.failsLoading
  repeat' first
    | dsimp only
    | with_reducible exact Writes.refl _ _
    | (apply Writes.step; case k => with_reducible apply State.isolateQuire_writes)
    | with_reducible refine Writes.ite ?_ ?_
    | decide
    | split

theorem State.refuseHandover_writes  (s : State) :
    Writes [.cnts, .posted, .free] s (State.refuseHandover s) := by
  unfold State.refuseHandover
  repeat' first
    | dsimp only
    | with_reducible exact Writes.refl _ _
    | (apply Writes.step; case k => with_reducible apply State.postOpen_writes)
    | (apply Writes.step; case k => with_reducible apply State.count_writes)
    | decide

theorem State.refuseReimp_writes  (s : State) (reason : Nat) :
    Writes [.regs, .posted, .free] s (State.refuseReimp s reason) := by
  unfold State.refuseReimp
  repeat' first
    | dsimp only
    | with_reducible exact Writes.refl _ _
    | (apply Writes.step; case k => with_reducible apply State.postImp_writes)
    | (apply Writes.step; case k => (with_reducible apply State.setFld_writes_ne) <;> first | decide | (dsimp only [Reg.IMP_REIMP_STATUS, Reg.IMP_REIMP_STATUS_REASON, Reg.IMP_REIMP_STATUS_STATE, Reg.GLB_MODE, Field.of]; omega) | (split <;> decide))
    | decide

theorem State.dropReimp_writes  (s : State) :
    Writes [.regs, .mode, .cnts, .posted, .out, .free, .imp, .units, .spine, .dram, .poison, .flows, .items, .engines] s (State.dropReimp s) := by
  unfold State.dropReimp
  repeat' first
    | dsimp only
    | ((conv => arg 3; arg 39; skip); with_reducible refine Writes.set_imp ?_ ?_ _)
    | with_reducible exact Writes.refl _ _
    | (apply Writes.step; case k => with_reducible apply State.migrateBack_writes)
    | (apply Writes.step; case k => with_reducible apply State.settleQuiet_writes)
    | (apply Writes.step; case k => with_reducible apply State.transition_writes)
    | (apply Writes.step; case k => with_reducible apply State.refuseReimp_writes)
    | with_reducible refine Writes.ite ?_ ?_
    | with_reducible refine Writes.foldl ?_ ?_
    | with_reducible refine Writes.foldlFst ?_ ?_
    | decide
    | intro _
    | split

theorem State.abandonHandover_writes  (s : State) :
    Writes [.regs, .mode, .cnts, .posted, .out, .free, .imp, .units, .spine, .dram, .poison, .flows, .items, .engines, .guard] s (State.abandonHandover s) := by
  unfold State.abandonHandover
  repeat' first
    | dsimp only
    | ((conv => arg 3; arg 39; skip); with_reducible refine Writes.set_guard ?_ ?_ _)
    | with_reducible exact Writes.refl _ _
    | (apply Writes.step; case k => with_reducible apply State.refuseHandover_writes)
    | (apply Writes.step; case k => with_reducible apply State.setGuard_writes)
    | (apply Writes.step; case k => with_reducible apply State.dropReimp_writes)
    | (apply Writes.step; case k => with_reducible apply State.restore_writes)
    | (apply Writes.step; case k => with_reducible apply State.setFld_writes)
    | (apply Writes.step; case k => with_reducible apply State.putBit_writes)
    | with_reducible refine Writes.ite ?_ ?_
    | decide
    | (with_reducible (apply Writes.fst; case e => assumption))
    | split

theorem State.markOut_writes  (s : State) (e : Nat) :
    Writes [.regs, .units, .engines] s (State.markOut s e) := by
  unfold State.markOut
  repeat' first
    | dsimp only
    | ((conv => arg 3; arg 39; skip); with_reducible refine Writes.set_units ?_ ?_ _)
    | with_reducible exact Writes.refl _ _
    | (apply Writes.step; case k => (with_reducible apply State.setFld_writes_ne) <;> first | decide | (dsimp only [Reg.ENG_ROLE, Reg.ENG_ROLE_SLOT, Reg.GLB_MODE, Field.of]; omega) | (split <;> decide))
    | (apply Writes.step; case k => with_reducible apply State.setEngState_writes)
    | (apply Writes.step; case k => with_reducible apply State.setEng_writes)
    | decide

theorem State.loseFolio_writes  (s : State) (f : Nat) :
    Writes [.regs, .cnts, .posted, .out, .spine, .cells, .frames, .dram, .poison, .queues, .ports, .flows, .engines] s (State.loseFolio s f) := by
  unfold State.loseFolio
  repeat' first
    | dsimp only
    | with_reducible exact Writes.refl _ _
    | (apply Writes.step; case k => with_reducible apply State.clearEngine_writes)
    | (apply Writes.step; case k => with_reducible apply State.setEngState_writes)
    | (apply Writes.step; case k => with_reducible apply State.loseItem_writes)
    | (apply Writes.step; case k => with_reducible apply State.setFolioQueue_writes)
    | with_reducible refine Writes.ite ?_ ?_
    | with_reducible refine Writes.foldl ?_ ?_
    | with_reducible refine Writes.foldlFst ?_ ?_
    | decide
    | intro _
    | split

theorem State.loseQuire_writes  (s : State) (q : Nat) :
    Writes [.regs, .cnts, .posted, .lastPost, .out, .imp, .units, .spine, .cells, .frames, .dram, .poison, .queues, .ports, .flows, .engines] s (State.loseQuire s q) := by
  unfold State.loseQuire
  repeat' first
    | dsimp only
    | ((conv => arg 3; arg 39; skip); with_reducible refine Writes.set_units ?_ ?_ _)
    | with_reducible exact Writes.refl _ _
    | (apply Writes.step; case k => (with_reducible apply State.putBit_writes_ne) <;> first | decide | (dsimp only [Reg.GLB_RESET_STATUS, Reg.GLB_RESET_STATUS_QUIRE_BUSY, Reg.GLB_MODE, Field.of]; omega) | (split <;> decide))
    | (apply Writes.step; case k => with_reducible apply State.endReload_writes)
    | (apply Writes.step; case k => with_reducible apply State.endMigration_writes)
    | (apply Writes.step; case k => with_reducible apply State.loseFolio_writes)
    | (apply Writes.step; case k => with_reducible apply State.restartLent_writes)
    | decide

theorem State.dieLost_writes  (s : State) (d : Nat) :
    Writes [.regs, .mode, .cnts, .posted, .lastPost, .out, .free, .imp, .units, .spine, .cells, .frames, .dram, .poison, .queues, .ports, .flows, .items, .ring, .engines, .evt, .cart, .guard, .tb] s (State.dieLost s d) := by
  unfold State.dieLost
  repeat' first
    | dsimp only
    | ((conv => arg 3; arg 39; skip); with_reducible refine Writes.set_items ?_ ?_ _)
    | ((conv => arg 3; arg 39; skip); with_reducible refine Writes.set_units ?_ ?_ _)
    | with_reducible exact Writes.refl _ _
    | (apply Writes.step; case k => with_reducible apply State.degrade_writes)
    | (apply Writes.step; case k => with_reducible apply State.abandonHandover_writes)
    | (apply Writes.step; case k => with_reducible apply State.loseItem_writes)
    | (apply Writes.step; case k => with_reducible apply State.setFlag_writes)
    | (apply Writes.step; case k => with_reducible apply State.markOut_writes)
    | (apply Writes.step; case k => with_reducible apply State.showDegraded_writes)
    | (apply Writes.step; case k => with_reducible apply State.sendItems_writes)
    | (apply Writes.step; case k => with_reducible apply State.loseQuire_writes)
    | (apply Writes.step; case k => with_reducible apply State.checkOrphan_writes)
    | (apply Writes.step; case k => with_reducible apply State.takeover_writes)
    | with_reducible refine Writes.ite ?_ ?_
    | with_reducible refine Writes.foldl ?_ ?_
    | with_reducible refine Writes.foldlFst ?_ ?_
    | decide
    | intro _
    | (with_reducible (apply Writes.fst; case e => assumption))
    | split

theorem State.assignQuire_writes  (s : State) (q : Nat) :
    Writes [.regs, .mode, .cnts, .posted, .lastPost, .out, .free, .imp, .units, .spine, .dram, .poison, .ports, .flows, .items, .ring, .engines, .evt, .cart, .guard, .tb] s (State.assignQuire s q) := by
  unfold State.assignQuire
  repeat' first
    | dsimp only
    | with_reducible exact Writes.refl _ _
    | (apply Writes.step; case k => with_reducible apply State.takeover_writes)
    | with_reducible refine Writes.ite ?_ ?_
    | decide
    | split

theorem State.markFolioOut_writes  (s : State) (f : Nat) :
    Writes [.regs, .mode, .cnts, .posted, .out, .free, .imp, .units, .spine, .dram, .poison, .ports, .flows, .items, .ring, .engines, .evt, .cart, .guard, .tb] s (State.markFolioOut s f) := by
  unfold State.markFolioOut
  repeat' first
    | dsimp only
    | ((conv => arg 3; arg 39; skip); with_reducible refine Writes.set_units ?_ ?_ _)
    | with_reducible exact Writes.refl _ _
    | (apply Writes.step; case k => with_reducible apply State.isolateQuire_writes)
    | (apply Writes.step; case k => with_reducible apply State.post_writes)
    | (apply Writes.step; case k => with_reducible apply State.setFlag_writes)
    | decide

theorem State.engineFails_writes  (s : State) (e : Nat) :
    Writes [.regs, .mode, .cnts, .posted, .out, .free, .imp, .units, .spine, .dram, .poison, .ports, .flows, .items, .ring, .engines, .evt, .cart, .guard, .tb] s (State.engineFails s e) := by
  unfold State.engineFails
  repeat' first
    | dsimp only
    | with_reducible exact Writes.refl _ _
    | (apply Writes.step; case k => with_reducible apply State.failsLoading_writes)
    | (apply Writes.step; case k => with_reducible apply State.degrade_writes)
    | (apply Writes.step; case k => with_reducible apply State.markOut_writes)
    | (apply Writes.step; case k => with_reducible apply State.endMigration_writes)
    | (apply Writes.step; case k => with_reducible apply State.count_writes)
    | (apply Writes.step; case k => with_reducible apply State.setFolioQueue_writes)
    | (apply Writes.step; case k => with_reducible apply State.clearEngine_writes)
    | (apply Writes.step; case k => with_reducible apply State.spareTakes_writes)
    | (apply Writes.step; case k => with_reducible apply State.takeAll_writes)
    | (apply Writes.step; case k => with_reducible apply State.markFolioOut_writes)
    | with_reducible refine Writes.ite ?_ ?_
    | decide
    | (with_reducible (apply Writes.fst; case e => assumption))
    | split

theorem State.healthReset_writes  (s : State) (q : Nat) :
    Writes [.regs, .mode, .cnts, .units, .spine, .dram, .poison, .flows, .items, .engines] s (State.healthReset s q) := by
  unfold State.healthReset
  repeat' first
    | dsimp only
    | with_reducible exact Writes.refl _ _
    | (apply Writes.step; case k => with_reducible apply State.quireResetStart_writes)
    | with_reducible refine Writes.ite ?_ ?_
    | decide
    | split

theorem State.rereadGroup_writes  (s : State) (part : Nat) (bucket : Nat) :
    Writes [.cnts, .posted, .lastPost, .flows] s (State.rereadGroup s part bucket) := by
  unfold State.rereadGroup
  repeat' first
    | dsimp only
    | with_reducible exact Writes.refl _ _
    | (apply Writes.step; case k => with_reducible apply State.restartFlow_writes)
    | with_reducible refine Writes.ite ?_ ?_
    | with_reducible refine Writes.foldl ?_ ?_
    | with_reducible refine Writes.foldlFst ?_ ?_
    | decide
    | intro _
    | split

theorem State.guardFault_writes  (s : State) :
    Writes [.regs, .cnts, .posted, .free, .flows, .ring, .engines, .evt] s (State.guardFault s) := by
  unfold State.guardFault
  repeat' first
    | dsimp only
    | with_reducible exact Writes.refl _ _
    | (apply Writes.step; case k => with_reducible apply State.pairUpdate_writes)
    | (apply Writes.step; case k => with_reducible apply State.postOpen_writes)
    | (apply Writes.step; case k => with_reducible apply State.setGuard_writes)
    | with_reducible refine Writes.ite ?_ ?_
    | decide
    | split

theorem State.respond_writes  (s : State) (code : Nat) (unit : Nat) (item : FaultItem) :
    Writes [.regs, .mode, .cnts, .posted, .lastPost, .out, .free, .imp, .units, .spine, .cells, .frames, .dram, .poison, .queues, .ports, .flows, .items, .recCopies, .ring, .engines, .evt, .cart, .guard, .tb] s (State.respond s code unit item) := by
  unfold State.respond
  repeat' first
    | dsimp only
    | ((conv => arg 3; arg 39; skip); with_reducible refine Writes.set_units ?_ ?_ _)
    | with_reducible exact Writes.refl _ _
    | (apply Writes.step; case k => with_reducible apply State.assignQuire_writes)
    | (apply Writes.step; case k => with_reducible apply State.engineFails_writes)
    | (apply Writes.step; case k => with_reducible apply State.markFolioOut_writes)
    | (apply Writes.step; case k => with_reducible apply State.eccUe_writes)
    | (apply Writes.step; case k => with_reducible apply State.count_writes)
    | (apply Writes.step; case k => with_reducible apply State.isolateQuire_writes)
    | (apply Writes.step; case k => with_reducible apply State.restartLent_writes)
    | (apply Writes.step; case k => with_reducible apply State.healthReset_writes)
    | (apply Writes.step; case k => with_reducible apply State.poisonFrame_writes)
    | (apply Writes.step; case k => with_reducible apply State.rereadGroup_writes)
    | (apply Writes.step; case k => with_reducible apply State.post_writes)
    | (apply Writes.step; case k => with_reducible apply State.dieLost_writes)
    | (apply Writes.step; case k => with_reducible apply State.takeover_writes)
    | (apply Writes.step; case k => with_reducible apply State.setFlow_writes)
    | (apply Writes.step; case k => with_reducible apply State.guardFault_writes)
    | (apply Writes.step; case k => with_reducible apply State.dramWrite_writes)
    | (apply Writes.step; case k => with_reducible apply State.enterHeld_writes)
    | decide
    | (with_reducible (apply Writes.fst; case e => assumption))
    | split

theorem State.checkedFault_writes  (s : State) (code : Nat) (unit : Nat) (item : FaultItem) :
    Writes [.regs, .mode, .cnts, .posted, .lastPost, .out, .free, .imp, .units, .spine, .cells, .frames, .dram, .poison, .queues, .ports, .flows, .items, .recCopies, .ring, .engines, .evt, .cart, .guard, .tb] s (State.checkedFault s code unit item) := by
  unfold State.checkedFault
  repeat' first
    | dsimp only
    | with_reducible exact Writes.refl _ _
    | (apply Writes.step; case k => with_reducible apply State.recordFault_writes)
    | (apply Writes.step; case k => with_reducible apply State.respond_writes)
    | with_reducible refine Writes.ite ?_ ?_
    | decide
    | split

theorem State.restartCounts_writes  (s : State) :
    Writes [.tb, .ptp] s (State.restartCounts s) := by
  unfold State.restartCounts
  repeat' first
    | dsimp only
    | ((conv => arg 3; arg 39; skip); with_reducible refine Writes.set_tb ?_ ?_ _)
    | with_reducible exact Writes.refl _ _
    | (apply Writes.step; case k => with_reducible apply State.setDom_writes)
    | with_reducible refine Writes.foldl ?_ ?_
    | with_reducible refine Writes.foldlFst ?_ ?_
    | decide
    | intro _

theorem State.servoResumes_writes  (s : State) :
    Writes [.tb, .ptp] s (State.servoResumes s) := by
  unfold State.servoResumes
  repeat' first
    | dsimp only
    | ((conv => arg 3; arg 39; skip); with_reducible refine Writes.set_tb ?_ ?_ _)
    | with_reducible exact Writes.refl _ _
    | (apply Writes.step; case k => with_reducible apply State.restartCounts_writes)
    | decide

theorem execCheckedFault_writes  (code : BitVec 8) (unit : BitVec 16) (item : FaultItem) (s : State) {s' : State}
    (h : execCheckedFault code unit item s = .next s') : Writes [.regs, .mode, .cnts, .posted, .lastPost, .out, .free, .imp, .units, .spine, .cells, .frames, .dram, .poison, .queues, .ports, .flows, .items, .recCopies, .ring, .engines, .evt, .cart, .guard, .tb] s s' := by
  unfold execCheckedFault at h
  injection h with h
  subst h
  repeat' first
    | dsimp only
    | with_reducible exact Writes.refl _ _
    | (apply Writes.step; case k => with_reducible apply State.checkedFault_writes)
    | decide

theorem execDieLost_writes  (die : Fin 4) (s : State) {s' : State}
    (h : execDieLost die s = .next s') : Writes [.regs, .mode, .cnts, .posted, .lastPost, .out, .free, .imp, .units, .spine, .cells, .frames, .dram, .poison, .queues, .ports, .flows, .items, .recCopies, .ring, .engines, .evt, .cart, .guard, .tb] s s' := by
  unfold execDieLost at h
  injection h with h
  subst h
  repeat' first
    | dsimp only
    | with_reducible exact Writes.refl _ _
    | (apply Writes.step; case k => with_reducible apply State.checkedFault_writes)
    | decide

theorem execEngineHardFailure_writes  (e : Fin 160) (s : State) {s' : State}
    (h : execEngineHardFailure e s = .next s') : Writes [.regs, .mode, .cnts, .posted, .lastPost, .out, .free, .imp, .units, .spine, .cells, .frames, .dram, .poison, .queues, .ports, .flows, .items, .recCopies, .ring, .engines, .evt, .cart, .guard, .tb] s s' := by
  unfold execEngineHardFailure at h
  injection h with h
  subst h
  repeat' first
    | dsimp only
    | with_reducible exact Writes.refl _ _
    | (apply Writes.step; case k => with_reducible apply State.checkedFault_writes)
    | decide

end Sys2Proof.Machine
end

