-- ==== Sys2Proof/Laws/WritesPcie.lean ====
section
/-! SUPPORT. What each operation of Machine/Pcie.lean writes. -/

namespace Sys2Proof.Machine

theorem State.dropAnswers_writes  (s : State) (fn : Nat) :
    Writes [.flows] s (State.dropAnswers s fn) := by
  unfold State.dropAnswers
  repeat' first
    | dsimp only
    | ((conv => arg 3; arg 39; skip); with_reducible refine Writes.set_flows ?_ ?_ _)
    | with_reducible exact Writes.refl _ _
    | with_reducible refine Writes.ite ?_ ?_
    | decide
    | split

theorem State.quarantineReads_writes  (s : State) (fn : Nat) (reads : List HostRead) :
    Writes [.host] s (State.quarantineReads s fn reads) := by
  unfold State.quarantineReads
  repeat' first
    | dsimp only
    | ((conv => arg 3; arg 39; skip); with_reducible refine Writes.set_host ?_ ?_ _)
    | with_reducible exact Writes.refl _ _
    | decide

theorem State.dropWaiting_writes  (s : State) (c : RxCopy) :
    Writes [.cnts, .frames, .flows] s (State.dropWaiting s c) := by
  unfold State.dropWaiting
  repeat' first
    | dsimp only
    | with_reducible exact Writes.refl _ _
    | (apply Writes.step; case k => with_reducible apply State.flowDropped_writes)
    | (apply Writes.step; case k => with_reducible apply State.count_writes)
    | (apply Writes.step; case k => with_reducible apply State.dropCopy_writes)
    | with_reducible refine Writes.ite ?_ ?_
    | decide
    | (with_reducible (apply Writes.fst; case e => assumption))
    | split

theorem State.disown_writes  (s : State) (qid : Nat) :
    Writes [.ports, .flows, .items, .ring, .engines] s (State.disown s qid) := by
  unfold State.disown
  repeat' first
    | dsimp only
    | ((conv => arg 3; arg 39; skip); with_reducible refine Writes.set_ports_flows_items_ring_engines ?_ ?_ _ _ _ _ _ ?_ (fun h => h))
    | with_reducible exact Writes.refl _ _
    | exact fun h => Table.wf_set _ _ _ _ h
    | exact fun h => Table.wf_mapVals _ _ _ h
    | exact fun h => Table.wf_filter _ _ _ h
    | exact fun h => Table.wf_foldl_set _ _ _ _ _ (Table.wf_filter _ _ _ h)
    | with_reducible refine Writes.ite ?_ ?_
    | decide
    | (with_reducible (apply Writes.fst; case e => assumption))
    | split

theorem State.resetQueue_writes  (s : State) (qid : Nat) :
    Writes [.cnts, .frames, .queues, .ports, .flows, .items, .ring, .engines, .evt] s (State.resetQueue s qid) := by
  unfold State.resetQueue
  repeat' first
    | dsimp only
    | ((conv => arg 3; arg 39; skip); with_reducible refine Writes.set_evt ?_ ?_ _)
    | with_reducible exact Writes.refl _ _
    | (apply Writes.step; case k => with_reducible apply State.dropWaiting_writes)
    | (apply Writes.step; case k => with_reducible apply State.countN_writes)
    | (apply Writes.step; case k => with_reducible apply State.setQ_writes)
    | (apply Writes.step; case k => with_reducible apply State.disown_writes)
    | with_reducible refine Writes.ite ?_ ?_
    | with_reducible refine Writes.foldl ?_ ?_
    | with_reducible refine Writes.foldlFst ?_ ?_
    | decide
    | intro _
    | split

theorem State.resetFuncRegs_writes (s : State) (fn : Nat) (flr : Bool) :
    Writes [.regs, .stage, .host] s (State.resetFuncRegs s fn flr) := by
  unfold State.resetFuncRegs
  dsimp only
  with_reducible refine Writes.step ?_ (State.setFlag_writes_ne _ _ _ ?_) ?_
  · have k : ∀ (g : Nat → Bool) (hs : HostSide), g Reg.GLB_MODE = true → Writes [.regs, .stage, .host] s
        { s with regs := s.regs.filter fun p => g p.1, stage := s.stage.filter fun p => g p.1, host := hs } := by
      intro g hs hg
      have k := Writes.set_regs_stage_host (Writes.refl [.regs, .mode, .stage, .host] s) (by decide)
        (s.regs.filter fun p => g p.1) (s.stage.filter fun p => g p.1) hs
        (fun h => Table.wf_filter _ _ _ h) (fun h => Table.wf_filter _ _ _ h)
      refine ⟨fun p hp => ?_, k.canon, k.free, k.out⟩
      by_cases hm : p = .mode
      · subst hm; exact Table.get_filter _ g _ hg
      · exact k.same p (by intro e; cases p <;> simp_all)
    refine k (fun a => !(Nat.ble (fn * 0x4000000) a && Nat.blt a (fn * 0x4000000 + 0x4000000) &&
      (Nat.beq (a - fn * 0x4000000) Reg.PCIE_FUNC || Nat.beq (a - fn * 0x4000000) Reg.PCIE_CTO ||
        Nat.beq (a - fn * 0x4000000) Reg.PCIE_INTX_PEND ||
        (Nat.ble 0x84000 (a - fn * 0x4000000) && Nat.blt (a - fn * 0x4000000) 0x90000) ||
        (Nat.ble 0x3000000 (a - fn * 0x4000000) && !aerKey a && !(flr && linkKey (a - fn * 0x4000000)))))) _ ?_
    cases fn with
    | zero => cases flr <;> decide
    | succ n =>
      have : Nat.ble ((n + 1) * 0x4000000) Reg.GLB_MODE = false := by
        rw [Bool.eq_false_iff]; intro e; have := Nat.ble_eq.mp e; dsimp only [Reg.GLB_MODE] at this; omega
      simp [this]
  · dsimp only [Field.of, Reg.PCIE_FUNC_MSE, Reg.PCIE_FUNC, Reg.GLB_MODE]; omega
  · decide

theorem State.closeWindows_writes  (s : State) (fn : Nat) :
    Writes [.regs] s (State.closeWindows s fn) := by
  unfold State.closeWindows
  repeat' first
    | dsimp only
    | with_reducible exact Writes.refl _ _
    | (apply Writes.step; case k => (with_reducible apply State.setFlag_writes_ne) <;> first | decide | (dsimp only [Reg.PCIE_WIN_ACTIVE, Reg.PCIE_WIN_ACTIVE_EN, Reg.PCIE_WIN_ACTIVE_OWNER, Reg.GLB_MODE, Field.of]; omega) | (split <;> decide))
    | with_reducible refine Writes.ite ?_ ?_
    | with_reducible refine Writes.foldl ?_ ?_
    | with_reducible refine Writes.foldlFst ?_ ?_
    | decide
    | intro _
    | split

theorem State.endReads_writes  (s : State) (fn : Nat) :
    Writes [.regs, .posted, .free, .boot, .flows] s (State.endReads s fn) := by
  unfold State.endReads
  repeat' first
    | dsimp only
    | with_reducible exact Writes.refl _ _
    | (apply Writes.step; case k => with_reducible apply State.mbReset_writes)
    | (apply Writes.step; case k => with_reducible apply State.flowCmdFails_writes)
    | with_reducible refine Writes.ite ?_ ?_
    | decide
    | split

theorem State.resetFunc_writes  (s : State) (fn : Nat) (flr : Bool) (reads : List HostRead) :
    Writes [.regs, .stage, .cnts, .posted, .free, .boot, .frames, .queues, .host, .ports, .flows, .items, .ring, .engines, .dma, .evt, .obs] s (State.resetFunc s fn flr reads) := by
  unfold State.resetFunc
  repeat' first
    | dsimp only
    | ((conv => arg 3; arg 39; skip); with_reducible refine Writes.set_obs ?_ ?_ _)
    | with_reducible exact Writes.refl _ _
    | (apply Writes.step; case k => with_reducible apply State.dropAnswers_writes)
    | (apply Writes.step; case k => with_reducible apply State.quarantineReads_writes)
    | (apply Writes.step; case k => with_reducible apply State.resetQueue_writes)
    | (apply Writes.step; case k => (with_reducible apply State.setFld_writes_ne) <;> first | decide | (dsimp only [Reg.QM_QCMD_STATUS, Reg.QM_QCMD_STATUS_STATE, Reg.GLB_MODE, Field.of]; omega) | (split <;> decide))
    | (apply Writes.step; case k => with_reducible apply State.dmaHalt_writes)
    | (apply Writes.step; case k => with_reducible apply State.resetFuncRegs_writes)
    | (apply Writes.step; case k => with_reducible apply State.closeWindows_writes)
    | (apply Writes.step; case k => with_reducible apply State.endReads_writes)
    | with_reducible refine Writes.ite ?_ ?_
    | with_reducible refine Writes.foldl ?_ ?_
    | with_reducible refine Writes.foldlFst ?_ ?_
    | decide
    | intro _
    | split

theorem State.clearVfs_writes  (s : State) (reads : List HostRead) :
    Writes [.regs, .stage, .cnts, .posted, .free, .boot, .frames, .queues, .host, .ports, .flows, .items, .ring, .engines, .dma, .evt, .obs] s (State.clearVfs s reads) := by
  unfold State.clearVfs
  repeat' first
    | dsimp only
    | ((conv => arg 3; arg 39; skip); with_reducible refine Writes.set_host ?_ ?_ _)
    | with_reducible exact Writes.refl _ _
    | (apply Writes.step; case k => with_reducible apply State.resetFunc_writes)
    | with_reducible refine Writes.foldl ?_ ?_
    | with_reducible refine Writes.foldlFst ?_ ?_
    | decide
    | intro _

theorem State.hotReset_writes  (s : State) (reads : List HostRead) :
    Writes [.regs, .mode, .stage, .cnts, .posted, .out, .free, .boot, .frames, .queues, .host, .ports, .flows, .items, .ring, .engines, .dma, .evt, .obs] s (State.hotReset s reads) := by
  unfold State.hotReset
  repeat' first
    | dsimp only
    | with_reducible exact Writes.refl _ _
    | (apply Writes.step; case k => with_reducible apply State.clearVfs_writes)
    | (apply Writes.step; case k => with_reducible apply State.resetFunc_writes)
    | (apply Writes.step; case k => with_reducible apply State.settleQuiet_writes)
    | (apply Writes.step; case k => with_reducible apply State.settleAll_writes)
    | with_reducible refine Writes.foldl ?_ ?_
    | with_reducible refine Writes.foldlFst ?_ ?_
    | decide
    | intro _

theorem execHotReset_writes  (linkDown : Bool) (bootsel : BitVec 2) (reads : List HostRead) (s : State) {s' : State}
    (h : execHotReset linkDown bootsel reads s = .next s') : Writes [.regs, .mode, .stage, .latch, .cnts, .posted, .lastPost, .out, .free, .pwr, .boot, .imp, .units, .spine, .cells, .frames, .nextFrame, .dram, .poison, .queues, .host, .ports, .flows, .items, .itemSeq, .pairLink, .recCopies, .ring, .engines, .dma, .evt, .cart, .guard, .pair, .pace, .obs, .tb, .ptp] s s' := by
  unfold execHotReset at h
  injection h with h
  subst h
  repeat' first
    | dsimp only
    | ((conv => arg 3; arg 39; skip); with_reducible refine Writes.set_pwr ?_ ?_ _)
    | with_reducible exact Writes.refl _ _
    | (apply Writes.step; case k => with_reducible apply State.setFlag_writes)
    | (apply Writes.step; case k => with_reducible apply State.enterBoot_writes)
    | (apply Writes.step; case k => with_reducible apply State.hotReset_writes)
    | with_reducible refine Writes.ite ?_ ?_
    | decide
    | split

theorem State.resumeHost_writes  (s : State) :
    Writes [.regs, .cnts, .posted, .out, .spine, .dram, .poison, .queues, .host, .flows, .dma] s (State.resumeHost s) := by
  unfold State.resumeHost
  repeat' first
    | dsimp only
    | with_reducible exact Writes.refl _ _
    | (apply Writes.step; case k => with_reducible apply State.drainEvents_writes)
    | (apply Writes.step; case k => with_reducible apply State.settleAll_writes)
    | (apply Writes.step; case k => with_reducible apply State.settleDelete_writes)
    | with_reducible refine Writes.ite ?_ ?_
    | with_reducible refine Writes.foldl ?_ ?_
    | with_reducible refine Writes.foldlFst ?_ ?_
    | decide
    | intro _
    | split

theorem execLtrWrite_writes  (quiet : Bool) (value : BitVec 16) (s : State) {s' : State}
    (h : execLtrWrite quiet value s = .next s') : Writes [.regs, .out] s s' := by
  unfold execLtrWrite at h
  injection h with h
  subst h
  repeat' first
    | dsimp only
    | with_reducible exact Writes.refl _ _
    | (apply Writes.step; case k => (with_reducible apply State.wrN_writes_ne) <;> first | decide | (dsimp only [Reg.PCIE_LTR_ACTIVE, Reg.PCIE_LTR_QUIET, Reg.GLB_MODE, Field.of]; omega) | (split <;> decide))
    | (apply Writes.step; case k => with_reducible apply State.sendLtr_writes)
    | with_reducible refine Writes.ite ?_ ?_
    | decide
    | split

theorem execFlr_writes  (fn : BitVec 6) (reads : List HostRead) (s : State) {s' : State}
    (h : execFlr fn reads s = .next s') : Writes [.regs, .mode, .stage, .cnts, .posted, .out, .free, .boot, .frames, .queues, .host, .ports, .flows, .items, .ring, .engines, .dma, .evt, .obs] s s' := by
  unfold execFlr at h
  injection h with h
  subst h
  repeat' first
    | dsimp only
    | with_reducible exact Writes.refl _ _
    | (apply Writes.step; case k => with_reducible apply State.clearVfs_writes)
    | (apply Writes.step; case k => with_reducible apply State.post_writes)
    | (apply Writes.step; case k => with_reducible apply State.settleQuiet_writes)
    | (apply Writes.step; case k => with_reducible apply State.settleAll_writes)
    | (apply Writes.step; case k => with_reducible apply State.resetFunc_writes)
    | with_reducible refine Writes.ite ?_ ?_
    | decide
    | split

theorem State.windowRead_writes  (s : State) (w : Nat) (fn : Nat) (off : Nat) (len : Nat) (ue : Bool) :
    Writes [.cnts, .out] s (State.windowRead s w fn off len ue) := by
  unfold State.windowRead
  repeat' first
    | dsimp only
    | with_reducible exact Writes.refl _ _
    | (apply Writes.step; case k => with_reducible apply State.emit_writes)
    | (apply Writes.step; case k => with_reducible apply State.count_writes)
    | with_reducible refine Writes.ite ?_ ?_
    | decide
    | (with_reducible (apply Writes.fst; case e => assumption))
    | split

theorem State.writeEnabled_writes (s : State) (a : Nat) (poisoned : Bool) (l : List (Option Byte)) :
    Writes [.dram, .poison] s (State.writeEnabled s a poisoned l) := by
  induction l generalizing s a with
  | nil => exact Writes.refl _ _
  | cons b l ih =>
    cases b with
    | none => unfold State.writeEnabled; exact ih s (a + 1)
    | some b =>
      unfold State.writeEnabled
      exact (State.dramWrite_writes ..).step (ih _ _) (List.Subset.refl _)

theorem State.windowWrite_writes  (s : State) (w : Nat) (fn : Nat) (off : Nat) (data : List (Option Byte)) (poisoned : Bool) :
    Writes [.cnts, .posted, .lastPost, .free, .dram, .poison] s (State.windowWrite s w fn off data poisoned) := by
  unfold State.windowWrite
  repeat' first
    | dsimp only
    | with_reducible exact Writes.refl _ _
    | (apply Writes.step; case k => with_reducible apply State.postOpenLimited_writes)
    | (apply Writes.step; case k => with_reducible apply State.count_writes)
    | (apply Writes.step; case k => with_reducible apply State.writeEnabled_writes)
    | with_reducible refine Writes.ite ?_ ?_
    | decide
    | split

theorem State.unsupported_writes  (s : State) (fn : Nat) :
    Writes [.cnts, .out] s (State.unsupported s fn) := by
  unfold State.unsupported
  repeat' first
    | dsimp only
    | with_reducible exact Writes.refl _ _
    | (apply Writes.step; case k => with_reducible apply State.emit_writes)
    | (apply Writes.step; case k => with_reducible apply State.count_writes)
    | with_reducible refine Writes.ite ?_ ?_
    | decide
    | split

theorem execWindowWrite_writes  (w : Fin 4) (fn : Fin 4) (off : BitVec 23) (data : List (Option Byte)) (poisoned : Bool) (s : State) {s' : State}
    (h : execWindowWrite w fn off data poisoned s = .next s') : Writes [.cnts, .posted, .lastPost, .out, .free, .dram, .poison] s s' := by
  unfold execWindowWrite at h
  injection h with h
  subst h
  repeat' first
    | dsimp only
    | with_reducible exact Writes.refl _ _
    | (apply Writes.step; case k => with_reducible apply State.windowWrite_writes)
    | (apply Writes.step; case k => with_reducible apply State.unsupported_writes)
    | with_reducible refine Writes.ite ?_ ?_
    | decide
    | split

theorem State.commitWindows_writes  (s : State) (mask : Nat) :
    Writes [.regs, .posted, .free] s (State.commitWindows s mask) := by
  unfold State.commitWindows
  repeat' first
    | dsimp only
    | with_reducible exact Writes.refl _ _
    | (apply Writes.step; case k => (with_reducible apply State.wr_writes_ne) <;> first | decide | (dsimp only [Reg.PCIE_WIN_ACTIVE, Reg.PCIE_WIN_STAGE, Reg.PCIE_WIN_STATUS, Reg.PCIE_WIN_STATUS_ERROR, Reg.PCIE_WIN_STATUS_REFUSED, Reg.GLB_MODE, Field.of]; omega) | (split <;> decide))
    | (apply Writes.step; case k => with_reducible apply State.postOpen_writes)
    | (apply Writes.step; case k => (with_reducible apply State.setFld_writes_ne) <;> first | decide | (dsimp only [Reg.PCIE_WIN_ACTIVE, Reg.PCIE_WIN_STAGE, Reg.PCIE_WIN_STATUS, Reg.PCIE_WIN_STATUS_ERROR, Reg.PCIE_WIN_STATUS_REFUSED, Reg.GLB_MODE, Field.of]; omega) | (split <;> decide))
    | with_reducible refine Writes.ite ?_ ?_
    | with_reducible refine Writes.foldl ?_ ?_
    | with_reducible refine Writes.foldlFst ?_ ?_
    | decide
    | intro _
    | split

theorem State.deliverPending_writes  (s : State) (fn : Nat) (v : Nat) :
    Writes [.regs, .out, .host] s (State.deliverPending s fn v) := by
  unfold State.deliverPending
  repeat' first
    | dsimp only
    | with_reducible exact Writes.refl _ _
    | (apply Writes.step; case k => with_reducible apply State.deliver_writes)
    | (apply Writes.step; case k => with_reducible apply State.setVec_writes)
    | with_reducible refine Writes.ite ?_ ?_
    | decide
    | split

theorem State.hostChanged_writes  (s : State) :
    Writes [.regs, .mode, .cnts, .posted, .out, .free, .spine, .dram, .poison, .queues, .host, .flows, .dma] s (State.hostChanged s) := by
  unfold State.hostChanged
  repeat' first
    | dsimp only
    | with_reducible exact Writes.refl _ _
    | (apply Writes.step; case k => with_reducible apply State.signalPmes_writes)
    | (apply Writes.step; case k => with_reducible apply State.resumeHost_writes)
    | (apply Writes.step; case k => with_reducible apply State.settleQuiet_writes)
    | decide

theorem execBusMasterEnableChange_writes  (fn : BitVec 6) (enable : Bool) (s : State) {s' : State}
    (h : execBusMasterEnableChange fn enable s = .next s') : Writes [.regs, .mode, .cnts, .posted, .out, .free, .spine, .dram, .poison, .queues, .host, .flows, .dma] s s' := by
  unfold execBusMasterEnableChange at h
  injection h with h
  subst h
  repeat' first
    | dsimp only
    | with_reducible exact Writes.refl _ _
    | (apply Writes.step; case k => with_reducible apply State.hostChanged_writes)
    | (apply Writes.step; case k => with_reducible apply State.setFlag_writes)
    | with_reducible refine Writes.ite ?_ ?_
    | decide
    | split

theorem State.changeMode_writes  (s : State) (fn : Nat) (msix : Bool) (mask : Bool) (msi : Bool) (messages : Nat) (intxDisable : Bool) :
    Writes [.regs, .out, .host] s (State.changeMode s fn msix mask msi messages intxDisable) := by
  unfold State.changeMode
  repeat' first
    | dsimp only
    | ((conv => arg 3; arg 39; skip); with_reducible refine Writes.set_host ?_ ?_ _)
    | with_reducible exact Writes.refl _ _
    | (apply Writes.step; case k => (with_reducible apply State.setFld_writes_ne) <;> first | decide | (dsimp only [Reg.PCIE_FUNC, Reg.PCIE_FUNC_IRQ_MODE, Reg.GLB_MODE, Field.of, cfgMsix, cfgMsi]; omega) | (split <;> decide))
    | (apply Writes.step; case k => (with_reducible apply State.setFlag_writes_ne) <;> first | decide | (dsimp only [Reg.PCIE_FUNC, Reg.PCIE_FUNC_IRQ_MODE, Reg.GLB_MODE, Field.of, cfgMsix, cfgMsi]; omega) | (split <;> decide))
    | (apply Writes.step; case k => with_reducible apply State.sendVector_writes)
    | (apply Writes.step; case k => with_reducible apply State.deliverPending_writes)
    | with_reducible refine Writes.ite ?_ ?_
    | with_reducible refine Writes.foldl ?_ ?_
    | with_reducible refine Writes.foldlFst ?_ ?_
    | decide
    | intro _
    | split

theorem execD3hotEntry_writes  (fn : BitVec 6) (s : State) {s' : State}
    (h : execD3hotEntry fn s = .next s') : Writes [.regs, .mode, .cnts, .posted, .out, .free, .spine, .dram, .poison, .queues, .host, .flows, .dma] s s' := by
  unfold execD3hotEntry at h
  injection h with h
  subst h
  repeat' first
    | dsimp only
    | with_reducible exact Writes.refl _ _
    | (apply Writes.step; case k => with_reducible apply State.hostChanged_writes)
    | (apply Writes.step; case k => with_reducible apply State.setFld_writes)
    | with_reducible refine Writes.ite ?_ ?_
    | decide
    | split

theorem execVectorCoalesceTimeout_writes  (fn : BitVec 6) (vector : BitVec 11) (s : State) {s' : State}
    (h : execVectorCoalesceTimeout fn vector s = .next s') : Writes [.regs, .out, .host] s s' := by
  unfold execVectorCoalesceTimeout at h
  injection h with h
  subst h
  repeat' first
    | dsimp only
    | with_reducible exact Writes.refl _ _
    | (apply Writes.step; case k => with_reducible apply State.sendVector_writes)
    | with_reducible refine Writes.ite ?_ ?_
    | decide
    | split

theorem execUnsupportedRequest_writes  (fn : BitVec 6) (kind : BadRequest) (s : State) {s' : State}
    (h : execUnsupportedRequest fn kind s = .next s') : Writes [.cnts, .out] s s' := by
  unfold execUnsupportedRequest at h
  injection h with h
  subst h
  repeat' first
    | dsimp only
    | with_reducible exact Writes.refl _ _
    | (apply Writes.step; case k => with_reducible apply State.emit_writes)
    | (apply Writes.step; case k => with_reducible apply State.count_writes)
    | with_reducible refine Writes.ite ?_ ?_
    | decide
    | split

theorem execWindowRead_writes  (w : Fin 4) (fn : Fin 4) (off : BitVec 23) (len : Fin 4097) (ue : Bool) (s : State) {s' : State}
    (h : execWindowRead w fn off len ue s = .next s') : Writes [.cnts, .out] s s' := by
  unfold execWindowRead at h
  injection h with h
  subst h
  repeat' first
    | dsimp only
    | with_reducible exact Writes.refl _ _
    | (apply Writes.step; case k => with_reducible apply State.windowRead_writes)
    | (apply Writes.step; case k => with_reducible apply State.unsupported_writes)
    | with_reducible refine Writes.ite ?_ ?_
    | decide
    | split

theorem execVectorUnmask_writes  (fn : BitVec 6) (vector : BitVec 11) (s : State) {s' : State}
    (h : execVectorUnmask fn vector s = .next s') : Writes [.regs, .out, .host] s s' := by
  unfold execVectorUnmask at h
  injection h with h
  subst h
  repeat' first
    | dsimp only
    | with_reducible exact Writes.refl _ _
    | (apply Writes.step; case k => with_reducible apply State.setVec_writes)
    | (apply Writes.step; case k => with_reducible apply State.deliverPending_writes)
    | with_reducible refine Writes.ite ?_ ?_
    | decide
    | split

theorem execWinCommit_writes  (windows : BitVec 4) (s : State) {s' : State}
    (h : execWinCommit windows s = .next s') : Writes [.regs, .posted, .free] s s' := by
  unfold execWinCommit at h
  injection h with h
  subst h
  repeat' first
    | dsimp only
    | with_reducible exact Writes.refl _ _
    | (apply Writes.step; case k => with_reducible apply State.commitWindows_writes)
    | decide

theorem execD0Return_writes  (fn : BitVec 6) (s : State) {s' : State}
    (h : execD0Return fn s = .next s') : Writes [.regs, .mode, .cnts, .posted, .out, .free, .spine, .dram, .poison, .queues, .host, .flows, .dma] s s' := by
  unfold execD0Return at h
  injection h with h
  subst h
  repeat' first
    | dsimp only
    | with_reducible exact Writes.refl _ _
    | (apply Writes.step; case k => with_reducible apply State.hostChanged_writes)
    | (apply Writes.step; case k => with_reducible apply State.setFld_writes)
    | with_reducible refine Writes.ite ?_ ?_
    | decide
    | split

theorem execInterruptModeChange_writes  (fn : BitVec 6) (msix : Bool) (mask : Bool) (msi : Bool) (messages : BitVec 6) (intxDisable : Bool) (s : State) {s' : State}
    (h : execInterruptModeChange fn msix mask msi messages intxDisable s = .next s') : Writes [.regs, .out, .host] s s' := by
  unfold execInterruptModeChange at h
  injection h with h
  subst h
  repeat' first
    | dsimp only
    | with_reducible exact Writes.refl _ _
    | (apply Writes.step; case k => with_reducible apply State.changeMode_writes)
    | decide

theorem execVfEnable_writes  (enable : Bool) (numVfs : BitVec 16) (reads : List HostRead) (s : State) {s' : State}
    (h : execVfEnable enable numVfs reads s = .next s') : Writes [.regs, .mode, .stage, .cnts, .posted, .out, .free, .boot, .frames, .queues, .host, .ports, .flows, .items, .ring, .engines, .dma, .evt, .obs] s s' := by
  unfold execVfEnable at h
  injection h with h
  subst h
  repeat' first
    | dsimp only
    | ((conv => arg 3; arg 39; skip); with_reducible refine Writes.set_host ?_ ?_ _)
    | with_reducible exact Writes.refl _ _
    | (apply Writes.step; case k => with_reducible apply State.settleQuiet_writes)
    | (apply Writes.step; case k => with_reducible apply State.setFlag_writes)
    | (apply Writes.step; case k => with_reducible apply State.clearVfs_writes)
    | with_reducible refine Writes.ite ?_ ?_
    | with_reducible refine Writes.foldl ?_ ?_
    | with_reducible refine Writes.foldlFst ?_ ?_
    | decide
    | intro _
    | split

theorem execLinkChange_writes  (speed : BitVec 3) (width : BitVec 4) (eqDone : Bool) (reversed : Bool) (lstate : BitVec 3) (s : State) {s' : State}
    (h : execLinkChange speed width eqDone reversed lstate s = .next s') : Writes [.regs, .posted, .free] s s' := by
  unfold execLinkChange at h
  injection h with h
  subst h
  repeat' first
    | dsimp only
    | with_reducible exact Writes.refl _ _
    | (apply Writes.step; case k => (with_reducible apply State.setFlag_writes_ne) <;> first | decide | (dsimp only [Reg.PCIE_LINK, Reg.PCIE_LINK_EQ_DONE, Reg.PCIE_LINK_LSTATE, Reg.PCIE_LINK_REVERSED, Reg.PCIE_LINK_SPEED, Reg.PCIE_LINK_UP, Reg.PCIE_LINK_WIDTH, Reg.GLB_MODE, Field.of]; omega) | (split <;> decide))
    | (apply Writes.step; case k => (with_reducible apply State.setFld_writes_ne) <;> first | decide | (dsimp only [Reg.PCIE_LINK, Reg.PCIE_LINK_EQ_DONE, Reg.PCIE_LINK_LSTATE, Reg.PCIE_LINK_REVERSED, Reg.PCIE_LINK_SPEED, Reg.PCIE_LINK_UP, Reg.PCIE_LINK_WIDTH, Reg.GLB_MODE, Field.of]; omega) | (split <;> decide))
    | (apply Writes.step; case k => with_reducible apply State.postOpen_writes)
    | decide

end Sys2Proof.Machine
end

