-- ==== Sys2Proof/Laws/WritesImpose.lean ====
section
/-! SUPPORT. What each operation of Machine/Impose.lean writes. -/

namespace Sys2Proof.Machine

theorem State.reimpMigratedOut_writes  (s : State) (q : Nat) :
    Writes [.regs, .cnts, .imp, .units, .spine, .dram, .poison, .flows, .items, .engines] s (State.reimpMigratedOut s q) := by
  unfold State.reimpMigratedOut
  repeat' first
    | dsimp only
    | ((conv => arg 3; arg 39; skip); with_reducible refine Writes.set_imp ?_ ?_ _)
    | with_reducible exact Writes.refl _ _
    | (apply Writes.step; case k => with_reducible apply State.migrateOut_writes)
    | (apply Writes.step; case k => with_reducible apply State.reimpPhase_writes)
    | with_reducible refine Writes.ite ?_ ?_
    | decide
    | (with_reducible (apply Writes.fst; case e => assumption))
    | split

theorem State.katFails_writes  (s : State) (e : Nat) :
    Writes [.cnts, .posted] s (State.katFails s e) := by
  unfold State.katFails
  repeat' first
    | dsimp only
    | with_reducible exact Writes.refl _ _
    | (apply Writes.step; case k => with_reducible apply State.post_writes)
    | (apply Writes.step; case k => with_reducible apply State.count_writes)
    | decide

theorem State.endTests_writes  (s : State) (f : Nat) (failed : Nat → Bool) :
    Writes [.regs, .mode, .cnts, .posted, .lastPost, .out, .free, .imp, .units, .spine, .cells, .frames, .dram, .poison, .queues, .ports, .flows, .items, .recCopies, .ring, .engines, .evt, .cart, .guard, .tb] s (State.endTests s f failed) := by
  unfold State.endTests
  repeat' first
    | dsimp only
    | with_reducible exact Writes.refl _ _
    | (apply Writes.step; case k => with_reducible apply State.count_writes)
    | (apply Writes.step; case k => with_reducible apply State.setEngState_writes)
    | (apply Writes.step; case k => with_reducible apply State.takeAll_writes)
    | (apply Writes.step; case k => with_reducible apply State.checkedFault_writes)
    | (apply Writes.step; case k => with_reducible apply State.katFails_writes)
    | with_reducible refine Writes.ite ?_ ?_
    | with_reducible refine Writes.foldl ?_ ?_
    | with_reducible refine Writes.foldlFst ?_ ?_
    | decide
    | intro _
    | split

theorem State.rejoinStandby_writes  (s : State) :
    Writes [.regs] s (State.rejoinStandby s) := by
  unfold State.rejoinStandby
  repeat' first
    | dsimp only
    | with_reducible exact Writes.refl _ _
    | (apply Writes.step; case k => with_reducible apply State.setGuard_writes)
    | with_reducible refine Writes.ite ?_ ?_
    | decide
    | split

theorem State.quireResetDone_writes  (s : State) (q : Nat) (marchOk : Bool) (failed : BitVec 10) :
    Writes [.regs, .mode, .cnts, .posted, .lastPost, .out, .free, .imp, .units, .spine, .cells, .frames, .dram, .poison, .queues, .ports, .flows, .items, .recCopies, .ring, .engines, .evt, .cart, .guard, .tb] s (State.quireResetDone s q marchOk failed) := by
  unfold State.quireResetDone
  repeat' first
    | dsimp only
    | ((conv => arg 3; arg 39; skip); with_reducible refine Writes.set_units ?_ ?_ _)
    | with_reducible exact Writes.refl _ _
    | (apply Writes.step; case k => with_reducible apply State.putBit_writes)
    | (apply Writes.step; case k => with_reducible apply State.endTests_writes)
    | (apply Writes.step; case k => with_reducible apply State.isolateQuire_writes)
    | (apply Writes.step; case k => with_reducible apply State.showDegraded_writes)
    | (apply Writes.step; case k => with_reducible apply State.rejoinStandby_writes)
    | (apply Writes.step; case k => with_reducible apply State.restore_writes)
    | (apply Writes.step; case k => with_reducible apply State.migrateBack_writes)
    | with_reducible refine Writes.ite ?_ ?_
    | decide
    | split

theorem State.imposePort_writes  (s : State) (n : Nat) (p : PortRec) :
    Writes [.regs, .cnts, .posted, .lastPost, .out, .free, .ports] s (State.imposePort s n p) := by
  unfold State.imposePort
  repeat' first
    | dsimp only
    | with_reducible exact Writes.refl _ _
    | (apply Writes.step; case k => (with_reducible apply State.setFld_writes_ne) <;> first | decide | (dsimp only [Reg.PORT_ADMIN_BASE_LO, Reg.PORT_ADMIN_CYCLE, Reg.PORT_ADMIN_CYCLE_CYCLE_NS, Reg.PORT_ADMIN_GCL_LO, Reg.PORT_ADMIN_LEN, Reg.PORT_ADMIN_LEN_LEN, Reg.PORT_HOLD_ADVANCE, Reg.PORT_HOLD_ADVANCE_HOLD_NS, Reg.PORT_LEAD, Reg.PORT_LEAD_LEAD_NS, Reg.PORT_MEDIA, Reg.PORT_MEDIA_FEC, Reg.PORT_MEDIA_MEDIA, Reg.PORT_MEDIA_PREEMPT_CAP, Reg.PORT_MEDIA_SPEED, Reg.PORT_PLCA_CTRL, Reg.PORT_PLCA_CTRL_COUNT, Reg.PORT_PLCA_CTRL_ID, Reg.PORT_RX_FILTER, Reg.PORT_RX_FILTER_MODE, Reg.GLB_MODE, Field.of]; omega) | (split <;> decide))
    | (apply Writes.step; case k => (with_reducible apply State.setFlag_writes_ne) <;> first | decide | (dsimp only [Reg.PORT_ADMIN_BASE_LO, Reg.PORT_ADMIN_CYCLE, Reg.PORT_ADMIN_CYCLE_CYCLE_NS, Reg.PORT_ADMIN_GCL_LO, Reg.PORT_ADMIN_LEN, Reg.PORT_ADMIN_LEN_LEN, Reg.PORT_HOLD_ADVANCE, Reg.PORT_HOLD_ADVANCE_HOLD_NS, Reg.PORT_LEAD, Reg.PORT_LEAD_LEAD_NS, Reg.PORT_MEDIA, Reg.PORT_MEDIA_FEC, Reg.PORT_MEDIA_MEDIA, Reg.PORT_MEDIA_PREEMPT_CAP, Reg.PORT_MEDIA_SPEED, Reg.PORT_PLCA_CTRL, Reg.PORT_PLCA_CTRL_COUNT, Reg.PORT_PLCA_CTRL_ID, Reg.PORT_RX_FILTER, Reg.PORT_RX_FILTER_MODE, Reg.GLB_MODE, Field.of]; omega) | (split <;> decide))
    | (apply Writes.step; case k => with_reducible apply State.applyPlca_writes)
    | (apply Writes.step; case k => with_reducible apply State.setPort_writes)
    | (apply Writes.step; case k => (with_reducible apply State.wrFull_writes_ne) <;> first | decide | (dsimp only [Reg.PORT_ADMIN_BASE_LO, Reg.PORT_ADMIN_CYCLE, Reg.PORT_ADMIN_CYCLE_CYCLE_NS, Reg.PORT_ADMIN_GCL_LO, Reg.PORT_ADMIN_LEN, Reg.PORT_ADMIN_LEN_LEN, Reg.PORT_HOLD_ADVANCE, Reg.PORT_HOLD_ADVANCE_HOLD_NS, Reg.PORT_LEAD, Reg.PORT_LEAD_LEAD_NS, Reg.PORT_MEDIA, Reg.PORT_MEDIA_FEC, Reg.PORT_MEDIA_MEDIA, Reg.PORT_MEDIA_PREEMPT_CAP, Reg.PORT_MEDIA_SPEED, Reg.PORT_PLCA_CTRL, Reg.PORT_PLCA_CTRL_COUNT, Reg.PORT_PLCA_CTRL_ID, Reg.PORT_RX_FILTER, Reg.PORT_RX_FILTER_MODE, Reg.GLB_MODE, Field.of]; omega) | (split <;> decide))
    | (apply Writes.step; case k => with_reducible apply State.gateRefresh_writes)
    | (apply Writes.step; case k => (with_reducible apply State.wr64_writes_ne) <;> first | decide | (dsimp only [Reg.PORT_ADMIN_BASE_LO, Reg.PORT_ADMIN_CYCLE, Reg.PORT_ADMIN_CYCLE_CYCLE_NS, Reg.PORT_ADMIN_GCL_LO, Reg.PORT_ADMIN_LEN, Reg.PORT_ADMIN_LEN_LEN, Reg.PORT_HOLD_ADVANCE, Reg.PORT_HOLD_ADVANCE_HOLD_NS, Reg.PORT_LEAD, Reg.PORT_LEAD_LEAD_NS, Reg.PORT_MEDIA, Reg.PORT_MEDIA_FEC, Reg.PORT_MEDIA_MEDIA, Reg.PORT_MEDIA_PREEMPT_CAP, Reg.PORT_MEDIA_SPEED, Reg.PORT_PLCA_CTRL, Reg.PORT_PLCA_CTRL_COUNT, Reg.PORT_PLCA_CTRL_ID, Reg.PORT_RX_FILTER, Reg.PORT_RX_FILTER_MODE, Reg.GLB_MODE, Field.of]; omega) | (split <;> decide))
    | (apply Writes.step; case k => with_reducible apply State.pendGcl_writes)
    | with_reducible refine Writes.ite ?_ ?_
    | with_reducible refine Writes.foldl ?_ ?_
    | with_reducible refine Writes.foldlFst ?_ ?_
    | decide
    | intro _
    | split

theorem State.imposeOwn_writes  (s : State) :
    Writes [.free, .ptp] s (State.imposeOwn s) := by
  unfold State.imposeOwn
  repeat' first
    | dsimp only
    | ((conv => arg 3; arg 39; skip); with_reducible refine Writes.set_ptp ?_ ?_ _)
    | with_reducible exact Writes.refl _ _
    | (apply Writes.step; case k => with_reducible apply State.draw_writes)
    | decide

theorem State.resetRefusal_writes  (s : State) (code : Nat) :
    Writes [.regs] s (State.resetRefusal s code) := by
  unfold State.resetRefusal
  repeat' first
    | dsimp only
    | with_reducible exact Writes.refl _ _
    | (apply Writes.step; case k => (with_reducible apply State.setFld_writes_ne) <;> first | decide | (dsimp only [Reg.GLB_RESET_STATUS, Reg.GLB_RESET_STATUS_REFUSAL, Reg.GLB_MODE, Field.of]; omega) | (split <;> decide))
    | decide

theorem State.startHandover_writes  (s : State) (origin : Nat) (quire : Nat) :
    Writes [.regs, .engines, .guard] s (State.startHandover s origin quire) := by
  unfold State.startHandover
  repeat' first
    | dsimp only
    | ((conv => arg 3; arg 39; skip); with_reducible refine Writes.set_guard ?_ ?_ _)
    | with_reducible exact Writes.refl _ _
    | (apply Writes.step; case k => with_reducible apply State.setGuard_writes)
    | (apply Writes.step; case k => with_reducible apply State.raiseRoles_writes)
    | decide

theorem State.quireReset_writes  (s : State) (q : Nat) :
    Writes [.regs, .mode, .cnts, .posted, .free, .units, .spine, .dram, .poison, .flows, .items, .engines, .guard] s (State.quireReset s q) := by
  unfold State.quireReset
  repeat' first
    | dsimp only
    | with_reducible exact Writes.refl _ _
    | (apply Writes.step; case k => with_reducible apply State.resetRefusal_writes)
    | (apply Writes.step; case k => with_reducible apply State.startHandover_writes)
    | (apply Writes.step; case k => with_reducible apply State.quireResetStart_writes)
    | (apply Writes.step; case k => with_reducible apply State.refuseHandover_writes)
    | with_reducible refine Writes.ite ?_ ?_
    | decide
    | split

theorem State.imposeRing_writes  (s : State) (r : RingSheet) :
    Writes [.regs, .cnts, .posted, .free, .ring, .engines, .evt] s (State.imposeRing s r) := by
  unfold State.imposeRing
  repeat' first
    | dsimp only
    | ((conv => arg 3; arg 39; skip); with_reducible refine Writes.set_ring ?_ ?_ _)
    | with_reducible exact Writes.refl _ _
    | (apply Writes.step; case k => (with_reducible apply State.setFld_writes_ne) <;> first | decide | (dsimp only [Reg.RING_CTRL, Reg.RING_CTRL_ENABLE, Reg.RING_CYCLE, Reg.RING_CYCLE_CYCLE_NS, Reg.RING_ETHERTYPE, Reg.RING_ETHERTYPE_ETHERTYPE, Reg.RING_GUTTER, Reg.RING_GUTTER_GUTTER_NS, Reg.RING_MISS_LIMIT, Reg.RING_MISS_LIMIT_LIMIT, Reg.RING_PRIORITY, Reg.RING_PRIORITY_PRIORITY, Reg.GLB_MODE, Field.of]; omega) | (split <;> decide))
    | (apply Writes.step; case k => with_reducible apply State.loadRingBank_writes)
    | (apply Writes.step; case k => with_reducible apply State.setRing_writes)
    | (apply Writes.step; case k => with_reducible apply State.setBridge_writes)
    | (apply Writes.step; case k => with_reducible apply State.freshRing_writes)
    | (apply Writes.step; case k => (with_reducible apply State.setFlag_writes_ne) <;> first | decide | (dsimp only [Reg.RING_CTRL, Reg.RING_CTRL_ENABLE, Reg.RING_CYCLE, Reg.RING_CYCLE_CYCLE_NS, Reg.RING_ETHERTYPE, Reg.RING_ETHERTYPE_ETHERTYPE, Reg.RING_GUTTER, Reg.RING_GUTTER_GUTTER_NS, Reg.RING_MISS_LIMIT, Reg.RING_MISS_LIMIT_LIMIT, Reg.RING_PRIORITY, Reg.RING_PRIORITY_PRIORITY, Reg.GLB_MODE, Field.of]; omega) | (split <;> decide))
    | with_reducible refine Writes.ite ?_ ?_
    | decide
    | split

theorem execQuireResetDone_writes  (quire : Fin 16) (marchOk : Bool) (failed : BitVec 10) (s : State) {s' : State}
    (h : execQuireResetDone quire marchOk failed s = .next s') : Writes [.regs, .mode, .cnts, .posted, .lastPost, .out, .free, .imp, .units, .spine, .cells, .frames, .dram, .poison, .queues, .ports, .flows, .items, .recCopies, .ring, .engines, .evt, .cart, .guard, .tb] s s' := by
  unfold execQuireResetDone at h
  injection h with h
  subst h
  repeat' first
    | dsimp only
    | with_reducible exact Writes.refl _ _
    | (apply Writes.step; case k => with_reducible apply State.quireResetDone_writes)
    | decide

theorem State.isolateMismatch_writes  (s : State) (q : Nat) :
    Writes [.regs, .mode, .cnts, .posted, .out, .free, .imp, .units, .spine, .dram, .poison, .ports, .flows, .items, .ring, .engines, .evt, .cart, .guard, .tb] s (State.isolateMismatch s q) := by
  unfold State.isolateMismatch
  repeat' first
    | dsimp only
    | with_reducible exact Writes.refl _ _
    | (apply Writes.step; case k => with_reducible apply State.setFld_writes)
    | (apply Writes.step; case k => with_reducible apply State.putBit_writes)
    | (apply Writes.step; case k => with_reducible apply State.isolateQuire_writes)
    | (apply Writes.step; case k => with_reducible apply State.postImp_writes)
    | decide
    | (with_reducible (apply Writes.fst; case e => assumption))
    | split

theorem State.showImage_writes  (s : State) (i : Image) :
    Writes [.regs] s (State.showImage s i) := by
  unfold State.showImage
  repeat' first
    | dsimp only
    | with_reducible exact Writes.refl _ _
    | (apply Writes.step; case k => (with_reducible apply State.setFlag_writes_ne) <;> first | decide | (dsimp only [Reg.IMP_RUN_KEY, Reg.IMP_RUN_KEY_OWNER_SIGNED, Reg.IMP_RUN_SERIAL_LO, Reg.GLB_MODE, Field.of]; omega) | (split <;> decide))
    | (apply Writes.step; case k => (with_reducible apply State.wr64_writes_ne) <;> first | decide | (dsimp only [Reg.IMP_RUN_KEY, Reg.IMP_RUN_KEY_OWNER_SIGNED, Reg.IMP_RUN_SERIAL_LO, Reg.GLB_MODE, Field.of]; omega) | (split <;> decide))
    | decide

theorem State.imposeEngine_writes  (s : State) (t : StructureSheet) (e : Nat) :
    Writes [.regs] s (State.imposeEngine s t e) := by
  unfold State.imposeEngine
  repeat' first
    | dsimp only
    | with_reducible exact Writes.refl _ _
    | (apply Writes.step; case k => (with_reducible apply State.setFlag_writes_ne) <;> first | decide | (dsimp only [Reg.ENG_ROLE, Reg.ENG_ROLE_PRIV, Reg.ENG_ROLE_ROLE, Reg.ENG_ROLE_SLOT, Reg.GLB_MODE, Field.of]; omega) | (split <;> decide))
    | (apply Writes.step; case k => (with_reducible apply State.setFld_writes_ne) <;> first | decide | (dsimp only [Reg.ENG_ROLE, Reg.ENG_ROLE_PRIV, Reg.ENG_ROLE_ROLE, Reg.ENG_ROLE_SLOT, Reg.GLB_MODE, Field.of]; omega) | (split <;> decide))
    | (apply Writes.step; case k => with_reducible apply State.setEngState_writes)
    | with_reducible refine Writes.ite ?_ ?_
    | decide
    | split

theorem State.imposeFolio_writes  (s : State) (t : StructureSheet) (f : Nat) :
    Writes [.regs, .imp] s (State.imposeFolio s t f) := by
  unfold State.imposeFolio
  repeat' first
    | dsimp only
    | ((conv => arg 3; arg 39; skip); with_reducible refine Writes.set_imp ?_ ?_ _)
    | with_reducible exact Writes.refl _ _
    | (apply Writes.step; case k => (with_reducible apply State.wrN_writes_ne) <;> first | decide | (dsimp only [Reg.ENG_FOLIO_BUNDLE_HI, Reg.ENG_FOLIO_BUNDLE_LO, Reg.GLB_MODE, Field.of]; omega) | (split <;> decide))
    | decide
    | (with_reducible (apply Writes.fst; case e => assumption))
    | split

theorem State.imposeTime_writes  (s : State) (t : TimeSheet) :
    Writes [.regs] s (State.imposeTime s t) := by
  unfold State.imposeTime
  repeat' first
    | dsimp only
    | with_reducible exact Writes.refl _ _
    | (apply Writes.step; case k => (with_reducible apply State.wrN_writes_ne) <;> first | decide | (dsimp only [Reg.PTP_CTRL, Reg.PTP_CTRL_ONE_STEP, Reg.PTP_CTRL_PEER_DELAY, Reg.PTP_DOM_CFG, Reg.PTP_DOM_CFG_DOMAIN, Reg.PTP_DOM_CFG_ROLE, Reg.TB_JUMP, Reg.TB_LOCK_BOUND, Reg.TB_SETUP_MARGIN, Reg.TB_SLEW_PPB, Reg.TB_STATUS, Reg.TB_STATUS_DUAL, Reg.TB_STATUS_WORKING, Reg.GLB_MODE, Field.of]; omega) | (split <;> decide))
    | (apply Writes.step; case k => (with_reducible apply State.setFld_writes_ne) <;> first | decide | (dsimp only [Reg.PTP_CTRL, Reg.PTP_CTRL_ONE_STEP, Reg.PTP_CTRL_PEER_DELAY, Reg.PTP_DOM_CFG, Reg.PTP_DOM_CFG_DOMAIN, Reg.PTP_DOM_CFG_ROLE, Reg.TB_JUMP, Reg.TB_LOCK_BOUND, Reg.TB_SETUP_MARGIN, Reg.TB_SLEW_PPB, Reg.TB_STATUS, Reg.TB_STATUS_DUAL, Reg.TB_STATUS_WORKING, Reg.GLB_MODE, Field.of]; omega) | (split <;> decide))
    | (apply Writes.step; case k => (with_reducible apply State.setFlag_writes_ne) <;> first | decide | (dsimp only [Reg.PTP_CTRL, Reg.PTP_CTRL_ONE_STEP, Reg.PTP_CTRL_PEER_DELAY, Reg.PTP_DOM_CFG, Reg.PTP_DOM_CFG_DOMAIN, Reg.PTP_DOM_CFG_ROLE, Reg.TB_JUMP, Reg.TB_LOCK_BOUND, Reg.TB_SETUP_MARGIN, Reg.TB_SLEW_PPB, Reg.TB_STATUS, Reg.TB_STATUS_DUAL, Reg.TB_STATUS_WORKING, Reg.GLB_MODE, Field.of]; omega) | (split <;> decide))
    | with_reducible refine Writes.ite ?_ ?_
    | with_reducible refine Writes.foldl ?_ ?_
    | with_reducible refine Writes.foldlFst ?_ ?_
    | decide
    | intro _
    | split

theorem State.imposePin_writes  (s : State) (n : Nat) (p : PinRec) :
    Writes [.regs] s (State.imposePin s n p) := by
  unfold State.imposePin
  repeat' first
    | dsimp only
    | with_reducible exact Writes.refl _ _
    | (apply Writes.step; case k => (with_reducible apply State.setFld_writes_ne) <;> first | decide | (dsimp only [Reg.EVT_LEVEL_OUT, Reg.EVT_PIN_CFG, Reg.EVT_PIN_CFG_ALIGN, Reg.EVT_PIN_CFG_ALIGN_PORT, Reg.EVT_PIN_CFG_FILTER_NS, Reg.EVT_PIN_CFG_FUNCTION, Reg.EVT_PIN_CFG_POLARITY, Reg.GLB_MODE, Field.of]; omega) | (split <;> decide))
    | (apply Writes.step; case k => (with_reducible apply State.wrN_writes_ne) <;> first | decide | (dsimp only [Reg.EVT_LEVEL_OUT, Reg.EVT_PIN_CFG, Reg.EVT_PIN_CFG_ALIGN, Reg.EVT_PIN_CFG_ALIGN_PORT, Reg.EVT_PIN_CFG_FILTER_NS, Reg.EVT_PIN_CFG_FUNCTION, Reg.EVT_PIN_CFG_POLARITY, Reg.GLB_MODE, Field.of]; omega) | (split <;> decide))
    | (apply Writes.step; case k => with_reducible apply State.setPinLevel_writes)
    | with_reducible refine Writes.ite ?_ ?_
    | decide
    | split

theorem State.startGuard_writes  (s : State) (t : StructureSheet) :
    Writes [.regs, .guard] s (State.startGuard s t) := by
  unfold State.startGuard
  repeat' first
    | dsimp only
    | ((conv => arg 3; arg 39; skip); with_reducible refine Writes.set_guard ?_ ?_ _)
    | with_reducible exact Writes.refl _ _
    | (apply Writes.step; case k => with_reducible apply State.setGuard_writes)
    | (apply Writes.step; case k => (with_reducible apply State.setFld_writes_ne) <;> first | decide | (dsimp only [Reg.GUARD_EPOCH, Reg.GUARD_EPOCH_EPOCH_US, Reg.GUARD_STATUS, Reg.GUARD_STATUS_ACTIVE, Reg.GUARD_STATUS_STANDBY, Reg.GLB_MODE, Field.of]; omega) | (split <;> decide))
    | with_reducible refine Writes.ite ?_ ?_
    | decide
    | split

theorem State.checkCode_writes  (s : State) :
    Writes [.regs, .mode, .cnts, .posted, .out, .free, .imp, .units, .spine, .dram, .poison, .ports, .flows, .items, .ring, .engines, .evt, .cart, .guard, .tb] s (State.checkCode s) := by
  unfold State.checkCode
  repeat' first
    | dsimp only
    | with_reducible exact Writes.refl _ _
    | (apply Writes.step; case k => with_reducible apply State.isolateMismatch_writes)
    | with_reducible refine Writes.ite ?_ ?_
    | with_reducible refine Writes.foldl ?_ ?_
    | with_reducible refine Writes.foldlFst ?_ ?_
    | decide
    | intro _
    | (with_reducible (apply Writes.fst; case e => assumption))
    | split

theorem State.imposed_writes  (s : State) (i : Image) (out : BitVec 160) :
    Writes [.regs, .mode, .cnts, .posted, .lastPost, .out, .free, .imp, .units, .spine, .dram, .poison, .ports, .flows, .items, .ring, .engines, .evt, .cart, .guard, .tb, .ptp] s (State.imposed s i out) := by
  unfold State.imposed
  repeat' first
    | dsimp only
    | ((conv => arg 3; arg 39; skip); with_reducible refine Writes.set_flows ?_ ?_ _)
    | ((conv => arg 3; arg 39; skip); with_reducible refine Writes.set_imp ?_ ?_ _)
    | with_reducible exact Writes.refl _ _
    | (apply Writes.step; case k => with_reducible apply State.showImage_writes)
    | (apply Writes.step; case k => with_reducible apply State.setFld_writes)
    | (apply Writes.step; case k => with_reducible apply State.imposeEngine_writes)
    | (apply Writes.step; case k => with_reducible apply State.imposeFolio_writes)
    | (apply Writes.step; case k => with_reducible apply State.wrN_writes)
    | (apply Writes.step; case k => with_reducible apply State.imposeOwn_writes)
    | (apply Writes.step; case k => with_reducible apply State.imposeTime_writes)
    | (apply Writes.step; case k => with_reducible apply State.imposePort_writes)
    | (apply Writes.step; case k => with_reducible apply State.imposeRing_writes)
    | (apply Writes.step; case k => with_reducible apply State.imposePin_writes)
    | (apply Writes.step; case k => with_reducible apply State.startGuard_writes)
    | (apply Writes.step; case k => with_reducible apply State.draw_writes)
    | (apply Writes.step; case k => with_reducible apply State.engineFails_writes)
    | (apply Writes.step; case k => with_reducible apply State.checkCode_writes)
    | (apply Writes.step; case k => with_reducible apply State.transition_writes)
    | (apply Writes.step; case k => with_reducible apply State.settleQuiet_writes)
    | with_reducible refine Writes.ite ?_ ?_
    | with_reducible refine Writes.foldl ?_ ?_
    | with_reducible refine Writes.foldlFst ?_ ?_
    | decide
    | intro _
    | split

theorem State.engineKatDone_writes  (s : State) (pass : Bool) :
    Writes [.regs, .mode, .cnts, .posted, .out, .free, .units, .engines] s (State.engineKatDone s pass) := by
  unfold State.engineKatDone
  repeat' first
    | dsimp only
    | ((conv => arg 3; arg 39; skip); with_reducible refine Writes.set_units ?_ ?_ _)
    | with_reducible exact Writes.refl _ _
    | (apply Writes.step; case k => with_reducible apply State.count_writes)
    | (apply Writes.step; case k => with_reducible apply State.setFlag_writes)
    | (apply Writes.step; case k => with_reducible apply State.setFld_writes)
    | (apply Writes.step; case k => with_reducible apply State.setEngState_writes)
    | (apply Writes.step; case k => with_reducible apply State.restore_writes)
    | (apply Writes.step; case k => with_reducible apply State.degrade_writes)
    | (apply Writes.step; case k => with_reducible apply State.markOut_writes)
    | (apply Writes.step; case k => with_reducible apply State.katFails_writes)
    | with_reducible refine Writes.ite ?_ ?_
    | decide
    | (with_reducible (apply Writes.fst; case e => assumption))
    | split

theorem execAbandon_writes  (s : State) {s' : State}
    (h : execAbandon s = .next s') : Writes [.regs] s s' := by
  unfold execAbandon at h
  injection h with h
  subst h
  repeat' first
    | dsimp only
    | with_reducible exact Writes.refl _ _
    | (apply Writes.step; case k => (with_reducible apply State.setFld_writes_ne) <;> first | decide | (dsimp only [Reg.IMP_REIMP_STATUS, Reg.IMP_REIMP_STATUS_STATE, Reg.GLB_MODE, Field.of]; omega) | (split <;> decide))
    | with_reducible refine Writes.ite ?_ ?_
    | decide
    | split

theorem State.reimpDone_writes  (s : State) :
    Writes [.regs, .mode, .cnts, .posted, .out, .free, .imp, .units, .spine, .dram, .poison, .flows, .items, .engines] s (State.reimpDone s) := by
  unfold State.reimpDone
  repeat' first
    | dsimp only
    | ((conv => arg 3; arg 39; skip); with_reducible refine Writes.set_imp ?_ ?_ _)
    | with_reducible exact Writes.refl _ _
    | (apply Writes.step; case k => with_reducible apply State.migrateBack_writes)
    | (apply Writes.step; case k => with_reducible apply State.putBit_writes)
    | (apply Writes.step; case k => with_reducible apply State.postImp_writes)
    | (apply Writes.step; case k => with_reducible apply State.setFld_writes)
    | (apply Writes.step; case k => with_reducible apply State.showImage_writes)
    | (apply Writes.step; case k => with_reducible apply State.settleQuiet_writes)
    | (apply Writes.step; case k => with_reducible apply State.rejoinStandby_writes)
    | (apply Writes.step; case k => with_reducible apply State.showDegraded_writes)
    | (apply Writes.step; case k => with_reducible apply State.transition_writes)
    | with_reducible refine Writes.ite ?_ ?_
    | with_reducible refine Writes.foldl ?_ ?_
    | with_reducible refine Writes.foldlFst ?_ ?_
    | decide
    | intro _
    | (with_reducible (apply Writes.fst; case e => assumption))
    | split

theorem State.reimpGo_writes  (s : State) :
    Writes [.regs, .posted, .free] s (State.reimpGo s) := by
  unfold State.reimpGo
  repeat' first
    | dsimp only
    | with_reducible exact Writes.refl _ _
    | (apply Writes.step; case k => with_reducible apply State.postImp_writes)
    | (apply Writes.step; case k => (with_reducible apply State.setFld_writes_ne) <;> first | decide | (dsimp only [Reg.IMP_REIMP_STATUS, Reg.IMP_REIMP_STATUS_DONE_QUIRES, Reg.IMP_REIMP_STATUS_REASON, Reg.IMP_REIMP_STATUS_STATE, Reg.GLB_MODE, Field.of]; omega) | (split <;> decide))
    | (apply Writes.step; case k => with_reducible apply State.refuseReimp_writes)
    | with_reducible refine Writes.ite ?_ ?_
    | decide
    | split

theorem State.reloadRoles_writes  (s : State) (q : Nat) (i : Image) :
    Writes [.regs] s (State.reloadRoles s q i) := by
  unfold State.reloadRoles
  repeat' first
    | dsimp only
    | with_reducible exact Writes.refl _ _
    | (apply Writes.step; case k => (with_reducible apply State.setFlag_writes_ne) <;> first | decide | (dsimp only [Reg.ENG_ROLE, Reg.ENG_ROLE_PRIV, Reg.ENG_ROLE_ROLE, Reg.ENG_ROLE_SLOT, Reg.GLB_MODE, Field.of]; omega) | (split <;> decide))
    | (apply Writes.step; case k => (with_reducible apply State.setFld_writes_ne) <;> first | decide | (dsimp only [Reg.ENG_ROLE, Reg.ENG_ROLE_PRIV, Reg.ENG_ROLE_ROLE, Reg.ENG_ROLE_SLOT, Reg.GLB_MODE, Field.of]; omega) | (split <;> decide))
    | with_reducible refine Writes.ite ?_ ?_
    | with_reducible refine Writes.foldl ?_ ?_
    | with_reducible refine Writes.foldlFst ?_ ?_
    | decide
    | intro _
    | split

theorem State.reimpLoaded_writes  (s : State) (q : Nat) (records : List CodeRec) :
    Writes [.regs, .mode, .cnts, .posted, .out, .free, .imp, .units, .spine, .dram, .poison, .ports, .flows, .items, .ring, .engines, .evt, .cart, .guard, .tb] s (State.reimpLoaded s q records) := by
  unfold State.reimpLoaded
  repeat' first
    | dsimp only
    | ((conv => arg 3; arg 39; skip); with_reducible refine Writes.set_imp ?_ ?_ _)
    | with_reducible exact Writes.refl _ _
    | (apply Writes.step; case k => with_reducible apply State.imposeFolio_writes)
    | (apply Writes.step; case k => with_reducible apply State.reloadRoles_writes)
    | (apply Writes.step; case k => with_reducible apply State.reimpPhase_writes)
    | (apply Writes.step; case k => with_reducible apply State.isolateMismatch_writes)
    | with_reducible refine Writes.ite ?_ ?_
    | decide
    | (with_reducible (apply Writes.fst; case e => assumption))
    | split

theorem execEngineKatDone_writes  (pass : Bool) (s : State) {s' : State}
    (h : execEngineKatDone pass s = .next s') : Writes [.regs, .mode, .cnts, .posted, .out, .free, .units, .engines] s s' := by
  unfold execEngineKatDone at h
  injection h with h
  subst h
  repeat' first
    | dsimp only
    | with_reducible exact Writes.refl _ _
    | (apply Writes.step; case k => with_reducible apply State.engineKatDone_writes)
    | decide

theorem execQuireReset_writes  (quires : BitVec 16) (s : State) {s' : State}
    (h : execQuireReset quires s = .next s') : Writes [.regs, .mode, .cnts, .posted, .free, .units, .spine, .dram, .poison, .flows, .items, .engines, .guard] s s' := by
  unfold execQuireReset at h
  injection h with h
  subst h
  repeat' first
    | dsimp only
    | with_reducible exact Writes.refl _ _
    | (apply Writes.step; case k => with_reducible apply State.quireReset_writes)
    | with_reducible refine Writes.foldl ?_ ?_
    | with_reducible refine Writes.foldlFst ?_ ?_
    | decide
    | intro _

theorem execReimpMigratedOut_writes  (quire : Fin 16) (s : State) {s' : State}
    (h : execReimpMigratedOut quire s = .next s') : Writes [.regs, .cnts, .imp, .units, .spine, .dram, .poison, .flows, .items, .engines] s s' := by
  unfold execReimpMigratedOut at h
  injection h with h
  subst h
  repeat' first
    | dsimp only
    | with_reducible exact Writes.refl _ _
    | (apply Writes.step; case k => with_reducible apply State.reimpMigratedOut_writes)
    | decide

theorem execReimpGo_writes  (s : State) {s' : State}
    (h : execReimpGo s = .next s') : Writes [.regs, .posted, .free] s s' := by
  unfold execReimpGo at h
  injection h with h
  subst h
  repeat' first
    | dsimp only
    | with_reducible exact Writes.refl _ _
    | (apply Writes.step; case k => with_reducible apply State.reimpGo_writes)
    | decide

theorem State.engineReset_writes  (s : State) (e : Nat) :
    Writes [.regs, .units, .engines] s (State.engineReset s e) := by
  unfold State.engineReset
  repeat' first
    | dsimp only
    | ((conv => arg 3; arg 39; skip); with_reducible refine Writes.set_units ?_ ?_ _)
    | with_reducible exact Writes.refl _ _
    | (apply Writes.step; case k => with_reducible apply State.resetRefusal_writes)
    | (apply Writes.step; case k => (with_reducible apply State.setFlag_writes_ne) <;> first | decide | (dsimp only [Reg.GLB_RESET_STATUS, Reg.GLB_RESET_STATUS_ENGINE_BUSY, Reg.GLB_MODE, Field.of]; omega) | (split <;> decide))
    | (apply Writes.step; case k => with_reducible apply State.setEngState_writes)
    | (apply Writes.step; case k => with_reducible apply State.setEng_writes)
    | with_reducible refine Writes.ite ?_ ?_
    | decide
    | split

theorem State.reimpVerified_writes  (s : State) (i : Image) :
    Writes [.regs, .mode, .cnts, .posted, .out, .free, .imp, .units, .engines, .guard] s (State.reimpVerified s i) := by
  unfold State.reimpVerified
  repeat' first
    | dsimp only
    | ((conv => arg 3; arg 39; skip); with_reducible refine Writes.set_imp ?_ ?_ _)
    | ((conv => arg 3; arg 39; skip); with_reducible refine Writes.set_units ?_ ?_ _)
    | with_reducible exact Writes.refl _ _
    | (apply Writes.step; case k => with_reducible apply State.refuseReimp_writes)
    | (apply Writes.step; case k => with_reducible apply State.refuseHandover_writes)
    | (apply Writes.step; case k => with_reducible apply State.setFld_writes)
    | (apply Writes.step; case k => with_reducible apply State.transition_writes)
    | (apply Writes.step; case k => with_reducible apply State.startHandover_writes)
    | with_reducible refine Writes.ite ?_ ?_
    | with_reducible refine Writes.foldl ?_ ?_
    | with_reducible refine Writes.foldlFst ?_ ?_
    | decide
    | intro _
    | (with_reducible (apply Writes.fst; case e => assumption))
    | split

theorem execReimpVerified_writes  (img : Image) (s : State) {s' : State}
    (h : execReimpVerified img s = .next s') : Writes [.regs, .mode, .cnts, .posted, .out, .free, .imp, .units, .engines, .guard] s s' := by
  unfold execReimpVerified at h
  injection h with h
  subst h
  repeat' first
    | dsimp only
    | with_reducible exact Writes.refl _ _
    | (apply Writes.step; case k => with_reducible apply State.reimpVerified_writes)
    | decide

theorem execReimpLoaded_writes  (quire : Fin 16) (records : List CodeRec) (s : State) {s' : State}
    (h : execReimpLoaded quire records s = .next s') : Writes [.regs, .mode, .cnts, .posted, .out, .free, .imp, .units, .spine, .dram, .poison, .ports, .flows, .items, .ring, .engines, .evt, .cart, .guard, .tb] s s' := by
  unfold execReimpLoaded at h
  injection h with h
  subst h
  repeat' first
    | dsimp only
    | with_reducible exact Writes.refl _ _
    | (apply Writes.step; case k => with_reducible apply State.reimpLoaded_writes)
    | decide

theorem execEngineReset_writes  (engine : BitVec 8) (s : State) {s' : State}
    (h : execEngineReset engine s = .next s') : Writes [.regs, .units, .engines] s s' := by
  unfold execEngineReset at h
  injection h with h
  subst h
  repeat' first
    | dsimp only
    | with_reducible exact Writes.refl _ _
    | (apply Writes.step; case k => with_reducible apply State.engineReset_writes)
    | decide

theorem execImposed_writes  (out : BitVec 160) (s : State) {s' : State}
    (h : execImposed out s = .next s') : Writes [.regs, .mode, .cnts, .posted, .lastPost, .out, .free, .imp, .units, .spine, .dram, .poison, .ports, .flows, .items, .ring, .engines, .evt, .cart, .guard, .tb, .ptp] s s' := by
  unfold execImposed at h
  injection h with h
  subst h
  repeat' first
    | dsimp only
    | with_reducible exact Writes.refl _ _
    | (apply Writes.step; case k => with_reducible apply State.imposed_writes)
    | with_reducible refine Writes.ite ?_ ?_
    | decide
    | (with_reducible (apply Writes.fst; case e => assumption))
    | split

theorem execReimpDone_writes  (s : State) {s' : State}
    (h : execReimpDone s = .next s') : Writes [.regs, .mode, .cnts, .posted, .out, .free, .imp, .units, .spine, .dram, .poison, .flows, .items, .engines] s s' := by
  unfold execReimpDone at h
  injection h with h
  subst h
  repeat' first
    | dsimp only
    | with_reducible exact Writes.refl _ _
    | (apply Writes.step; case k => with_reducible apply State.reimpDone_writes)
    | decide

end Sys2Proof.Machine
end

