-- ==== Sys2Proof/Laws/WritesGuard.lean ====
section
/-! SUPPORT. What each operation of Machine/Guard.lean writes. -/

namespace Sys2Proof.Machine

theorem State.commitEpoch_writes  (s : State) :
    Writes [.guard] s (State.commitEpoch s) := by
  unfold State.commitEpoch
  repeat' first
    | dsimp only
    | ((conv => arg 3; arg 39; skip); with_reducible refine Writes.set_guard ?_ ?_ _)
    | with_reducible exact Writes.refl _ _
    | with_reducible refine Writes.ite ?_ ?_
    | decide
    | split

theorem State.epochCrosses_writes  (s : State) :
    Writes [.spine] s (State.epochCrosses s) := by
  unfold State.epochCrosses
  repeat' first
    | dsimp only
    | with_reducible exact Writes.refl _ _
    | (apply Writes.step; case k => with_reducible apply State.spineCross_writes)
    | decide

theorem State.epochComplete_writes  (s : State) :
    Writes [.regs, .cnts, .out, .tb] s (State.epochComplete s) := by
  unfold State.epochComplete
  repeat' first
    | dsimp only
    | ((conv => arg 3; arg 39; skip); with_reducible refine Writes.set_tb ?_ ?_ _)
    | with_reducible exact Writes.refl _ _
    | (apply Writes.step; case k => with_reducible apply State.emit_writes)
    | (apply Writes.step; case k => (with_reducible apply State.wrN_writes_ne) <;> first | decide | (dsimp only [Reg.GUARD_EPOCH_LAST, Reg.GUARD_STATUS, Reg.GUARD_STATUS_STANDBY_VALID, Reg.GLB_MODE, Field.of]; omega) | (split <;> decide))
    | (apply Writes.step; case k => with_reducible apply State.count_writes)
    | (apply Writes.step; case k => (with_reducible apply State.setFlag_writes_ne) <;> first | decide | (dsimp only [Reg.GUARD_EPOCH_LAST, Reg.GUARD_STATUS, Reg.GUARD_STATUS_STANDBY_VALID, Reg.GLB_MODE, Field.of]; omega) | (split <;> decide))
    | with_reducible refine Writes.ite ?_ ?_
    | decide
    | (with_reducible (apply Writes.fst; case e => assumption))
    | split

theorem State.replayed_writes  (s : State) (r : Replay) :
    Writes [.regs, .mode, .cnts, .posted, .lastPost, .out, .free, .imp, .units, .spine, .cells, .frames, .dram, .poison, .queues, .ports, .flows, .items, .recCopies, .ring, .engines, .evt, .cart, .guard, .tb] s (State.replayed s r) := by
  unfold State.replayed
  repeat' first
    | dsimp only
    | ((conv => arg 3; arg 39; skip); with_reducible refine Writes.set_guard ?_ ?_ _)
    | with_reducible exact Writes.refl _ _
    | (apply Writes.step; case k => with_reducible apply State.count_writes)
    | (apply Writes.step; case k => with_reducible apply State.postOpenLimited_writes)
    | (apply Writes.step; case k => with_reducible apply State.checkedFault_writes)
    | with_reducible refine Writes.ite ?_ ?_
    | decide
    | split

theorem State.switchHandover_writes  (s : State) :
    Writes [.regs, .cnts, .posted, .free, .units, .spine, .dram, .poison, .flows, .items, .engines, .guard] s (State.switchHandover s) := by
  unfold State.switchHandover
  repeat' first
    | dsimp only
    | with_reducible exact Writes.refl _ _
    | (apply Writes.step; case k => with_reducible apply State.setGuard_writes)
    | (apply Writes.step; case k => with_reducible apply State.count_writes)
    | (apply Writes.step; case k => with_reducible apply State.swapControl_writes)
    | (apply Writes.step; case k => (with_reducible apply State.setFld_writes_ne) <;> first | decide | (dsimp only [Reg.GUARD_LAST, Reg.GUARD_LAST_CAUSE, Reg.GUARD_LAST_GAP_US, Reg.GLB_MODE, Field.of]; omega) | (split <;> decide))
    | (apply Writes.step; case k => with_reducible apply State.controlLeft_writes)
    | (apply Writes.step; case k => with_reducible apply State.postOpen_writes)
    | with_reducible refine Writes.ite ?_ ?_
    | decide
    | (with_reducible (apply Writes.fst; case e => assumption))
    | split

theorem State.epochTrailer_writes  (s : State) (number : Nat) (final : Bool) (whole : Bool) (replays : List Replay) :
    Writes [.regs, .mode, .cnts, .posted, .lastPost, .out, .free, .imp, .units, .spine, .cells, .frames, .dram, .poison, .queues, .ports, .flows, .items, .recCopies, .ring, .engines, .evt, .cart, .guard, .tb] s (State.epochTrailer s number final whole replays) := by
  unfold State.epochTrailer
  repeat' first
    | dsimp only
    | ((conv => arg 3; arg 39; skip); with_reducible refine Writes.set_guard ?_ ?_ _)
    | with_reducible exact Writes.refl _ _
    | (apply Writes.step; case k => with_reducible apply State.commitEpoch_writes)
    | (apply Writes.step; case k => with_reducible apply State.tearEpoch_writes)
    | (apply Writes.step; case k => with_reducible apply State.epochCrosses_writes)
    | (apply Writes.step; case k => with_reducible apply State.epochComplete_writes)
    | (apply Writes.step; case k => with_reducible apply State.replayed_writes)
    | (apply Writes.step; case k => with_reducible apply State.switchHandover_writes)
    | with_reducible refine Writes.ite ?_ ?_
    | with_reducible refine Writes.foldl ?_ ?_
    | with_reducible refine Writes.foldlFst ?_ ?_
    | decide
    | intro _
    | split

theorem execEpochTrailer_writes  (number : BitVec 32) (final : Bool) (recordsOk : Bool) (crcOk : Bool) (replays : List Replay) (s : State) {s' : State}
    (h : execEpochTrailer number final recordsOk crcOk replays s = .next s') : Writes [.regs, .mode, .cnts, .posted, .lastPost, .out, .free, .imp, .units, .spine, .cells, .frames, .dram, .poison, .queues, .ports, .flows, .items, .recCopies, .ring, .engines, .evt, .cart, .guard, .tb] s s' := by
  unfold execEpochTrailer at h
  injection h with h
  subst h
  repeat' first
    | dsimp only
    | with_reducible exact Writes.refl _ _
    | (apply Writes.step; case k => with_reducible apply State.epochTrailer_writes)
    | decide

theorem State.epochBoundary_writes  (s : State) :
    Writes [.cnts, .posted, .lastPost, .free, .engines, .guard] s (State.epochBoundary s) := by
  unfold State.epochBoundary
  repeat' first
    | dsimp only
    | ((conv => arg 3; arg 39; skip); with_reducible refine Writes.set_guard ?_ ?_ _)
    | with_reducible exact Writes.refl _ _
    | (apply Writes.step; case k => with_reducible apply State.tearEpoch_writes)
    | (apply Writes.step; case k => with_reducible apply State.commitEpoch_writes)
    | (apply Writes.step; case k => with_reducible apply State.raiseRoles_writes)
    | with_reducible refine Writes.ite ?_ ?_
    | decide
    | split

theorem State.heartbeatSend_writes  (s : State) (f : Nat) (alive : List Nat) :
    Writes [.guard] s (State.heartbeatSend s f alive) := by
  unfold State.heartbeatSend
  repeat' first
    | dsimp only
    | ((conv => arg 3; arg 39; skip); with_reducible refine Writes.set_guard ?_ ?_ _)
    | with_reducible exact Writes.refl _ _
    | with_reducible refine Writes.ite ?_ ?_
    | decide
    | split

theorem execHeartbeatSend_writes  (standby : Bool) (time : BitVec 16) (ring : BitVec 16) (schedule : BitVec 16) (s : State) {s' : State}
    (h : execHeartbeatSend standby time ring schedule s = .next s') : Writes [.guard] s s' := by
  unfold execHeartbeatSend at h
  injection h with h
  subst h
  repeat' first
    | dsimp only
    | with_reducible exact Writes.refl _ _
    | (apply Writes.step; case k => with_reducible apply State.heartbeatSend_writes)
    | with_reducible refine Writes.ite ?_ ?_
    | decide
    | split

theorem State.spareRow_writes  (s : State) (array : RowArray) (cells : Nat) :
    Writes [.cnts, .posted, .lastPost, .free, .cells, .guard] s (State.spareRow s array cells) := by
  unfold State.spareRow
  repeat' first
    | dsimp only
    | ((conv => arg 3; arg 39; skip); with_reducible refine Writes.set_cells ?_ ?_ _)
    | ((conv => arg 3; arg 39; skip); with_reducible refine Writes.set_guard ?_ ?_ _)
    | with_reducible exact Writes.refl _ _
    | (apply Writes.step; case k => with_reducible apply State.postOpenLimited_writes)
    | (apply Writes.step; case k => with_reducible apply State.count_writes)
    | (apply Writes.step; case k => with_reducible apply State.postOpen_writes)
    | with_reducible refine Writes.ite ?_ ?_
    | decide
    | (with_reducible (apply Writes.fst; case e => assumption))
    | split

theorem State.selfTest_writes  (s : State) (x1 : SelfTest) :
    Writes [.regs, .mode, .cnts, .posted, .lastPost, .out, .free, .imp, .units, .spine, .cells, .frames, .dram, .poison, .queues, .ports, .flows, .items, .recCopies, .ring, .engines, .evt, .cart, .guard, .tb] s (State.selfTest s x1) := by
  unfold State.selfTest
  repeat' first
    | dsimp only
    | ((conv => arg 3; arg 39; skip); with_reducible refine Writes.set_guard ?_ ?_ _)
    | with_reducible exact Writes.refl _ _
    | (apply Writes.step; case k => with_reducible apply State.count_writes)
    | (apply Writes.step; case k => with_reducible apply State.checkedFault_writes)
    | (apply Writes.step; case k => with_reducible apply State.katFails_writes)
    | (apply Writes.step; case k => with_reducible apply State.spareRow_writes)
    | (apply Writes.step; case k => with_reducible apply State.postOpenLimited_writes)
    | with_reducible refine Writes.ite ?_ ?_
    | decide
    | split

theorem State.arbVoteEdge_writes  (s : State) :
    Writes [.regs, .cnts, .posted, .free, .flows, .ring, .engines, .evt, .pair] s (State.arbVoteEdge s) := by
  unfold State.arbVoteEdge
  repeat' first
    | dsimp only
    | ((conv => arg 3; arg 39; skip); with_reducible refine Writes.set_pair ?_ ?_ _)
    | with_reducible exact Writes.refl _ _
    | (apply Writes.step; case k => with_reducible apply State.pairUpdate_writes)
    | decide
    | (with_reducible (apply Writes.fst; case e => assumption))
    | split

theorem State.latchColophon_writes (s : State) (k : Nat) (l : List Byte) :
    Writes [.regs] s (State.latchColophon s k l) := by
  induction s, k, l using State.latchColophon.induct with
  | case1 s k a b c d rest ih =>
    unfold State.latchColophon
    exact (State.wrN_writes_ne _ _ _ (by dsimp only [Reg.HLTH_COLO_W, Reg.GLB_MODE]; omega)).step ih (by decide)
  | case2 s k l h =>
    unfold State.latchColophon
    split
    · exact absurd rfl (h _ _ _ _ _)
    · exact Writes.refl _ _

theorem State.noteAlive_writes  (s : State) (l : List Nat) :
    Writes [.guard] s (State.noteAlive s l) := by
  unfold State.noteAlive
  repeat' first
    | dsimp only
    | ((conv => arg 3; arg 39; skip); with_reducible refine Writes.set_guard ?_ ?_ _)
    | with_reducible exact Writes.refl _ _
    | with_reducible refine Writes.ite ?_ ?_
    | with_reducible refine Writes.foldl ?_ ?_
    | with_reducible refine Writes.foldlFst ?_ ?_
    | decide
    | intro _
    | split

theorem State.noStandby_writes  (s : State) :
    Writes [.regs, .posted, .free] s (State.noStandby s) := by
  unfold State.noStandby
  repeat' first
    | dsimp only
    | with_reducible exact Writes.refl _ _
    | (apply Writes.step; case k => with_reducible apply State.postOpen_writes)
    | (apply Writes.step; case k => (with_reducible apply State.setFlag_writes_ne) <;> first | decide | (dsimp only [Reg.GUARD_STATUS, Reg.GUARD_STATUS_STANDBY_VALID, Reg.GLB_MODE, Field.of]; omega) | (split <;> decide))
    | with_reducible refine Writes.ite ?_ ?_
    | decide
    | split

theorem State.heartbeatTaken_writes  (s : State) (b : Heartbeat) :
    Writes [.regs, .posted, .free, .guard, .tb, .ptp] s (State.heartbeatTaken s b) := by
  unfold State.heartbeatTaken
  repeat' first
    | dsimp only
    | ((conv => arg 3; arg 39; skip); with_reducible refine Writes.set_guard ?_ ?_ _)
    | with_reducible exact Writes.refl _ _
    | (apply Writes.step; case k => with_reducible apply State.noteAlive_writes)
    | (apply Writes.step; case k => (with_reducible apply State.setFld_writes_ne) <;> first | decide | (dsimp only [Reg.GUARD_LAST, Reg.GUARD_LAST_GAP_US, Reg.GLB_MODE, Field.of]; omega) | (split <;> decide))
    | (apply Writes.step; case k => with_reducible apply State.servoResumes_writes)
    | (apply Writes.step; case k => with_reducible apply State.noStandby_writes)
    | with_reducible refine Writes.ite ?_ ?_
    | decide
    | split

theorem State.takeoverDone_writes  (s : State) (failed : BitVec 5) :
    Writes [.regs, .mode, .cnts, .posted, .lastPost, .out, .free, .imp, .units, .spine, .cells, .frames, .dram, .poison, .queues, .ports, .flows, .items, .recCopies, .ring, .engines, .evt, .cart, .guard, .tb] s (State.takeoverDone s failed) := by
  unfold State.takeoverDone
  repeat' first
    | dsimp only
    | with_reducible exact Writes.refl _ _
    | (apply Writes.step; case k => with_reducible apply State.endTests_writes)
    | (apply Writes.step; case k => with_reducible apply State.setGuard_writes)
    | (apply Writes.step; case k => with_reducible apply State.postOpen_writes)
    | with_reducible refine Writes.ite ?_ ?_
    | decide
    | split

theorem execTakeoverDone_writes  (failed : BitVec 5) (s : State) {s' : State}
    (h : execTakeoverDone failed s = .next s') : Writes [.regs, .mode, .cnts, .posted, .lastPost, .out, .free, .imp, .units, .spine, .cells, .frames, .dram, .poison, .queues, .ports, .flows, .items, .recCopies, .ring, .engines, .evt, .cart, .guard, .tb] s s' := by
  unfold execTakeoverDone at h
  injection h with h
  subst h
  repeat' first
    | dsimp only
    | with_reducible exact Writes.refl _ _
    | (apply Writes.step; case k => with_reducible apply State.takeoverDone_writes)
    | decide

theorem execGuardHandoverWrite_writes  (s : State) {s' : State}
    (h : execGuardHandoverWrite s = .next s') : Writes [.regs, .cnts, .posted, .free, .engines, .guard] s s' := by
  unfold execGuardHandoverWrite at h
  injection h with h
  subst h
  repeat' first
    | dsimp only
    | with_reducible exact Writes.refl _ _
    | (apply Writes.step; case k => with_reducible apply State.startHandover_writes)
    | (apply Writes.step; case k => with_reducible apply State.refuseHandover_writes)
    | with_reducible refine Writes.ite ?_ ?_
    | decide
    | split

theorem execSmbusWrite_writes  (x0 : BitVec 16) (x1 : BitVec 8) (s : State) {s' : State}
    (h : execSmbusWrite x0 x1 s = .next s') : Writes [] s s' := by
  unfold execSmbusWrite at h
  injection h with h
  subst h
  repeat' first
    | dsimp only
    | with_reducible exact Writes.refl _ _
    | decide

theorem State.pairHeartbeat_writes  (s : State) (vote : Nat) (serial : Nat) (priority : Nat) (active : Bool) (equal : Bool) (credits : Nat) :
    Writes [.regs, .cnts, .posted, .out, .free, .frames, .flows, .pairLink, .ring, .engines, .evt, .pair] s (State.pairHeartbeat s vote serial priority active equal credits) := by
  unfold State.pairHeartbeat
  repeat' first
    | dsimp only
    | ((conv => arg 3; arg 39; skip); with_reducible refine Writes.set_pair ?_ ?_ _)
    | ((conv => arg 3; arg 39; skip); with_reducible refine Writes.set_pairLink ?_ ?_ _)
    | with_reducible exact Writes.refl _ _
    | (apply Writes.step; case k => (with_reducible apply State.wr64_writes_ne) <;> first | decide | (dsimp only [Reg.GUARD_PAIR_STATUS, Reg.GUARD_PAIR_STATUS_MISMATCH, Reg.GUARD_PAIR_STATUS_PARTNER_VOTE, Reg.GUARD_PARTNER_LO, Reg.GLB_MODE, Field.of]; omega) | (split <;> decide))
    | (apply Writes.step; case k => with_reducible apply State.sendPairCopies_writes)
    | (apply Writes.step; case k => (with_reducible apply State.setFld_writes_ne) <;> first | decide | (dsimp only [Reg.GUARD_PAIR_STATUS, Reg.GUARD_PAIR_STATUS_MISMATCH, Reg.GUARD_PAIR_STATUS_PARTNER_VOTE, Reg.GUARD_PARTNER_LO, Reg.GLB_MODE, Field.of]; omega) | (split <;> decide))
    | (apply Writes.step; case k => (with_reducible apply State.setFlag_writes_ne) <;> first | decide | (dsimp only [Reg.GUARD_PAIR_STATUS, Reg.GUARD_PAIR_STATUS_MISMATCH, Reg.GUARD_PAIR_STATUS_PARTNER_VOTE, Reg.GUARD_PARTNER_LO, Reg.GLB_MODE, Field.of]; omega) | (split <;> decide))
    | (apply Writes.step; case k => with_reducible apply State.pairUpdate_writes)
    | (apply Writes.step; case k => with_reducible apply State.postOpen_writes)
    | (apply Writes.step; case k => with_reducible apply State.unbind_writes)
    | with_reducible refine Writes.ite ?_ ?_
    | decide
    | split

theorem execPairHeartbeatReceive_writes  (vote : Fin 3) (serial : BitVec 64) (priority : BitVec 8) (active : Bool) (bundleSet : BitVec 32) (tipinSet : BitVec 32) (credits : BitVec 10) (s : State) {s' : State}
    (h : execPairHeartbeatReceive vote serial priority active bundleSet tipinSet credits s = .next s') : Writes [.regs, .cnts, .posted, .out, .free, .frames, .flows, .pairLink, .ring, .engines, .evt, .pair] s s' := by
  unfold execPairHeartbeatReceive at h
  injection h with h
  subst h
  repeat' first
    | dsimp only
    | with_reducible exact Writes.refl _ _
    | (apply Writes.step; case k => with_reducible apply State.pairHeartbeat_writes)
    | with_reducible refine Writes.ite ?_ ?_
    | decide
    | split

theorem execCtrlStall_writes  (role : Fin 3) (s : State) {s' : State}
    (h : execCtrlStall role s = .next s') : Writes [.regs, .mode, .cnts, .posted, .lastPost, .out, .free, .imp, .units, .spine, .cells, .frames, .dram, .poison, .queues, .ports, .flows, .items, .recCopies, .ring, .engines, .evt, .cart, .guard, .tb] s s' := by
  unfold execCtrlStall at h
  injection h with h
  subst h
  repeat' first
    | dsimp only
    | with_reducible exact Writes.refl _ _
    | (apply Writes.step; case k => with_reducible apply State.checkedFault_writes)
    | with_reducible refine Writes.ite ?_ ?_
    | decide
    | (with_reducible (apply Writes.fst; case e => assumption))
    | split

theorem execSmbusRead_writes  (s : State) {s' : State}
    (h : execSmbusRead s = .next s') : Writes [.out] s s' := by
  unfold execSmbusRead at h
  injection h with h
  subst h
  repeat' first
    | dsimp only
    | with_reducible exact Writes.refl _ _
    | (apply Writes.step; case k => with_reducible apply State.emit_writes)
    | with_reducible refine Writes.ite ?_ ?_
    | decide
    | split

theorem State.dropPairCopies_writes  (s : State) :
    Writes [.frames, .flows, .pairLink] s (State.dropPairCopies s) := by
  unfold State.dropPairCopies
  repeat' first
    | dsimp only
    | ((conv => arg 3; arg 39; skip); with_reducible refine Writes.set_pairLink ?_ ?_ _)
    | with_reducible exact Writes.refl _ _
    | (apply Writes.step; case k => with_reducible apply State.dropCopy_writes)
    | (apply Writes.step; case k => with_reducible apply State.flowDropped_writes)
    | with_reducible refine Writes.foldl ?_ ?_
    | with_reducible refine Writes.foldlFst ?_ ?_
    | decide
    | intro _

theorem State.pairLanep_writes  (s : State) (lane : Nat) (up : Bool) :
    Writes [.regs, .cnts, .posted, .out, .free, .frames, .flows, .pairLink, .ring, .engines, .evt, .pair] s (State.pairLane' s lane up) := by
  unfold State.pairLane'
  repeat' first
    | dsimp only
    | ((conv => arg 3; arg 39; skip); with_reducible refine Writes.set_pairLink ?_ ?_ _)
    | with_reducible exact Writes.refl _ _
    | (apply Writes.step; case k => (with_reducible apply State.setFld_writes_ne) <;> first | decide | (dsimp only [Reg.GUARD_PAIR_STATUS, Reg.GUARD_PAIR_STATUS_LANES, Reg.GLB_MODE, Field.of]; omega) | (split <;> decide))
    | (apply Writes.step; case k => with_reducible apply State.pairUpdate_writes)
    | (apply Writes.step; case k => with_reducible apply State.unbind_writes)
    | (apply Writes.step; case k => with_reducible apply State.dropPairCopies_writes)
    | (apply Writes.step; case k => with_reducible apply State.sendPairCopies_writes)
    | with_reducible refine Writes.ite ?_ ?_
    | decide
    | split

theorem execPairLaneChange_writes  (lane : Fin 2) (up : Bool) (s : State) {s' : State}
    (h : execPairLaneChange lane up s = .next s') : Writes [.regs, .cnts, .posted, .out, .free, .frames, .flows, .pairLink, .ring, .engines, .evt, .pair] s s' := by
  unfold execPairLaneChange at h
  injection h with h
  subst h
  repeat' first
    | dsimp only
    | with_reducible exact Writes.refl _ _
    | (apply Writes.step; case k => with_reducible apply State.pairLanep_writes)
    | decide

theorem State.colophon_writes  (s : State) :
    Writes [.regs, .cnts, .posted, .out, .dram, .poison, .guard, .pace] s (State.colophon s) := by
  unfold State.colophon
  repeat' first
    | dsimp only
    | ((conv => arg 3; arg 39; skip); with_reducible refine Writes.set_guard ?_ ?_ _)
    | ((conv => arg 3; arg 39; skip); with_reducible refine Writes.set_pace ?_ ?_ _)
    | with_reducible exact Writes.refl _ _
    | (apply Writes.step; case k => (with_reducible apply State.wrN_writes_ne) <;> first | decide | (dsimp only [Reg.HLTH_COLO_ADDR_LO, Reg.HLTH_COLO_CTRL, Reg.HLTH_COLO_CTRL_LOC, Reg.HLTH_COLO_CTRL_PERIOD_MS, Reg.HLTH_COLO_SEQ, Reg.GLB_MODE, Field.of]; omega) | (split <;> decide))
    | (apply Writes.step; case k => with_reducible apply State.latchColophon_writes)
    | (apply Writes.step; case k => with_reducible apply State.count_writes)
    | (apply Writes.step; case k => with_reducible apply State.dramWrite_writes)
    | (apply Writes.step; case k => with_reducible apply State.emit_writes)
    | (apply Writes.step; case k => with_reducible apply State.post_writes)
    | with_reducible refine Writes.ite ?_ ?_
    | decide
    | split

theorem execColophon_writes  (s : State) {s' : State}
    (h : execColophon s = .next s') : Writes [.regs, .cnts, .posted, .out, .dram, .poison, .guard, .pace] s s' := by
  unfold execColophon at h
  injection h with h
  subst h
  repeat' first
    | dsimp only
    | with_reducible exact Writes.refl _ _
    | (apply Writes.step; case k => with_reducible apply State.colophon_writes)
    | decide

theorem State.pairLost_writes  (s : State) :
    Writes [.regs, .cnts, .posted, .free, .flows, .ring, .engines, .evt, .pair] s (State.pairLost s) := by
  unfold State.pairLost
  repeat' first
    | dsimp only
    | with_reducible exact Writes.refl _ _
    | (apply Writes.step; case k => with_reducible apply State.pairUpdate_writes)
    | (apply Writes.step; case k => with_reducible apply State.unbind_writes)
    | (apply Writes.step; case k => with_reducible apply State.countN_writes)
    | with_reducible refine Writes.ite ?_ ?_
    | decide
    | (with_reducible (apply Writes.fst; case e => assumption))
    | split

theorem State.pairCtrl_writes  (s : State) (v : Word) :
    Writes [.regs, .cnts, .posted, .free, .frames, .flows, .pairLink, .ring, .engines, .evt, .pair] s (State.pairCtrl s v) := by
  unfold State.pairCtrl
  repeat' first
    | dsimp only
    | ((conv => arg 3; arg 39; skip); with_reducible refine Writes.set_pair ?_ ?_ _)
    | with_reducible exact Writes.refl _ _
    | (apply Writes.step; case k => (with_reducible apply State.wr_writes_ne) <;> first | decide | (dsimp only [Reg.GUARD_PAIR_CTRL, Reg.GUARD_PAIR_CTRL_ENABLE, Reg.GUARD_PAIR_STATUS, Reg.GUARD_PAIR_STATUS_PARTNER_VOTE, Reg.GLB_MODE, Field.of]; omega) | (split <;> decide))
    | (apply Writes.step; case k => with_reducible apply State.pairUpdate_writes)
    | (apply Writes.step; case k => (with_reducible apply State.setFld_writes_ne) <;> first | decide | (dsimp only [Reg.GUARD_PAIR_CTRL, Reg.GUARD_PAIR_CTRL_ENABLE, Reg.GUARD_PAIR_STATUS, Reg.GUARD_PAIR_STATUS_PARTNER_VOTE, Reg.GLB_MODE, Field.of]; omega) | (split <;> decide))
    | (apply Writes.step; case k => with_reducible apply State.dropPairCopies_writes)
    | with_reducible refine Writes.ite ?_ ?_
    | decide
    | split

theorem execGuardPairCtrlWrite_writes  (value : Word) (s : State) {s' : State}
    (h : execGuardPairCtrlWrite value s = .next s') : Writes [.regs, .cnts, .posted, .free, .frames, .flows, .pairLink, .ring, .engines, .evt, .pair] s s' := by
  unfold execGuardPairCtrlWrite at h
  injection h with h
  subst h
  repeat' first
    | dsimp only
    | with_reducible exact Writes.refl _ _
    | (apply Writes.step; case k => with_reducible apply State.pairCtrl_writes)
    | decide

theorem State.arbVoteTimeout_writes  (s : State) :
    Writes [.regs, .cnts, .posted, .free, .flows, .ring, .engines, .evt, .pair] s (State.arbVoteTimeout s) := by
  unfold State.arbVoteTimeout
  repeat' first
    | dsimp only
    | ((conv => arg 3; arg 39; skip); with_reducible refine Writes.set_pair ?_ ?_ _)
    | with_reducible exact Writes.refl _ _
    | (apply Writes.step; case k => with_reducible apply State.pairUpdate_writes)
    | with_reducible refine Writes.ite ?_ ?_
    | decide
    | (with_reducible (apply Writes.fst; case e => assumption))
    | split

theorem execArbVoteTimeout_writes  (s : State) {s' : State}
    (h : execArbVoteTimeout s = .next s') : Writes [.regs, .cnts, .posted, .free, .flows, .ring, .engines, .evt, .pair] s s' := by
  unfold execArbVoteTimeout at h
  injection h with h
  subst h
  repeat' first
    | dsimp only
    | with_reducible exact Writes.refl _ _
    | (apply Writes.step; case k => with_reducible apply State.arbVoteTimeout_writes)
    | decide

theorem execCtrlMissed_writes  (s : State) {s' : State}
    (h : execCtrlMissed s = .next s') : Writes [.regs, .mode, .cnts, .posted, .lastPost, .out, .free, .imp, .units, .spine, .cells, .frames, .dram, .poison, .queues, .ports, .flows, .items, .recCopies, .ring, .engines, .evt, .cart, .guard, .tb] s s' := by
  unfold execCtrlMissed at h
  injection h with h
  subst h
  repeat' first
    | dsimp only
    | with_reducible exact Writes.refl _ _
    | (apply Writes.step; case k => with_reducible apply State.checkedFault_writes)
    | (apply Writes.step; case k => with_reducible apply State.countN_writes)
    | with_reducible refine Writes.ite ?_ ?_
    | decide
    | split

theorem execPairHeartbeatSend_writes  (s : State) {s' : State}
    (h : execPairHeartbeatSend s = .next s') : Writes [.out, .pair] s s' := by
  unfold execPairHeartbeatSend at h
  injection h with h
  subst h
  repeat' first
    | dsimp only
    | ((conv => arg 3; arg 39; skip); with_reducible refine Writes.set_pair ?_ ?_ _)
    | with_reducible exact Writes.refl _ _
    | (apply Writes.step; case k => with_reducible apply State.emit_writes)
    | with_reducible refine Writes.ite ?_ ?_
    | decide
    | split

theorem execSelfTest_writes  (t : SelfTest) (s : State) {s' : State}
    (h : execSelfTest t s = .next s') : Writes [.regs, .mode, .cnts, .posted, .lastPost, .out, .free, .imp, .units, .spine, .cells, .frames, .dram, .poison, .queues, .ports, .flows, .items, .recCopies, .ring, .engines, .evt, .cart, .guard, .tb] s s' := by
  unfold execSelfTest at h
  injection h with h
  subst h
  repeat' first
    | dsimp only
    | with_reducible exact Writes.refl _ _
    | (apply Writes.step; case k => with_reducible apply State.selfTest_writes)
    | decide

theorem State.temperature_writes  (s : State) (d : Nat) (t : BitVec 16) :
    Writes [.regs, .mode, .cnts, .posted, .lastPost, .out, .free, .pwr, .imp, .units, .spine, .cells, .frames, .dram, .poison, .queues, .ports, .flows, .items, .recCopies, .ring, .engines, .evt, .cart, .guard, .tb] s (State.temperature s d t) := by
  unfold State.temperature
  repeat' first
    | dsimp only
    | ((conv => arg 3; arg 39; skip); with_reducible refine Writes.set_pwr ?_ ?_ _)
    | with_reducible exact Writes.refl _ _
    | (apply Writes.step; case k => with_reducible apply State.setFld_writes)
    | (apply Writes.step; case k => with_reducible apply State.post_writes)
    | (apply Writes.step; case k => with_reducible apply State.checkedFault_writes)
    | with_reducible refine Writes.ite ?_ ?_
    | decide
    | split

theorem execThermalThresholdCross_writes  (die : Fin 5) (temp : BitVec 16) (s : State) {s' : State}
    (h : execThermalThresholdCross die temp s = .next s') : Writes [.regs, .mode, .cnts, .posted, .lastPost, .out, .free, .pwr, .imp, .units, .spine, .cells, .frames, .dram, .poison, .queues, .ports, .flows, .items, .recCopies, .ring, .engines, .evt, .cart, .guard, .tb] s s' := by
  unfold execThermalThresholdCross at h
  injection h with h
  subst h
  repeat' first
    | dsimp only
    | with_reducible exact Writes.refl _ _
    | (apply Writes.step; case k => with_reducible apply State.temperature_writes)
    | decide

theorem State.handoverLimit_writes  (s : State) :
    Writes [.regs, .mode, .cnts, .posted, .out, .free, .imp, .units, .spine, .dram, .poison, .flows, .items, .engines, .guard] s (State.handoverLimit s) := by
  unfold State.handoverLimit
  repeat' first
    | dsimp only
    | with_reducible exact Writes.refl _ _
    | (apply Writes.step; case k => with_reducible apply State.abandonHandover_writes)
    | with_reducible refine Writes.ite ?_ ?_
    | decide
    | (with_reducible (apply Writes.fst; case e => assumption))
    | split

theorem execPairEpochReceive_writes  (complete : Bool) (epoch : PairEpoch) (s : State) {s' : State}
    (h : execPairEpochReceive complete epoch s = .next s') : Writes [.cnts, .pair] s s' := by
  unfold execPairEpochReceive at h
  injection h with h
  subst h
  repeat' first
    | dsimp only
    | ((conv => arg 3; arg 39; skip); with_reducible refine Writes.set_pair ?_ ?_ _)
    | with_reducible exact Writes.refl _ _
    | (apply Writes.step; case k => with_reducible apply State.count_writes)
    | with_reducible refine Writes.ite ?_ ?_
    | decide
    | split

theorem execArbVoteEdge_writes  (s : State) {s' : State}
    (h : execArbVoteEdge s = .next s') : Writes [.regs, .cnts, .posted, .free, .flows, .ring, .engines, .evt, .pair] s s' := by
  unfold execArbVoteEdge at h
  injection h with h
  subst h
  repeat' first
    | dsimp only
    | with_reducible exact Writes.refl _ _
    | (apply Writes.step; case k => with_reducible apply State.arbVoteEdge_writes)
    | decide

theorem execNoStandby_writes  (s : State) {s' : State}
    (h : execNoStandby s = .next s') : Writes [.regs, .cnts, .posted, .free] s s' := by
  unfold execNoStandby at h
  injection h with h
  subst h
  repeat' first
    | dsimp only
    | with_reducible exact Writes.refl _ _
    | (apply Writes.step; case k => with_reducible apply State.noStandby_writes)
    | (apply Writes.step; case k => with_reducible apply State.countN_writes)
    | with_reducible refine Writes.ite ?_ ?_
    | decide
    | split

theorem State.countCorrected_writes  (s : State) (array : RowArray) :
    Writes [.cnts, .posted, .lastPost, .free] s (State.countCorrected s array) := by
  unfold State.countCorrected
  repeat' first
    | dsimp only
    | with_reducible exact Writes.refl _ _
    | (apply Writes.step; case k => with_reducible apply State.postOpenLimited_writes)
    | (apply Writes.step; case k => with_reducible apply State.countN_writes)
    | decide
    | (with_reducible (apply Writes.fst; case e => assumption))
    | split

theorem execRowSpared_writes  (array : RowArray) (cells : BitVec 8) (s : State) {s' : State}
    (h : execRowSpared array cells s = .next s') : Writes [.cnts, .posted, .lastPost, .free, .cells, .guard] s s' := by
  unfold execRowSpared at h
  injection h with h
  subst h
  repeat' first
    | dsimp only
    | with_reducible exact Writes.refl _ _
    | (apply Writes.step; case k => with_reducible apply State.spareRow_writes)
    | (apply Writes.step; case k => with_reducible apply State.countCorrected_writes)
    | decide

theorem execHeartbeatReceive_writes  (s : State) {s' : State}
    (h : execHeartbeatReceive s = .next s') : Writes [.regs, .posted, .free, .guard, .tb, .ptp] s s' := by
  unfold execHeartbeatReceive at h
  injection h with h
  subst h
  repeat' first
    | dsimp only
    | ((conv => arg 3; arg 39; skip); with_reducible refine Writes.set_guard ?_ ?_ _)
    | with_reducible exact Writes.refl _ _
    | (apply Writes.step; case k => with_reducible apply State.heartbeatTaken_writes)
    | decide
    | (with_reducible (apply Writes.fst; case e => assumption))
    | split

theorem execEpochBoundary_writes  (s : State) {s' : State}
    (h : execEpochBoundary s = .next s') : Writes [.cnts, .posted, .lastPost, .free, .engines, .guard] s s' := by
  unfold execEpochBoundary at h
  injection h with h
  subst h
  repeat' first
    | dsimp only
    | with_reducible exact Writes.refl _ _
    | (apply Writes.step; case k => with_reducible apply State.epochBoundary_writes)
    | decide

theorem execGuardOscCheck_writes  (khz : Nat) (s : State) {s' : State}
    (h : execGuardOscCheck khz s = .next s') : Writes [.regs, .mode, .cnts, .posted, .lastPost, .out, .free, .imp, .units, .spine, .cells, .frames, .dram, .poison, .queues, .ports, .flows, .items, .recCopies, .ring, .engines, .evt, .cart, .guard, .tb] s s' := by
  unfold execGuardOscCheck at h
  injection h with h
  subst h
  repeat' first
    | dsimp only
    | with_reducible exact Writes.refl _ _
    | (apply Writes.step; case k => with_reducible apply State.checkedFault_writes)
    | with_reducible refine Writes.ite ?_ ?_
    | decide
    | split

theorem execPairLost_writes  (s : State) {s' : State}
    (h : execPairLost s = .next s') : Writes [.regs, .cnts, .posted, .free, .flows, .ring, .engines, .evt, .pair] s s' := by
  unfold execPairLost at h
  injection h with h
  subst h
  repeat' first
    | dsimp only
    | with_reducible exact Writes.refl _ _
    | (apply Writes.step; case k => with_reducible apply State.pairLost_writes)
    | decide

theorem execHandoverRefused_writes  (s : State) {s' : State}
    (h : execHandoverRefused s = .next s') : Writes [.regs, .mode, .cnts, .posted, .out, .free, .imp, .units, .spine, .dram, .poison, .flows, .items, .engines, .guard] s s' := by
  unfold execHandoverRefused at h
  injection h with h
  subst h
  repeat' first
    | dsimp only
    | with_reducible exact Writes.refl _ _
    | (apply Writes.step; case k => with_reducible apply State.handoverLimit_writes)
    | decide

end Sys2Proof.Machine
end

