-- ==== Sys2Proof/Laws/WritesObs.lean ====
section
/-! SUPPORT. What each operation of Machine/Obs.lean writes. -/

namespace Sys2Proof.Machine

theorem State.traceEnter_writes  (s : State) (type : Nat) (len : Nat) (uptime : Nat) (payload : Nat) :
    Writes [.obs] s (State.traceEnter s type len uptime payload) := by
  unfold State.traceEnter
  repeat' first
    | dsimp only
    | ((conv => arg 3; arg 39; skip); with_reducible refine Writes.set_obs ?_ ?_ _)
    | with_reducible exact Writes.refl _ _
    | with_reducible refine Writes.ite ?_ ?_
    | decide
    | split

theorem State.traceLost_writes  (s : State) :
    Writes [.obs] s (State.traceLost s) := by
  unfold State.traceLost
  repeat' first
    | dsimp only
    | ((conv => arg 3; arg 39; skip); with_reducible refine Writes.set_obs ?_ ?_ _)
    | with_reducible exact Writes.refl _ _
    | (apply Writes.step; case k => with_reducible apply State.traceEnter_writes)
    | with_reducible refine Writes.ite ?_ ?_
    | decide
    | split

theorem State.paceTimeout_writes  (s : State) (q : Nat) :
    Writes [.regs, .mode, .cnts, .posted, .out, .free, .imp, .units, .spine, .dram, .poison, .ports, .flows, .items, .ring, .engines, .evt, .cart, .guard, .pace, .tb] s (State.paceTimeout s q) := by
  unfold State.paceTimeout
  repeat' first
    | dsimp only
    | ((conv => arg 3; arg 39; skip); with_reducible refine Writes.set_pace ?_ ?_ _)
    | with_reducible exact Writes.refl _ _
    | (apply Writes.step; case k => with_reducible apply State.isolateQuire_writes)
    | with_reducible refine Writes.ite ?_ ?_
    | decide
    | split

theorem execHoldExpired_writes  (s : State) {s' : State}
    (h : execHoldExpired s = .next s') : Writes [.posted, .free, .obs] s s' := by
  unfold execHoldExpired at h
  injection h with h
  subst h
  repeat' first
    | dsimp only
    | ((conv => arg 3; arg 39; skip); with_reducible refine Writes.set_obs ?_ ?_ _)
    | with_reducible exact Writes.refl _ _
    | (apply Writes.step; case k => with_reducible apply State.postOpen_writes)
    | with_reducible refine Writes.ite ?_ ?_
    | decide
    | (with_reducible (apply Writes.fst; case e => assumption))
    | split

theorem State.traceDrain_writes  (s : State) (x1 : Nat) :
    Writes [.cnts, .out, .obs] s (State.traceDrain s x1) := by
  induction x1 generalizing s with
  | zero =>
    unfold State.traceDrain
    repeat' first
      | dsimp only
      | ((conv => arg 3; arg 39; skip); with_reducible refine Writes.set_obs ?_ ?_ _)
      | with_reducible exact Writes.refl _ _
      | (apply Writes.step; case k => with_reducible apply State.count_writes)
      | (apply Writes.step; case k => with_reducible apply State.emit_writes)
      | with_reducible refine Writes.ite ?_ ?_
      | decide
      | (with_reducible (apply Writes.fst; case e => assumption))
      | split
  | succ k ih =>
    unfold State.traceDrain
    repeat' first
      | dsimp only
      | ((conv => arg 3; arg 39; skip); with_reducible refine Writes.set_obs ?_ ?_ _)
      | with_reducible exact Writes.refl _ _
      | (apply Writes.step; case k => with_reducible apply ih)
      | (apply Writes.step; case k => with_reducible apply State.count_writes)
      | (apply Writes.step; case k => with_reducible apply State.emit_writes)
      | with_reducible refine Writes.ite ?_ ?_
      | decide
      | (with_reducible (apply Writes.fst; case e => assumption))
      | split

theorem State.bookFault_writes  (s : State) (b : BookOut) :
    Writes [.regs, .mode, .cnts, .posted, .lastPost, .out, .free, .imp, .units, .spine, .cells, .frames, .dram, .poison, .queues, .ports, .flows, .items, .recCopies, .ring, .engines, .evt, .cart, .guard, .tb] s (State.bookFault s b) := by
  unfold State.bookFault
  repeat' first
    | dsimp only
    | with_reducible exact Writes.refl _ _
    | (apply Writes.step; case k => with_reducible apply State.count_writes)
    | (apply Writes.step; case k => with_reducible apply State.post_writes)
    | (apply Writes.step; case k => with_reducible apply State.draw_writes)
    | (apply Writes.step; case k => with_reducible apply State.checkedFault_writes)
    | decide
    | (with_reducible (apply Writes.fst; case e => assumption))
    | split

theorem State.ledgerPoint_writes  (s : State) (out : List BookOut) :
    Writes [.regs, .mode, .cnts, .posted, .lastPost, .out, .free, .imp, .units, .spine, .cells, .frames, .dram, .poison, .queues, .ports, .flows, .items, .recCopies, .ring, .engines, .evt, .cart, .guard, .obs, .tb] s (State.ledgerPoint s out) := by
  unfold State.ledgerPoint
  repeat' first
    | dsimp only
    | ((conv => arg 3; arg 39; skip); with_reducible refine Writes.set_obs ?_ ?_ _)
    | with_reducible exact Writes.refl _ _
    | (apply Writes.step; case k => with_reducible apply State.count_writes)
    | (apply Writes.step; case k => with_reducible apply State.wrN_writes)
    | (apply Writes.step; case k => with_reducible apply State.drawN_writes)
    | (apply Writes.step; case k => with_reducible apply State.bookFault_writes)
    | with_reducible refine Writes.ite ?_ ?_
    | with_reducible refine Writes.foldl ?_ ?_
    | with_reducible refine Writes.foldlFst ?_ ?_
    | decide
    | intro _
    | (with_reducible (apply Writes.fst; case e => assumption))
    | split

theorem execLedgerPoint_writes  (out : List BookOut) (s : State) {s' : State}
    (h : execLedgerPoint out s = .next s') : Writes [.regs, .mode, .cnts, .posted, .lastPost, .out, .free, .imp, .units, .spine, .cells, .frames, .dram, .poison, .queues, .ports, .flows, .items, .recCopies, .ring, .engines, .evt, .cart, .guard, .obs, .tb] s s' := by
  unfold execLedgerPoint at h
  injection h with h
  subst h
  repeat' first
    | dsimp only
    | with_reducible exact Writes.refl _ _
    | (apply Writes.step; case k => with_reducible apply State.ledgerPoint_writes)
    | with_reducible refine Writes.ite ?_ ?_
    | decide
    | split

theorem State.traceCross_writes  (s : State) (d : Nat) :
    Writes [.cnts, .posted, .lastPost, .free, .spine, .obs] s ((State.traceCross s d).1) := by
  unfold State.traceCross
  repeat' first
    | dsimp only
    | ((conv => arg 3; arg 39; skip); with_reducible refine Writes.set_obs ?_ ?_ _)
    | with_reducible exact Writes.refl _ _
    | (apply Writes.step; case k => with_reducible apply State.postOpenLimited_writes)
    | (apply Writes.step; case k => with_reducible apply State.count_writes)
    | (apply Writes.step; case k => with_reducible apply State.spineFree_writes)
    | (apply Writes.step; case k => with_reducible apply State.spineSend_writes)
    | with_reducible refine Writes.ite ?_ ?_
    | decide
    | split

theorem State.traceNow_writes  (s : State) :
    Writes [.cnts, .out, .obs] s (State.traceNow s) := by
  unfold State.traceNow
  repeat' first
    | dsimp only
    | with_reducible exact Writes.refl _ _
    | (apply Writes.step; case k => with_reducible apply State.traceDrain_writes)
    | decide

theorem State.traceRecord_writes  (s : State) (type : Nat) (len : Nat) (uptime : Nat) (payload : Nat) :
    Writes [.cnts, .posted, .lastPost, .out, .free, .obs] s (State.traceRecord s type len uptime payload) := by
  unfold State.traceRecord
  repeat' first
    | dsimp only
    | ((conv => arg 3; arg 39; skip); with_reducible refine Writes.set_obs ?_ ?_ _)
    | with_reducible exact Writes.refl _ _
    | (apply Writes.step; case k => with_reducible apply State.traceNow_writes)
    | (apply Writes.step; case k => with_reducible apply State.traceEnter_writes)
    | (apply Writes.step; case k => with_reducible apply State.traceLost_writes)
    | (apply Writes.step; case k => with_reducible apply State.postOpenLimited_writes)
    | (apply Writes.step; case k => with_reducible apply State.count_writes)
    | with_reducible refine Writes.ite ?_ ?_
    | decide
    | split

theorem State.traceItem_writes  (s : State) (up : Nat) (x2 : TraceItem) :
    Writes [.cnts, .posted, .lastPost, .out, .free, .spine, .obs] s (State.traceItem s up x2) := by
  unfold State.traceItem
  repeat' first
    | dsimp only
    | with_reducible exact Writes.refl _ _
    | (apply Writes.step; case k => with_reducible apply State.traceCross_writes)
    | (apply Writes.step; case k => with_reducible apply State.traceRecord_writes)
    | with_reducible refine Writes.ite ?_ ?_
    | decide
    | (with_reducible (apply Writes.fst; case e => assumption))
    | split

theorem execTraceRecord_writes  (item : TraceItem) (ageNs : Nat) (s : State) {s' : State}
    (h : execTraceRecord item ageNs s = .next s') : Writes [.cnts, .posted, .lastPost, .out, .free, .spine, .obs] s s' := by
  unfold execTraceRecord at h
  injection h with h
  subst h
  repeat' first
    | dsimp only
    | with_reducible exact Writes.refl _ _
    | (apply Writes.step; case k => with_reducible apply State.traceItem_writes)
    | with_reducible refine Writes.ite ?_ ?_
    | decide
    | split

theorem execPaceLowTimeout_writes  (quire : Fin 16) (s : State) {s' : State}
    (h : execPaceLowTimeout quire s = .next s') : Writes [.regs, .mode, .cnts, .posted, .out, .free, .imp, .units, .spine, .dram, .poison, .ports, .flows, .items, .ring, .engines, .evt, .cart, .guard, .pace, .tb] s s' := by
  unfold execPaceLowTimeout at h
  injection h with h
  subst h
  repeat' first
    | dsimp only
    | with_reducible exact Writes.refl _ _
    | (apply Writes.step; case k => with_reducible apply State.paceTimeout_writes)
    | decide

theorem State.traceSync_writes  (s : State) :
    Writes [.cnts, .out, .obs] s (State.traceSync s) := by
  unfold State.traceSync
  repeat' first
    | dsimp only
    | with_reducible exact Writes.refl _ _
    | (apply Writes.step; case k => with_reducible apply State.traceEnter_writes)
    | (apply Writes.step; case k => with_reducible apply State.traceLost_writes)
    | (apply Writes.step; case k => with_reducible apply State.traceNow_writes)
    | decide

theorem State.railSample_writes  (s : State) (rail : Rail) (v : Nat) :
    Writes [.regs, .mode, .cnts, .posted, .lastPost, .out, .free, .imp, .units, .spine, .cells, .frames, .dram, .poison, .queues, .ports, .flows, .items, .recCopies, .ring, .engines, .evt, .cart, .guard, .pace, .tb] s (State.railSample s rail v) := by
  unfold State.railSample
  repeat' first
    | dsimp only
    | ((conv => arg 3; arg 39; skip); with_reducible refine Writes.set_pace ?_ ?_ _)
    | with_reducible exact Writes.refl _ _
    | (apply Writes.step; case k => with_reducible apply State.checkedFault_writes)
    | with_reducible refine Writes.ite ?_ ?_
    | decide
    | (with_reducible (apply Writes.fst; case e => assumption))
    | split

theorem execRailMonitorSample_writes  (rail : Rail) (v : BitVec 16) (s : State) {s' : State}
    (h : execRailMonitorSample rail v s = .next s') : Writes [.regs, .mode, .cnts, .posted, .lastPost, .out, .free, .imp, .units, .spine, .cells, .frames, .dram, .poison, .queues, .ports, .flows, .items, .recCopies, .ring, .engines, .evt, .cart, .guard, .pace, .tb] s s' := by
  unfold execRailMonitorSample at h
  injection h with h
  subst h
  repeat' first
    | dsimp only
    | with_reducible exact Writes.refl _ _
    | (apply Writes.step; case k => with_reducible apply State.railSample_writes)
    | decide

theorem execRelease_writes  (s : State) {s' : State}
    (h : execRelease s = .next s') : Writes [.obs] s s' := by
  unfold execRelease at h
  injection h with h
  subst h
  repeat' first
    | dsimp only
    | ((conv => arg 3; arg 39; skip); with_reducible refine Writes.set_obs ?_ ?_ _)
    | with_reducible exact Writes.refl _ _
    | decide

theorem State.paceSample_writes  (s : State) (q : Nat) (p : Nat) :
    Writes [.regs, .mode, .cnts, .posted, .lastPost, .out, .free, .imp, .units, .spine, .cells, .frames, .dram, .poison, .queues, .ports, .flows, .items, .recCopies, .ring, .engines, .evt, .cart, .guard, .pace, .tb] s (State.paceSample s q p) := by
  unfold State.paceSample
  repeat' first
    | dsimp only
    | ((conv => arg 3; arg 39; skip); with_reducible refine Writes.set_pace ?_ ?_ _)
    | with_reducible exact Writes.refl _ _
    | (apply Writes.step; case k => with_reducible apply State.setFld_writes)
    | (apply Writes.step; case k => with_reducible apply State.checkedFault_writes)
    | with_reducible refine Writes.ite ?_ ?_
    | decide
    | split

theorem execPaceMonitorSample_writes  (quire : Fin 16) (pace : BitVec 16) (s : State) {s' : State}
    (h : execPaceMonitorSample quire pace s = .next s') : Writes [.regs, .mode, .cnts, .posted, .lastPost, .out, .free, .imp, .units, .spine, .cells, .frames, .dram, .poison, .queues, .ports, .flows, .items, .recCopies, .ring, .engines, .evt, .cart, .guard, .pace, .tb] s s' := by
  unfold execPaceMonitorSample at h
  injection h with h
  subst h
  repeat' first
    | dsimp only
    | with_reducible exact Writes.refl _ _
    | (apply Writes.step; case k => with_reducible apply State.paceSample_writes)
    | decide

theorem State.railAdjust_writes  (s : State) (d : Nat) :
    Writes [.pace] s (State.railAdjust s d) := by
  unfold State.railAdjust
  repeat' first
    | dsimp only
    | ((conv => arg 3; arg 39; skip); with_reducible refine Writes.set_pace ?_ ?_ _)
    | with_reducible exact Writes.refl _ _
    | with_reducible refine Writes.ite ?_ ?_
    | with_reducible refine Writes.foldl ?_ ?_
    | with_reducible refine Writes.foldlFst ?_ ?_
    | decide
    | intro _
    | split

theorem execRailAdjust_writes  (die : Fin 4) (s : State) {s' : State}
    (h : execRailAdjust die s = .next s') : Writes [.pace] s s' := by
  unfold execRailAdjust at h
  injection h with h
  subst h
  repeat' first
    | dsimp only
    | with_reducible exact Writes.refl _ _
    | (apply Writes.step; case k => with_reducible apply State.railAdjust_writes)
    | decide

theorem execTraceSync_writes  (s : State) {s' : State}
    (h : execTraceSync s = .next s') : Writes [.cnts, .out, .obs] s s' := by
  unfold execTraceSync at h
  injection h with h
  subst h
  repeat' first
    | dsimp only
    | with_reducible exact Writes.refl _ _
    | (apply Writes.step; case k => with_reducible apply State.traceSync_writes)
    | with_reducible refine Writes.ite ?_ ?_
    | decide
    | split

theorem execLedgerNumRead_writes  (s : State) {s' : State}
    (h : execLedgerNumRead s = .next s') : Writes [.out, .obs] s s' := by
  unfold execLedgerNumRead at h
  injection h with h
  subst h
  repeat' first
    | dsimp only
    | ((conv => arg 3; arg 39; skip); with_reducible refine Writes.set_obs ?_ ?_ _)
    | with_reducible exact Writes.refl _ _
    | (apply Writes.step; case k => with_reducible apply State.emit_writes)
    | decide

theorem execCellRelease_writes  (handle : Nat) (s : State) {s' : State}
    (h : execCellRelease handle s = .next s') : Writes [.cells, .frames, .ports] s s' := by
  unfold execCellRelease at h
  injection h with h
  subst h
  repeat' first
    | dsimp only
    | with_reducible exact Writes.refl _ _
    | (apply Writes.step; case k => with_reducible apply State.cellRelease_writes)
    | decide

theorem execNow_writes  (out : List BookOut) (s : State) {s' : State}
    (h : execNow out s = .next s') : Writes [.regs, .mode, .cnts, .posted, .lastPost, .out, .free, .imp, .units, .spine, .cells, .frames, .dram, .poison, .queues, .ports, .flows, .items, .recCopies, .ring, .engines, .evt, .cart, .guard, .obs, .tb] s s' := by
  unfold execNow at h
  injection h with h
  subst h
  repeat' first
    | dsimp only
    | with_reducible exact Writes.refl _ _
    | (apply Writes.step; case k => with_reducible apply State.ledgerPoint_writes)
    | decide

end Sys2Proof.Machine
end

