-- ==== Sys2Proof/Laws/WritesMeet.lean ====
section
/-! SUPPORT. What each operation of Machine/Meet.lean writes. -/

namespace Sys2Proof.Machine

theorem State.gclChanged_writes  (s : State) (n : Nat) :
    Writes [.regs, .cnts, .posted, .lastPost, .out, .free, .frames, .queues, .ports, .flows, .evt] s (State.gclChanged s n) := by
  unfold State.gclChanged
  repeat' first
    | dsimp only
    | with_reducible exact Writes.refl _ _
    | (apply Writes.step; case k => with_reducible apply State.evtGateChange_writes)
    | (apply Writes.step; case k => with_reducible apply State.gclChange_writes)
    | with_reducible refine Writes.ite ?_ ?_
    | decide
    | split

theorem execGclChanged_writes  (port : Fin 12) (s : State) {s' : State}
    (h : execGclChanged port s = .next s') : Writes [.regs, .cnts, .posted, .lastPost, .out, .free, .frames, .queues, .ports, .flows, .evt] s s' := by
  unfold execGclChanged at h
  injection h with h
  subst h
  repeat' first
    | dsimp only
    | with_reducible exact Writes.refl _ _
    | (apply Writes.step; case k => with_reducible apply State.gclChanged_writes)
    | decide

theorem execCycleStart_writes  (s : State) {s' : State}
    (h : execCycleStart s = .next s') : Writes [.regs, .cnts, .posted, .lastPost, .out, .free, .units, .spine, .dram, .poison, .flows, .items, .ring, .engines, .evt, .guard] s s' := by
  unfold execCycleStart at h
  injection h with h
  subst h
  repeat' first
    | dsimp only
    | with_reducible exact Writes.refl _ _
    | (apply Writes.step; case k => with_reducible apply State.startCycle_writes)
    | (apply Writes.step; case k => with_reducible apply State.switchHandover_writes)
    | with_reducible refine Writes.ite ?_ ?_
    | decide
    | split

theorem State.releaseMark_writes  (s : State) (m : Nat) :
    Writes [.engines] s (State.releaseMark s m) := by
  unfold State.releaseMark
  repeat' first
    | dsimp only
    | with_reducible exact Writes.refl _ _
    | (apply Writes.step; case k => with_reducible apply State.setEng_writes)
    | with_reducible refine Writes.ite ?_ ?_
    | with_reducible refine Writes.foldl ?_ ?_
    | with_reducible refine Writes.foldlFst ?_ ?_
    | decide
    | intro _
    | split

theorem State.ringMark_writes  (s : State) (m : Nat) :
    Writes [.regs, .cnts, .posted, .out, .free, .host, .ring, .engines] s (State.ringMark s m) := by
  unfold State.ringMark
  repeat' first
    | dsimp only
    | ((conv => arg 3; arg 39; skip); with_reducible refine Writes.set_ring ?_ ?_ _)
    | with_reducible exact Writes.refl _ _
    | (apply Writes.step; case k => with_reducible apply State.postOpen_writes)
    | (apply Writes.step; case k => with_reducible apply State.requestIrq_writes)
    | (apply Writes.step; case k => with_reducible apply State.releaseMark_writes)
    | (apply Writes.step; case k => with_reducible apply State.launchAt_writes)
    | (apply Writes.step; case k => with_reducible apply State.sendRing_writes)
    | with_reducible refine Writes.ite ?_ ?_
    | decide
    | (with_reducible (apply Writes.fst; case e => assumption))
    | split

theorem State.tick_writes  (s : State) :
    Writes [.cnts, .posted, .out, .free, .queues, .ring, .tb] s (State.tick s) := by
  unfold State.tick
  repeat' first
    | dsimp only
    | with_reducible exact Writes.refl _ _
    | (apply Writes.step; case k => with_reducible apply State.ringTick_writes)
    | (apply Writes.step; case k => with_reducible apply State.ptpTick_writes)
    | (apply Writes.step; case k => with_reducible apply State.advance_writes)
    | with_reducible refine Writes.ite ?_ ?_
    | decide
    | split

theorem execRingMark_writes  (mark : Fin 16) (s : State) {s' : State}
    (h : execRingMark mark s = .next s') : Writes [.regs, .cnts, .posted, .out, .free, .host, .ring, .engines] s s' := by
  unfold execRingMark at h
  injection h with h
  subst h
  repeat' first
    | dsimp only
    | with_reducible exact Writes.refl _ _
    | (apply Writes.step; case k => with_reducible apply State.ringMark_writes)
    | decide

theorem State.portStep_writes  (s : State) (n : Nat) :
    Writes [.regs, .cnts, .posted, .lastPost, .out, .free, .frames, .queues, .ports, .flows, .evt] s (State.portStep s n) := by
  unfold State.portStep
  repeat' first
    | dsimp only
    | with_reducible exact Writes.refl _ _
    | (apply Writes.step; case k => with_reducible apply State.gclChanged_writes)
    | (apply Writes.step; case k => with_reducible apply State.testHeads_writes)
    | (apply Writes.step; case k => with_reducible apply State.gateRefresh_writes)
    | with_reducible refine Writes.ite ?_ ?_
    | decide
    | split

theorem State.stepApplied_writes  (s : State) :
    Writes [.regs, .cnts, .posted, .lastPost, .out, .free, .frames, .queues, .ports, .flows, .ring, .dma, .evt, .tb] s (State.stepApplied s) := by
  unfold State.stepApplied
  repeat' first
    | dsimp only
    | ((conv => arg 3; arg 39; skip); with_reducible refine Writes.set_tb ?_ ?_ _)
    | with_reducible exact Writes.refl _ _
    | (apply Writes.step; case k => with_reducible apply State.setBridge_writes)
    | (apply Writes.step; case k => with_reducible apply State.postOpen_writes)
    | (apply Writes.step; case k => with_reducible apply State.setStatus_writes)
    | (apply Writes.step; case k => with_reducible apply State.portStep_writes)
    | (apply Writes.step; case k => with_reducible apply State.settleAll_writes)
    | (apply Writes.step; case k => with_reducible apply State.evtStep_writes)
    | with_reducible refine Writes.ite ?_ ?_
    | with_reducible refine Writes.foldl ?_ ?_
    | with_reducible refine Writes.foldlFst ?_ ?_
    | decide
    | intro _
    | (with_reducible (apply Writes.fst; case e => assumption))
    | split

theorem execStepApplied_writes  (s : State) {s' : State}
    (h : execStepApplied s = .next s') : Writes [.regs, .cnts, .posted, .lastPost, .out, .free, .frames, .queues, .ports, .flows, .ring, .dma, .evt, .tb] s s' := by
  unfold execStepApplied at h
  injection h with h
  subst h
  repeat' first
    | dsimp only
    | with_reducible exact Writes.refl _ _
    | (apply Writes.step; case k => with_reducible apply State.stepApplied_writes)
    | decide

end Sys2Proof.Machine
end

