-- ==== Sys2Proof/Laws/WritesAccess.lean ====
section
/-! SUPPORT. What each operation of Machine/Access.lean writes. -/

namespace Sys2Proof.Machine

theorem State.drawFor_writes  (s : State) (a : Nat) :
    Writes [.free] s (State.drawFor s a) := by
  unfold State.drawFor
  repeat' first
    | dsimp only
    | with_reducible exact Writes.refl _ _
    | (apply Writes.step; case k => with_reducible apply State.draw_writes)
    | (apply Writes.step; case k => with_reducible apply State.drawN_writes)
    | with_reducible refine Writes.ite ?_ ?_
    | decide
    | split

theorem State.latchWords_writes  (s : State) (fn : Nat) (lo : Nat) (x3 : Nat) :
    Writes [.latch] s (State.latchWords s fn lo x3) := by
  induction x3 generalizing s with
  | zero =>
    unfold State.latchWords
    repeat' first
      | dsimp only
      | ((conv => arg 3; arg 39; skip); with_reducible refine Writes.set_latch ?_ ?_ _ ?_)
      | with_reducible exact Writes.refl _ _
      | exact fun h => Table.wf_set _ _ _ _ h
      | decide
      | split
  | succ k ih =>
    unfold State.latchWords
    repeat' first
      | dsimp only
      | ((conv => arg 3; arg 39; skip); with_reducible refine Writes.set_latch ?_ ?_ _ ?_)
      | with_reducible exact Writes.refl _ _
      | exact fun h => Table.wf_set _ _ _ _ h
      | (apply Writes.step; case k => with_reducible apply ih)
      | decide
      | split

theorem State.unlatch_writes  (s : State) (fn : Nat) (lo : Nat) (x3 : Nat) :
    Writes [.latch] s (State.unlatch s fn lo x3) := by
  induction x3 generalizing s with
  | zero =>
    unfold State.unlatch
    repeat' first
      | dsimp only
      | ((conv => arg 3; arg 39; skip); with_reducible refine Writes.set_latch ?_ ?_ _ ?_)
      | with_reducible exact Writes.refl _ _
      | exact fun h => Table.wf_set _ _ _ _ h
      | decide
      | split
  | succ k ih =>
    unfold State.unlatch
    repeat' first
      | dsimp only
      | ((conv => arg 3; arg 39; skip); with_reducible refine Writes.set_latch ?_ ?_ _ ?_)
      | with_reducible exact Writes.refl _ _
      | exact fun h => Table.wf_set _ _ _ _ h
      | (apply Writes.step; case k => with_reducible apply ih)
      | decide
      | split

theorem State.readWord_writes  (s : State) (fn : Nat) (a : Nat) :
    Writes [.latch, .free, .obs] s ((State.readWord s fn a).1) := by
  unfold State.readWord
  repeat' first
    | dsimp only
    | ((conv => arg 3; arg 39; skip); with_reducible refine Writes.set_obs ?_ ?_ _)
    | with_reducible exact Writes.refl _ _
    | (apply Writes.step; case k => with_reducible apply State.drawFor_writes)
    | (apply Writes.step; case k => with_reducible apply State.latchWords_writes)
    | (apply Writes.step; case k => with_reducible apply State.unlatch_writes)
    | with_reducible refine Writes.ite ?_ ?_
    | decide
    | (with_reducible (apply Writes.fst; case e => assumption))
    | split

theorem State.readSpace_writes  (s : State) (fn : Nat) (sp : Space) (a : Nat) :
    Writes [.latch, .free, .obs] s ((State.readSpace s fn sp a).1) := by
  unfold State.readSpace
  repeat' first
    | dsimp only
    | with_reducible exact Writes.refl _ _
    | (apply Writes.step; case k => with_reducible apply State.readWord_writes)
    | with_reducible refine Writes.ite ?_ ?_
    | decide
    | (with_reducible (apply Writes.fst; case e => assumption))
    | split

theorem State.readWords_writes  (s : State) (fn : Nat) (sp : Space) (a : Nat) (x4 : Nat) :
    Writes [.latch, .free, .obs] s ((State.readWords s fn sp a x4).1) := by
  induction x4 generalizing s a with
  | zero =>
    unfold State.readWords
    repeat' first
      | dsimp only
      | with_reducible exact Writes.refl _ _
      | (apply Writes.step; case k => with_reducible apply State.readSpace_writes)
      | decide
      | (with_reducible (apply Writes.fst; case e => assumption))
      | split
  | succ k ih =>
    unfold State.readWords
    repeat' first
      | dsimp only
      | with_reducible exact Writes.refl _ _
      | (apply Writes.step; case k => with_reducible apply ih)
      | (apply Writes.step; case k => with_reducible apply State.readSpace_writes)
      | decide
      | (with_reducible (apply Writes.fst; case e => assumption))
      | split

theorem State.hostRead_writes  (s : State) (fn : Nat) (sp : Space) (a : Nat) (len : Nat) :
    Writes [.latch, .cnts, .out, .free, .obs] s (State.hostRead s fn sp a len) := by
  unfold State.hostRead
  repeat' first
    | dsimp only
    | with_reducible exact Writes.refl _ _
    | (apply Writes.step; case k => with_reducible apply State.unsupported_writes)
    | (apply Writes.step; case k => with_reducible apply State.windowRead_writes)
    | (apply Writes.step; case k => with_reducible apply State.readWords_writes)
    | (apply Writes.step; case k => with_reducible apply State.emit_writes)
    | with_reducible refine Writes.ite ?_ ?_
    | decide
    | (with_reducible (apply Writes.fst; case e => assumption))
    | split

theorem execGroupReadLatch_writes  (fn : BitVec 6) (space : Space) (addr : BitVec 26) (len : Fin 4097) (s : State) {s' : State}
    (h : execGroupReadLatch fn space addr len s = .next s') : Writes [.latch, .cnts, .out, .free, .obs] s s' := by
  unfold execGroupReadLatch at h
  injection h with h
  subst h
  repeat' first
    | dsimp only
    | with_reducible exact Writes.refl _ _
    | (apply Writes.step; case k => with_reducible apply State.hostRead_writes)
    | decide

end Sys2Proof.Machine
end

