-- ==== Sys2Proof/Laws/WritesRegWrite.lean ====
section
/-! SUPPORT. What each operation of Machine/RegWrite.lean writes. -/

namespace Sys2Proof.Machine

/-- The state after a command that writes `l`. -/
theorem after_writes {l : List Part} {s : State} {o : Out State} (h : ∀ t, o = .next t → Writes l s t) :
    Writes l s (after o s) := by
  unfold after
  split
  · exact h _ rfl
  · exact Writes.refl _ _

theorem State.qcmdWrite_writes  (s : State) (fn : Nat) (v : Nat) :
    Writes [.regs, .cnts, .posted, .out, .frames, .dram, .poison, .queues, .host, .ports, .flows, .ring] s (State.qcmdWrite s fn v) := by
  unfold State.qcmdWrite
  repeat' first
    | dsimp only
    | with_reducible exact Writes.refl _ _
    | (apply Writes.step; case k => with_reducible apply State.qmCreate_writes)
    | (apply Writes.step; case k => with_reducible apply State.qmEnable_writes)
    | (apply Writes.step; case k => with_reducible apply State.qmShutdown_writes)
    | (apply Writes.step; case k => with_reducible apply State.qmReset_writes)
    | (apply Writes.step; case k => with_reducible apply State.qmDestroy_writes)
    | (apply Writes.step; case k => with_reducible apply State.qmModify_writes)
    | (apply Writes.step; case k => with_reducible apply State.qmQuery_writes)
    | decide
    | (with_reducible (apply Writes.fst; case e => assumption))
    | split

theorem State.plainWrite_writes  (s : State) (fn : Nat) (a : Nat) (v : Nat) :
    Writes [.regs, .mode] s (State.plainWrite s fn a v) := by
  unfold State.plainWrite
  repeat' first
    | dsimp only
    | with_reducible exact Writes.refl _ _
    | (apply Writes.step; case k => with_reducible apply State.wr_writes)
    | with_reducible refine Writes.ite ?_ ?_
    | decide
    | (with_reducible (apply Writes.fst; case e => assumption))
    | split

theorem State.actHigh_writes  (s : State) (fn : Nat) (a : Nat) (v : Nat) :
    Writes [.regs, .mode, .cnts, .posted, .out, .frames, .dram, .poison, .queues, .host, .ports, .flows, .ring, .engines] s (State.actHigh s fn a v) := by
  unfold State.actHigh
  repeat' first
    | dsimp only
    | with_reducible exact Writes.refl _ _
    | (apply Writes.step; case k => (with_reducible apply after_writes); intro _ h; with_reducible (apply execFlowCmdGo_writes; exact h))
    | (apply Writes.step; case k => with_reducible apply State.qcmdWrite_writes)
    | (apply Writes.step; case k => with_reducible apply State.spareGo_writes)
    | (apply Writes.step; case k => with_reducible apply State.plainWrite_writes)
    | with_reducible refine Writes.ite ?_ ?_
    | decide
    | split

theorem State.commitGroup_writes  (s : State) (fn : Nat) (lo : Nat) (n : Nat) :
    Writes [.regs, .mode, .stage, .cnts, .posted, .free, .evt, .tb] s (State.commitGroup s fn lo n) := by
  unfold State.commitGroup
  repeat' first
    | dsimp only
    | with_reducible exact Writes.refl _ _
    | (apply Writes.step; case k => with_reducible apply State.dropStaged_writes)
    | (apply Writes.step; case k => (with_reducible apply after_writes); intro _ h; with_reducible (apply execTbSet_writes; exact h))
    | (apply Writes.step; case k => (with_reducible apply after_writes); intro _ h; with_reducible (apply execTbStep_writes; exact h))
    | (apply Writes.step; case k => with_reducible apply State.evtCommit_writes)
    | (apply Writes.step; case k => with_reducible apply State.unstage_writes)
    | (apply Writes.step; case k => with_reducible apply State.commitFrer_writes)
    | (apply Writes.step; case k => with_reducible apply State.commitPolicer_writes)
    | (apply Writes.step; case k => with_reducible apply State.commitWords_writes)
    | with_reducible refine Writes.ite ?_ ?_
    | decide
    | split

theorem State.mbCmdWrite_writes  (s : State) (v : Nat) :
    Writes [.regs, .posted, .free, .boot] s (State.mbCmdWrite s v) := by
  unfold State.mbCmdWrite
  repeat' first
    | dsimp only
    | with_reducible exact Writes.refl _ _
    | (apply Writes.step; case k => (with_reducible apply after_writes); intro _ h; with_reducible (apply execLoadBinder_writes; exact h))
    | (apply Writes.step; case k => (with_reducible apply after_writes); intro _ h; with_reducible (apply execLoadImage_writes; exact h))
    | (apply Writes.step; case k => with_reducible apply State.mbStart_writes)
    | decide
    | (with_reducible (apply Writes.fst; case e => assumption))
    | split

theorem State.traceCtrlWrite_writes  (s : State) (v : Nat) :
    Writes [.regs, .cnts, .out, .obs] s (State.traceCtrlWrite s v) := by
  unfold State.traceCtrlWrite
  repeat' first
    | dsimp only
    | ((conv => arg 3; arg 39; skip); with_reducible refine Writes.set_obs ?_ ?_ _)
    | with_reducible exact Writes.refl _ _
    | (apply Writes.step; case k => (with_reducible apply State.setFlag_writes_ne) <;> first | decide | (dsimp only [Reg.OBS_TRACE_CTRL, Reg.OBS_TRACE_CTRL_EN, Reg.GLB_MODE, Field.of]; omega) | (split <;> decide))
    | (apply Writes.step; case k => with_reducible apply State.traceNow_writes)
    | (apply Writes.step; case k => with_reducible apply State.traceSync_writes)
    | with_reducible refine Writes.ite ?_ ?_
    | decide
    | split

theorem State.slotCtrlWrite_writes  (s : State) (v : Nat) :
    Writes [.regs, .cart] s (State.slotCtrlWrite s v) := by
  unfold State.slotCtrlWrite
  repeat' first
    | dsimp only
    | ((conv => arg 3; arg 39; skip); with_reducible refine Writes.set_cart ?_ ?_ _)
    | with_reducible exact Writes.refl _ _
    | (apply Writes.step; case k => (with_reducible apply State.setFlag_writes_ne) <;> first | decide | (dsimp only [Reg.SLOT_CTRL, Reg.SLOT_CTRL_AUTO, Reg.GLB_MODE, Field.of]; omega) | (split <;> decide))
    | (apply Writes.step; case k => (with_reducible apply State.wrN_writes_ne) <;> first | decide | (dsimp only [Reg.SLOT_CTRL, Reg.SLOT_CTRL_AUTO, Reg.GLB_MODE, Field.of]; omega) | (split <;> decide))
    | (apply Writes.step; case k => with_reducible apply State.cartPowerOff_writes)
    | with_reducible refine Writes.ite ?_ ?_
    | decide
    | split

theorem State.actLow_writes  (s : State) (fn : Nat) (a : Nat) (v : Nat) :
    Writes [.regs, .mode, .cnts, .posted, .lastPost, .out, .free, .boot, .imp, .units, .spine, .cells, .frames, .dram, .poison, .queues, .ports, .flows, .items, .pairLink, .recCopies, .ring, .engines, .evt, .cart, .guard, .pair, .obs, .tb] s (State.actLow s fn a v) := by
  unfold State.actLow
  repeat' first
    | dsimp only
    | with_reducible exact Writes.refl _ _
    | (apply Writes.step; case k => (with_reducible apply after_writes); intro _ h; with_reducible (apply execQuireReset_writes; exact h))
    | (apply Writes.step; case k => with_reducible apply State.engineReset_writes)
    | (apply Writes.step; case k => with_reducible apply State.mbCmdWrite_writes)
    | (apply Writes.step; case k => with_reducible apply State.reimpGo_writes)
    | (apply Writes.step; case k => (with_reducible apply after_writes); intro _ h; with_reducible (apply execAbandon_writes; exact h))
    | (apply Writes.step; case k => (with_reducible apply after_writes); intro _ h; with_reducible (apply execGuardHandoverWrite_writes; exact h))
    | (apply Writes.step; case k => with_reducible apply State.pairCtrl_writes)
    | (apply Writes.step; case k => with_reducible apply State.traceCtrlWrite_writes)
    | (apply Writes.step; case k => with_reducible apply State.ledgerPoint_writes)
    | (apply Writes.step; case k => (with_reducible apply after_writes); intro _ h; with_reducible (apply execRelease_writes; exact h))
    | (apply Writes.step; case k => with_reducible apply State.commitWindows_writes)
    | (apply Writes.step; case k => (with_reducible apply after_writes); intro _ h; with_reducible (apply execLtrWrite_writes; exact h))
    | (apply Writes.step; case k => with_reducible apply State.slotCtrlWrite_writes)
    | (apply Writes.step; case k => with_reducible apply State.plainWrite_writes)
    | (apply Writes.step; case k => (with_reducible apply after_writes); intro _ h; with_reducible (apply execLabel_writes; exact h))
    | with_reducible refine Writes.ite ?_ ?_
    | decide
    | split

theorem State.dmaCtrlWrite_writes  (s : State) (c : Nat) (v : Nat) :
    Writes [.regs, .cnts, .posted, .queues, .dma] s (State.dmaCtrlWrite s c v) := by
  unfold State.dmaCtrlWrite
  repeat' first
    | dsimp only
    | with_reducible exact Writes.refl _ _
    | (apply Writes.step; case k => with_reducible apply State.dmaStart_writes)
    | (apply Writes.step; case k => with_reducible apply State.dmaStop_writes)
    | (apply Writes.step; case k => with_reducible apply State.setDmaPending_writes)
    | with_reducible refine Writes.ite ?_ ?_
    | decide
    | split

theorem State.actMid_writes  (s : State) (fn : Nat) (a : Nat) (v : Nat) :
    Writes [.regs, .mode, .cnts, .posted, .free, .queues, .ring, .engines, .dma, .evt, .tb, .ptp] s (State.actMid s fn a v) := by
  unfold State.actMid
  repeat' first
    | dsimp only
    | with_reducible exact Writes.refl _ _
    | (apply Writes.step; case k => (with_reducible apply after_writes); intro _ h; with_reducible (apply execDmaFlagsWrite_writes; exact h))
    | (apply Writes.step; case k => with_reducible apply State.settleAll_writes)
    | (apply Writes.step; case k => with_reducible apply State.wr_writes)
    | (apply Writes.step; case k => with_reducible apply State.dmaCtrlWrite_writes)
    | (apply Writes.step; case k => with_reducible apply State.evtDrive_writes)
    | (apply Writes.step; case k => with_reducible apply State.evtCtrl_writes)
    | (apply Writes.step; case k => with_reducible apply State.evtClear_writes)
    | (apply Writes.step; case k => (with_reducible apply after_writes); intro _ h; with_reducible (apply execApply_writes; exact h))
    | (apply Writes.step; case k => (with_reducible apply after_writes); intro _ h; with_reducible (apply execSlew_writes; exact h))
    | (apply Writes.step; case k => (with_reducible apply after_writes); intro _ h; with_reducible (apply execReject_writes; exact h))
    | (apply Writes.step; case k => with_reducible apply State.ppsDrive_writes)
    | (apply Writes.step; case k => with_reducible apply State.plainWrite_writes)
    | (apply Writes.step; case k => (with_reducible apply after_writes); intro _ h; with_reducible (apply execTbRate_writes; exact h))
    | (apply Writes.step; case k => (with_reducible apply after_writes); intro _ h; with_reducible (apply execTbHostStatusWrite_writes; exact h))
    | (apply Writes.step; case k => (with_reducible apply after_writes); intro _ h; with_reducible (apply execPtpCtrlWrite_writes; exact h))
    | (apply Writes.step; case k => (with_reducible apply after_writes); intro _ h; with_reducible (apply execPtpSwitchGo_writes; exact h))
    | (apply Writes.step; case k => (with_reducible apply after_writes); intro _ h; with_reducible (apply execRingEnableWrite_writes; exact h))
    | (apply Writes.step; case k => (with_reducible apply after_writes); intro _ h; with_reducible (apply execMeasure_writes; exact h))
    | (apply Writes.step; case k => (with_reducible apply after_writes); intro _ h; with_reducible (apply execHeal_writes; exact h))
    | (apply Writes.step; case k => (with_reducible apply after_writes); intro _ h; with_reducible (apply execRingEthertypeWrite_writes; exact h))
    | (apply Writes.step; case k => (with_reducible apply after_writes); intro _ h; with_reducible (apply execRingReadmit_writes; exact h))
    | (apply Writes.step; case k => (with_reducible apply after_writes); intro _ h; with_reducible (apply execRingTableGo_writes; exact h))
    | (apply Writes.step; case k => (with_reducible apply after_writes); intro _ h; with_reducible (apply execRingTableCancel_writes; exact h))
    | with_reducible refine Writes.ite ?_ ?_
    | decide
    | (with_reducible (apply Writes.fst; case e => assumption))
    | split

theorem State.macCtrlWrite_writes  (s : State) (a : Nat) (n : Nat) (v : Nat) :
    Writes [.regs, .mode, .cnts, .ports] s (State.macCtrlWrite s a n v) := by
  unfold State.macCtrlWrite
  repeat' first
    | dsimp only
    | with_reducible exact Writes.refl _ _
    | (apply Writes.step; case k => with_reducible apply State.plainWrite_writes)
    | (apply Writes.step; case k => with_reducible apply State.settle_writes)
    | (apply Writes.step; case k => with_reducible apply State.takeBack_writes)
    | (apply Writes.step; case k => with_reducible apply State.wrN_writes)
    | with_reducible refine Writes.ite ?_ ?_
    | with_reducible refine Writes.foldl ?_ ?_
    | with_reducible refine Writes.foldlFst ?_ ?_
    | decide
    | intro _
    | split

theorem State.plcaWrite_writes  (s : State) (a : Nat) (n : Nat) (v : Nat) :
    Writes [.regs, .mode, .ports] s (State.plcaWrite s a n v) := by
  unfold State.plcaWrite
  repeat' first
    | dsimp only
    | with_reducible exact Writes.refl _ _
    | (apply Writes.step; case k => with_reducible apply State.plainWrite_writes)
    | (apply Writes.step; case k => with_reducible apply State.applyPlca_writes)
    | with_reducible refine Writes.ite ?_ ?_
    | decide
    | split

theorem State.actPort_writes  (s : State) (fn : Nat) (a : Nat) (v : Nat) :
    Writes [.regs, .mode, .cnts, .posted, .out, .free, .ports, .ring] s (State.actPort s fn a v) := by
  unfold State.actPort
  repeat' first
    | dsimp only
    | with_reducible exact Writes.refl _ _
    | (apply Writes.step; case k => (with_reducible apply after_writes); intro _ h; with_reducible (apply execAdminDownWrite_writes; exact h))
    | (apply Writes.step; case k => with_reducible apply State.macCtrlWrite_writes)
    | (apply Writes.step; case k => (with_reducible apply after_writes); intro _ h; with_reducible (apply execMmEnableWrite_writes; exact h))
    | (apply Writes.step; case k => with_reducible apply State.plcaWrite_writes)
    | (apply Writes.step; case k => (with_reducible apply after_writes); intro _ h; with_reducible (apply execGclGo_writes; exact h))
    | (apply Writes.step; case k => (with_reducible apply after_writes); intro _ h; with_reducible (apply execGclCancel_writes; exact h))
    | (apply Writes.step; case k => (with_reducible apply after_writes); intro _ h; with_reducible (apply execCbsSlopeWrite_writes; exact h))
    | (apply Writes.step; case k => with_reducible apply State.plainWrite_writes)
    | with_reducible refine Writes.ite ?_ ?_
    | decide
    | (with_reducible (apply Writes.fst; case e => assumption))
    | split

theorem State.ringTableWrite_writes  (s : State) (a : Nat) (v : Nat) :
    Writes [.regs, .mode] s (State.ringTableWrite s a v) := by
  unfold State.ringTableWrite
  repeat' first
    | dsimp only
    | with_reducible exact Writes.refl _ _
    | (apply Writes.step; case k => with_reducible apply State.wrN_writes)
    | with_reducible refine Writes.ite ?_ ?_
    | decide
    | split

theorem State.writeWord_writes  (s : State) (fn : Nat) (a : Nat) (v : Nat) :
    Writes [.regs, .mode, .stage, .cnts, .posted, .lastPost, .out, .free, .boot, .imp, .units, .spine, .cells, .frames, .dram, .poison, .queues, .host, .ports, .flows, .items, .pairLink, .recCopies, .ring, .engines, .dma, .evt, .cart, .guard, .pair, .obs, .tb, .ptp] s (State.writeWord s fn a v) := by
  unfold State.writeWord
  repeat' first
    | dsimp only
    | with_reducible exact Writes.refl _ _
    | (apply Writes.step; case k => with_reducible apply State.logRx_writes)
    | (apply Writes.step; case k => with_reducible apply State.stageWord_writes)
    | (apply Writes.step; case k => with_reducible apply State.commitGroup_writes)
    | (apply Writes.step; case k => with_reducible apply State.actLow_writes)
    | (apply Writes.step; case k => with_reducible apply State.actMid_writes)
    | (apply Writes.step; case k => with_reducible apply State.actPort_writes)
    | (apply Writes.step; case k => with_reducible apply State.actHigh_writes)
    | (apply Writes.step; case k => with_reducible apply State.ringTableWrite_writes)
    | with_reducible refine Writes.ite ?_ ?_
    | decide
    | (with_reducible (apply Writes.fst; case e => assumption))
    | split

theorem State.bar4Write_writes  (s : State) (fn : Nat) (o : Nat) (v : Nat) :
    Writes [.regs, .mode, .out, .host] s (State.bar4Write s fn o v) := by
  unfold State.bar4Write
  repeat' first
    | dsimp only
    | with_reducible exact Writes.refl _ _
    | (apply Writes.step; case k => with_reducible apply State.deliverPending_writes)
    | (apply Writes.step; case k => with_reducible apply State.setVec_writes)
    | (apply Writes.step; case k => with_reducible apply State.wrN_writes)
    | with_reducible refine Writes.ite ?_ ?_
    | decide
    | split

theorem State.modeFromConfig_writes  (s : State) (fn : Nat) (intxDisable : Bool) :
    Writes [.regs, .out, .host] s (State.modeFromConfig s fn intxDisable) := by
  unfold State.modeFromConfig
  repeat' first
    | dsimp only
    | with_reducible exact Writes.refl _ _
    | (apply Writes.step; case k => with_reducible apply State.changeMode_writes)
    | with_reducible refine Writes.ite ?_ ?_
    | decide
    | split

theorem State.showTags_writes  (s : State) (fn : Nat) :
    Writes [.regs] s (State.showTags s fn) := by
  unfold State.showTags
  repeat' first
    | dsimp only
    | with_reducible exact Writes.refl _ _
    | (apply Writes.step; case k => (with_reducible apply State.setFld_writes_ne) <;> first | decide | (dsimp only [Reg.PCIE_FUNC, Reg.PCIE_FUNC_TAGS, Reg.GLB_MODE, Field.of]; omega) | (split <;> decide))
    | with_reducible refine Writes.ite ?_ ?_
    | decide
    | split

theorem State.cfgWrite_writes  (s : State) (fn : Nat) (o : Nat) (v : Nat) :
    Writes [.regs, .mode, .cnts, .posted, .out, .free, .spine, .dram, .poison, .queues, .host, .flows, .dma] s (State.cfgWrite s fn o v) := by
  unfold State.cfgWrite
  repeat' first
    | dsimp only
    | ((conv => arg 3; arg 39; skip); with_reducible refine Writes.set_host ?_ ?_ _)
    | with_reducible exact Writes.refl _ _
    | (apply Writes.step; case k => with_reducible apply State.wrN_writes)
    | (apply Writes.step; case k => with_reducible apply State.setFlag_writes)
    | (apply Writes.step; case k => with_reducible apply State.hostChanged_writes)
    | (apply Writes.step; case k => with_reducible apply State.modeFromConfig_writes)
    | (apply Writes.step; case k => with_reducible apply State.setFld_writes)
    | (apply Writes.step; case k => with_reducible apply State.deliverPending_writes)
    | (apply Writes.step; case k => with_reducible apply State.setVec_writes)
    | (apply Writes.step; case k => with_reducible apply State.showTags_writes)
    | with_reducible refine Writes.ite ?_ ?_
    | with_reducible refine Writes.foldl ?_ ?_
    | with_reducible refine Writes.foldlFst ?_ ?_
    | decide
    | intro _
    | (with_reducible (apply Writes.fst; case e => assumption))
    | split

theorem State.writeSpace_writes  (s : State) (fn : Nat) (sp : Space) (a : Nat) (v : Nat) :
    Writes [.regs, .mode, .stage, .cnts, .posted, .lastPost, .out, .free, .boot, .imp, .units, .spine, .cells, .frames, .dram, .poison, .queues, .host, .ports, .flows, .items, .pairLink, .recCopies, .ring, .engines, .dma, .evt, .cart, .guard, .pair, .obs, .tb, .ptp] s (State.writeSpace s fn sp a v) := by
  unfold State.writeSpace
  repeat' first
    | dsimp only
    | with_reducible exact Writes.refl _ _
    | (apply Writes.step; case k => with_reducible apply State.writeWord_writes)
    | (apply Writes.step; case k => with_reducible apply State.bar4Write_writes)
    | (apply Writes.step; case k => with_reducible apply State.cfgWrite_writes)
    | decide
    | (with_reducible (apply Writes.fst; case e => assumption))
    | split

theorem State.writeWords_writes  (s : State) (fn : Nat) (sp : Space) (a : Nat) (data : List Byte) (x5 : Nat) :
    Writes [.regs, .mode, .stage, .cnts, .posted, .lastPost, .out, .free, .boot, .imp, .units, .spine, .cells, .frames, .dram, .poison, .queues, .host, .ports, .flows, .items, .pairLink, .recCopies, .ring, .engines, .dma, .evt, .cart, .guard, .pair, .obs, .tb, .ptp] s (State.writeWords s fn sp a data x5) := by
  induction x5 generalizing s a data with
  | zero =>
    unfold State.writeWords
    repeat' first
      | dsimp only
      | with_reducible exact Writes.refl _ _
      | (apply Writes.step; case k => with_reducible apply State.writeSpace_writes)
      | decide
      | split
  | succ k ih =>
    unfold State.writeWords
    repeat' first
      | dsimp only
      | with_reducible exact Writes.refl _ _
      | (apply Writes.step; case k => with_reducible apply ih)
      | (apply Writes.step; case k => with_reducible apply State.writeSpace_writes)
      | decide
      | split

theorem State.hostRegWrite_writes  (s : State) (fn : Nat) (sp : Space) (a : Nat) (data : List Byte) (poisoned : Bool) :
    Writes [.regs, .mode, .stage, .cnts, .posted, .lastPost, .out, .free, .boot, .imp, .units, .spine, .cells, .frames, .dram, .poison, .queues, .host, .ports, .flows, .items, .pairLink, .recCopies, .ring, .engines, .dma, .evt, .cart, .guard, .pair, .obs, .tb, .ptp] s (State.hostRegWrite s fn sp a data poisoned) := by
  unfold State.hostRegWrite
  repeat' first
    | dsimp only
    | with_reducible exact Writes.refl _ _
    | (apply Writes.step; case k => with_reducible apply State.unsupported_writes)
    | (apply Writes.step; case k => with_reducible apply State.windowWrite_writes)
    | (apply Writes.step; case k => with_reducible apply State.postOpenLimited_writes)
    | (apply Writes.step; case k => with_reducible apply State.count_writes)
    | (apply Writes.step; case k => with_reducible apply State.writeWords_writes)
    | with_reducible refine Writes.ite ?_ ?_
    | decide
    | split

theorem execRegisterWrite_writes  (fn : BitVec 6) (space : Space) (addr : BitVec 26) (data : List Byte) (poisoned : Bool) (s : State) {s' : State}
    (h : execRegisterWrite fn space addr data poisoned s = .next s') : Writes [.regs, .mode, .stage, .cnts, .posted, .lastPost, .out, .free, .boot, .imp, .units, .spine, .cells, .frames, .dram, .poison, .queues, .host, .ports, .flows, .items, .pairLink, .recCopies, .ring, .engines, .dma, .evt, .cart, .guard, .pair, .obs, .tb, .ptp] s s' := by
  unfold execRegisterWrite at h
  injection h with h
  subst h
  repeat' first
    | dsimp only
    | with_reducible exact Writes.refl _ _
    | (apply Writes.step; case k => with_reducible apply State.hostRegWrite_writes)
    | decide

end Sys2Proof.Machine
end

