-- ==== Sys2Proof/WellFormed.lean ====
section
/-! DEFINITION. Which commands can reach the device: the bounds on operands that their Lean types do not carry.
No meaning depends on them. -/

namespace Sys2Proof

/-- More than any frame on a medium has (DESIGN CHOICE): MAX_FRAME is at most 9,216 bytes (R242). -/
abbrev maxWireBytes : Nat := 16384

/-- The longest payload of a request or completion on the host link, as PCI Express has it (PRESUMED). -/
abbrev maxLinkBytes : Nat := 4096

/-- A command that can reach the device. -/
def Instr.wf : Instr → Bool
  | .registerWrite _ _ _ data _ => Nat.ble data.length maxLinkBytes
  | .windowWrite _ _ _ data _ => Nat.ble data.length maxLinkBytes
  | .frameReceive _ bytes _ _ => Nat.ble bytes.length maxWireBytes
  | .mmFragmentReceive _ _ _ bytes _ _ _ _ => Nat.ble bytes.length maxWireBytes
  | .pairLinkFrameReceive _ bytes _ => Nat.ble bytes.length maxWireBytes
  | .standbyForward _ bytes _ => Nat.ble bytes.length maxWireBytes
  | .reply _ _ _ _ _ _ payload _ => Nat.ble payload.length 1496
  | .enrol _ vppMv => Nat.blt vppMv 65536
  | .sync _ domain sq _ origin _ rx => Nat.blt domain 256 && Nat.blt sq 65536 && origin.ok && rx.ok
  | .followUp _ domain sq origin _ => Nat.blt domain 256 && Nat.blt sq 65536 && origin.ok
  | .announce _ domain _ _ _ _ => Nat.blt domain 256
  | .delayReq _ domain sq rx => Nat.blt domain 256 && Nat.blt sq 65536 && rx.ok
  | .delayResp _ domain t3 t4 => Nat.blt domain 256 && t3.ok && t4.ok
  | .pdelayReq _ sq rx => Nat.blt sq 65536 && rx.ok
  | .pdelayResp _ t1 t2 t3 t4 => t1.ok && t2.ok && t3.ok && t4.ok
  | .ppsInEdge _ stamp => stamp.ok
  | .badInbound addr _ => decide (addr < 2 ^ 64)
  | .dmaReadCompletion _ _ off data _ => Nat.ble (off + data.length) maxLinkBytes
  | _ => true

end Sys2Proof
end

