-- ==== Sys2Proof/Tests/Slice0.lean ====
section
/-! SUPPORT. Tests of the model: ill-formed commands are refused, worked examples of the spec come out as it gives
them, and every clause of a statement that has hypotheses has a state and operands that meet them together. -/

set_option Elab.async false

namespace Sys2Proof.Tests
open Sys2Proof Sys2Proof.Machine

/-! ### Helper states -/

/-- A running device in mode `m` that has already posted, counted, sent and drawn something. -/
def up (m : Nat) : State :=
  State.setFld { posted := [⟨0x1234, 5⟩], cnts := [(3, 4)], out := [.pme 1], free := 7, nextFrame := 9, tb := { uptime := 5000000000, time := 7000000000 * 2 ^ 32, realigned := 5000000000 } } Reg.GLB_MODE_MODE m
def wRoles : List RoleEntry := (List.range 160).map fun e =>
  let f := e / 5; let k := e % 5
  if k = 4 then {role := 1}
  else if f = 0 ∨ f = 8 then { role := 0x10 + k, priv := k != 2 }
  else if k = 0 then {role := 0x40} else {}
def wStruct : StructureSheet :=
  { pace := [160,160,160,160]
    pair := (List.range 16).map fun q => (q + 4) % 8 + q / 8 * 8
    ctrlActive := 0, ctrlStandby := 8, totalVfs := 2, roles := wRoles
    qranges := [⟨0,1024,0,1⟩,⟨1024,1024,1,1⟩,⟨2048,1024,2,1⟩,⟨3072,1024,3,1⟩,⟨4096,16,0x10,1⟩,⟨4112,16,0x11,1⟩] }
def wCode0 : CodeRec := { kind := 1, id := 7, version := 1, folioMask := BitVec.allOnes 32, digest := 0, roleDir := [(0x10,1,0),(0x11,1,0),(0x12,1,0),(0x13,1,0),(0x40,2,0)] }
def wCode : CodeRec := { wCode0 with sealed := ⟨Config.rootDigest % 2 ^ 256, ⟨Config.rootDigest, Config.recordDigest wCode0⟩⟩ }
def wPorts : List PortRec := (List.range 12).map fun n => if n < 2 then {media := 1, speed := 6, preempt := true} else if n < 6 then {media := 4, speed := 5} else if n < 8 then {media:=5, speed:=2} else {media:=6,speed:=0, plcaId := 255}
def wRows : List MatrixRow := [⟨0,0x01000000,3,0,0⟩]
def wSheets : List SheetHead := { type := 1, offset := 0, length := 40 } :: (List.range 8).map (fun k => { type := k + 2, offset := 40 + 16 * k, length := 16 }) ++ [{ type := 10, offset := 168, length := 320 }]
def wImg0 : Image :=
  { imageLen := 488, sheets := wSheets
    serial := 5
    pubkeyDigest := 42, stepMask := 1, binderMax := 100, bundles := [(7,1)], matrix := wRows, matrixSeal := ⟨Config.rootDigest % 2 ^ 256, ⟨Config.rootDigest, Config.sha512 (matrixBytes wRows)⟩⟩
    struct := wStruct, ports := wPorts, dramBytes := 4294967296
    parts := [⟨1,0,0,268435456⟩,⟨2,0,268435456,67108864⟩,⟨3,0,536870912,67108864⟩,⟨7,0,671088640,67108864⟩,⟨6,0,1073741824,2097152⟩,⟨8,0,1610612736,16777216⟩]
    flowParts := [⟨0,1024,1,0x3FFF⟩], time := {}, ring := {}, pins := (List.range 32).map fun n => if n = 0 then {function := 1} else if n = 1 then {function := 3} else {}, code := [wCode] }
def wImg : Image := { wImg0 with sealed := ⟨42, Config.imageDigest wImg0⟩ }
/-- A running device whose image is `wImg`. -/
def ran (m : Nat) : State :=
  { (up m).wrN Reg.GLB_BINDER_VER 3 with fuses := { ownerDigest := some 42 }, boot := { binder := true, dramBytes := 4294967296 }, imp := { image := some wImg, locked := 0xFFFF#16, loaded := (List.range 16).map fun q => (q, [wCode]), bundle := (List.range 32).map fun f => (f, 1) } }
/-- Port `n` of `s` is up at speed code `v` and sends. -/
def linked (s : State) (n v : Nat) : State :=
  (((s.setFld (Reg.PORT_MEDIA_SPEED n) v).setFlag (Reg.PORT_LINK_STATUS_UP n) true).setFlag (Reg.PORT_MAC_CTRL_TX_EN n) true).setFld (Reg.PORT_MAC_CTRL_MAX_FRAME n) 1522
/-- Preemption is active on port `n` of `s`. -/
def preempting (s : State) (n : Nat) : State :=
  ((s.setFlag (Reg.PORT_MEDIA_PREEMPT_CAP n) true).setFlag (Reg.PORT_MM_CTRL_ENABLE n) true).setFld (Reg.PORT_MM_STATUS_VSTATE n) 3
/-- A gate list of two entries of 500 µs, base 0, cycle 1 ms, in the bank at `gcl` of port `n`. -/
def gated (s : State) (n : Nat) : State :=
  (((s.wr64 (Reg.PORT_OPER_GCL_LO n 0) (0xFF + 500000 * 2 ^ 8)).wr64 (Reg.PORT_OPER_GCL_LO n 0 + 8) (0x01 + 500000 * 2 ^ 8)).setFld (Reg.PORT_OPER_LEN_LEN n) 2).setFld (Reg.PORT_OPER_CYCLE_CYCLE_NS n) 1000000
def adminGated (s : State) (n : Nat) : State :=
  (((s.wr64 (Reg.PORT_ADMIN_GCL_LO n 0) (0x7F + 400000 * 2 ^ 8)).wr64 (Reg.PORT_ADMIN_GCL_LO n 0 + 8) (0x02 + 400000 * 2 ^ 8)).setFld (Reg.PORT_ADMIN_LEN_LEN n) 2).setFld (Reg.PORT_ADMIN_CYCLE_CYCLE_NS n) 800000
/-- A bundle whose role 0x40 serves flows and queues, and runs opcode 0x20 from microaddress 0x100. -/
def wFlowCode : CodeRec := { wCode with roleDir := [(0x10, 1, 0), (0x11, 1, 0), (0x12, 1, 0), (0x13, 1, 0), (0x40, 3, 0)], dispatch := [(0x20, 0x100 + 2 ^ 15 + 0x200 * 2 ^ 16 + 1000 * 2 ^ 32 + 0x40 * 2 ^ 48)] }
/-- The device runs with one flow partition of four flows, keyed by the source, and folio 1 serves flows. -/
def wFlows (l : List (Nat × Flow)) : State :=
  { ((ran 2).setFld (Reg.ENG_ROLE_ROLE 5) 0x40) with imp := { image := some { wImg with flowParts := [⟨0, 4, 1, 0x3FFF⟩] }, loaded := (List.range 16).map fun q => (q, [wFlowCode]), bundle := (List.range 32).map fun f => (f, 1) }, flows := { table := l } }
/-- The mailbox reads a flow command of PF0. -/
def mailed (s : State) : State :=
  { ((s.setFlag (Reg.PCIE_FUNC_BME.of 0) true).setFld Reg.FLOW_CMD_STATUS_STATE 1).wr64 Reg.FLOW_CMD_ADDR_LO 0x40000 with flows := { s.flows with cmdFunc := some 0 } }
/-- A valid flow of partition 0 on folio 1. -/
def wFlow : Flow := (((({} : Flow).set Ctx.valid 1).set Ctx.folio 1).set Ctx.opcode 0x20).set Ctx.dFrames 3
/-- Engine `e` of folio 1 or 0 stands at the word `w`, at microaddress 0x100. -/
def wEng (e w : Nat) (g : Engine) : State :=
  { ((ran 2).setFld (Reg.ENG_ROLE_ROLE e) 0x40).setFld (Reg.ENG_ROLE_STATE e) 1 with
    imp := { image := some wImg, loaded := (List.range 16).map fun q => (q, [{ wFlowCode with words := [(0x100, w)] }]), bundle := (List.range 32).map fun f => (f, 1) }
    engines := { eng := [(e, { g with pc := 0x100, bound := 1000, item := some (g.item.getD { folio := 1, opcode := 32, kind := 3, key := 2, arrivalUs := 5000000, length := 200 }) })] } }
/-- The next state of an outcome. -/
def nxt (o : Out State) : State := match o with
  | .next t => t
  | _ => .reset
/-- DMA channel 3 is RUNNING, as a channel of PF3 with host memory at hand. -/
def wDma (x : DmaChan) : State :=
  { (((((ran 2).setFlag (Reg.PCIE_FUNC_BME.of 3) true).setFld (Reg.DMA_CH_STATUS_STATE 3) 1).setFld (Reg.DMA_CH_CFG_BURST 3) 512).setFld (Reg.DMA_CH_CFG_TAGS 3) 16).setFld (Reg.DMA_CH_CFG_RETRY_LIMIT 3) 2 with dma := [(3, x)] }
/-- A word of a DMA program: its first quadword's bits below LEN, LEN, and the three quadwords after. -/
def wDw (lo len q1 q2 q3 : Nat) : Nat := lo + len * 2 ^ 32 + q1 * 2 ^ 64 + q2 * 2 ^ 128 + q3 * 2 ^ 192
/-- Its fetch. -/
def wDf (w : Nat) : DmaFetch := { word := BitVec.ofNat 256 w }

/-! ### The image of the helper states is accepted -/

/-- The seal of the bundle verifies. -/
theorem wCode_verified : wCode.verified = true := by
  rw [show wCode.verified = wCode.sealOk from rfl]
  simp only [CodeRec.sealOk, Seal.verifies, Bool.and_eq_true]
  exact ⟨⟨decide_eq_true rfl, decide_eq_true rfl⟩, decide_eq_true rfl⟩

/-- So does the signature of the image. -/
theorem wImg_sealed : wImg.sealOk = true := by
  have e : ({ wImg with sealed := {} } : Image) = wImg0 := rfl
  simp only [Image.sealOk, e]
  exact decide_eq_true rfl

/-- And the seal of its matrix. -/
theorem wImg_matrixSealed : wImg.matrixSealOk = true := by
  simp only [Image.matrixSealOk, Seal.verifies]
  simp only [Bool.and_eq_true]
  exact ⟨⟨decide_eq_true rfl, decide_eq_true rfl⟩, decide_eq_true rfl⟩

/-- The binder accepts the image, for the owner of its key. -/
theorem wImg_accepted (f : Fuses) (h : f.ownerDigest = some 42) : imageReason wImg 488 4294967296 3 f = 0 := by
  have h1 : checkHeader wImg 488 = 0 := by decide +kernel
  have h2 : checkSeals wImg = 0 := by
    have e : wImg.code = [wCode] := rfl
    simp [checkSeals, e, wCode_verified]
  have h3 : checkSigner wImg f = 0 := by
    have e : wImg.pubkeyDigest = 42 := rfl
    simp [checkSigner, wImg_sealed, e, h]
  have h4 : checkManifest wImg 3 = 0 := by decide +kernel
  have h5 : checkMatrix wImg 3 = 0 := by
    have e : (wImg.matrix.any fun r => decide (r = ⟨Config.stepping, Config.endpaperVer, 3, wImg.bundleSet, wImg.tipinSet⟩)) = true := by decide +kernel
    simp [checkMatrix, wImg_matrixSealed, e]
  have h6 : checkContent wImg 4294967296 = 0 := by decide +kernel
  simp [imageReason, h1, h2, h3, h4, h5, h6]

/-! ### Well-formedness: each check refuses an ill-formed command -/

/-- One byte more than a medium carries. -/
def wLong : List Byte := List.replicate 16385 0
/-- An instant whose nanoseconds make a second. -/
def wLate : Full := { ns := 1000000000 }

theorem test_wf_accepts : (Instr.registerWrite 3 .bar0 0x10010 [1, 2, 3, 4] false).wf = true := by decide
theorem test_wf_registerWrite : (Instr.registerWrite 3 .bar0 0 (List.replicate 4097 0) false).wf = false := by decide +kernel
theorem test_wf_windowWrite : (Instr.windowWrite 1 2 0 (List.replicate 4097 (some 0)) false).wf = false := by decide +kernel
theorem test_wf_frameReceive : (Instr.frameReceive 0 wLong {} 0).wf = false := by decide +kernel
theorem test_wf_mmFragmentReceive : (Instr.mmFragmentReceive 0 0 0 wLong true 0 {} 0).wf = false := by decide +kernel
theorem test_wf_pairLinkFrameReceive : (Instr.pairLinkFrameReceive 0 wLong 0).wf = false := by decide +kernel
theorem test_wf_standbyForward : (Instr.standbyForward 0 wLong 0).wf = false := by decide +kernel
theorem test_wf_reply : (Instr.reply 0 0 0 0 0 0 (List.replicate 1497 0) 0).wf = false := by decide +kernel
theorem test_wf_enrol : (Instr.enrol { deviceId := 0, ownerDigest := 0, exclusive := false, body := 0, sealed := {} } 65536).wf = false := by decide +kernel
theorem test_wf_sync :
    (Instr.sync 0 256 0 false {} 0 {}).wf = false ∧ (Instr.sync 0 0 65536 false {} 0 {}).wf = false ∧
      (Instr.sync 0 0 0 false wLate 0 {}).wf = false ∧ (Instr.sync 0 0 0 false {} 0 wLate).wf = false := by decide +kernel
theorem test_wf_followUp :
    (Instr.followUp 0 256 0 {} 0).wf = false ∧ (Instr.followUp 0 0 65536 {} 0).wf = false ∧
      (Instr.followUp 0 0 0 wLate 0).wf = false := by decide +kernel
theorem test_wf_announce : (Instr.announce 0 256 0 [] 0 false).wf = false := by decide +kernel
theorem test_wf_delayReq :
    (Instr.delayReq 0 256 0 {}).wf = false ∧ (Instr.delayReq 0 0 65536 {}).wf = false ∧
      (Instr.delayReq 0 0 0 wLate).wf = false := by decide +kernel
theorem test_wf_delayResp :
    (Instr.delayResp 0 256 {} {}).wf = false ∧ (Instr.delayResp 0 0 wLate {}).wf = false ∧
      (Instr.delayResp 0 0 {} wLate).wf = false := by decide +kernel
theorem test_wf_pdelayReq : (Instr.pdelayReq 0 65536 {}).wf = false ∧ (Instr.pdelayReq 0 0 wLate).wf = false := by decide +kernel
theorem test_wf_pdelayResp :
    (Instr.pdelayResp 0 wLate {} {} {}).wf = false ∧ (Instr.pdelayResp 0 {} wLate {} {}).wf = false ∧
      (Instr.pdelayResp 0 {} {} wLate {}).wf = false ∧ (Instr.pdelayResp 0 {} {} {} wLate).wf = false := by decide +kernel
theorem test_wf_ppsInEdge : (Instr.ppsInEdge false wLate).wf = false := by decide +kernel
theorem test_wf_badInbound : (Instr.badInbound (2 ^ 64) 0).wf = false := by decide +kernel
theorem test_wf_dmaReadCompletion :
    (Instr.dmaReadCompletion 0 0 4096 [0] .good).wf = false := by decide +kernel

/-! ### Worked examples of the spec -/

theorem test_reset_canonical : State.reset.canonical = true := by decide

/-- "Example: reaching two registers" of 17_register_map.md, and the indices worked out under R534. -/
theorem test_reaching_registers :
    Cnt.PORT_LEAD_MISS 5 = 0x1120 ∧ Cnt.PORT_LEAD_MISS 0 = 3104 ∧ Cnt.PORT_RX_FCS_ERR 5 = 4355 := by decide

/-- The event code worked out in 00_scope.md: low byte 0x03 of port P5. -/
theorem test_event_code : ((up 2).leadMiss 5).posted.map (·.code) = [0x1234, 0x1103] := by decide +kernel

/-- The change time of "Worked example: a 500 µs cycle on P0" (R177). -/
theorem test_change_time : State.changeTime 1200000000000 500000 1205123466789 = 1205123500000 := by decide +kernel

/-- Entry 2 of that example's admin list (R174). -/
theorem test_gate_entry :
    ((up 2).wr64 0x108000 0x0000000206DDD03F).gateEntryAt 0x108000 0 = ⟨0x3F, 450000, 2, 0⟩ := by decide +kernel

/-- The frames on 10BASE of 05_scheduled_transmission.md: in a window of 1 ms, 1,522 bytes never fit and 1,200 do. -/
theorem test_window_on_ten_megabits :
    State.fitsBefore 10000 (State.occupancyBits 1522) 0 0 (1000000 * 65536) = false ∧
      State.fitsBefore 10000 (State.occupancyBits 1200) 0 0 (1000000 * 65536) = true := by decide +kernel

/-- Slots 0 and 7 of "Example: eight doors" (R298). -/
theorem test_ring_slot :
    slotReply { dlim := 10000 } { offset := 3000, reqLen := 16, replyLen := 32 } = 15672 ∧
      slotEnd {} { dlim := 10000 } { offset := 103800, reqLen := 16, replyLen := 32 } = 118160 ∧
      ringWindow {} = 2344 := by decide

/-- The flow of "Example: recovery of one stream over two paths". -/
def wStream (l : List (Nat × Nat)) : Flow :=
  l.foldl (fun f x => (f.vectorRecover 8 x.1 x.2).1) (({} : Flow).set Ctx.takeAny 1)

/-- Its first eight rows (R273): RCV_SEQ, history and the counters. -/
theorem test_recovery :
    let f := wStream [(100, 5000010), (101, 5000135), (100, 5000210), (101, 5000335), (103, 5000385), (102, 5000460),
      (103, 5000585), (4000, 5000700)]
    f.get Ctx.rcvSeq = 103 ∧ f.history = 255 ∧ f.get Ctx.dPassed = 4 ∧ f.get Ctx.dDiscarded = 3 ∧
      f.stat Stat.outOfOrder = 2 ∧ f.stat Stat.rogue = 1 := by decide +kernel

/-- Its fifth row: a gap of one leaves one bit of the history clear. -/
theorem test_recovery_gap : (wStream [(100, 5000010), (101, 5000135), (103, 5000385)]).history = 0xFD := by decide +kernel

/-- The queue of "Example: a 16-entry TXQ across a wrap", with its positions. -/
def wRing (pi ci taken : Nat) : State :=
  { ran 2 with queues := [(1030, { state := 2, kind := 1, func := 1, log2 := 4, link := 1100, pi := pi, ci := ci, taken := taken })] }

/-- Its steps 1, 5 and 6: a doorbell across the wrap, one that comes late, and one that fills the ring (R387). -/
theorem test_doorbell_wrap :
    (wRing 14 10 14).doorbellOk 1 (1030 + 3 * 2 ^ 32 + 2 ^ 48) = true ∧
      (wRing 20 16 20).doorbellOk 1 (1030 + 2 * 2 ^ 32 + 2 ^ 48) = false ∧
      (wRing 20 16 20).doorbellOk 1 1030 = true := by decide +kernel

theorem test_late_doorbell_counts :
    (nxt (exec (.doorbell 1 (BitVec.ofNat 64 (1030 + 2 * 2 ^ 32 + 2 ^ 48))) (wRing 20 16 20))).cnt Cnt.QM_DB_REJECT = 1 := by
  decide +kernel

/-! ### The hypotheses of the statements can be met -/

namespace W01


/-- The hypotheses of `Obligations.PowerPinsStartAndStopTheDevice` can be met, clause by clause. -/
theorem witness_PowerPinsStartAndStopTheDevice :
    (∃ (s : State), s.pwr.aux = false ∧ s.pwr.main = false) ∧
    (∃ (s : State), s.pwr.aux = false ∧ s.pwr.main = true ∧ s.pwr.perst = false) ∧
    (∃ (s : State), s.mode = 6) ∧
    (∃ (s : State), s.mode ≠ 6) ∧
    (∃ (s : State), s.pwr.main = false ∧ s.running = false ∧ s.pwr.perst = true ∧ ((s.mode = 6 → s.pwr.wake = true))) ∧
    (∃ (s : State), s.pwr.main = false ∧ s.pwr.perst = true ∧ s.mode = 6 ∧ s.pwr.wake = false) ∧
    (∃ (s : State), s.running = true ∧ s.mode ≠ 6) ∧
    (∃ (s : State), s.pwr.perst = true ∧ s.pwr.main = true ∧ s.pwr.aux = true) ∧
    (∃ (s : State), s.pwr.perst = true ∧ s.pwr.main = false) ∧
    (∃ (s : State), s.mode = 5 ∧ s.pwr.aux = true) := by
  refine ⟨?_, ?_, ?_, ?_, ?_, ?_, ?_, ?_, ?_, ?_⟩
  · exact ⟨{ up 0 with pwr := { aux := false, main := false } }, by decide +kernel⟩
  · exact ⟨{ up 0 with pwr := { aux := false, bootsel := 1, startCause := 0x12 } }, by decide +kernel⟩
  · exact ⟨up 6, by decide +kernel⟩
  · exact ⟨up 3, by decide +kernel⟩
  · exact ⟨{ up 0 with pwr := { main := false, perst := true } }, by decide +kernel⟩
  · exact ⟨{ up 6 with pwr := { main := false, perst := true } }, by decide +kernel⟩
  · exact ⟨up 2, by decide +kernel⟩
  · exact ⟨{ up 0 with pwr := { perst := true } }, by decide +kernel⟩
  · exact ⟨{ up 0 with pwr := { perst := true, main := false } }, by decide +kernel⟩
  · exact ⟨up 5, by decide +kernel⟩

end W01

namespace W02

def wHdr : SlotHeader := ⟨0x46534C54, 1, 4096, 328, 8192, 0⟩
def wFw : BinderFw := ⟨0x46424E44, 3, 1, Config.rootDigest, 9, ⟨Config.rootDigest, 9⟩, 5⟩
def wAcc : State := { (ran 0).setFld Reg.IMP_BOOT_STATUS_STAGE 3 with imp := {}, boot := { binder := true, dramBytes := 4294967296, header := some { wHdr with imageLen := 488 } } }

/-- The hypotheses of `Obligations.BootChainAdvancesStageByStage` can be met, clause by clause. -/
theorem witness_BootChainAdvancesStageByStage :
    (∃ (s : State) (slot : Fin 2) (h : SlotHeader), s.mode = 0 ∧ s.bootStage = 0 ∧ s.boot.slot = slot.val ∧ h.magic = 0x46534C54 ∧ h.format = 1 ∧ h.binderOff % 4096 = 0 ∧ h.imageOff % 4096 = 0) ∧
    (∃ (s : State) (h : SlotHeader), s.mode = 0 ∧ s.bootStage = 0 ∧ s.boot.slot = 0 ∧ s.boot.mb = none ∧ h.magic ≠ 0x46534C54) ∧
    (∃ (s : State), s.mode = 0 ∧ s.bootStage = 0 ∧ s.boot.slot = 1 ∧ s.boot.mb = none) ∧
    (∃ (s : State) (f : BinderFw), s.mode = 0 ∧ s.bootStage = 1 ∧ s.boot.slot < 2 ∧ s.boot.mb = none ∧ f.magic = 0x46424E44 ∧ s.sourceLen false ≤ 2097152 ∧ s.sourceLen false = 16 + (f.codeLen + 7) / 8 * 8 + 304 ∧ f.pubkeyDigest = Config.rootDigest ∧ f.sigOk = true) ∧
    (∃ (s : State), s.mode = 0 ∧ s.bootStage = 2 ∧ s.boot.binder = true) ∧
    (∃ (s : State) (i : Image), s.mode = 0 ∧ s.bootStage = 3 ∧ s.boot.binder = true ∧ s.boot.mb = none ∧ s.boot.slot < 2 ∧ imageReason i (s.sourceLen true) s.boot.dramBytes (s.rd Reg.GLB_BINDER_VER).toNat s.fuses = 0) ∧
    (∃ (s : State) (i : Image) (r : Nat), s.mode = 0 ∧ s.bootStage = 3 ∧ s.boot.binder = true ∧ s.boot.slot = 0 ∧ s.boot.binderHostFed = false ∧ s.boot.mb = none ∧ imageReason i (s.sourceLen true) s.boot.dramBytes (s.rd Reg.GLB_BINDER_VER).toNat s.fuses = r ∧ r ≠ 0 ∧ r < 256) := by
  refine ⟨?_, ?_, ?_, ?_, ?_, ?_, ?_⟩
  · exact ⟨up 0, 0, wHdr, by decide +kernel⟩
  · exact ⟨up 0, ⟨0, 1, 0, 0, 0, 0⟩, by decide +kernel⟩
  · exact ⟨{ up 0 with boot := { slot := 1 } }, by decide +kernel⟩
  · exact ⟨{ (up 0).setFld Reg.IMP_BOOT_STATUS_STAGE 1 with boot := { header := some wHdr } }, wFw, (by decide +kernel), (by decide +kernel), (by decide +kernel), (by decide +kernel), (by decide +kernel), (by decide +kernel), (by decide +kernel), rfl, decide_eq_true rfl⟩
  · exact ⟨{ (up 0).setFld Reg.IMP_BOOT_STATUS_STAGE 2 with boot := { binder := true } }, by decide +kernel⟩
  · exact ⟨wAcc, wImg, (by decide +kernel), (by decide +kernel), (by decide +kernel), (by decide +kernel), (by decide +kernel), (by rw [show wAcc.sourceLen true = 488 from by decide +kernel, show wAcc.boot.dramBytes = 4294967296 from rfl, show (wAcc.rd Reg.GLB_BINDER_VER).toNat = 3 from by decide +kernel]; exact wImg_accepted _ rfl)⟩
  · exact ⟨{ (up 0).setFld Reg.IMP_BOOT_STATUS_STAGE 3 with boot := { binder := true, dramBytes := 4294967296 } }, { wImg with magic := 0 }, 1, by decide +kernel⟩

end W02

namespace W03

def wEnr : EnrolRecord := ⟨Config.identityId, 42, true, 7, ⟨Config.rootDigest % 2 ^ 256, ⟨Config.rootDigest, 7⟩⟩⟩

/-- The hypotheses of `Obligations.MailboxCommandsStartAndEnd` can be met, clause by clause. -/
theorem witness_MailboxCommandsStartAndEnd :
    (∃ (s : State), s.boot.mb = none ∧ s.mode = 0 ∧ s.bootStage = 6 ∧ (s.rd Reg.IMP_MB_LEN).toNat ≤ 2097152) ∧
    (∃ (s : State), s.boot.mb = none ∧ s.hostFedReady = true ∧ (s.rd Reg.IMP_MB_LEN).toNat ≤ 67108864) ∧
    (∃ (s : State), s.boot.mb = none ∧ s.hostFedReady = true ∧ (s.rd Reg.IMP_MB_LEN).toNat = 336) ∧
    (∃ (s : State), s.boot.mb = none ∧ (s.mode = 0 ∧ s.boot.binder = true ∨ 1 ≤ s.mode ∧ s.mode ≤ 4) ∧ 544 ≤ (s.rd Reg.IMP_MB_LEN).toNat) ∧
    (∃ (s : State), s.boot.mb ≠ none) ∧
    (∃ (s : State) (op : MbOp), s.boot.mb = some op ∧ op.transferred = false ∧ (op.cmd = 1 ∨ op.cmd = 2 ∧ s.bootStage = 6)) ∧
    (∃ (s : State) (op : MbOp), s.boot.mb = some op ∧ op.transferred = false ∧ op.cmd = 4) ∧
    (∃ (s : State) (op : MbOp) (r : EnrolRecord), s.boot.mb = some op ∧ op.transferred = false ∧ op.cmd = 3 ∧ op.enrol = some r ∧ 1746 ≤ op.vppMv ∧ op.vppMv ≤ 1854 ∧ r.deviceId = Config.identityId ∧ r.sealOk = true ∧ s.fuses.ownerDigest = none) ∧
    (∃ (s : State) (op : MbOp), s.boot.mb = some op ∧ op.transferred = false ∧ op.cmd < 256) := by
  refine ⟨?_, ?_, ?_, ?_, ?_, ?_, ?_, ?_, ?_⟩
  · exact ⟨(up 0).setFld Reg.IMP_BOOT_STATUS_STAGE 6, by decide +kernel⟩
  · exact ⟨{ (up 0).setFld Reg.IMP_BOOT_STATUS_STAGE 2 with boot := { binder := true, binderHostFed := true } }, by decide +kernel⟩
  · exact ⟨{ ((up 0).setFld Reg.IMP_BOOT_STATUS_STAGE 6).wrN Reg.IMP_MB_LEN 336 with boot := { binder := true, binderHostFed := true } }, by decide +kernel⟩
  · exact ⟨(up 3).wrN Reg.IMP_MB_LEN 544, by decide +kernel⟩
  · exact ⟨{ up 2 with boot := { mb := some ⟨4, 8, 600, false, none, 0, 5⟩ } }, by decide +kernel⟩
  · exact ⟨{ (up 0).setFld Reg.IMP_BOOT_STATUS_STAGE 6 with boot := { mb := some ⟨2, 8, 600, false, none, 0, 5⟩ } }, ⟨2, 8, 600, false, none, 0, 5⟩, by decide +kernel⟩
  · exact ⟨{ up 0 with boot := { mb := some ⟨4, 8, 600, false, none, 0, 5⟩ } }, ⟨4, 8, 600, false, none, 0, 5⟩, by decide +kernel⟩
  · exact ⟨{ up 0 with boot := { mb := some ⟨3, 8, 336, false, some wEnr, 1746, 0⟩ } }, ⟨3, 8, 336, false, some wEnr, 1746, 0⟩, wEnr, rfl, (by decide +kernel), (by decide +kernel), rfl, (by decide +kernel), (by decide +kernel), rfl, (by simp only [EnrolRecord.sealOk, Seal.verifies, Bool.and_eq_true]; exact ⟨⟨decide_eq_true rfl, decide_eq_true rfl⟩, decide_eq_true rfl⟩), (by decide +kernel)⟩
  · exact ⟨{ up 0 with boot := { mb := some ⟨1, 8, 336, false, none, 0, 0⟩ } }, ⟨1, 8, 336, false, none, 0, 0⟩, by decide +kernel⟩

end W03

namespace W04

def wReq : State := ((((ran 2).setFld Reg.IMP_REIMP_STATUS_STATE 1).wrN Reg.IMP_REIMP_ADDR_LO 671088640).wrN Reg.IMP_REIMP_LEN 488).setFld Reg.IMP_REIMP_QUIRES_QUIRES 2

/-- The hypotheses of `Obligations.ImpositionAndReimpositionAdvance` can be met, clause by clause. -/
theorem witness_ImpositionAndReimpositionAdvance :
    (∃ (s : State) (i : Image), s.mode = 1 ∧ s.imp.pending = some i) ∧
    (∃ (s : State), (s.mode = 2 ∨ s.mode = 3) ∧ (s.reimpState = 0 ∨ 5 ≤ s.reimpState)) ∧
    (∃ (s : State), 1 ≤ s.reimpState ∧ s.reimpState ≤ 4) ∧
    (∃ (s : State), s.reimpState = 1) ∧
    (∃ (s : State) (i : Image), s.reimpState = 1 ∧ s.reimpReason i = 0 ∧ ((∀ q, q < 16 → s.bit Reg.IMP_REIMP_QUIRES_QUIRES q = true → s.holdsControl q = false))) ∧
    (∃ (s : State) (i : Image) (r : Nat), s.reimpState = 1 ∧ s.reimpReason i = r ∧ r ≠ 0) ∧
    (∃ (s : State) (q : Fin 16) (i : Image), s.mode = 4 ∧ s.imp.reimp.migratingOut.getLsbD q = true ∧ s.holdsControl q = false ∧ s.reimpHandsOver = false ∧ s.guardState ≠ 2 ∧ s.quireSafe q = true ∧ s.imp.reimp.image = some i) ∧
    (∃ (s : State) (q : Fin 16) (i : Image) (l : List CodeRec), s.mode = 4 ∧ s.imp.reimp.loading.getLsbD q = true ∧ s.imp.reimp.image = some i ∧ State.recordsOk i l = true ∧ { s with imp := { s.imp with loaded := Table.set (fun _ => []) s.imp.loaded q l } }.codeMatches q = true) ∧
    (∃ (s : State) (i : Image), s.mode = 4 ∧ s.imp.reimp.image = some i ∧ s.imp.reimp.migratingOut = 0 ∧ s.imp.reimp.loading = 0) := by
  refine ⟨?_, ?_, ?_, ?_, ?_, ?_, ?_, ?_, ?_⟩
  · exact ⟨{ ran 1 with imp := { pending := some wImg } }, wImg, (by decide +kernel), rfl⟩
  · exact ⟨(up 2).setFld Reg.IMP_REIMP_STATUS_STATE 6, by decide +kernel⟩
  · exact ⟨(up 4).setFld Reg.IMP_REIMP_STATUS_STATE 4, by decide +kernel⟩
  · exact ⟨(up 2).setFld Reg.IMP_REIMP_STATUS_STATE 1, by decide +kernel⟩
  · exact ⟨wReq, wImg, (by decide +kernel), (by have h : imageReason wImg (wReq.rd Reg.IMP_REIMP_LEN).toNat wReq.boot.dramBytes (wReq.rd Reg.GLB_BINDER_VER).toNat wReq.fuses = 0 := (by rw [show (wReq.rd Reg.IMP_REIMP_LEN).toNat = 488 from by decide +kernel, show wReq.boot.dramBytes = 4294967296 from rfl, show (wReq.rd Reg.GLB_BINDER_VER).toNat = 3 from by decide +kernel]; exact wImg_accepted _ rfl); simp only [State.reimpReason, h]; decide +kernel), (by decide +kernel)⟩
  · exact ⟨wReq, { wImg with magic := 0 }, 1, by decide +kernel⟩
  · exact ⟨{ (ran 4).setFld Reg.IMP_REIMP_STATUS_STATE 2 with imp := { image := some wImg, locked := 0xFFFF, reimp := { image := some wImg, named := 6, migratingOut := 6 } } }, 1, wImg, (by decide +kernel), (by decide +kernel), (by decide +kernel), (by decide +kernel), (by decide +kernel), (by decide +kernel), rfl⟩
  · exact ⟨{ (ran 4).setFld Reg.IMP_REIMP_STATUS_STATE 3 with imp := { image := some wImg, loaded := (List.range 16).map fun q => (q, [wCode]), bundle := (List.range 32).map fun f => (f, 1), reimp := { image := some wImg, named := 2, loading := 2 } } }, 1, wImg, [wCode], (by decide +kernel), (by decide +kernel), rfl, (by simp only [State.recordsOk, List.all_cons, List.all_nil, wCode_verified]; decide +kernel), (by decide +kernel)⟩
  · exact ⟨{ (ran 4).setFld Reg.IMP_REIMP_STATUS_STATE 4 with imp := { image := some wImg, loaded := [(1, [wCode])], reimp := { image := some wImg, named := 2, migratingBack := 2 } } }, wImg, (by decide +kernel), rfl, (by decide +kernel), (by decide +kernel)⟩

end W04

namespace W05


/-- The hypotheses of `Obligations.ResetsOfQuiresAndEnginesAndCredits` can be met, clause by clause. -/
theorem witness_ResetsOfQuiresAndEnginesAndCredits :
    (∃ (s : State) (q : Fin 16), s.quireResetRefusal q = 0 ∧ s.holdsControl q = false) ∧
    (∃ (s : State) (q : Fin 16) (r : Nat), s.quireResetRefusal q = r ∧ r ≠ 0) ∧
    (∃ (s : State) (q : Fin 16), s.bit Reg.GLB_RESET_STATUS_QUIRE_BUSY q = true ∧ s.holdsControl q = false ∧ s.units.folioOut.getLsbD (2 * q) = false ∧ s.units.folioOut.getLsbD (2 * q + 1) = false ∧ s.mode ≠ 7) ∧
    (∃ (s : State) (e : BitVec 8), e.toNat < 160 ∧ s.engineResetRefusal e.toNat = 0) ∧
    (∃ (s : State) (e : BitVec 8) (r : Nat), e.toNat < 160 ∧ s.engineResetRefusal e.toNat = r ∧ r ≠ 0) ∧
    (∃ (e : BitVec 8), 160 ≤ e.toNat) ∧
    (∃ (s : State) (e : Nat), s.units.ereset = some e ∧ e < 160) ∧
    (∃ (s : State) (link : Fin 4) (vc : Fin 4) (dir : Fin 2) (n : Fin 17), s.items = [] ∧ s.units.dieLost.getLsbD link = false ∧ n.val ≤ (s.credit (spineKey link vc dir)).returning) := by
  refine ⟨?_, ?_, ?_, ?_, ?_, ?_, ?_, ?_⟩
  · exact ⟨ran 2, 1, by decide +kernel⟩
  · exact ⟨ran 1, 1, 6, by decide +kernel⟩
  · exact ⟨(ran 2).setFld Reg.GLB_RESET_STATUS_QUIRE_BUSY 2, 1, by decide +kernel⟩
  · exact ⟨(ran 2).setEngState 13 4, 13, by decide +kernel⟩
  · exact ⟨ran 2, 5, 4, by decide +kernel⟩
  · exact ⟨200, by decide +kernel⟩
  · exact ⟨{ ((ran 2).setFlag Reg.GLB_RESET_STATUS_ENGINE_BUSY true).setEngState 13 6 with units := { ereset := some 13 } }, 13, by decide +kernel⟩
  · exact ⟨{ ran 2 with spine := [(0, ⟨4, 1, 3⟩)] }, 0, 0, 0, 3, by decide +kernel⟩

end W05

namespace W06

def wIt : WorkItem := { folio := 1, link := some 0, opcode := 0x20 }

/-- The hypotheses of `Obligations.FaultsAreRecordedAndAnswered` can be met, clause by clause. -/
theorem witness_FaultsAreRecordedAndAnswered :
    (∃ (s : State) (code : BitVec 8), s.mode ≠ 6 ∧ 1 ≤ code.toNat ∧ code.toNat ≤ 0x13 ∧ code.toNat ≠ 0x0D ∧ s.mode = 7 ∧ s.guard.faultAt ≠ s.tb.uptime + 1) ∧
    (∃ (s : State) (code : BitVec 8), s.mode < 6 ∧ (code = 0x0B ∨ code = 0x0E ∨ code = 0x0F ∨ code = 0x11 ∨ code = 0x12)) ∧
    (∃ (s : State) (code : BitVec 8), (s.mode = 6 ∨ code = 0 ∨ 0x13 < code.toNat)) ∧
    (∃ (s : State) (d : Fin 4), s.mode < 6 ∧ s.units.dieLost.getLsbD d = false ∧ dieOf (quireOf s.ctrlActive) ≠ d ∧ s.guard.handover = none ∧ s.units.ereset = none) ∧
    (∃ (s : State) (e : Fin 160), s.mode < 6 ∧ s.engState e = 3 ∧ quireOf (folioOf e) ≠ quireOf s.ctrlActive ∧ s.imp.reimp.loading.getLsbD (quireOf (folioOf e)) = false) ∧
    (∃ (s : State) (f : Fin 32) (it : WorkItem), s.nextOnLink f = some it ∧ s.servingFolio it.folio = f ∧ s.dispatchInvalid f it = false ∧ (∀ e ∈ State.folioEngines f, s.engIdle e = false)) ∧
    (∃ (s : State) (f : Fin 32), 256 ≤ (s.folioQueue f).length) := by
  refine ⟨?_, ?_, ?_, ?_, ?_, ?_, ?_⟩
  · exact ⟨up 7, 1, by decide +kernel⟩
  · exact ⟨ran 2, 0x0B, by decide +kernel⟩
  · exact ⟨up 6, 3, by decide +kernel⟩
  · exact ⟨ran 2, 1, by decide +kernel⟩
  · exact ⟨(ran 2).setEngState 14 3, 14, by decide +kernel⟩
  · exact ⟨{ ((((((ran 2).setFld (Reg.ENG_ROLE_ROLE 5) 0x40).setEngState 5 5).setEngState 6 5).setEngState 7 5).setEngState 8 5).setEngState 9 3 with items := [wIt], imp := { image := some wImg, loaded := (List.range 16).map fun q => (q, [{ wCode with dispatch := [(0x20, 2 ^ 15 + 0x40 * 2 ^ 48)] }]), bundle := (List.range 32).map fun f => (f, 1) } }, 1, wIt, by decide +kernel⟩
  · exact ⟨{ ran 2 with engines := { queue := [(1, List.replicate 256 wIt)] } }, 1, by decide +kernel⟩

end W06

namespace W07


/-- The hypotheses of `Obligations.CellsAndPaceAndRailsFollowTheirRules` can be met, clause by clause. -/
theorem witness_CellsAndPaceAndRailsFollowTheirRules :
    (∃ (s : State) (h : Nat), (s.frame h).cells ≠ 0 ∧ (s.frame h).copies = 0) ∧
    (∃ (s : State) (h : Nat), (s.frame h).copies ≠ 0) ∧
    (∃ (s : State) (p : BitVec 16), 2 ≤ s.mode ∧ s.mode ≠ 6 ∧ 1050 ≤ p.toNat) ∧
    (∃ (s : State) (q : Fin 16) (p : BitVec 16), 2 ≤ s.mode ∧ s.mode < 6 ∧ p.toNat < 1050 ∧ s.railMv (dieOf q) = 840 ∧ s.quireOut q = false ∧ Table.get (fun _ => 0) s.pace.lowSince q = 0) ∧
    (∃ (s : State) (q : Fin 16), Table.get (fun _ => 0) s.pace.lowSince q ≠ 0 ∧ Table.get (fun _ => 0) s.pace.lowSince q + 10000000 ≤ s.tb.uptime + 1 ∧ s.operating = true ∧ s.units.quireIso.getLsbD q = false) ∧
    (∃ (s : State) (q : Fin 16), s.tb.uptime + 1 < Table.get (fun _ => 0) s.pace.lowSince q + 10000000) ∧
    (∃ (s : State) (d : Fin 4), s.operating = true ∧ s.mode ≠ 5 ∧ (∀ q : Fin 4, s.quireOut (4 * d + q) = false) ∧ Table.get (fun _ => 0) s.pace.lastAdjust d + 100000 ≤ s.tb.uptime + 1 ∧ s.railMv d < 840 ∧ (∃ q : Fin 4, s.fld (Reg.ENG_PACE_PACE (4 * d + q)) < ((s.imp.image.map fun i => i.struct.pace.getD d 120).getD 120) * 10)) ∧
    (∃ (s : State) (d : Fin 4), s.mode = 5 ∧ (∀ q : Fin 4, s.quireOut (4 * d + q) = false) ∧ Table.get (fun _ => 0) s.pace.lastAdjust d + 100000 ≤ s.tb.uptime + 1 ∧ 610 < s.railMv d ∧ (∀ q : Fin 4, 1050 < s.fld (Reg.ENG_PACE_PACE (4 * d + q)))) ∧
    (∃ (s : State) (d : Fin 4), s.operating = true ∧ s.mode ≠ 5 ∧ (∀ q : Fin 4, s.quireOut (4 * d + q) = false) ∧ Table.get (fun _ => 0) s.pace.lastAdjust d + 100000 ≤ s.tb.uptime + 1 ∧ 610 < s.railMv d ∧ (∀ q : Fin 4, ((s.imp.image.map fun i => i.struct.pace.getD d 120).getD 120) * 10 < s.fld (Reg.ENG_PACE_PACE (4 * d + q))) ∧ ((s.imp.image.map fun i => i.struct.pace.getD d 120).getD 120) * 10 < 65535) ∧
    (∃ (v : BitVec 16), 6000 ≤ v.toNat ∧ v.toNat ≤ 8500) ∧
    (∃ (v : BitVec 16), 7125 ≤ v.toNat ∧ v.toNat ≤ 7875) ∧
    (∃ (s : State) (v : BitVec 16), (v.toNat < 7125 ∨ 7875 < v.toNat) ∧ s.mode < 6) := by
  refine ⟨?_, ?_, ?_, ?_, ?_, ?_, ?_, ?_, ?_, ?_, ?_, ?_⟩
  · exact ⟨{ up 2 with frames := [(3, { cells := 4, port := some 1 })], cells := { free := 131068, allocated := 4 } }, 3, by decide +kernel⟩
  · exact ⟨{ up 2 with frames := [(3, { cells := 4, copies := 1 })] }, 3, by decide +kernel⟩
  · exact ⟨ran 2, 1050, by decide +kernel⟩
  · exact ⟨{ ran 2 with pace := { railMv := [(1, 840)] } }, 5, 1049, by decide +kernel⟩
  · exact ⟨{ ran 2 with pace := { lowSince := [(5, 4990000001)] } }, 5, by decide +kernel⟩
  · exact ⟨{ ran 2 with pace := { lowSince := [(5, 4990000002)] } }, 5, by decide +kernel⟩
  · exact ⟨ran 2, 1, by decide +kernel⟩
  · exact ⟨(List.range 16).foldl (fun s q => s.setFld (Reg.ENG_PACE_PACE q) 1051) (ran 5), 1, by decide +kernel⟩
  · exact ⟨(List.range 16).foldl (fun s q => s.setFld (Reg.ENG_PACE_PACE q) 1601) (ran 2), 1, by decide +kernel⟩
  · exact ⟨6000, by decide +kernel⟩
  · exact ⟨7125, by decide +kernel⟩
  · exact ⟨ran 2, 7124, by decide +kernel⟩

end W07

namespace W08

def wTr : State := ((ran 2).setFlag Reg.OBS_TRACE_CTRL_EN true).setFlag Reg.OBS_TRACE_SRC_EVENT true

/-- The hypotheses of `Obligations.LedgerAndTraceRecordTheirPoints` can be met, clause by clause. -/
theorem witness_LedgerAndTraceRecordTheirPoints :
    (∃ (s : State), s.mode ≠ 6 ∧ (s.latestSnap.num = 0 ∨ s.latestSnap.time + 2000 < s.tb.uptime) ∧ s.badBooks = [] ∧ s.obs.hold = none) ∧
    (∃ (s : State), s.latestSnap.num ≠ 0 ∧ s.tb.uptime ≤ s.latestSnap.time + 2000) ∧
    (∃ (s : State), s.mode ≠ 6 ∧ s.tb.uptime % (s.fld Reg.OBS_LEDGER_PERIOD_PERIOD_US * 1000) = 0 ∧ (s.latestSnap.num = 0 ∨ s.latestSnap.time + 2000 < s.tb.uptime) ∧ s.badBooks = []) ∧
    (∃ (s : State), s.tb.uptime % (s.fld Reg.OBS_LEDGER_PERIOD_PERIOD_US * 1000) ≠ 0) ∧
    (∃ (s : State) (b : Bool) (u : Nat), s.obs.hold = some (b, u) ∧ u ≤ s.tb.uptime) ∧
    (∃ (s : State) (b : Bool) (u : Nat), s.obs.hold = some (b, u) ∧ s.tb.uptime < u) ∧
    (∃ (s : State) (age : Nat), s.traceOn = true ∧ age ≤ s.tb.uptime ∧ s.flag Reg.OBS_TRACE_SRC_EVENT = true ∧ s.obs.fifo = [] ∧ s.obs.lostSpine = 0 ∧ s.obs.lostFifo = 0) ∧
    (∃ (s : State), s.traceOn = true ∧ s.flag Reg.OBS_TRACE_SRC_EVENT = true ∧ s.traceNow = s ∧ 4096 < s.traceUsed + 4) ∧
    (∃ (s : State), s.traceOn = false) ∧
    (∃ (s : State), s.traceOn = true ∧ s.tb.uptime % 1000000 = 0 ∧ s.obs.fifo = [] ∧ s.obs.lostSpine = 0 ∧ s.obs.lostFifo = 0) := by
  refine ⟨?_, ?_, ?_, ?_, ?_, ?_, ?_, ?_, ?_, ?_⟩
  · exact ⟨ran 2, by decide +kernel⟩
  · exact ⟨{ ran 2 with obs := { latest := true, bank1 := { num := 5, time := 4999998000 } } }, by decide +kernel⟩
  · exact ⟨(ran 2).setFld Reg.OBS_LEDGER_PERIOD_PERIOD_US 1000, by decide +kernel⟩
  · exact ⟨(ran 2).setFld Reg.OBS_LEDGER_PERIOD_PERIOD_US 3, by decide +kernel⟩
  · exact ⟨{ ran 2 with obs := { hold := some (true, 5000000000) } }, true, 5000000000, by decide +kernel⟩
  · exact ⟨{ ran 2 with obs := { hold := some (true, 5000000001) } }, true, 5000000001, by decide +kernel⟩
  · exact ⟨wTr, 12, by decide +kernel⟩
  · exact ⟨{ wTr with obs := { busy := 5000000000, fifo := [{ type := 1, len := 65496, seq := 0, ts := 0, uptime := 0, payload := 0 }] } }, (by decide +kernel), (by decide +kernel), rfl, (by decide +kernel)⟩
  · exact ⟨ran 2, by decide +kernel⟩
  · exact ⟨wTr, by decide +kernel⟩

end W08

namespace W09

def wStk : State := ((ran 2).setFlag Reg.PTP_CTRL_STACK true).setFld Reg.TB_JUMP_JUMP_NS 10000
def wPend : State := ((ran 2).setFlag Reg.TB_STATUS_STEP_PENDING true).wr64 Reg.TB_PENDING_LO (2 ^ 64 - 20000)

/-- The hypotheses of `Obligations.StepsAreAcceptedRefusedAndAuthorised` can be met, clause by clause. -/
theorem witness_StepsAreAcceptedRefusedAndAuthorised :
    (∃ (s : State), s.tb.realigned + 1000 ≤ s.tb.uptime ∧ s.tb.due = none) ∧
    (∃ (s : State), s.tb.uptime < s.tb.realigned + 1000) ∧
    (∃ (s : State) (v : Full), v.ok = true ∧ s.timeStatus = 0) ∧
    (∃ (s : State), s.timeStatus ≠ 0 ∧ (s.flag Reg.PTP_CTRL_STACK = false ∨ s.flag Reg.TB_STATUS_DUAL = true)) ∧
    (∃ (s : State) (v : BitVec 64), s.flag Reg.PTP_CTRL_STACK = true ∧ s.flag Reg.TB_STATUS_DUAL = false ∧ v.toInt.natAbs ≤ s.fld Reg.TB_JUMP_JUMP_NS) ∧
    (∃ (s : State) (v : BitVec 64), s.flag Reg.PTP_CTRL_STACK = true ∧ s.flag Reg.TB_STATUS_DUAL = false ∧ s.timeStatus ≠ 0 ∧ s.fld Reg.TB_JUMP_JUMP_NS < v.toInt.natAbs) ∧
    (∃ (s : State), (s.flag Reg.PTP_CTRL_STACK = false ∨ s.flag Reg.TB_STATUS_DUAL = true)) ∧
    (∃ (s : State), s.flag Reg.TB_STATUS_STEP_PENDING = true) ∧
    (∃ (s : State), s.flag Reg.TB_STATUS_STEP_PENDING = true) ∧
    (∃ (s : State), s.flag Reg.TB_STATUS_STEP_PENDING = true) ∧
    (∃ (s : State), s.flag Reg.TB_STATUS_STEP_PENDING = false) := by
  refine ⟨?_, ?_, ?_, ?_, ?_, ?_, ?_, ?_, ?_, ?_, ?_⟩
  · exact ⟨{ ran 2 with tb := { uptime := 2000, realigned := 1000, step := some (-7) } }, by decide +kernel⟩
  · exact ⟨{ ran 2 with tb := { uptime := 1998, realigned := 1000, step := some 8 } }, by decide +kernel⟩
  · exact ⟨ran 2, ⟨1000, 999999999, 65535⟩, by decide +kernel⟩
  · exact ⟨(ran 2).setFld Reg.TB_STATUS_STATUS 2, by decide +kernel⟩
  · exact ⟨wStk, 10000, by decide +kernel⟩
  · exact ⟨wStk.setFld Reg.TB_STATUS_STATUS 2, 10001, by decide +kernel⟩
  · exact ⟨ran 2, by decide +kernel⟩
  · exact ⟨wPend, by decide +kernel⟩
  · exact ⟨wPend, by decide +kernel⟩
  · exact ⟨wPend, by decide +kernel⟩
  · exact ⟨ran 2, by decide +kernel⟩

/-- The hypotheses of `Obligations.SlewsEndAndTheHostSteers` can be met, clause by clause. -/
theorem witness_SlewsEndAndTheHostSteers :
    (∃ (s : State), s.flag Reg.TB_STATUS_SLEWING = true ∧ s.tb.residual = 0) ∧
    (∃ (s : State), (s.flag Reg.TB_STATUS_SLEWING = false ∨ s.tb.residual ≠ 0)) ∧
    (∃ (s : State), s.flag Reg.PTP_CTRL_STACK = true ∧ s.flag Reg.TB_STATUS_DUAL = false) ∧
    (∃ (s : State), (s.flag Reg.PTP_CTRL_STACK = false ∨ s.flag Reg.TB_STATUS_DUAL = true)) ∧
    (∃ (s : State) (v : BitVec 2), s.flag Reg.PTP_CTRL_STACK = true ∧ v.toNat ≠ s.timeStatus ∧ hostStatusAllowed s.timeStatus v.toNat = true) ∧
    (∃ (s : State) (v : BitVec 2), (s.flag Reg.PTP_CTRL_STACK = false ∨ hostStatusAllowed s.timeStatus v.toNat = false)) := by
  refine ⟨?_, ?_, ?_, ?_, ?_, ?_⟩
  · exact ⟨{ (ran 2).setFlag Reg.TB_STATUS_SLEWING true with tb := { time := 5 } }, by decide +kernel⟩
  · exact ⟨{ (ran 2).setFlag Reg.TB_STATUS_SLEWING true with tb := { time := 5, residual := 1 } }, by decide +kernel⟩
  · exact ⟨wStk, by decide +kernel⟩
  · exact ⟨ran 2, by decide +kernel⟩
  · exact ⟨wStk.setFld Reg.TB_STATUS_STATUS 1, 2, by decide +kernel⟩
  · exact ⟨wStk, 1, by decide +kernel⟩

end W09

namespace W10

def wPtp : State := (((((ran 2).setFlag Reg.PTP_CTRL_ENABLE true).setFld Reg.PTP_CTRL_PORT_EN 0x3F).setFld (Reg.PTP_DOM_CFG_ROLE 1) 2).setFld (Reg.PTP_DOM_CFG_DOMAIN 1) 24).setFld (Reg.PTP_DOM_CFG_ROLE 0) 1
def wPtpS : State := { (wPtp.wrN (Reg.PTP_PORT_MLD 3) 1600).setFld Reg.TB_LOCK_BOUND_BOUND_NS 1000 with ptp := { dom := [(1, { slavePort := some 3, best := some [1, 2] })] } }

/-- The hypotheses of `Obligations.NetworkTimeFollowsItsMessages` can be met, clause by clause. -/
theorem witness_NetworkTimeFollowsItsMessages :
    (∃ (s : State) (v : Word), s.flag Reg.PTP_CTRL_ENABLE = false ∧ s.flag Reg.TB_STATUS_DUAL = false ∧ v.getLsbD 0 = false ∧ ((∀ i, i < 4 → (s.dom i).slavePort = none))) ∧
    (∃ (s : State) (v : Word), s.flag Reg.PTP_CTRL_ENABLE = true ∧ s.flag Reg.TB_STATUS_DUAL = false ∧ v.getLsbD 1 ≠ s.flag Reg.PTP_CTRL_STACK) ∧
    (∃ (s : State), s.secondLocked = true) ∧
    (∃ (s : State), s.secondLocked = false) ∧
    (∃ (s : State) (p : Fin 12) (d : Nat), d ≤ 127 ∧ (s.domSlot? d).isSome = true ∧ s.ptpPort p = true) ∧
    (∃ (s : State) (p : Fin 12) (d : Nat) (i : Nat), d ≤ 127 ∧ s.domSlot? d = some i ∧ i ≠ 0 ∧ s.slaveOn i p = true ∧ s.servoRuns = true ∧ s.tb.refLost = false) ∧
    (∃ (s : State) (p : Fin 12) (d : Nat), d ≤ 127 ∧ (s.domSlot? d).isSome = true ∧ s.ptpPort p = false) ∧
    (∃ (s : State) (p : Fin 12) (d : Nat), d ≤ 127 ∧ s.domSlot? d = none ∧ p.val < 2 ∧ s.ptpPort 0 = true ∧ s.ptpPort 1 = true) ∧
    (∃ (s : State) (p : Fin 12) (d : Nat) (n : Nat) (i : Nat) (w : SyncWait), (s.ptp.waiting.find? fun w => Nat.beq w.port p.val && Nat.beq w.domain d && Nat.beq w.seq n) = some w ∧ d ≤ 127 ∧ s.domSlot? d = some i ∧ s.slaveOn i p = false ∧ s.tb.refLost = false) ∧
    (∃ (s : State) (p : Fin 12) (d : Nat) (n : Nat) (i : Nat) (w : SyncWait), (s.ptp.waiting.find? fun w => Nat.beq w.port p.val && Nat.beq w.domain d && Nat.beq w.seq n) = some w ∧ d ≤ 127 ∧ s.domSlot? d = some i ∧ i ≠ 0 ∧ s.slaveOn i p = true ∧ s.servoRuns = true ∧ s.tb.refLost = false) ∧
    (∃ (s : State) (p : Fin 12) (d : Nat) (i : Nat) (ds : List Nat), d ≤ 127 ∧ s.domSlot? d = some i ∧ i ≠ 0 ∧ s.ptpPort p = true ∧ s.servoRuns = true ∧ (s.dom i).best = none ∧ (2 ≤ i ∨ dataSetBetter s.ptp.own ds = false)) ∧
    (∃ (s : State) (p : Fin 12) (d : Nat) (i : Nat), d ≤ 127 ∧ s.domSlot? d = some i ∧ i < 2 ∧ s.ptpPort p = true ∧ s.masterOn i p = true ∧ s.flag Reg.PTP_CTRL_PEER_DELAY = false ∧ s.servoRuns = true) ∧
    (∃ (s : State) (p : Fin 12) (d : Nat) (i : Nat), s.domSlot? d = some i ∧ s.slaveOn i p = true ∧ s.flag Reg.PTP_CTRL_PEER_DELAY = false ∧ s.servoRuns = true) ∧
    (∃ (s : State) (p : Fin 12), s.ptpPort p = true ∧ s.flag Reg.PTP_CTRL_PEER_DELAY = true ∧ s.servoRuns = true) ∧
    (∃ (s : State) (p : Fin 12), s.ptpPort p = true ∧ s.flag Reg.PTP_CTRL_PEER_DELAY = true ∧ s.servoRuns = true) ∧
    (∃ (s : State) (i : Fin 4), i ≠ 0 ∧ (s.fld (Reg.PTP_DOM_CFG_STATE i) = 1 ∨ s.fld (Reg.PTP_DOM_CFG_STATE i) = 2) ∧ s.referenceDue i true = true ∧ s.flag Reg.PTP_CTRL_STACK = false ∧ s.servoRuns = true) ∧
    (∃ (s : State), s.fld (Reg.PTP_DOM_CFG_STATE 0) = 2 ∧ s.flag Reg.PTP_CTRL_AUTO_SWITCH = false ∧ s.timeStatus = 2 ∧ s.fld Reg.TB_STATUS_REF ≠ 2 ∧ s.referenceDue 0 false = true ∧ s.flag Reg.PTP_CTRL_STACK = false ∧ s.servoRuns = true) ∧
    (∃ (s : State) (i : Fin 4) (b : Bool), s.referenceDue i b = false) := by
  refine ⟨?_, ?_, ?_, ?_, ?_, ?_, ?_, ?_, ?_, ?_, ?_, ?_, ?_, ?_, ?_, ?_, ?_, ?_⟩
  · exact ⟨ran 2, 0x3F12, by decide +kernel⟩
  · exact ⟨(ran 2).setFlag Reg.PTP_CTRL_ENABLE true, 2, by decide +kernel⟩
  · exact ⟨{ ((((ran 2).setFlag Reg.TB_STATUS_DUAL true).setFld (Reg.PTP_DOM_CFG_STATE 1) 2).setFld (Reg.PTP_DOM_CFG_DOMAIN 1) 24).wrN (Reg.PTP_DOM_OFFSET 1) 0xFFFFFF00 with ptp := { dom := [(1, { inBound := 4 })] } }, by decide +kernel⟩
  · exact ⟨ran 2, by decide +kernel⟩
  · exact ⟨{ wPtp with ptp := { waiting := [⟨3, 24, 6, {}, 0⟩] } }, 3, 24, by decide +kernel⟩
  · exact ⟨wPtpS, 3, 24, 1, by decide +kernel⟩
  · exact ⟨wPtp.setFlag Reg.PTP_CTRL_ENABLE false, 3, 24, by decide +kernel⟩
  · exact ⟨wPtp, 1, 25, by decide +kernel⟩
  · exact ⟨{ wPtp with ptp := { waiting := [⟨3, 24, 6, {}, 0⟩] } }, 3, 24, 6, 1, ⟨3, 24, 6, {}, 0⟩, by decide +kernel⟩
  · exact ⟨{ wPtpS with ptp := { wPtpS.ptp with waiting := [⟨3, 24, 6, ⟨5, 60, 7⟩, 4⟩] } }, 3, 24, 6, 1, ⟨3, 24, 6, ⟨5, 60, 7⟩, 4⟩, by decide +kernel⟩
  · exact ⟨wPtp, 3, 24, 1, [1, 2, 3], by decide +kernel⟩
  · exact ⟨wPtp.setFld (Reg.PTP_PORT_CFG_STATE 3) 2, 3, 0, 0, by decide +kernel⟩
  · exact ⟨{ wPtp with ptp := { dom := [(1, { slavePort := some 3, best := some [1], lastT1 := 100, lastT2 := 5000000 })] } }, 3, 24, 1, by decide +kernel⟩
  · exact ⟨wPtp.setFlag Reg.PTP_CTRL_PEER_DELAY true, 5, by decide +kernel⟩
  · exact ⟨wPtp.setFlag Reg.PTP_CTRL_PEER_DELAY true, 0, by decide +kernel⟩
  · exact ⟨{ wPtpS.setFld (Reg.PTP_DOM_CFG_STATE 1) 2 with posted := [] }, 1, by decide +kernel⟩
  · exact ⟨((wPtpS.setFlag Reg.PTP_CTRL_AUTO_SWITCH false).setFld (Reg.PTP_DOM_CFG_STATE 0) 2).setFld Reg.TB_STATUS_STATUS 2, by decide +kernel⟩
  · exact ⟨{ wPtpS.setFld (Reg.PTP_PORT_CFG_ANN_TIMEOUT 3) 3 with ptp := { dom := [(1, { slavePort := some 3, best := some [1, 2], lastSync := 4999999999 })] } }, 1, false, by decide +kernel⟩

end W10

namespace W11

def wRef10 : State := { ran 2 with imp := { image := some { wImg with time := { flags := 8 } } } }
def wPpsE : State := { (ran 2).setFlag Reg.PTP_CTRL_AUTO_SWITCH false with tb := { ppsEdges := [4, 3, 2], uptime := 3000000004 } }
def wSec : TimeBase := { uptime := 5000000002, time := 7000000001 * 2 ^ 32, past := [(5000000000, 6999999999 * 2 ^ 32, 2)] }

/-- The hypotheses of `Obligations.TimingSignalsStampAndLoseTheirReferences` can be met, clause by clause. -/
theorem witness_TimingSignalsStampAndLoseTheirReferences :
    (∃ (s : State) (falling : Bool) (stamp : Full), falling = s.flag Reg.TB_PPS_CTRL_IN_EDGE ∧ s.flag Reg.PTP_CTRL_STACK = true ∧ (stamp.ns ≤ 100000000 ∨ (900000000 ≤ stamp.ns ∧ stamp.ns < 1000000000))) ∧
    (∃ (s : State) (falling : Bool) (stamp : Full), falling = s.flag Reg.TB_PPS_CTRL_IN_EDGE ∧ 100000000 < stamp.ns ∧ stamp.ns < 900000000) ∧
    (∃ (s : State) (falling : Bool), falling ≠ s.flag Reg.TB_PPS_CTRL_IN_EDGE) ∧
    (∃ (s : State) (e : Nat) (l : List Nat), s.tb.ppsEdges = e :: l ∧ e + 3000000000 ≤ s.tb.uptime ∧ s.fld Reg.TB_STATUS_REF ≠ 2) ∧
    (∃ (s : State) (e : Nat) (l : List Nat), s.tb.ppsEdges = e :: l ∧ s.tb.uptime < e + 3000000000) ∧
    (∃ (s : State) (e : Nat) (l : List Nat), s.tb.ppsEdges = e :: l ∧ e + 3000000000 ≤ s.tb.uptime ∧ s.fld Reg.TB_STATUS_REF = 2 ∧ s.timeStatus = 2 ∧ s.flag Reg.PTP_CTRL_STACK = false ∧ s.servoRuns = true ∧ s.flag Reg.PTP_CTRL_AUTO_SWITCH = false) ∧
    (∃ (s : State), s.operating = true ∧ s.flag Reg.TB_PPS_CTRL_OUT_EN = true ∧ s.tb.ppsOut = none ∧ s.atSecond = true ∧ s.tb.lastPps ≠ some s.now.sec ∧ ((if s.flag Reg.TB_PPS_CTRL_OUT_ANY then s.timeStatus ≠ 0 else s.timeStatus = 2 ∨ s.timeStatus = 3))) ∧
    (∃ (s : State), (s.timeStatus = 0 ∨ (s.timeStatus = 1 ∧ s.flag Reg.TB_PPS_CTRL_OUT_ANY = false))) ∧
    (∃ (s : State) (u : Nat), s.tb.ppsOut = some u ∧ s.tb.uptime < u) ∧
    (∃ (s : State) (u : Nat), s.tb.ppsOut = some u ∧ u ≤ s.tb.uptime) ∧
    (∃ (s : State), s.flag Reg.TB_STATUS_REF10M_USED = true) ∧
    (∃ (s : State), s.flag Reg.TB_STATUS_REF10M_USED = false) ∧
    (∃ (s : State), s.timeSheet.flags.testBit 3 = true) ∧
    (∃ (s : State), s.timeSheet.flags.testBit 3 = true) ∧
    (∃ (s : State), s.timeSheet.flags.testBit 3 = false) := by
  refine ⟨?_, ?_, ?_, ?_, ?_, ?_, ?_, ?_, ?_, ?_, ?_, ?_, ?_, ?_, ?_⟩
  · exact ⟨(ran 2).setFlag Reg.PTP_CTRL_STACK true, false, ⟨5, 100000000, 7⟩, by decide +kernel⟩
  · exact ⟨ran 2, false, ⟨5, 100000001, 7⟩, by decide +kernel⟩
  · exact ⟨ran 2, true, by decide +kernel⟩
  · exact ⟨wPpsE, 4, [3, 2], by decide +kernel⟩
  · exact ⟨{ wPpsE with tb := { ppsEdges := [5], uptime := 3000000004 } }, 5, [], by decide +kernel⟩
  · exact ⟨(wPpsE.setFld Reg.TB_STATUS_REF 2).setFld Reg.TB_STATUS_STATUS 2, 4, [3, 2], by decide +kernel⟩
  · exact ⟨{ (((ran 2).setFlag Reg.TB_PPS_CTRL_OUT_EN true).setFld Reg.TB_PPS_CTRL_WIDTH_US 100).setFld Reg.TB_STATUS_STATUS 2 with tb := wSec }, by decide +kernel⟩
  · exact ⟨{ (ran 2).setFlag Reg.TB_PPS_CTRL_OUT_EN true with tb := wSec }, by decide +kernel⟩
  · exact ⟨{ ran 2 with tb := { ppsOut := some 5, uptime := 4 } }, 5, by decide +kernel⟩
  · exact ⟨{ ran 2 with tb := { ppsOut := some 5, uptime := 5 } }, 5, by decide +kernel⟩
  · exact ⟨(((ran 2).setFlag Reg.TB_STATUS_REF10M_USED true).setFlag Reg.TB_REF_STATUS_REF10M_LOCKED true).setFlag Reg.TB_REF_STATUS_REF10M_PRESENT true, by decide +kernel⟩
  · exact ⟨((ran 2).setFlag Reg.TB_REF_STATUS_REF10M_LOCKED true).setFlag Reg.TB_REF_STATUS_REF10M_PRESENT true, by decide +kernel⟩
  · exact ⟨wRef10, by decide +kernel⟩
  · exact ⟨wRef10, by decide +kernel⟩
  · exact ⟨ran 2, by decide +kernel⟩

end W11

namespace W12

def wG : State := (adminGated (gated (linked (ran 2) 3 5) 3) 3).setFld Reg.TB_SETUP_MARGIN_MARGIN_NS 10000
def wHold (op : Nat) : State := (preempting wG 3).wr64 (Reg.PORT_OPER_GCL_LO 3 0) (0xFF + 500000 * 2 ^ 8 + op * 2 ^ 32)

/-- The hypotheses of `Obligations.GateListsHoldsAndSlopesChange` can be met, clause by clause. -/
theorem witness_GateListsHoldsAndSlopesChange :
    (∃ (s : State) (p : Fin 12), s.fld (Reg.PORT_GATE_STATUS_STATE p) = 0) ∧
    (∃ (s : State) (p : Fin 12), s.fld (Reg.PORT_GATE_STATUS_STATE p) ≠ 0) ∧
    (∃ (s : State) (p : Fin 12), s.fld (Reg.PORT_GATE_STATUS_STATE p) = 1) ∧
    (∃ (s : State) (p : Fin 12) (c : Nat), s.pendingChange p = some c) ∧
    (∃ (s : State) (p : Fin 12), s.fld (Reg.PORT_GATE_STATUS_STATE p) = 1 ∧ s.adminError p = none) ∧
    (∃ (s : State) (p : Fin 12) (e : Nat) (k : Nat), s.fld (Reg.PORT_GATE_STATUS_STATE p) = 1 ∧ s.adminError p = some (e, k)) ∧
    (∃ (s : State) (p : Fin 12), s.canonical = true ∧ s.gclDue p = true ∧ s.fld (Reg.PORT_ADMIN_LEN_LEN p) ≠ 0) ∧
    (∃ (s : State) (p : Fin 12), s.gclDue p = false) ∧
    (∃ (s : State) (p : Fin 12), s.canonical = true ∧ (s.port p).copying = true) ∧
    (∃ (s : State) (p : Fin 12), (s.port p).cur = none ∧ s.operList p = none ∧ (s.port p).awaiting = false ∧ (s.port p).hub = [] ∧ (∀ f ∈ (s.port p).fe, f.cls < 8)) ∧
    (∃ (s : State) (p : Fin 12), s.preemptReady p = true ∧ s.holdDue p = true ∧ s.held p = false ∧ (s.port p).cur = none) ∧
    (∃ (s : State) (p : Fin 12), (s.preemptReady p = false ∨ s.holdDue p = false ∨ s.held p = true)) ∧
    (∃ (s : State) (p : Fin 12), s.preemptReady p = true ∧ s.releaseDue p = true ∧ s.held p = true) ∧
    (∃ (s : State) (p : Fin 12), (s.preemptReady p = false ∨ s.releaseDue p = false ∨ s.held p = false)) ∧
    (∃ (s : State) (p : Fin 12) (c : Fin 8) (v : BitVec 25), ((∀ k, k < 8 → k ≠ c → s.fld (Reg.PORT_CBS_SLOPE_IDLE_SLOPE p k) = 0)) ∧ s.rate p * 3 < v.toNat * 4) ∧
    (∃ (s : State) (p : Fin 12) (c : Fin 8) (v : BitVec 25), ((∀ k, k < 8 → k ≠ c → s.fld (Reg.PORT_CBS_SLOPE_IDLE_SLOPE p k) = 0)) ∧ v.toNat * 4 ≤ s.rate p * 3 ∧ (s.port p).cur = none ∧ (s.port p).susp = none) := by
  refine ⟨?_, ?_, ?_, ?_, ?_, ?_, ?_, ?_, ?_, ?_, ?_, ?_, ?_, ?_, ?_, ?_⟩
  · exact ⟨ran 2, 3, by decide +kernel⟩
  · exact ⟨wG.setFld (Reg.PORT_GATE_STATUS_STATE 3) 2, 3, by decide +kernel⟩
  · exact ⟨wG.setFld (Reg.PORT_GATE_STATUS_STATE 3) 1, 3, by decide +kernel⟩
  · exact ⟨(wG.setFld (Reg.PORT_GATE_STATUS_STATE 3) 2).wrFull (Reg.PORT_CHANGE_TIME_LO 3) ⟨9, 5, 6⟩, 3, (Full.ticks ⟨9, 5, 6⟩), by decide +kernel⟩
  · exact ⟨wG.setFld (Reg.PORT_GATE_STATUS_STATE 3) 1, 3, by decide +kernel⟩
  · exact ⟨(wG.setFld (Reg.PORT_GATE_STATUS_STATE 3) 1).setFld (Reg.PORT_ADMIN_LEN_LEN 3) 3, 3, 2, 2, by decide +kernel⟩
  · exact ⟨(wG.setFld (Reg.PORT_GATE_STATUS_STATE 3) 2).wrFull (Reg.PORT_CHANGE_TIME_LO 3) ⟨7, 0, 0⟩, 3, by decide +kernel⟩
  · exact ⟨(wG.setFld (Reg.PORT_GATE_STATUS_STATE 3) 2).wrFull (Reg.PORT_CHANGE_TIME_LO 3) ⟨7, 0, 1⟩, 3, by decide +kernel⟩
  · exact ⟨{ wG.setFld (Reg.PORT_GATE_STATUS_STATE 3) 2 with ports := [(3, { copying := true })] }, 3, by decide +kernel⟩
  · exact ⟨{ linked (ran 2) 3 5 with ports := [(3, { fe := [⟨1, 4, 100, [], none, 0, none, none, false, 0, false, false, 0, 0, false, 0, false, {}, 0, 0, false⟩] })] }, 3, by decide +kernel⟩
  · exact ⟨wHold 1, 3, by decide +kernel⟩
  · exact ⟨wHold 2, 3, by decide +kernel⟩
  · exact ⟨{ (wHold 2).setFlag (Reg.PORT_GATE_STATUS_HOLD 3) true with ports := [(3, { fe := [{ frame := 1, cls := 4, len := 100 }], slope := [(4, 100000)], credit := [(4, -500000)], settled := 4999990000 })] }, 3, by decide +kernel⟩
  · exact ⟨wHold 2, 3, by decide +kernel⟩
  · exact ⟨linked (ran 2) 3 2, 3, 4, (BitVec.ofNat 25 (rateKbps 2 * 3 / 4 + 1)), by decide +kernel⟩
  · exact ⟨linked (ran 2) 3 2, 3, 4, (BitVec.ofNat 25 (rateKbps 2 * 3 / 4)), by decide +kernel⟩

end W12

namespace W13

def wF : TxFrame := { frame := 5, cls := 2, len := 100, bytes := [1, 2, 3] }
def wL : State := gated (linked (ran 2) 3 5) 3
def wFe (l : List TxFrame) : State := { wL with ports := [(3, { fe := l })], frames := [(5, { cells := 2, copies := 1 })] }
def wA1 : State := { wL with ports := [(3, { hub := [wF, { wF with frame := 6 }] })] }
def wA4 : State := { (wL.setFld (Reg.PORT_LEAD_LEAD_NS 3) 2000) with ports := [(3, { hub := [{ wF with launch := some 2705038704 }] })] }
def wA5 : State := { (wL.setFld (Reg.PORT_LEAD_LEAD_NS 3) 2001) with ports := [(3, { hub := [{ wF with launch := some 2705034704 }] })] }
def wU8 : State := (wFe [wF]).dropAllLate (3 : Fin 12) 0
def wX8 : State := (wU8.setPort (3 : Fin 12) { wU8.port (3 : Fin 12) with preempt := (wFe [wF]).fld (Reg.PORT_PREEMPT_CLASS_PREEMPTABLE (3 : Fin 12)) }).testHeads (3 : Fin 12)
def wAt (x : State) (p : Fin 12) : State × State.Choice := (x.setPort p { x.port p with burst := if x.inBurst p then (x.port p).burst + 1 else 0 }).choose p [7, 6, 5, 4, 3, 2, 1, 0]
def wE8 : State × State.Choice := wAt wX8 (3 : Fin 12)
def wMc : OnMedium := { tx := { wF with bytes := [5, 1, 2] }, startUp := 0, control := some { pfc := true, prio := 4, quanta := 65535 } }
/-- The one frame of the fore edge always fits. -/
theorem only_head (c : Nat) (f : TxFrame) (h : (wFe [wF]).head 3 c = some f) : (wFe [wF]).everFits 3 c f.len f.oneStep = true := by
  by_cases hc : c = 2
  · subst hc
    have h2 : (wFe [wF]).head 3 2 = some wF := by decide +kernel
    have : wF = f := Option.some.inj (h2.symm.trans h)
    subst this; decide +kernel
  · have hb : Nat.beq 2 c = false := by
      cases hx : Nat.beq 2 c with
      | false => rfl
      | true => exact absurd (Nat.eq_of_beq_eq_true hx).symm hc
    have hp : ((wFe [wF]).port 3).fe = [wF] := by decide +kernel
    have h2 : (wFe [wF]).head 3 c = none := by
      simp only [State.head, hp, List.filter]; rw [show Nat.beq wF.cls c = false from hb]; rfl
    exact absurd (h2.symm.trans h) (by simp)

theorem wAt_eq (x : State) (p : Fin 12) : (x.setPort p { x.port p with burst := if x.inBurst p then (x.port p).burst + 1 else 0 }).choose p [7, 6, 5, 4, 3, 2, 1, 0] = wAt x p := rfl

theorem pair_eq {α β : Type} (x : α × β) {b : β} (h : x.2 = b) : x = (x.1, b) := by subst h; rfl


/-- The hypotheses of `Obligations.FramesReachTheForeEdgeAndTheMedium` can be met, clause by clause. -/
theorem witness_FramesReachTheForeEdgeAndTheMedium :
    (∃ (s : State) (p : Fin 12) (c : Fin 8) (f : TxFrame), s.nextHeader p c = some f ∧ s.ringHolds p = false ∧ s.feRoom p f = true ∧ f.launch = none) ∧
    (∃ (s : State) (p : Fin 12) (c : Fin 8) (f : TxFrame) (l : Nat), s.nextHeader p c = some f ∧ s.ringHolds p = false ∧ s.feRoom p f = true ∧ f.launch = some l ∧ s.fld (Reg.PORT_LEAD_LEAD_NS p) ≤ shortDiff l (s.portShort p)) ∧
    (∃ (s : State) (p : Fin 12) (c : Fin 8) (f : TxFrame) (l : Nat), s.nextHeader p c = some f ∧ s.ringHolds p = false ∧ s.feRoom p f = true ∧ f.launch = some l ∧ shortDiff l (s.portShort p) < s.fld (Reg.PORT_LEAD_LEAD_NS p)) ∧
    (∃ (s : State) (p : Fin 12) (c : Fin 8), (s.nextHeader p c = none ∨ (∃ f, s.nextHeader p c = some f ∧ s.ringHolds p = false ∧ s.feRoom p f = false))) ∧
    (∃ (s : State) (p : Fin 12), ((∀ c f, s.head p c = some f → s.everFits p c f.len f.oneStep = true))) ∧
    (∃ (s : State) (p : Fin 12) (f : TxFrame), (s.port p).fe = [f] ∧ f.cls < 8 ∧ f.launch = none ∧ f.owner = none ∧ f.flow = none ∧ s.everFits p f.cls f.len f.oneStep = false) ∧
    (∃ (s : State) (p : Fin 12) (w : Nat) (f : TxFrame), (s.port p).fe = [f] ∧ s.tooLate p w f = true ∧ f.owner = none ∧ f.flow = none) ∧
    (∃ (s : State) (u : State) (x : State) (v : State) (p : Fin 12) (w : Nat) (f : TxFrame), s.sends p = true ∧ (s.port p).cur = none ∧ (s.port p).susp = none ∧ (s.port p).gapEnd ≤ s.tb.uptime ∧ s.hasTurn p = true ∧ u = s.dropAllLate p w ∧ x = (u.setPort p { u.port p with preempt := s.fld (Reg.PORT_PREEMPT_CLASS_PREEMPTABLE p) }).testHeads p ∧ (x.setPort p { x.port p with burst := if x.inBurst p then (x.port p).burst + 1 else 0 }).choose p [7, 6, 5, 4, 3, 2, 1, 0] = (v, .frame f)) ∧
    (∃ (s : State) (p : Fin 12), (s.sends p = false ∨ ((s.port p).cur = none ∧ s.tb.uptime < (s.port p).gapEnd))) ∧
    (∃ (s : State) (p : Fin 12) (m : OnMedium) (f : FlowControl), (s.port p).cur = some m ∧ s.mediumDone p m = true ∧ m.control = some f) ∧
    (∃ (s : State) (p : Fin 12) (m : OnMedium), (s.port p).cur = some m ∧ s.mediumDone p m = true ∧ m.control = none ∧ m.tx.owner = none ∧ m.tx.flow = none ∧ (s.port p).fe = []) ∧
    (∃ (s : State) (p : Fin 12), ((∀ m, (s.port p).cur = some m → s.mediumDone p m = false))) := by
  refine ⟨?_, ?_, ?_, ?_, ?_, ?_, ?_, ?_, ?_, ?_, ?_, ?_⟩
  · exact ⟨wA1, 3, 2, wF, by decide +kernel⟩
  · exact ⟨wA4, 3, 2, { wF with launch := some 2705038704 }, 2705038704, by decide +kernel⟩
  · exact ⟨wA5, 3, 2, { wF with launch := some 2705034704 }, 2705034704, by decide +kernel⟩
  · exact ⟨wL, 3, 2, .inl (by decide +kernel)⟩
  · exact ⟨wFe [wF], 3, (by exact only_head)⟩
  · exact ⟨wFe [{ wF with len := 100000000 }], 3, { wF with len := 100000000 }, by decide +kernel⟩
  · exact ⟨wFe [{ wF with launch := some 6000000000 }], 3, 0, { wF with launch := some 6000000000 }, by decide +kernel⟩
  · exact ⟨wFe [wF], wU8, wX8, wE8.1, 3, 0, wF, (by decide +kernel), (by decide +kernel), (by decide +kernel), (by decide +kernel), (by decide +kernel), rfl, rfl, (wAt_eq wX8 (3 : Fin 12)).trans (pair_eq wE8 (by decide +kernel))⟩
  · exact ⟨ran 2, 3, by decide +kernel⟩
  · exact ⟨{ wL with ports := [(3, { cur := some wMc })] }, 3, wMc, { pfc := true, prio := 4, quanta := 65535 }, by decide +kernel⟩
  · exact ⟨{ wL with ports := [(3, { cur := some { tx := wF, startUp := 0 } })], frames := [(5, { cells := 2, copies := 1 })] }, 3, { tx := wF, startUp := 0 }, by decide +kernel⟩
  · exact ⟨wL, 3, by decide +kernel⟩

end W13

namespace W14

def wLp : State := linked (ran 2) 3 5
def wMm : State := (preempting (linked (ran 2) 1 6) 1).setFlag (Reg.PORT_MAC_CTRL_RX_EN 1) true
def wPl : State := { (linked (ran 2) 9 0).wrN (Reg.PORT_PLCA_CTRL 9) 0x200805 with ports := [(9, { plcaCtrl := 0x200805 })] }

/-- The hypotheses of `Obligations.LinksComeUpAndGoDown` can be met, clause by clause. -/
theorem witness_LinksComeUpAndGoDown :
    (∃ (s : State) (p : Fin 12), s.inBand p = false ∧ s.fld (Reg.PORT_MEDIA_FEC p) = 0 ∧ s.fld (Reg.PORT_MEDIA_MEDIA p) ≠ 3) ∧
    (∃ (s : State) (p : Fin 12) (r : PcsReport), s.inBand p = true ∧ r.anDone = true ∧ r.speed.toNat ≠ s.fld (Reg.PORT_MEDIA_SPEED p) ∧ s.flag (Reg.PORT_LINK_STATUS_UP p) = true ∧ p ≠ 6 ∧ p ≠ 7 ∧ s.flag (Reg.PORT_LINK_STATUS_SPEED_MISMATCH p) = false) ∧
    (∃ (s : State) (p : Fin 12) (m : OnMedium), s.linkLocked p = false ∧ (s.port p).lockSince + s.fld (Reg.PORT_LINK_CTRL_DOWN_HOLD_US p) * 1000 ≤ s.tb.uptime ∧ s.flag (Reg.PORT_LINK_STATUS_UP p) = true ∧ p ≠ 6 ∧ p ≠ 7 ∧ (s.port p).cur = some m ∧ m.control = none ∧ (s.port p).susp = none) ∧
    (∃ (s : State) (p : Fin 12), (s.linkLocked p = true ∨ s.tb.uptime < (s.port p).lockSince + s.fld (Reg.PORT_LINK_CTRL_DOWN_HOLD_US p) * 1000)) ∧
    (∃ (s : State) (p : Fin 12), s.linkReady p = true ∧ s.flag (Reg.PORT_LINK_STATUS_UP p) = false ∧ s.operating = true ∧ s.flag (Reg.PORT_LINK_CTRL_ADMIN_DOWN p) = false ∧ s.flag (Reg.PORT_MEDIA_PREEMPT_CAP p) = false ∧ (s.port p).readySince + s.fld (Reg.PORT_LINK_CTRL_UP_HOLD_MS p) * 1000000 ≤ s.tb.uptime) ∧
    (∃ (s : State) (p : Fin 12), (s.linkReady p = false ∨ s.flag (Reg.PORT_LINK_CTRL_ADMIN_DOWN p) = true ∨ s.tb.uptime < (s.port p).readySince + s.fld (Reg.PORT_LINK_CTRL_UP_HOLD_MS p) * 1000000)) ∧
    (∃ (s : State) (p : Fin 12) (v : Word), bits v.toNat 0 10 ≤ 1000 ∧ bits v.toNat 16 10 ≤ 1000 ∧ s.flag (Reg.PORT_LINK_CTRL_ADMIN_DOWN p) = false ∧ (v.getLsbD 31 = false ∨ s.flag (Reg.PORT_LINK_STATUS_UP p) = false)) ∧
    (∃ (s : State) (p : Fin 12) (v : Word), bits v.toNat 0 10 ≤ 1000 ∧ bits v.toNat 16 10 ≤ 1000 ∧ s.flag (Reg.PORT_LINK_CTRL_ADMIN_DOWN p) = true ∧ v.getLsbD 31 = false) ∧
    (∃ (s : State) (p : Fin 12) (v : Word), bits v.toNat 0 10 ≤ 1000 ∧ bits v.toNat 16 10 ≤ 1000 ∧ v.getLsbD 31 = true ∧ s.flag (Reg.PORT_LINK_STATUS_UP p) = true ∧ p ≠ 6 ∧ p ≠ 7) ∧
    (∃ (v : Word), (1000 < bits v.toNat 0 10 ∨ 1000 < bits v.toNat 16 10)) ∧
    (∃ (s : State) (p : Fin 8), s.flag (Reg.PORT_MEDIA_PREEMPT_CAP p) = true ∧ s.flag (Reg.PORT_MM_CTRL_ENABLE p) = true ∧ s.receives p = true ∧ s.flag (Reg.PORT_LINK_STATUS_UP p) = true) ∧
    (∃ (s : State) (p : Fin 8), s.fld (Reg.PORT_MM_STATUS_VSTATE p) = 2 ∧ s.flag (Reg.PORT_LINK_STATUS_UP p) = true ∧ s.receives p = true ∧ s.verifyOver p = false) ∧
    (∃ (s : State) (p : Fin 8), s.fld (Reg.PORT_MM_STATUS_VSTATE p) = 2 ∧ s.flag (Reg.PORT_LINK_STATUS_UP p) = true ∧ s.verifyOver p = true ∧ s.fld (Reg.PORT_MM_STATUS_ATTEMPTS p) < 3) ∧
    (∃ (s : State) (p : Fin 8), s.fld (Reg.PORT_MM_STATUS_VSTATE p) = 2 ∧ s.flag (Reg.PORT_LINK_STATUS_UP p) = true ∧ s.verifyOver p = true ∧ s.fld (Reg.PORT_MM_STATUS_ATTEMPTS p) = 3) ∧
    (∃ (s : State) (p : Fin 8), (s.fld (Reg.PORT_MM_STATUS_VSTATE p) ≠ 2 ∨ s.verifyOver p = false)) ∧
    (∃ (s : State) (p : Fin 8) (v : Word), s.flag (Reg.PORT_MEDIA_PREEMPT_CAP p) = true ∧ 1 ≤ bits v.toNat 8 8 ∧ bits v.toNat 8 8 ≤ 128 ∧ s.fld (Reg.PORT_MM_STATUS_VSTATE p) = 4 ∧ v.getLsbD 0 = false) ∧
    (∃ (s : State) (p : Fin 8) (v : Word), s.flag (Reg.PORT_MEDIA_PREEMPT_CAP p) = true ∧ 1 ≤ bits v.toNat 8 8 ∧ bits v.toNat 8 8 ≤ 128 ∧ s.fld (Reg.PORT_MM_STATUS_VSTATE p) ≠ 4 ∧ s.flag (Reg.PORT_MM_CTRL_ENABLE p) = true ∧ v.getLsbD 0 = false) ∧
    (∃ (s : State) (p : Fin 8) (v : Word), s.flag (Reg.PORT_MEDIA_PREEMPT_CAP p) = true ∧ 1 ≤ bits v.toNat 8 8 ∧ bits v.toNat 8 8 ≤ 128 ∧ s.flag (Reg.PORT_MM_CTRL_ENABLE p) = false ∧ v.getLsbD 0 = true ∧ v.getLsbD 1 = false ∧ s.flag (Reg.PORT_LINK_STATUS_UP p) = true) ∧
    (∃ (s : State) (k : Fin 4), bits (s.rd (Reg.PORT_PLCA_CTRL (8 + k))).toNat 0 8 ≠ 255) ∧
    (∃ (s : State) (k : Fin 4), s.plcaOn (8 + k) = true ∧ bits (s.port (8 + k)).plcaCtrl 0 8 ≠ 0 ∧ s.flag (Reg.PORT_PLCA_STATUS_ACTIVE (8 + k)) = true ∧ s.beaconLate (8 + k) = true) ∧
    (∃ (s : State) (k : Fin 4), s.beaconLate (8 + k) = false) ∧
    (∃ (s : State) (k : Fin 4) (m : OnMedium), (s.port (8 + k)).cur = some m ∧ m.attempts < 15) ∧
    (∃ (s : State) (k : Fin 4) (m : OnMedium), (s.port (8 + k)).cur = some m ∧ m.attempts = 15 ∧ m.control = none ∧ (s.port (8 + k)).susp = none) := by
  refine ⟨?_, ?_, ?_, ?_, ?_, ?_, ?_, ?_, ?_, ?_, ?_, ?_, ?_, ?_, ?_, ?_, ?_, ?_, ?_, ?_, ?_, ?_, ?_⟩
  · exact ⟨wLp, 3, by decide +kernel⟩
  · exact ⟨wLp.setFld (Reg.PORT_MEDIA_MEDIA 3) 4, 3, { anDone := true, speed := 2, lock := true, up := true }, by decide +kernel⟩
  · exact ⟨{ wLp with ports := [(3, { cur := some { tx := { frame := 1, cls := 2, len := 3, late := true }, startUp := 0 }, fe := [{ frame := 4, cls := 2, len := 3 }] })] }, 3, { tx := { frame := 1, cls := 2, len := 3, late := true }, startUp := 0 }, by decide +kernel⟩
  · exact ⟨{ wLp with ports := [(3, { locked := true })] }, 3, by decide +kernel⟩
  · exact ⟨{ wLp.setFlag (Reg.PORT_LINK_STATUS_UP 3) false with ports := [(3, { condition := true })] }, 3, by decide +kernel⟩
  · exact ⟨wLp, 3, by decide +kernel⟩
  · exact ⟨ran 2, 3, 0x83E803E8, by decide +kernel⟩
  · exact ⟨{ ran 2 with ports := [(3, { settled := 4 })] }.setFlag (Reg.PORT_LINK_CTRL_ADMIN_DOWN 3) true, 3, 0x7C00FC05, by decide +kernel⟩
  · exact ⟨wLp, 3, 0x83E803E8, by decide +kernel⟩
  · exact ⟨0x3E9, by decide +kernel⟩
  · exact ⟨wMm, 1, by decide +kernel⟩
  · exact ⟨{ (wMm.setFld (Reg.PORT_MM_STATUS_VSTATE 1) 2).setFld (Reg.PORT_MM_CTRL_VERIFY_MS 1) 10 with ports := [(1, { verifyAt := 4990000001 })] }, 1, by decide +kernel⟩
  · exact ⟨(wMm.setFld (Reg.PORT_MM_STATUS_VSTATE 1) 2).setFld (Reg.PORT_MM_STATUS_ATTEMPTS 1) 2, 1, by decide +kernel⟩
  · exact ⟨(wMm.setFld (Reg.PORT_MM_STATUS_VSTATE 1) 2).setFld (Reg.PORT_MM_STATUS_ATTEMPTS 1) 3, 1, by decide +kernel⟩
  · exact ⟨wMm, 1, by decide +kernel⟩
  · exact ⟨wMm.setFld (Reg.PORT_MM_STATUS_VSTATE 1) 4, 1, 0x00008002, by decide +kernel⟩
  · exact ⟨wMm, 1, 0x00008002, by decide +kernel⟩
  · exact ⟨wMm.setFlag (Reg.PORT_MM_CTRL_ENABLE 1) false, 1, 0x0101, by decide +kernel⟩
  · exact ⟨{ wPl with ports := [(9, { settled := 8 })] }, 1, by decide +kernel⟩
  · exact ⟨wPl.setFlag (Reg.PORT_PLCA_STATUS_ACTIVE 9) true, 1, by decide +kernel⟩
  · exact ⟨{ wPl.setFlag (Reg.PORT_PLCA_STATUS_ACTIVE 9) true with ports := [(9, { plcaCtrl := 0x200805, beaconAt := 5000000000 - 400 * 276 + 1 })] }, 1, by decide +kernel⟩
  · exact ⟨{ wPl with ports := [(9, { plcaCtrl := 0x0805, cur := some { tx := { frame := 1, cls := 2, len := 3 }, startUp := 0, attempts := 14 } })] }, 1, { tx := { frame := 1, cls := 2, len := 3 }, startUp := 0, attempts := 14 }, by decide +kernel⟩
  · exact ⟨{ wPl with ports := [(9, { plcaCtrl := 0x0805, cur := some { tx := { frame := 1, cls := 2, len := 3 }, startUp := 0, attempts := 15 } })] }, 1, { tx := { frame := 1, cls := 2, len := 3 }, startUp := 0, attempts := 15 }, by decide +kernel⟩

end W14

namespace W15

def wLn (b : List Byte) : RxLine := { fcs := BitVec.ofNat 32 (crc32 b) }
def wMcrc (b : List Byte) : BitVec 32 := BitVec.ofNat 32 (crc32 b ^^^ 0xFFFF)
def wRx : State := (linked (ran 2) 3 5).setFlag (Reg.PORT_MAC_CTRL_RX_EN 3) true
def wB (n : Nat) : List Byte := [0x01, 0x1B, 0x19, 0, 0, 0] ++ List.replicate n 7
def wFc : State := ((wRx.setFlag (Reg.PORT_FC_CTRL_RX_HONOUR 3) true).setFld (Reg.PORT_FC_CTRL_MODE 3) 2).setFld (Reg.PORT_FC_CTRL_PAUSE_TIME 3) 500

/-- The hypotheses of `Obligations.ReceivedFramesAreCheckedAndFiltered` can be met, clause by clause. -/
theorem witness_ReceivedFramesAreCheckedAndFiltered :
    (∃ (s : State) (p : Fin 12) (b : List Byte) (l : RxLine) (age : Nat), s.receives p = true ∧ (s.rxView p age).flag (Reg.PORT_LINK_STATUS_UP p) = true ∧ l.corrected = 0 ∧ l.uncorrectable = 0 ∧ b.length + 4 < 64) ∧
    (∃ (s : State) (p : Fin 12) (b : List Byte) (l : RxLine) (age : Nat), s.receives p = true ∧ (s.rxView p age).flag (Reg.PORT_LINK_STATUS_UP p) = true ∧ l.corrected = 0 ∧ l.uncorrectable = 0 ∧ 64 ≤ b.length + 4 ∧ b.length + 4 ≤ s.fld (Reg.PORT_MAC_CTRL_MAX_FRAME p) ∧ l.fcs.toNat ≠ crc32 b) ∧
    (∃ (s : State) (p : Fin 12) (b : List Byte) (l : RxLine) (age : Nat), s.receives p = true ∧ (s.rxView p age).flag (Reg.PORT_LINK_STATUS_UP p) = true ∧ l.corrected = 0 ∧ l.uncorrectable = 0 ∧ 64 ≤ b.length + 4 ∧ b.length + 4 ≤ s.fld (Reg.PORT_MAC_CTRL_MAX_FRAME p) ∧ l.fcs.toNat = crc32 b ∧ l.codeErr = false ∧ (s.rxView p age).flag (Reg.PORT_RX_FILTER_MODE p) = false ∧ (s.rxView p age).perfectPass p b = false) ∧
    (∃ (s : State) (p : Fin 12) (b : List Byte) (l : RxLine) (age : Nat), s.receives p = true ∧ (s.rxView p age).flag (Reg.PORT_LINK_STATUS_UP p) = true ∧ l.corrected = 0 ∧ l.uncorrectable = 0 ∧ 64 ≤ b.length + 4 ∧ b.length + 4 ≤ s.fld (Reg.PORT_MAC_CTRL_MAX_FRAME p) ∧ l.fcs.toNat = crc32 b ∧ l.codeErr = false ∧ (s.rxView p age).flag (Reg.PORT_RX_FILTER_MODE p) = false ∧ (s.rxView p age).perfectPass p b = true ∧ State.flowControlOp b = none ∧ s.cells.free < State.cellsFor (b.length + 4)) ∧
    (∃ (s : State) (p : Fin 12) (b : List Byte) (l : RxLine) (age : Nat), s.receives p = true ∧ (s.rxView p age).flag (Reg.PORT_LINK_STATUS_UP p) = true ∧ l.corrected = 0 ∧ l.uncorrectable = 0 ∧ 64 ≤ b.length + 4 ∧ b.length + 4 ≤ s.fld (Reg.PORT_MAC_CTRL_MAX_FRAME p) ∧ l.fcs.toNat = crc32 b ∧ l.codeErr = false ∧ (s.rxView p age).flag (Reg.PORT_RX_FILTER_MODE p) = false ∧ (s.rxView p age).perfectPass p b = true ∧ State.flowControlOp b = none ∧ State.cellsFor (b.length + 4) ≤ s.cells.free ∧ p ≠ 6 ∧ p ≠ 7 ∧ (s.ptpRuns p && ptpFrame b) = false) ∧
    (∃ (s : State) (p : Fin 12), (s.operating = false ∨ s.flag (Reg.PORT_MAC_CTRL_RX_EN p) = false)) ∧
    (∃ (s : State) (p : Fin 8) (b : List Byte) (m : BitVec 32), s.receives p = true ∧ (s.port p).assembly = none ∧ State.mcrcGood b m.toNat = true) ∧
    (∃ (s : State) (p : Fin 8) (b : List Byte) (m : BitVec 32) (a : Reassembly), s.receives p = true ∧ (s.port p).assembly = some a ∧ a.seq = 0 ∧ a.next = 0 ∧ State.mcrcGood (a.bytes ++ b) m.toNat = true) ∧
    (∃ (s : State) (p : Fin 8), s.receives p = true) ∧
    (∃ (s : State) (p : Fin 8), s.receives p = false) ∧
    (∃ (s : State) (p : Fin 12) (q : BitVec 16), s.receives p = true ∧ s.flag (Reg.PORT_LINK_STATUS_UP p) = true ∧ p.val ≤ 5 ∧ s.flag (Reg.PORT_FC_CTRL_RX_HONOUR p) = true ∧ q ≠ 0 ∧ 0 < s.rate p) ∧
    (∃ (s : State) (p : Fin 12), s.receives p = true ∧ s.flag (Reg.PORT_LINK_STATUS_UP p) = true ∧ (5 < p.val ∨ s.flag (Reg.PORT_FC_CTRL_RX_HONOUR p) = false)) ∧
    (∃ (s : State) (p : Fin 12) (q : BitVec 128) (k : Fin 8), s.receives p = true ∧ s.flag (Reg.PORT_LINK_STATUS_UP p) = true ∧ p.val ≤ 5 ∧ s.flag (Reg.PORT_FC_CTRL_RX_HONOUR p) = true ∧ (s.rd (Reg.PORT_TC_MAP p)).toNat = 0xFAC688 ∧ bits q.toNat (16 * k) 16 ≠ 0) ∧
    (∃ (s : State) (p : Fin 12) (c : Fin 8), s.stopped p c = true) ∧
    (∃ (s : State) (p : Fin 12) (c : Fin 8), s.stopped p c = false) ∧
    (∃ (s : State) (p : Fin 12) (k : Fin 8), p.val ≤ 5 ∧ s.fld (Reg.PORT_FC_CTRL_MODE p) = 2 ∧ s.bit (Reg.PORT_FC_STATUS_XOFF_SENT p) k = true ∧ s.fld (Reg.PORT_FC_WM_XON p k) ≤ Table.get (fun _ => 0) (s.port p).occupancy k) ∧
    (∃ (s : State) (k : Fin 6) (b : List Byte) (l : RxLine), s.mode = 6 ∧ s.pwr.armed.getLsbD (6 + k) = true ∧ 64 ≤ b.length + 4 ∧ b.length + 4 ≤ s.fld (Reg.PORT_MAC_CTRL_MAX_FRAME (6 + k)) ∧ (∃ j : Fin 8, s.patternMatches (6 + k) j b = true) ∧ l.fcs.toNat = crc32 b ∧ l.codeErr = false ∧ l.uncorrectable = 0) ∧
    (∃ (s : State) (b : List Byte) (l : RxLine), (s.mode ≠ 6 ∨ l.fcs.toNat ≠ crc32 b)) := by
  refine ⟨?_, ?_, ?_, ?_, ?_, ?_, ?_, ?_, ?_, ?_, ?_, ?_, ?_, ?_, ?_, ?_, ?_, ?_⟩
  · exact ⟨wRx, 3, wB 53, {}, 9, by decide +kernel⟩
  · exact ⟨wRx, 3, wB 54, { fcs := BitVec.ofNat 32 (crc32 (wB 54)) ^^^ 0xFFFFFFFF }, 9, by decide +kernel⟩
  · exact ⟨wRx, 3, List.replicate 60 2, wLn (List.replicate 60 2), 9, by decide +kernel⟩
  · exact ⟨{ wRx with cells := { free := 0, allocated := 131072 } }, 3, wB 54, wLn (wB 54), 9, by decide +kernel⟩
  · exact ⟨wRx, 3, wB 64, wLn (wB 64), 9, by decide +kernel⟩
  · exact ⟨wRx.setFlag (Reg.PORT_MAC_CTRL_RX_EN 3) false, 3, by decide +kernel⟩
  · exact ⟨wRx, 3, wB 64, wMcrc (wB 64), by decide +kernel⟩
  · exact ⟨{ wRx with ports := [(3, { assembly := some ⟨[1, 2], 0, 0, 5⟩ })] }, 3, wB 64, wMcrc ([1, 2] ++ wB 64), ⟨[1, 2], 0, 0, 5⟩, by decide +kernel⟩
  · exact ⟨wRx, 3, by decide +kernel⟩
  · exact ⟨up 1, 3, by decide +kernel⟩
  · exact ⟨wFc, 3, 1, by decide +kernel⟩
  · exact ⟨(linked wFc 6 5).setFlag (Reg.PORT_MAC_CTRL_RX_EN 6) true, 6, by decide +kernel⟩
  · exact ⟨{ wFc.wr (Reg.PORT_TC_MAP 3) 0xFAC688 with ports := [(3, { stop := [(2, 6000000000)] })] }, 3, 0xFFFF0000, 1, by decide +kernel⟩
  · exact ⟨{ wFc with ports := [(3, { stop := [(2, 5000000001)] })] }, 3, 2, by decide +kernel⟩
  · exact ⟨{ wFc.setFld (Reg.PORT_FC_STATUS_STOPPED 3) 255 with ports := [(3, { stop := [(2, 5000000000)] })] }, 3, 2, by decide +kernel⟩
  · exact ⟨{ (wFc.setFld (Reg.PORT_FC_WM_XON 3 2) 60).putBit (Reg.PORT_FC_STATUS_XOFF_SENT 3) 2 true with ports := [(3, { occupancy := [(2, 60)], fcWait := [⟨2, 0, true⟩, ⟨3, 4, true⟩] })] }, 3, 2, by decide +kernel⟩
  · exact ⟨{ (((up 6).setFld (Reg.PORT_MAC_CTRL_MAX_FRAME 7) 1522).setFlag (Reg.PORT_PAT_CRC_EN 7 2) true).setFld (Reg.PORT_PAT_CRC_CRC 7 2) 0xFFFF with pwr := { armed := 0x80 } }, 1, wB 64, wLn (wB 64), by decide +kernel⟩
  · exact ⟨ran 2, wB 64, {}, by decide +kernel⟩

end W15

namespace W16

def wM : State := mailed (wFlows [(2, wFlow)])
def wCtx : Nat := (((({} : Flow).set Ctx.folio 1).set Ctx.opcode 0x20).set Ctx.egPort 11).ctx
def wKnown : State := mailed (wFlows [(1, { wFlow with ctx := wFlow.ctx + (mailed (wFlows [])).fingerprint (leBytes 64 (0x300 : BitVec 512).toNat) })])
/-- A partition of four flows has one bucket. -/
theorem four_candidates (h : Nat) : candidates h 4 = (0, 0) := by
  have a : ∀ x : Nat, x % 2 ^ 32 * (4 / 4) / 2 ^ 32 = 0 := fun x => by omega
  simp only [candidates, a]; rfl
/-- The key whose fingerprint flow 1 holds is found there, whatever the hash key. -/
theorem known_key : wKnown.lookupIn (0 : BitVec 8).toNat ⟨0, 4, 1, 0x3FFF⟩
   (wKnown.fingerprint (leBytes 64 (0x300 : BitVec 512).toNat)) = some (1, false) := by
  have e : wKnown.fingerprint (leBytes 64 (0x300 : BitVec 512).toNat) = (mailed (wFlows [])).fingerprint (leBytes 64 (0x300 : BitVec 512).toNat) := rfl
  rw [e, show (0 : BitVec 8).toNat = 0 from rfl]
  unfold wKnown
  have lt : (mailed (wFlows [])).fingerprint (leBytes 64 (0x300 : BitVec 512).toNat) < 2 ^ 64 := (sipHash _ _).isLt
  generalize (mailed (wFlows [])).fingerprint (leBytes 64 (0x300 : BitVec 512).toNat) = h at lt ⊢
  have c : wFlow.ctx = 2 ^ 64 * (wFlow.ctx / 2 ^ 64) := by decide +kernel
  have print : bits (wFlow.ctx + h) 0 64 = h := by unfold bits; rw [c]; omega
  have part : bits (wFlow.ctx + h) Ctx.part.lo Ctx.part.width = 0 := by
    have p : (wFlow.ctx / 2 ^ 64) / 2 ^ (Ctx.part.lo - 64) % 2 ^ Ctx.part.width = 0 := by decide +kernel
    rw [c]; simp only [bits, Ctx.part] at p ⊢; omega
  have valid : (wFlow.ctx + h).testBit Ctx.valid.lo = true := by
    rw [c, Nat.testBit_two_pow_mul_add _ lt, if_neg (by decide)]; decide +kernel
  simp only [State.lookupIn, four_candidates, State.inBucket]
  have l : (List.range 4).map (fun w => 0 + 4 * 0 + w) = [0, 1, 2, 3] := rfl
  rw [l]
  have f0 : (mailed (wFlows [(1, { wFlow with ctx := wFlow.ctx + h })])).flow 0 = {} := rfl
  have f1 : (mailed (wFlows [(1, { wFlow with ctx := wFlow.ctx + h })])).flow 1 = { wFlow with ctx := wFlow.ctx + h } := rfl
  have v0 : ({} : Flow).has Ctx.valid = false := by decide
  have v1 : Flow.has { wFlow with ctx := wFlow.ctx + h } Ctx.valid = true := valid
  have p1 : Flow.get { wFlow with ctx := wFlow.ctx + h } Ctx.part = 0 := part
  have h1 : Flow.get { wFlow with ctx := wFlow.ctx + h } Ctx.fingerprint = h := print
  simp [List.find?, f0, f1, v0, v1, p1, h1]


/-- The hypotheses of `Obligations.FlowCommandsOfTheMailboxAnswer` can be met, clause by clause. -/
theorem witness_FlowCommandsOfTheMailboxAnswer :
    (∃ (s : State), s.fld Reg.FLOW_CMD_STATUS_STATE ≠ 1) ∧
    (∃ (s : State), s.fld Reg.FLOW_CMD_STATUS_STATE = 1) ∧
    (∃ (s : State) (b : FlowBlock), s.awaits .mailbox = true ∧ b.op = 0) ∧
    (∃ (s : State) (part : BitVec 8) (p : FlowPart) (key : BitVec 512) (ctx : BitVec 512) (i : Nat), s.awaits .mailbox = true ∧ s.flowPart? part.toNat = some p ∧ keyFieldsOk p.keyMask (leBytes 64 key.toNat) = true ∧ keySourceOk p (leBytes 64 key.toNat) = true ∧ key.toNat % 256 = part.toNat ∧ part.toNat < 64 ∧ s.lookupIn part.toNat p (s.fingerprint (leBytes 64 key.toNat)) = none ∧ s.contextResult ctx.toNat = 0 ∧ s.slotFor p (s.fingerprint (leBytes 64 key.toNat)) = some (i, false)) ∧
    (∃ (s : State) (part : BitVec 8) (p : FlowPart) (key : BitVec 512) (i : Nat) (b : Bool), s.awaits .mailbox = true ∧ s.flowPart? part.toNat = some p ∧ keyFieldsOk p.keyMask (leBytes 64 key.toNat) = true ∧ keySourceOk p (leBytes 64 key.toNat) = true ∧ key.toNat % 256 = part.toNat ∧ s.lookupIn part.toNat p (s.fingerprint (leBytes 64 key.toNat)) = some (i, b) ∧ s.isDeleting i = false) ∧
    (∃ (s : State) (part : BitVec 8) (fl : BitVec 8) (idx : BitVec 32) (p : FlowPart), s.awaits .mailbox = true ∧ s.flowPart? part.toNat = some p ∧ fl.getLsbD 0 = true ∧ (s.flow idx.toNat).has Ctx.valid = true ∧ (s.flow idx.toNat).get Ctx.part = part.toNat ∧ s.isDeleting idx.toNat = false) ∧
    (∃ (s : State) (fl : BitVec 8), s.awaits .mailbox = true ∧ fl.getLsbD 0 = true) := by
  refine ⟨?_, ?_, ?_, ?_, ?_, ?_, ?_⟩
  · exact ⟨ran 2, by decide +kernel⟩
  · exact ⟨wM, by decide +kernel⟩
  · exact ⟨wM, { op := 0 }, by decide +kernel⟩
  · exact ⟨mailed (wFlows []), 0, ⟨0, 4, 1, 0x3FFF⟩, 0x300, (BitVec.ofNat 512 wCtx), 0, (by decide +kernel), (by decide +kernel), (by decide +kernel), (by decide +kernel), (by decide +kernel), (by decide +kernel), (by decide +kernel), (by decide +kernel), (by simp only [State.slotFor, four_candidates]; decide +kernel)⟩
  · exact ⟨wKnown, 0, ⟨0, 4, 1, 0x3FFF⟩, 0x300, 1, false, (by decide +kernel), (by decide +kernel), (by decide +kernel), (by decide +kernel), (by decide +kernel), (by exact known_key), (by decide +kernel)⟩
  · exact ⟨wM, 0, 1, 2, ⟨0, 4, 1, 0x3FFF⟩, by decide +kernel⟩
  · exact ⟨wM, 1, by decide +kernel⟩

end W16

namespace W17

def wLent : State := wFlows [(2, { wFlow.set Ctx.dBytes 900 with lent := some 1, lastItem := 4999000000 })]
def wPol (a : Nat) : State := { ran 2 with stage := [(Reg.FLOW_POL_PROF_W0 7, some 1000), (Reg.FLOW_POL_PROF_W0 7 + 4, some (BitVec.ofNat 32 a)), (Reg.FLOW_POL_PROF_W0 7 + 8, some 1522), (Reg.FLOW_POL_PROF_W0 7 + 12, some 0x020005F2)] }
def wFr : State := { ran 2 with stage := [(Reg.FLOW_FRER_PROF_W0 5, some 0x00010400), (Reg.FLOW_FRER_PROF_W0 5 + 4, some 9)] }
def wPr : State := { (ran 2).setFlag Reg.GUARD_PAIR_CTRL_ENABLE true with pairLink := { lanes := 2 } }
def wWait : State := { wFlows [] with flows := { cache := [(3, 5)], wait := [{ frame := 1, source := 3, bytes := [1, 2], len := 6 }] } }
/-- A partition of four flows has one bucket. -/
theorem four_candidates (h : Nat) : candidates h 4 = (0, 0) := by
  have a : ∀ x : Nat, x % 2 ^ 32 * (4 / 4) / 2 ^ 32 = 0 := fun x => by omega
  simp only [candidates, a]; rfl
/-- A frame waits for the one bucket of its partition, whatever the hash key. -/
theorem wait_needs : (wWait.flows.wait.any fun r => (wWait.neededGroups r).contains ((0 : BitVec 6).toNat, (0 : BitVec 18).toNat)) = true := by
  have l : wWait.lookups { frame := 1, source := 3, bytes := [1, 2], len := 6 } =
    [(0, ⟨0, 4, 1, 0x3FFF⟩, wWait.fingerprint (keyRecord 0 1 3 0 [1, 2]))] := rfl
  have w : wWait.flows.wait = [{ frame := 1, source := 3, bytes := [1, 2], len := 6 }] := rfl
  rw [w]; simp only [List.any_cons, List.any_nil, State.neededGroups, l, List.flatMap_cons, List.flatMap_nil, State.groupsOf, four_candidates]; decide


/-- The hypotheses of `Obligations.FlowCacheLendingAndProfilesWork` can be met, clause by clause. -/
theorem witness_FlowCacheLendingAndProfilesWork :
    (∃ (s : State) (part : BitVec 6) (b : BitVec 18), s.flows.cache.contains (part.toNat, b.toNat) = false ∧ (s.flows.wait.any fun r => (s.neededGroups r).contains (part.toNat, b.toNat)) = true) ∧
    (∃ (s : State) (part : BitVec 6) (b : BitVec 18), ((s.flows.cache.contains (part.toNat, b.toNat) = true ∨ (s.flows.wait.any fun r => (s.neededGroups r).contains (part.toNat, b.toNat)) = false))) ∧
    (∃ (s : State) (i : BitVec 20) (q : Nat), (s.flow i.toNat).lent = some q) ∧
    (∃ (s : State) (i : BitVec 20), (s.flow i.toNat).lent = none) ∧
    (∃ (s : State) (i : BitVec 20) (q : Nat), (s.flow i.toNat).lent = some q ∧ s.flowMayCross (dieOf q) = true ∧ (s.flow i.toNat).lastItem + s.fld Reg.FLOW_LEND_IDLE_US * 1000 ≤ s.tb.uptime) ∧
    (∃ (s : State) (i : BitVec 20), s.tb.uptime < (s.flow i.toNat).lastItem + s.fld Reg.FLOW_LEND_IDLE_US * 1000) ∧
    (∃ (s : State) (i : BitVec 20), (((s.flow i.toNat).has Ctx.valid = false ∨ (s.flows.wait.any fun r => (s.keysOf r).contains ((s.flow i.toNat).get Ctx.part, (s.flow i.toNat).get Ctx.fingerprint)) = true))) ∧
    (∃ (s : State) (i : BitVec 20), (s.flow i.toNat).has Ctx.valid = true ∧ (s.flows.wait.any fun r => (s.keysOf r).contains ((s.flow i.toNat).get Ctx.part, (s.flow i.toNat).get Ctx.fingerprint)) = false) ∧
    (∃ (s : State) (k : BitVec 8), s.frerStagedOk k.toNat = true ∧ s.frerInUse k.toNat = false) ∧
    (∃ (s : State) (k : BitVec 8), s.frerStagedOk k.toNat = true ∧ s.frerInUse k.toNat = true ∧ s.stagedBits (Reg.FLOW_FRER_PROF_W0 k.toNat) 0 13 ≠ bits (s.rd (Reg.FLOW_FRER_PROF_W0 k.toNat)).toNat 0 13) ∧
    (∃ (s : State) (k : BitVec 12), s.stagedBits (Reg.FLOW_POL_PROF_W0 k.toNat) 0 25 ≤ s.stagedBits (Reg.FLOW_POL_PROF_W0 k.toNat + 4) 0 25 ∧ s.stagedBits (Reg.FLOW_POL_PROF_W0 k.toNat + 4) 0 25 ≤ 25000000 ∧ 1522 ≤ s.stagedBits (Reg.FLOW_POL_PROF_W0 k.toNat + 8) 0 24 ∧ 1522 ≤ s.stagedBits (Reg.FLOW_POL_PROF_W0 k.toNat + 12) 0 24 ∧ s.stagedBits (Reg.FLOW_POL_PROF_W0 k.toNat + 12) 24 2 ≠ 3) ∧
    (∃ (s : State) (k : BitVec 12), 25000000 < s.stagedBits (Reg.FLOW_POL_PROF_W0 k.toNat + 4) 0 25) ∧
    (∃ (s : State) (lane : Fin 2) (b : List Byte), s.operating = true ∧ s.pairLink.lanes.getLsbD lane = true ∧ s.flag Reg.GUARD_PAIR_CTRL_ENABLE = true ∧ State.cellsFor (b.length + 4) ≤ s.cells.free) ∧
    (∃ (s : State) (lane : Fin 2), ((s.operating = false ∨ s.pairLink.lanes.getLsbD lane = false ∨ s.flag Reg.GUARD_PAIR_CTRL_ENABLE = false))) ∧
    (∃ (s : State) (c : PairCopy), s.pairLink.copies = [c] ∧ c.since + 20000 ≤ s.tb.uptime) := by
  refine ⟨?_, ?_, ?_, ?_, ?_, ?_, ?_, ?_, ?_, ?_, ?_, ?_, ?_, ?_, ?_⟩
  · exact ⟨wWait, 0, 0, (by decide +kernel), (by exact wait_needs)⟩
  · exact ⟨{ ran 2 with flows := { cache := [] } }, 3, 5, by decide +kernel⟩
  · exact ⟨wLent, 2, 1, by decide +kernel⟩
  · exact ⟨ran 2, 2, by decide +kernel⟩
  · exact ⟨wLent.setFld Reg.FLOW_LEND_IDLE_US 1000, 2, 1, by decide +kernel⟩
  · exact ⟨wLent.setFld Reg.FLOW_LEND_IDLE_US 1001, 2, by decide +kernel⟩
  · exact ⟨ran 2, 2, by decide +kernel⟩
  · exact ⟨wLent, 2, by decide +kernel⟩
  · exact ⟨wFr, 5, by decide +kernel⟩
  · exact ⟨{ wFr with flows := { table := [(0, (wFlow.set Ctx.rcv 1).set Ctx.frerProf 5)] } }, 5, by decide +kernel⟩
  · exact ⟨wPol 25000000, 7, by decide +kernel⟩
  · exact ⟨wPol 25000001, 7, by decide +kernel⟩
  · exact ⟨wPr, 1, [1, 2, 3], by decide +kernel⟩
  · exact ⟨ran 2, 1, by decide +kernel⟩
  · exact ⟨{ wPr with pairLink := { lanes := 2, copies := [{ frame := 5, bytes := [], since := 4999980000 }] }, frames := [(5, { cells := 1, copies := 2 })] }, { frame := 5, bytes := [], since := 4999980000 }, by decide +kernel⟩

end W17

namespace W18

def wRg (v : Nat) : State := (({ linked (linked (ran 2) 6 2) 7 2 with ring := { ethertype := 0x88B6, bridge := 77, stopReq := false, healReq := false } }.setFld Reg.RING_ETHERTYPE_ETHERTYPE 0x9000).setFld Reg.RING_CYCLE_CYCLE_NS 250000).setFld Reg.RING_STATUS_STATE v
def wRgOn (v : Nat) : State := (wRg v).setFlag Reg.RING_CTRL_ENABLE true
def wRgTab (v : Nat) : State := (((wRg v).setFld Reg.RING_TABLE_STATUS_STATE 1).wrN 0x840084 20000).wrN 0x840088 2000
def wClm : State := { wRg 2 with ring := { claiming := true, ethertype := 0x88B6 } }

/-- The hypotheses of `Obligations.RingControlAndMastershipFollowTheirStates` can be met, clause by clause. -/
theorem witness_RingControlAndMastershipFollowTheirStates :
    (∃ (s : State), s.flag Reg.RING_CTRL_ENABLE = false ∧ s.ringState = 0) ∧
    (∃ (s : State), s.flag Reg.RING_CTRL_ENABLE = true ∧ s.ringRuns = true) ∧
    (∃ (s : State), s.flag Reg.RING_CTRL_ENABLE = true ∧ (s.ringState = 1 ∨ s.ringState = 2 ∨ s.ringState = 3)) ∧
    (∃ (v : BitVec 16), v.toNat < 0x600) ∧
    (∃ (v : BitVec 16), 0x600 ≤ v.toNat) ∧
    (∃ (s : State), s.fld Reg.RING_TABLE_STATUS_STATE = 0) ∧
    (∃ (s : State), s.fld Reg.RING_TABLE_STATUS_STATE ≠ 0) ∧
    (∃ (s : State), s.fld Reg.RING_TABLE_STATUS_STATE = 1 ∧ ringTableError s.ringSheet (s.ringBank false) = none) ∧
    (∃ (s : State) (e : Nat) (k : Nat), s.fld Reg.RING_TABLE_STATUS_STATE = 1 ∧ ringTableError s.ringSheet (s.ringBank false) = some (e, k)) ∧
    (∃ (s : State), s.ringState = 1 ∧ s.ring.since + 10000000 ≤ s.tb.uptime) ∧
    (∃ (s : State), s.ringState = 2 ∧ s.ring.claiming = false ∧ s.ring.since + State.holdoffNs ≤ s.tb.uptime) ∧
    (∃ (s : State), s.ringState = 2 ∧ s.ring.claiming = true ∧ s.ring.since + 100000 * s.ring.claims ≤ s.tb.uptime ∧ s.ring.claims < 20 ∧ s.sends 6 = true ∧ s.sends 7 = true) ∧
    (∃ (s : State) (p : BitVec 8) (n : BitVec 64), s.ringState = 2 ∧ s.lowerClaim p.toNat n.toNat = true) ∧
    (∃ (s : State) (p : BitVec 8) (n : BitVec 64), (s.ringState ≠ 2 ∨ s.lowerClaim p.toNat n.toNat = false)) ∧
    (∃ (s : State), s.ringState = 2 ∧ s.ring.claiming = true ∧ s.ring.since + 2000000 ≤ s.tb.uptime ∧ s.ringLinksUp = true) ∧
    (∃ (s : State), ((s.ringState = 1 → s.tb.uptime < s.ring.since + 10000000))) ∧
    (∃ (s : State), ((s.ringState = 2 → s.tb.uptime < s.ring.since))) ∧
    (∃ (s : State), s.ringState = 2) ∧
    (∃ (s : State), s.ringRuns = true) := by
  refine ⟨?_, ?_, ?_, ?_, ?_, ?_, ?_, ?_, ?_, ?_, ?_, ?_, ?_, ?_, ?_, ?_, ?_, ?_, ?_⟩
  · exact ⟨wRg 0, by decide +kernel⟩
  · exact ⟨wRgOn 4, by decide +kernel⟩
  · exact ⟨wRgOn 1, by decide +kernel⟩
  · exact ⟨0x5FF, by decide +kernel⟩
  · exact ⟨0x600, by decide +kernel⟩
  · exact ⟨wRg 4, by decide +kernel⟩
  · exact ⟨wRgTab 4, by decide +kernel⟩
  · exact ⟨wRgTab 3, by decide +kernel⟩
  · exact ⟨(wRg 4).setFld Reg.RING_TABLE_STATUS_STATE 1, 7, 0, by decide +kernel⟩
  · exact ⟨wRg 1, by decide +kernel⟩
  · exact ⟨wRg 2, (by decide +kernel), (by decide +kernel), (by have h : State.holdoffNs ≤ 1023000 := (by unfold State.holdoffNs; omega); exact Nat.le_trans (Nat.add_le_add_left h _) (by decide +kernel))⟩
  · exact ⟨wClm, by decide +kernel⟩
  · exact ⟨(wRg 2).setFld Reg.RING_PRIORITY_PRIORITY 5, 4, 9, by decide +kernel⟩
  · exact ⟨(wRg 2).setFld Reg.RING_PRIORITY_PRIORITY 5, 6, 9, by decide +kernel⟩
  · exact ⟨{ wRg 2 with ring := { claiming := true, n := 9 } }, by decide +kernel⟩
  · exact ⟨wRg 2, by decide +kernel⟩
  · exact ⟨wRg 3, by decide +kernel⟩
  · exact ⟨wRg 2, by decide +kernel⟩
  · exact ⟨wRg 5, by decide +kernel⟩

end W18

namespace W19

def wRg (v : Nat) : State := (({ linked (linked (ran 2) 6 2) 7 2 with ring := { ethertype := 0x88B6, bridge := 77, n := 70000, c0 := some (-10000000000000) } }.setFld Reg.RING_ETHERTYPE_ETHERTYPE 0x9000).setFld Reg.RING_CYCLE_CYCLE_NS 250000).setFld Reg.RING_STATUS_STATE v
def wRun (v : Nat) (r : Ring) : State := { wRg v with ring := r }
def wBase : Ring := (wRg 4).ring
def wPoll : RingPoll := { cycle := 70000, slot := 3, station := 9, ports := [6, 7], q := 7000000000, gutter := 200, dlim := 20000, replyLen := 46, noReply := false, rxq := 1 }
def wLineG : State := ((wRun 4 { wBase with polls := [wPoll] }).setFlag Reg.RING_STATUS_LINE true).setFlag Reg.RING_STATUS_GRACE true
def wMeas (l : Bool) (t : List (Nat × Int)) : State := wRun 5 { wBase with measure := some { seq := 12, cycle := 7, line := l, t1 := t } }
def wMk : State := ((wRg 5).wrN 0x840180 0x020000).wrN 0x84010C 3
def wGot : RingPoll := { wPoll with q := 6999000000, replies := [{ accepted := true, payload := [1, 2], flags := 3, e := 4, d := 700, port := 7, stamp := {}, ts := 2, rxUp := 5 }] }

/-- The hypotheses of `Obligations.RingCyclesAndMarksRun` can be met, clause by clause. -/
theorem witness_RingCyclesAndMarksRun :
    (∃ (s : State) (c : BitVec 16), s.ringRuns = true ∧ c.toNat = s.ring.n % 65536 ∧ s.ring.built = [] ∧ s.tableDueAt s.ring.n = false ∧ (s.ringBank true).slots = [] ∧ s.rc < s.cycleStartRc s.ring.n ∧ s.rc ≤ s.cycleStartRc s.ring.n - s.fld (Reg.PORT_LEAD_LEAD_NS 6)) ∧
    (∃ (s : State), s.ringRuns = false) ∧
    (∃ (s : State), s.ringRuns = true ∧ s.ringLine = true ∧ s.ring.polls = []) ∧
    (∃ (s : State) (p : RingPoll) (c : BitVec 16) (k : BitVec 12) (a : BitVec 8) (pl : List Byte), s.ringRuns = true ∧ s.ringLine = true ∧ s.ringGrace = true ∧ s.ring.polls = [p] ∧ p.cycle % 65536 = c.toNat ∧ p.slot = k.toNat ∧ p.station = a.toNat ∧ p.ports = [6, 7] ∧ pl.length ≤ p.replyLen ∧ p.closed = false ∧ p.noReply = false) ∧
    (∃ (s : State), s.ringRuns = false) ∧
    (∃ (s : State) (p : RingPoll) (c : BitVec 16) (k : BitVec 12), s.ring.polls = [p] ∧ p.cycle % 65536 = c.toNat ∧ p.slot = k.toNat ∧ p.closed = false ∧ s.pollDeadline p ≤ s.rc ∧ p.noReply = true) ∧
    (∃ (s : State) (p : RingPoll) (c : BitVec 16) (k : BitVec 12), s.ring.polls = [p] ∧ p.cycle % 65536 = c.toNat ∧ p.slot = k.toNat ∧ p.closed = false ∧ s.pollDeadline p ≤ s.rc ∧ p.noReply = false ∧ p.replies = [] ∧ s.ringGrace = false ∧ p.station < 256 ∧ s.excluded p.station = false ∧ s.stationRec p.station 2 8 8 < 255 ∧ s.fld Reg.RING_MISS_LIMIT_LIMIT ≤ s.stationRec p.station 2 8 8 + 1) ∧
    (∃ (s : State) (p : RingPoll) (r : RingReply) (c : BitVec 16) (k : BitVec 12), s.ring.polls = [p] ∧ p.cycle % 65536 = c.toNat ∧ p.slot = k.toNat ∧ p.closed = false ∧ s.pollDeadline p ≤ s.rc ∧ p.noReply = false ∧ p.replies = [r] ∧ r.accepted = true ∧ s.rxqTakes p.rxq = false) ∧
    (∃ (s : State), (s.ring.polls.all fun p => decide (s.rc < s.pollDeadline p)) = true) ∧
    (∃ (s : State) (m : RingMeasure) (t1 : Int) (seq : BitVec 16), s.ring.measure = some m ∧ m.t1 = [(0, t1)] ∧ m.seq = seq.toNat ∧ m.line = false) ∧
    (∃ (s : State) (m : RingMeasure) (t1 : Int) (seq : BitVec 16) (side : Fin 2), s.ring.measure = some m ∧ (m.t1.find? fun p => Nat.beq p.1 side) = some (side.val, t1) ∧ m.seq = seq.toNat ∧ m.line = true ∧ m.value = []) ∧
    (∃ (s : State) (m : RingMeasure) (t1 : Int) (seq : BitVec 16), s.ring.measure = some m ∧ m.t1 = [(0, t1)] ∧ m.seq = seq.toNat ∧ m.line = false ∧ m.value = []) ∧
    (∃ (s : State) (c : BitVec 16), s.ringRuns = true ∧ s.ringLine = false ∧ c.toNat = s.fld Reg.RING_STATUS_CYCLE) ∧
    (∃ (s : State), s.ringRuns = true ∧ s.ringLine = false ∧ s.ring.lineAt = none) ∧
    (∃ (s : State) (k : Nat), s.ringRuns = true ∧ s.ringLine = false ∧ s.ring.testFrom = some k ∧ k + 1 ≤ s.ring.n ∧ s.ring.hold = false ∧ s.ring.returned = false ∧ s.ring.lineAt = none ∧ s.cycleStartRc (s.ring.n - 1) + ((s.rd Reg.RING_LAMBDA_A).toNat : Int) + 2 * (s.fld Reg.RING_GUTTER_GUTTER_NS : Int) ≤ s.rc) ∧
    (∃ (s : State), (s.ring.returned = true ∨ s.ring.hold = true)) ∧
    (∃ (s : State) (b : List Byte), s.ringState = 3 ∧ (ringHdrOf b).version ≠ 1) ∧
    (∃ (s : State) (r : RingRelay) (l : List RingRelay), s.ring.relay = r :: l) ∧
    (∃ (s : State), s.cycleDue = true ∧ s.ring.stopReq = true ∧ s.guard.handover = none) ∧
    (∃ (s : State), s.cycleDue = true ∧ s.ring.stopReq = false ∧ s.ring.yieldReq = false ∧ s.ring.foreign = false ∧ s.operating = true ∧ s.guard.handover = none) ∧
    (∃ (s : State), s.cycleDue = false) ∧
    (∃ (s : State) (m : Fin 16) (k : RingMark), (s.ringBank true).marks[m.val]? = some k ∧ s.ringRuns = true ∧ k.enabled = true ∧ s.ring.n ≠ s.ring.first ∧ s.ring.marked.getLsbD m.val = false ∧ s.cycleStartRc (s.ring.n - 1) + k.offset ≤ s.rc ∧ k.irq = false ∧ k.gate = false ∧ k.send = false ∧ k.event = true) ∧
    (∃ (s : State) (m : Fin 16), (s.ringRuns = false ∨ s.ring.marked.getLsbD m.val = true)) ∧
    (∃ (s : State) (d : Int), s.tb.due = some d ∧ s.tb.realigned = s.tb.uptime) ∧
    (∃ (s : State), (s.tb.due = none ∨ s.tb.realigned ≠ s.tb.uptime)) := by
  refine ⟨?_, ?_, ?_, ?_, ?_, ?_, ?_, ?_, ?_, ?_, ?_, ?_, ?_, ?_, ?_, ?_, ?_, ?_, ?_, ?_, ?_, ?_, ?_, ?_, ?_⟩
  · exact ⟨wRun 4 { wBase with c0 := some 7000000000, n := 5 }, 5, by decide +kernel⟩
  · exact ⟨wRg 3, by decide +kernel⟩
  · exact ⟨(wRg 4).setFlag Reg.RING_STATUS_LINE true, by decide +kernel⟩
  · exact ⟨wLineG, wPoll, 4464, 3, 9, [1, 2], by decide +kernel⟩
  · exact ⟨wRg 3, by decide +kernel⟩
  · exact ⟨wRun 5 { wBase with polls := [{ wPoll with noReply := true, q := 6999000000 }] }, { wPoll with noReply := true, q := 6999000000 }, 4464, 3, by decide +kernel⟩
  · exact ⟨(wRun 5 { wBase with polls := [{ wPoll with q := 6999000000 }] }).setFld Reg.RING_MISS_LIMIT_LIMIT 3 |> fun s => s.setStationRec 9 2 8 8 2, { wPoll with q := 6999000000 }, 4464, 3, by decide +kernel⟩
  · exact ⟨wRun 5 { wBase with polls := [wGot] }, wGot, { accepted := true, payload := [1, 2], flags := 3, e := 4, d := 700, port := 7, stamp := {}, ts := 2, rxUp := 5 }, 4464, 3, by decide +kernel⟩
  · exact ⟨wRun 5 { wBase with polls := [wPoll] }, by decide +kernel⟩
  · exact ⟨wMeas false [(0, 6999000000)], { seq := 12, cycle := 7, line := false, t1 := [(0, 6999000000)] }, 6999000000, 12, by decide +kernel⟩
  · exact ⟨wMeas true [(0, 6999000000), (1, 6999000500)], { seq := 12, cycle := 7, line := true, t1 := [(0, 6999000000), (1, 6999000500)] }, 6999000500, 12, 1, by decide +kernel⟩
  · exact ⟨wMeas false [(0, 6999000000)], { seq := 12, cycle := 7, line := false, t1 := [(0, 6999000000)] }, 6999000000, 12, by decide +kernel⟩
  · exact ⟨(wRg 4).setFld Reg.RING_STATUS_CYCLE 4463, 4463, by decide +kernel⟩
  · exact ⟨wRg 4, by decide +kernel⟩
  · exact ⟨wRun 5 { wBase with testFrom := some 69999 }, 69999, by decide +kernel⟩
  · exact ⟨wRun 5 { wBase with testFrom := some 69999, hold := true }, by decide +kernel⟩
  · exact ⟨wRg 3, [1, 2], by decide +kernel⟩
  · exact ⟨wRun 3 { wBase with relay := [⟨7, [1, 2, 3], 5⟩] }, ⟨7, [1, 2, 3], 5⟩, [], by decide +kernel⟩
  · exact ⟨wRun 5 { wBase with stopReq := true }, by decide +kernel⟩
  · exact ⟨wRg 5, by decide +kernel⟩
  · exact ⟨wRg 3, by decide +kernel⟩
  · exact ⟨wMk, 1, { event := true, enabled := true }, by decide +kernel⟩
  · exact ⟨wRg 3, 1, by decide +kernel⟩
  · exact ⟨{ wRg 5 with tb := { time := 7000000000 * 2 ^ 32, realigned := 6, due := some (-30000000000), uptime := 6 } }, -30000000000, by decide +kernel⟩
  · exact ⟨wRg 5, by decide +kernel⟩

end W19

namespace W20

def wPin (f pol : Nat) (p : EvtPin) : State := { ((ran 2).setFld (Reg.EVT_PIN_CFG_FUNCTION 9) f).setFld (Reg.EVT_PIN_CFG_POLARITY 9) pol with evt := { pins := if p = {} then [] else [(9, p)] } }
def wArm (s : State) : State := s.setFlag (Reg.EVT_PIN_CTRL_ARM 9) true
def wCand : EvtPin := { cand := some (458751000000000, 2, 4999999000) }
def wSch : EvtSched := { align := 0, start := 0, width := 101, period := 1000, count := 0, every := 0, base := 7000000000 * 65536 - 65536000, j := 1 }
def wEq (s : State) : State := { s.setFld Reg.EVT_CTRL_EQ 77 with queues := [(77, { state := 2, kind := 4, func := 1, log2 := 6 })] }
def wAl (arm : Bool) : State := ((((((wPin 2 2 {}).setFld (Reg.EVT_PIN_CFG_ALIGN 9) 1).setFld (Reg.EVT_PIN_CFG_ALIGN_PORT 9) 3).setFld (Reg.PORT_OPER_CYCLE_CYCLE_NS 3) 1000000).setFlag (Reg.EVT_PIN_CTRL_ARM 9) arm))

/-- The hypotheses of `Obligations.EventPinsStampCountAndPulse` can be met, clause by clause. -/
theorem witness_EventPinsStampCountAndPulse :
    (∃ (s : State) (n : Fin 32) (b : Bool), s.operating = true ∧ (s.pinFunction n = 1 ∨ s.pinFunction n = 2 ∨ s.pinFunction n = 4) ∧ b ≠ s.pinLevel n ∧ (s.pin n).cand = none) ∧
    (∃ (s : State) (n : Fin 32), s.operating = true ∧ (s.pinFunction n = 1 ∨ s.pinFunction n = 2 ∨ s.pinFunction n = 4)) ∧
    (∃ (s : State) (n : Fin 32), (s.operating = false ∨ (s.pinFunction n ≠ 1 ∧ s.pinFunction n ≠ 2 ∧ s.pinFunction n ≠ 4))) ∧
    (∃ (s : State) (n : Fin 32) (t16 : Nat) (ts : Nat) (up : Nat), (s.pin n).cand = some (t16, ts, up) ∧ up + s.pinFilter n ≤ s.tb.uptime ∧ s.pinFunction n = 4) ∧
    (∃ (s : State) (n : Fin 32) (t16 : Nat) (ts : Nat) (up : Nat), (s.pin n).cand = some (t16, ts, up) ∧ up + s.pinFilter n ≤ s.tb.uptime ∧ s.pinFunction n = 1 ∧ s.fld (Reg.EVT_PIN_CFG_POLARITY n) = 2 ∧ (s.pin n).lastEdge = none ∧ s.flag (Reg.EVT_PIN_CTRL_ARM n) = true ∧ s.flag (Reg.EVT_PIN_CTRL_POST n) = false) ∧
    (∃ (s : State) (n : Fin 32) (t16 : Nat) (ts : Nat) (up : Nat), (s.pin n).cand = some (t16, ts, up) ∧ up + s.pinFilter n ≤ s.tb.uptime ∧ s.pinFunction n = 2 ∧ s.fld (Reg.EVT_PIN_CFG_POLARITY n) = 2 ∧ (s.pin n).lastEdge = none ∧ s.flag (Reg.EVT_PIN_CTRL_ARM n) = true ∧ s.fld (Reg.EVT_PIN_CTRL_SNAP_EVERY n) = 0) ∧
    (∃ (s : State) (n : Fin 32), (s.pin n).cand = none) ∧
    (∃ (s : State) (n : Fin 32) (c : EvtSched), (s.pin n).sched = some c ∧ s.pinTarget n c ≤ s.nowTicks ∧ ((c.align = 2 → s.ring.c0.isSome = true)) ∧ s.pinFunction n = 3 ∧ s.flag (Reg.EVT_PIN_CTRL_REQ_SYNC n) = false ∧ (s.pin n).active = false ∧ c.run = none ∧ c.count = 0 ∧ s.flag (Reg.EVT_PIN_CTRL_POST n) = false) ∧
    (∃ (s : State) (n : Fin 32) (c : EvtSched), (s.pin n).sched = some c ∧ s.pinTarget n c ≤ s.nowTicks ∧ ((c.align = 2 → s.ring.c0.isSome = true)) ∧ s.pinFunction n = 2 ∧ s.flag (Reg.EVT_PIN_CTRL_REQ_SYNC n) = false ∧ (s.pin n).active = false ∧ c.run = none ∧ c.count = 0) ∧
    (∃ (s : State) (n : Fin 32), (s.pin n).sched = none) ∧
    (∃ (s : State) (n : Fin 32), (s.pin n).active = true ∧ (s.pin n).pulseEnd ≤ s.tb.uptime) ∧
    (∃ (s : State) (n : Fin 32), s.tb.uptime < (s.pin n).pulseEnd) ∧
    (∃ (s : State) (n : Fin 32) (t16 : Nat) (ts : Nat) (due : Nat) (l : List (Nat × Nat × Nat)), (s.pin n).snaps = (t16, ts, due) :: l ∧ due ≤ s.tb.uptime ∧ s.flag (Reg.EVT_PIN_CTRL_POST n) = false) ∧
    (∃ (s : State) (n : Fin 32), s.pinFunction n = 0 ∧ (s.pin n).fifo.length < 64 ∧ s.evtQueueOk = true) ∧
    (∃ (s : State) (n : Fin 32) (v : BitVec 32), s.pinFunction n = 2 ∧ s.fld (Reg.EVT_PIN_CFG_ALIGN n) = 1 ∧ (s.pinGate n).2 = 1000000 * 65536 ∧ (s.staged (Reg.EVT_PIN_START n)).toNat < 1000000 ∧ (v.toNat / 2 ^ 16) % 2 ^ 16 = 1 ∧ (s.pin n).sched = none) ∧
    (∃ (s : State) (n : Fin 32) (c : EvtSched), (s.pin n).sched = some c ∧ c.run = none) ∧
    (∃ (s : State) (n : Fin 32) (code : Nat) (data : Nat) (l : List (Nat × Nat)), (s.pin n).fifo = (code, data) :: l ∧ s.evtQueueOk = true ∧ (s.q (s.fld Reg.EVT_CTRL_EQ)).events.length < 16) ∧
    (∃ (s : State) (n : Fin 32), ((s.pin n).fifo = [] ∨ s.evtQueueOk = false)) := by
  refine ⟨?_, ?_, ?_, ?_, ?_, ?_, ?_, ?_, ?_, ?_, ?_, ?_, ?_, ?_, ?_, ?_, ?_, ?_⟩
  · exact ⟨wPin 1 2 {}, 9, true, by decide +kernel⟩
  · exact ⟨wPin 2 2 { cand := some (1, 2, 3) }, 9, by decide +kernel⟩
  · exact ⟨wPin 3 2 {}, 9, by decide +kernel⟩
  · exact ⟨wPin 4 0 wCand, 9, 458751000000000, 2, 4999999000, by decide +kernel⟩
  · exact ⟨wArm (wPin 1 2 wCand), 9, 458751000000000, 2, 4999999000, by decide +kernel⟩
  · exact ⟨wArm (wPin 2 2 wCand), 9, 458751000000000, 2, 4999999000, by decide +kernel⟩
  · exact ⟨wPin 4 0 {}, 9, by decide +kernel⟩
  · exact ⟨wArm (wPin 3 1 { sched := some wSch }), 9, wSch, by decide +kernel⟩
  · exact ⟨wArm (wPin 2 2 { sched := some wSch, snaps := [(4, 5, 6)] }), 9, wSch, by decide +kernel⟩
  · exact ⟨wPin 3 0 {}, 9, by decide +kernel⟩
  · exact ⟨(wPin 3 0 { active := true, pulseEnd := 5000000000 }).setPinLevel 9 true, 9, by decide +kernel⟩
  · exact ⟨wPin 3 0 { active := true, pulseEnd := 5000000001 }, 9, by decide +kernel⟩
  · exact ⟨(wPin 2 2 { snaps := [(50, 1, 5000000000), (70, 1, 6000000000)], recent := [80, 60, 40] }).wrN (Reg.EVT_PIN_COUNT 9) 1, 9, 50, 1, 5000000000, [(70, 1, 6000000000)], by decide +kernel⟩
  · exact ⟨wEq (wPin 0 0 { fifo := [(1, 2)] }), 9, by decide +kernel⟩
  · exact ⟨wAl false, 9, 0x10000, by decide +kernel⟩
  · exact ⟨wArm (wPin 2 2 { sched := some wSch, snaps := [(4, 5, 6)] }), 9, wSch, by decide +kernel⟩
  · exact ⟨wEq (wPin 1 0 { fifo := [(1, 2), (3, 4)] }), 9, 1, 2, [(3, 4)], by decide +kernel⟩
  · exact ⟨wPin 1 0 { fifo := [(1, 2)] }, 9, by decide +kernel⟩

end W20

namespace W21

def wAlu (op : Nat) : Nat := op * 2 ^ 218 + 3 * 2 ^ 213 + 1 * 2 ^ 208 + 2 * 2 ^ 203 + 2 ^ 201
def wRegs (a b : BitVec 64) : Engine := { bank0 := [(1, a), (2, b)], results := [(2, 5, 9)] }

/-- The hypotheses of `Obligations.AluOperationsGiveTheirResults` can be met, clause by clause. -/
theorem witness_AluOperationsGiveTheirResults :
    (∃ (s : State) (e : Fin 160) (k : Fin 2) (w : Nat) (a : BitVec 64) (b : BitVec 64), s.UnitReady e k w ∧ (s.eng e).opA w k = a ∧ (s.eng e).opB w k = b) := by
  · exact ⟨wEng 5 (wAlu 1) (wRegs 0x8000000000000001 0x7FFFFFFFFFFF8005), 5, 0, wAlu 1, 0x8000000000000001, 0x7FFFFFFFFFFF8005, ⟨⟨by decide +kernel, by decide +kernel, by decide +kernel, by decide +kernel, by decide +kernel, by decide +kernel⟩, by decide +kernel, by decide +kernel⟩, (by decide +kernel), (by decide +kernel)⟩

end W21

namespace W22

def wIt : WorkItem := { folio := 1, opcode := 32, kind := 0, key := 2, arrivalUs := 5000000, length := 200, frame := 3, bytes := (List.range 128).map (fun k => BitVec.ofNat 8 (k * 7 + 1)) }
def wG (sh : List ShadowOp) : Engine := { item := some wIt, bank0 := [(1, 0x30), (2, 0x1122334455667788)], shadow := sh, loc := [(0x30, some 5), (0x40, some 9)], safe := true, results := [(0, 4, 4)] }
def wFld (op byte bit width : Nat) : Nat := op * 2 ^ 157 + 2 * 2 ^ 152 + byte * 2 ^ 144 + bit * 2 ^ 138 + width * 2 ^ 132
def wMem (op space sz disp : Nat) : Nat := op * 2 ^ 124 + space * 2 ^ 121 + sz * 2 ^ 119 + 1 * 2 ^ 114 + 2 * 2 ^ 109 + disp * 2 ^ 96
def wSh (n : Nat) : List ShadowOp := (List.range n).map fun k => { op := 2, space := 0, addr := 48 + k, size := 1, data := 0xA0 + k }

/-- The hypotheses of `Obligations.FieldAndMemoryUnitsReadAndStage` can be met, clause by clause. -/
theorem witness_FieldAndMemoryUnitsReadAndStage :
    (∃ (s : State) (e : Fin 160) (w : Nat), s.UnitReady e 2 w ∧ Mw.fop w = 1 ∧ State.fieldFault w = false) ∧
    (∃ (s : State) (e : Fin 160) (w : Nat), s.UnitReady e 2 w ∧ Mw.fop w = 2 ∧ State.fieldFault w = false ∧ 256 ≤ 8 * Mw.fbyte w + Mw.fbit w ∧ (s.eng e).memShadow.length < 64) ∧
    (∃ (s : State) (e : Fin 160) (w : Nat), s.UnitReady e 3 w ∧ Mw.mop w = 1 ∧ (s.eng e).memFault w = none) ∧
    (∃ (s : State) (e : Fin 160) (w : Nat), s.UnitReady e 3 w ∧ (s.eng e).memFault w = none ∧ Mw.space w < 3 ∧ (s.eng e).memShadow.length < 64) ∧
    (∃ (s : State) (e : Fin 160) (w : Nat), s.UnitReady e 3 w ∧ Mw.mop w = 2 ∧ (s.eng e).memFault w = none ∧ Mw.space w = 3) ∧
    (∃ (s : State) (e : Fin 160) (w : Nat) (c : Nat), s.UnitReady e 3 w ∧ (s.eng e).memFault w = some c) ∧
    (∃ (s : State) (e : Fin 160) (w : Nat), s.UnitReady e 3 w ∧ (s.eng e).memFault w = none ∧ Mw.space w < 3 ∧ Mw.mop w = 2 ∧ 64 ≤ (s.eng e).memShadow.length) ∧
    (∃ (s : State) (e : Fin 160) (w : Nat), s.engRuns e = true ∧ s.mustStop e = false ∧ s.fetchWord e (s.eng e).pc = some w ∧ Mw.valid w = false) ∧
    (∃ (s : State) (e : Fin 160), s.engRuns e = true ∧ s.mustStop e = false ∧ s.fetchWord e (s.eng e).pc = none) := by
  refine ⟨?_, ?_, ?_, ?_, ?_, ?_, ?_, ?_, ?_⟩
  · exact ⟨wEng 5 (wFld 1 40 5 11) (wG (wSh 3)), 5, wFld 1 40 5 11, ⟨⟨by decide +kernel, by decide +kernel, by decide +kernel, by decide +kernel, by decide +kernel, by decide +kernel⟩, by decide +kernel, by decide +kernel⟩, (by decide +kernel), (by decide +kernel)⟩
  · exact ⟨wEng 5 (wFld 2 32 0 11) (wG (wSh 3)), 5, wFld 2 32 0 11, ⟨⟨by decide +kernel, by decide +kernel, by decide +kernel, by decide +kernel, by decide +kernel, by decide +kernel⟩, by decide +kernel, by decide +kernel⟩, (by decide +kernel), (by decide +kernel), (by decide +kernel), (by decide +kernel)⟩
  · exact ⟨wEng 5 (wMem 1 0 3 0) (wG (wSh 3)), 5, wMem 1 0 3 0, ⟨⟨by decide +kernel, by decide +kernel, by decide +kernel, by decide +kernel, by decide +kernel, by decide +kernel⟩, by decide +kernel, by decide +kernel⟩, (by decide +kernel), (by decide +kernel)⟩
  · exact ⟨wEng 5 (wMem 2 0 3 0) (wG (wSh 63)), 5, wMem 2 0 3 0, ⟨⟨by decide +kernel, by decide +kernel, by decide +kernel, by decide +kernel, by decide +kernel, by decide +kernel⟩, by decide +kernel, by decide +kernel⟩, (by decide +kernel), (by decide +kernel), (by decide +kernel)⟩
  · exact ⟨wEng 5 (wMem 2 3 3 8) (wG (wSh 2)), 5, wMem 2 3 3 8, ⟨⟨by decide +kernel, by decide +kernel, by decide +kernel, by decide +kernel, by decide +kernel, by decide +kernel⟩, by decide +kernel, by decide +kernel⟩, (by decide +kernel), (by decide +kernel), (by decide +kernel)⟩
  · exact ⟨wEng 5 (wMem 1 0 3 1) (wG (wSh 2)), 5, wMem 1 0 3 1, 8, ⟨⟨by decide +kernel, by decide +kernel, by decide +kernel, by decide +kernel, by decide +kernel, by decide +kernel⟩, by decide +kernel, by decide +kernel⟩, (by decide +kernel)⟩
  · exact ⟨wEng 5 (wMem 2 0 3 0) (wG (wSh 64)), 5, wMem 2 0 3 0, ⟨⟨by decide +kernel, by decide +kernel, by decide +kernel, by decide +kernel, by decide +kernel, by decide +kernel⟩, by decide +kernel, by decide +kernel⟩, (by decide +kernel), (by decide +kernel), (by decide +kernel), (by decide +kernel)⟩
  · exact ⟨wEng 5 (6 * 2 ^ 247) (wG []), 5, 6 * 2 ^ 247, by decide +kernel⟩
  · exact ⟨(let s : State := wEng 5 0 (wG []); s.setEng 5 { s.eng 5 with pc := 0x5000 }), 5, by decide +kernel⟩

end W22

namespace W23

def wHub (op n : Nat) : Nat := op * 2 ^ 91 + 30 * 2 ^ 86 + n * 2 ^ 83 + 7 * 2 ^ 78
def wH (n : Nat) : Engine := { bank0 := [(1, 5), (30, 0x11), (31, 0x22)], hub := (List.range n).map (fun k => ⟨5, [k], []⟩), loc := (List.range 128).map fun k => (k, some (BitVec.ofNat 8 (k + 1))) }
def wPriv (s : State) : State := s.setFlag (Reg.ENG_ROLE_PRIV 5) true

/-- The hypotheses of `Obligations.HubOperationsAreStagedOrAnswered` can be met, clause by clause. -/
theorem witness_HubOperationsAreStagedOrAnswered :
    (∃ (s : State) (e : Fin 160) (w : Nat), s.UnitReady e 4 w ∧ (s.eng e).hubShadow.length < 16) ∧
    (∃ (s : State) (e : Fin 160) (w : Nat), s.UnitReady e 4 w ∧ (s.eng e).hubShadow.length < 16 ∧ s.engPriv e = true) ∧
    (∃ (s : State) (e : Fin 160) (w : Nat), s.UnitReady e 4 w ∧ (s.eng e).hubShadow.length < 16) ∧
    (∃ (s : State) (e : Fin 160) (w : Nat), s.UnitReady e 4 w ∧ Mw.hop w = 0x08) ∧
    (∃ (s : State) (e : Fin 160) (w : Nat), s.UnitReady e 4 w) ∧
    (∃ (s : State) (e : Fin 160) (w : Nat), s.UnitReady e 4 w ∧ s.engPriv e = false ∧ Mw.hop w = 0x0F) ∧
    (∃ (s : State) (e : Fin 160) (w : Nat), s.UnitReady e 4 w ∧ 16 ≤ (s.eng e).hubShadow.length ∧ Mw.hop w = 0x05) := by
  refine ⟨?_, ?_, ?_, ?_, ?_, ?_, ?_⟩
  · exact ⟨wEng 5 (wHub 1 3) (wH 15), 5, wHub 1 3, ⟨⟨by decide +kernel, by decide +kernel, by decide +kernel, by decide +kernel, by decide +kernel, by decide +kernel⟩, by decide +kernel, by decide +kernel⟩, (by decide +kernel)⟩
  · exact ⟨wPriv (wEng 5 (wHub 14 2) (wH 0)), 5, wHub 14 2, ⟨⟨by decide +kernel, by decide +kernel, by decide +kernel, by decide +kernel, by decide +kernel, by decide +kernel⟩, by decide +kernel, by decide +kernel⟩, (by decide +kernel), (by decide +kernel)⟩
  · exact ⟨wEng 5 (wHub 10 2) (wH 1), 5, wHub 10 2, ⟨⟨by decide +kernel, by decide +kernel, by decide +kernel, by decide +kernel, by decide +kernel, by decide +kernel⟩, by decide +kernel, by decide +kernel⟩, (by decide +kernel)⟩
  · exact ⟨wEng 5 (wHub 8 2) (wH 1), 5, wHub 8 2, ⟨⟨by decide +kernel, by decide +kernel, by decide +kernel, by decide +kernel, by decide +kernel, by decide +kernel⟩, by decide +kernel, by decide +kernel⟩, (by decide +kernel)⟩
  · exact ⟨wEng 5 (wHub 9 2) (wH 1), 5, wHub 9 2, ⟨⟨by decide +kernel, by decide +kernel, by decide +kernel, by decide +kernel, by decide +kernel, by decide +kernel⟩, by decide +kernel, by decide +kernel⟩⟩
  · exact ⟨wEng 5 (wHub 15 2) (wH 1), 5, wHub 15 2, ⟨⟨by decide +kernel, by decide +kernel, by decide +kernel, by decide +kernel, by decide +kernel, by decide +kernel⟩, by decide +kernel, by decide +kernel⟩, (by decide +kernel), (by decide +kernel)⟩
  · exact ⟨wEng 5 (wHub 5 2) (wH 16), 5, wHub 5 2, ⟨⟨by decide +kernel, by decide +kernel, by decide +kernel, by decide +kernel, by decide +kernel, by decide +kernel⟩, by decide +kernel, by decide +kernel⟩, (by decide +kernel), (by decide +kernel)⟩

end W23

namespace W24

def wNx (n c t : Nat) : Nat := n * 2 ^ 247 + c * 2 ^ 242 + t * 2 ^ 226
def wB : Engine := { bank0 := [(1, 5), (2, 6)], stack := [0x150, 0x160], results := [(3, 1, 9), (0, 1, 8), (2, 0, 7), (1, 29, 0x123456789)], flags := some (true, false, true, true), n := true }
def wQ (l : List (Nat × Nat)) (s : State) : State := l.foldl (fun s p => s.setEngState p.1 p.2) s
def wInt : State := let s := wEng 5 0 { wB with safe := true, ints := 0x0A }; { s with imp := { s.imp with loaded := (List.range 16).map fun q => (q, [{ wFlowCode with dispatch := [(1, 0x180 + 2 ^ 15 + 2 ^ 31 + 0x40 * 2 ^ 48)] }]) } }
def wRn (w : Nat) (g : Engine) (r : BitVec 8) : State := wEng 5 w { g with ran := r }

/-- The hypotheses of `Obligations.WordsEndAndEnginesAreSequenced` can be met, clause by clause. -/
theorem witness_WordsEndAndEnginesAreSequenced :
    (∃ (s : State) (e : Fin 160) (w : Nat), s.WordRan e w ∧ Mw.next w = 0) ∧
    (∃ (s : State) (e : Fin 160) (w : Nat), s.WordRan e w ∧ Mw.next w = 1) ∧
    (∃ (s : State) (e : Fin 160) (w : Nat), s.WordRan e w ∧ Mw.next w = 2 ∧ (s.eng e).condHolds w = true ∧ s.branchAllowed e (Mw.target w) = true) ∧
    (∃ (s : State) (e : Fin 160) (w : Nat) (a : Nat) (l : List Nat), s.WordRan e w ∧ Mw.next w = 3 ∧ (s.eng e).handler = false ∧ (s.eng e).stack = a :: l) ∧
    (∃ (s : State) (e : Fin 160) (w : Nat), s.WordRan e w ∧ Mw.next w = 3 ∧ (s.eng e).handler = false ∧ (s.eng e).stack = []) ∧
    (∃ (s : State) (e : Fin 160) (w : Nat), s.WordRan e w ∧ Mw.next w = 4 ∧ s.folioQueue (folioOf e) = [] ∧ s.flows.deletes = [] ∧ (s.eng e).handler = false) ∧
    (∃ (s : State) (e : Fin 160) (w : Nat), s.WordRan e w ∧ Mw.next w = 5) ∧
    (∃ (s : State) (e : Fin 160) (w : Nat), s.WordRan e w ∧ (Mw.units w).testBit 5 = false ∧ (Mw.units w).testBit 6 = false) ∧
    (∃ (s : State) (e : Fin 160) (w : Nat), s.UnitReady e 5 w ∧ State.unitsRan (s.eng e) w = true ∧ (s.eng e).memShadow = [] ∧ (s.eng e).hubShadow = []) ∧
    (∃ (s : State) (e : Fin 160) (w : Nat) (it : WorkItem), s.UnitReady e 5 w ∧ State.unitsRan (s.eng e) w = true ∧ (s.eng e).memShadow = [] ∧ (s.eng e).hubShadow = [⟨0x06, [], []⟩] ∧ s.hubBlocked e = false ∧ (s.eng e).item = some it ∧ it.entry = none ∧ s.mayCommit e = true) ∧
    (∃ (s : State) (e : Fin 160) (w : Nat) (it : WorkItem), s.UnitReady e 6 w ∧ State.unitsRan (s.eng e) w = true ∧ (s.eng e).memShadow = [] ∧ (s.eng e).hubShadow = [] ∧ (s.eng e).item = some it ∧ s.mayCommit e = true) ∧
    (∃ (s : State) (e : Fin 160), s.operating = true ∧ s.engActive e = true ∧ s.engState e ≠ 5 ∧ (s.eng e).ran = 0 ∧ (s.eng e).migrate = true ∧ (s.eng e).safe = true) ∧
    (∃ (s : State) (e : Fin 160) (op : Nat) (v : Nat), s.operating = true ∧ s.engActive e = true ∧ s.engState e ≠ 5 ∧ (s.eng e).ran = 0 ∧ (s.eng e).migrate = false ∧ (s.eng e).safe = true ∧ (s.eng e).handler = false ∧ lowestBit 16 (s.eng e).ints.toNat = some op ∧ v = s.dispatchEntry (folioOf e) op ∧ entryValid v = true ∧ entryHandler v = true ∧ (s.eng e).item.isSome = true) ∧
    (∃ (s : State) (e : Fin 160), s.engRuns e = true ∧ s.mustStop e = false ∧ State.atBound (s.eng e) = true ∧ (s.eng e).waiting = none) ∧
    (∃ (s : State) (e : Fin 160), State.atBound (s.eng e) = false) ∧
    (∃ (s : State) (e : BitVec 8), s.spareRefusal e.toNat = 0) ∧
    (∃ (s : State) (e : BitVec 8) (r : Nat), s.spareRefusal e.toNat = r ∧ r ≠ 0) ∧
    (∃ (s : State) (e : Fin 160) (it : WorkItem), s.operating = true ∧ s.engState e = 5 ∧ s.spareFree (folioOf e) = true ∧ (s.eng e).item = some it ∧ (s.eng e).handler = false ∧ (s.eng e).parked = none) := by
  refine ⟨?_, ?_, ?_, ?_, ?_, ?_, ?_, ?_, ?_, ?_, ?_, ?_, ?_, ?_, ?_, ?_, ?_, ?_⟩
  · exact ⟨wRn (wNx 0 0 0 + 2 ^ 218 + 2 ^ 251) wB 1, 5, wNx 0 0 0 + 2 ^ 218 + 2 ^ 251, ⟨⟨by decide +kernel, by decide +kernel, by decide +kernel, by decide +kernel, by decide +kernel, by decide +kernel⟩, by decide +kernel⟩, (by decide +kernel)⟩
  · exact ⟨wRn (wNx 1 1 0x200) { wB with z := true } 0, 5, wNx 1 1 0x200, ⟨⟨by decide +kernel, by decide +kernel, by decide +kernel, by decide +kernel, by decide +kernel, by decide +kernel⟩, by decide +kernel⟩, (by decide +kernel)⟩
  · exact ⟨wRn (wNx 2 0 0x200) wB 0, 5, wNx 2 0 0x200, ⟨⟨by decide +kernel, by decide +kernel, by decide +kernel, by decide +kernel, by decide +kernel, by decide +kernel⟩, by decide +kernel⟩, (by decide +kernel), (by decide +kernel), (by decide +kernel)⟩
  · exact ⟨wRn (wNx 3 0 0) wB 0, 5, wNx 3 0 0, 0x150, [0x160], ⟨⟨by decide +kernel, by decide +kernel, by decide +kernel, by decide +kernel, by decide +kernel, by decide +kernel⟩, by decide +kernel⟩, (by decide +kernel), (by decide +kernel), (by decide +kernel)⟩
  · exact ⟨wRn (wNx 3 0 0) { wB with stack := [] } 0, 5, wNx 3 0 0, ⟨⟨by decide +kernel, by decide +kernel, by decide +kernel, by decide +kernel, by decide +kernel, by decide +kernel⟩, by decide +kernel⟩, (by decide +kernel), (by decide +kernel), (by decide +kernel)⟩
  · exact ⟨{ wRn (wNx 4 0 0) { wB with shadow := [{ op := 2, space := 0, addr := 48, size := 1, data := 1 }] } 0 with frames := [(0, { cells := 1, copies := 2 })] }, 5, wNx 4 0 0, ⟨⟨by decide +kernel, by decide +kernel, by decide +kernel, by decide +kernel, by decide +kernel, by decide +kernel⟩, by decide +kernel⟩, (by decide +kernel), (by decide +kernel), (by decide +kernel), (by decide +kernel)⟩
  · exact ⟨wRn (wNx 5 0x11 0) { wB with gate := true } 0, 5, wNx 5 0x11 0, ⟨⟨by decide +kernel, by decide +kernel, by decide +kernel, by decide +kernel, by decide +kernel, by decide +kernel⟩, by decide +kernel⟩, (by decide +kernel)⟩
  · exact ⟨wRn (wNx 0 0 0) wB 0, 5, wNx 0 0 0, ⟨⟨by decide +kernel, by decide +kernel, by decide +kernel, by decide +kernel, by decide +kernel, by decide +kernel⟩, by decide +kernel⟩, (by decide +kernel), (by decide +kernel)⟩
  · exact ⟨wRn (wNx 0 0 0 + 2 ^ 218 + 2 ^ 252) wB 1, 5, wNx 0 0 0 + 2 ^ 218 + 2 ^ 252, ⟨⟨by decide +kernel, by decide +kernel, by decide +kernel, by decide +kernel, by decide +kernel, by decide +kernel⟩, by decide +kernel, by decide +kernel⟩, (by decide +kernel), (by decide +kernel), (by decide +kernel)⟩
  · exact ⟨wRn (wNx 0 0 0 + 2 ^ 218 + 2 ^ 252) { wB with hub := [⟨0x06, [], []⟩] } 1, 5, wNx 0 0 0 + 2 ^ 218 + 2 ^ 252, { folio := 1, opcode := 32, kind := 3, key := 2, arrivalUs := 5000000, length := 200 }, ⟨⟨by decide +kernel, by decide +kernel, by decide +kernel, by decide +kernel, by decide +kernel, by decide +kernel⟩, by decide +kernel, by decide +kernel⟩, (by decide +kernel), (by decide +kernel), (by decide +kernel), (by decide +kernel), (by decide +kernel), (by decide +kernel), (by decide +kernel)⟩
  · exact ⟨wRn (wNx 0 0 0 + 2 ^ 218 + 2 ^ 252 + 2 ^ 250) wB 1, 5, wNx 0 0 0 + 2 ^ 218 + 2 ^ 252 + 2 ^ 250, { folio := 1, opcode := 32, kind := 3, key := 2, arrivalUs := 5000000, length := 200 }, ⟨⟨by decide +kernel, by decide +kernel, by decide +kernel, by decide +kernel, by decide +kernel, by decide +kernel⟩, by decide +kernel, by decide +kernel⟩, (by decide +kernel), (by decide +kernel), (by decide +kernel), (by decide +kernel), (by decide +kernel)⟩
  · exact ⟨wRn 0 { wB with migrate := true, safe := true } 0, 5, by decide +kernel⟩
  · exact ⟨wInt, 5, 1, (0x180 + 2 ^ 15 + 2 ^ 31 + 0x40 * 2 ^ 48), by decide +kernel⟩
  · exact ⟨(let s : State := wEng 5 0 wB; s.setEng 5 { s.eng 5 with words := 4000 }), 5, by decide +kernel⟩
  · exact ⟨wEng 5 0 wB, 5, by decide +kernel⟩
  · exact ⟨wQ [(9, 3)] (wEng 5 0 wB), 5, by decide +kernel⟩
  · exact ⟨wEng 5 0 wB, 5, 2, by decide +kernel⟩
  · exact ⟨wQ [(5, 5), (9, 3)] (((wEng 5 0 { wB with migrate := true }).setFlag Reg.ENG_SPARE_STATUS_BUSY true).setFld (Reg.ENG_ROLE_SLOT 5) 2), 5, { folio := 1, opcode := 32, kind := 3, key := 2, arrivalUs := 5000000, length := 200 }, by decide +kernel⟩

end W24

namespace W25

def wCh : DmaChan := { next := 4, inst := 9, nextBurst := 30, offA := 0x100, offB := 0x200, ctr := [(1, 3)], line := some 7 }
def wMv : Nat := wDw (1 + 2 ^ 8 + 2 ^ 9 + 2 ^ 22) 64 0x40000000 0x40000100 0
def wGa : Nat := wDw (2 + 2 ^ 9 + 2 ^ 22) 2 0x2000 0x40000100 0
def wL : List (BitVec 128) := [BitVec.ofNat 128 (0x5000 + 30 * 2 ^ 64), BitVec.ofNat 128 (0x6000 + 40 * 2 ^ 64), 0]
def wFl : DmaBurst := { id := 29, inst := 9, src := [⟨false, 0, 8⟩], dst := [⟨true, 0x40000000, 8⟩], len := 8, count := 8 }
def wCqs (s : State) : State := { s with queues := [(3100, { state := 2, kind := 3, func := 3, log2 := 6, ready := [{ status := 1, kind := 4 }] })] }
def wSig (cq : Nat) : Nat := wDw (6 + 2 ^ 19) 0 cq 0x77 0

/-- The hypotheses of `Obligations.DmaProgramsRunTheirInstructions` can be met, clause by clause. -/
theorem witness_DmaProgramsRunTheirInstructions :
    (∃ (s : State) (ch : Fin 32) (f : DmaFetch) (w : Nat), s.DmaAt ch f w) ∧
    (∃ (s : State) (ch : Fin 32), (s.chan ch).held = false) ∧
    (∃ (s : State) (ch : Fin 32) (f : DmaFetch) (w : Nat), s.DmaAt ch f w ∧ dmaOp w = 1) ∧
    (∃ (s : State) (ch : Fin 32) (f : DmaFetch) (w : Nat) (a : Nat) (b : Nat), s.DmaAt ch f w ∧ dmaOp w = 1 ∧ dmaPaced w = false ∧ w.testBit 8 = true ∧ w.testBit 9 = true ∧ a = dmaOffset w 22 (s.chan ch).offA (dmaQ w 1) ∧ b = dmaOffset w 23 (s.chan ch).offB (dmaQ w 2) ∧ s.reservedChan ch = false ∧ s.segAllowed ⟨true, a, dmaLen w⟩ = true ∧ s.segAllowed ⟨true, b, dmaLen w⟩ = true ∧ dmaLen w ≤ s.fld (Reg.DMA_CH_CFG_BURST ch) ∧ (s.dramRead a (dmaLen w)).2 = false) ∧
    (∃ (s : State) (ch : Fin 32) (f : DmaFetch) (w : Nat) (l : List (BitVec 128)), s.DmaAt ch f w ∧ w.testBit 18 = false ∧ (l.take (dmaLen w)).all dmaEntryOk = true) ∧
    (∃ (s : State) (ch : Fin 32) (f : DmaFetch) (w : Nat), s.DmaAt ch f w ∧ w.testBit 18 = false) ∧
    (∃ (s : State) (ch : Fin 32) (f : DmaFetch) (w : Nat) (n : Nat), s.DmaAt ch f w ∧ dmaOp w = 4 ∧ n = (if Table.get (fun _ => 0) (s.chan ch).ctr (bits w 20 2) = 0 then dmaLen w else Table.get (fun _ => 0) (s.chan ch).ctr (bits w 20 2)) - 1) ∧
    (∃ (s : State) (ch : Fin 32) (f : DmaFetch) (w : Nat), s.DmaAt ch f w ∧ dmaOp w = 5 ∧ dmaSub w = 0) ∧
    (∃ (s : State) (ch : Fin 32) (f : DmaFetch) (w : Nat), s.DmaAt ch f w ∧ dmaOp w = 5 ∧ dmaSub w = 1) ∧
    (∃ (s : State) (ch : Fin 32) (f : DmaFetch) (w : Nat), s.DmaAt ch f w ∧ dmaOp w = 5 ∧ dmaSub w = 2) ∧
    (∃ (s : State) (ch : Fin 32) (f : DmaFetch) (w : Nat), s.DmaAt ch f w ∧ (s.chan ch).flight ≠ []) ∧
    (∃ (s : State) (ch : Fin 32) (f : DmaFetch) (w : Nat) (cq : Nat), s.DmaAt ch f w ∧ dmaOp w = 6 ∧ dmaSub w = 0 ∧ (s.chan ch).flight = [] ∧ cq = dmaQ w 1 % 2 ^ 20 ∧ s.dmaCqOk ch cq = true) ∧
    (∃ (s : State) (ch : Fin 32) (f : DmaFetch) (w : Nat), s.DmaAt ch f w ∧ dmaOp w = 6 ∧ dmaSub w = 0 ∧ (s.chan ch).flight = [] ∧ s.dmaCqOk ch (dmaQ w 1 % 2 ^ 20) = false) ∧
    (∃ (s : State) (ch : Fin 32) (f : DmaFetch) (w : Nat), s.DmaAt ch f w ∧ dmaOp w = 6 ∧ dmaSub w = 1 ∧ (s.chan ch).flight = []) ∧
    (∃ (s : State) (ch : Fin 32) (f : DmaFetch) (w : Nat), s.DmaAt ch f w ∧ dmaOp w = 7 ∧ (s.chan ch).flight = []) ∧
    (∃ (s : State) (ch : Fin 32) (f : DmaFetch) (w : Nat), s.DmaAt ch f w ∧ dmaOp w = 8 ∧ (s.chan ch).flight = []) := by
  refine ⟨?_, ?_, ?_, ?_, ?_, ?_, ?_, ?_, ?_, ?_, ?_, ?_, ?_, ?_, ?_, ?_⟩
  · exact ⟨wDma wCh, 3, wDf wMv, wMv, ⟨⟨by decide +kernel, by decide +kernel⟩, by decide +kernel, by decide +kernel, by decide +kernel, by decide +kernel⟩⟩
  · exact ⟨(wDma wCh).setFld (Reg.DMA_CH_STATUS_STATE 3) 2, 3, by decide +kernel⟩
  · exact ⟨wDma wCh, 3, wDf wMv, wMv, ⟨⟨by decide +kernel, by decide +kernel⟩, by decide +kernel, by decide +kernel, by decide +kernel, by decide +kernel⟩, (by decide +kernel)⟩
  · exact ⟨{ wDma wCh with dram := (List.range 64).map fun k => (0x40000100 + k, BitVec.ofNat 8 (k + 1)) }, 3, wDf (wDw (1 + 2 ^ 8 + 2 ^ 9 + 2 ^ 22) 64 0x40000000 0x40000120 0), wDw (1 + 2 ^ 8 + 2 ^ 9 + 2 ^ 22) 64 0x40000000 0x40000120 0, 0x40000100, 0x40000120, ⟨⟨by decide +kernel, by decide +kernel⟩, by decide +kernel, by decide +kernel, by decide +kernel, by decide +kernel⟩, (by decide +kernel), (by decide +kernel), (by decide +kernel), (by decide +kernel), (by decide +kernel), (by decide +kernel), (by decide +kernel), (by decide +kernel), (by decide +kernel), (by decide +kernel), (by decide +kernel)⟩
  · exact ⟨wDma wCh, 3, wDf wGa, wGa, wL, ⟨⟨by decide +kernel, by decide +kernel⟩, by decide +kernel, by decide +kernel, by decide +kernel, by decide +kernel⟩, (by decide +kernel), (by decide +kernel)⟩
  · exact ⟨wDma wCh, 3, wDf wGa, wGa, ⟨⟨by decide +kernel, by decide +kernel⟩, by decide +kernel, by decide +kernel, by decide +kernel, by decide +kernel⟩, (by decide +kernel)⟩
  · exact ⟨wDma wCh, 3, wDf (wDw (4 + 2 ^ 20) 5 2 0x10 0x20), wDw (4 + 2 ^ 20) 5 2 0x10 0x20, 2, ⟨⟨by decide +kernel, by decide +kernel⟩, by decide +kernel, by decide +kernel, by decide +kernel, by decide +kernel⟩, (by decide +kernel), (by decide +kernel)⟩
  · exact ⟨(wDma wCh).setDmaPending 3 4, 3, wDf (wDw (5 + 7 * 2 ^ 12) 0 0 0 0), wDw (5 + 7 * 2 ^ 12) 0 0 0 0, ⟨⟨by decide +kernel, by decide +kernel⟩, by decide +kernel, by decide +kernel, by decide +kernel, by decide +kernel⟩, (by decide +kernel), (by decide +kernel)⟩
  · exact ⟨wDma wCh, 3, wDf (wDw (5 + 2 ^ 24) 0 2705032704 0 0), wDw (5 + 2 ^ 24) 0 2705032704 0 0, ⟨⟨by decide +kernel, by decide +kernel⟩, by decide +kernel, by decide +kernel, by decide +kernel, by decide +kernel⟩, (by decide +kernel), (by decide +kernel)⟩
  · exact ⟨(wDma wCh).wrN Reg.DMA_FLAGS 0x30, 3, wDf (wDw (5 + 2 * 2 ^ 24 + 5 * 2 ^ 26) 0 0 0 0), wDw (5 + 2 * 2 ^ 24 + 5 * 2 ^ 26) 0 0 0 0, ⟨⟨by decide +kernel, by decide +kernel⟩, by decide +kernel, by decide +kernel, by decide +kernel, by decide +kernel⟩, (by decide +kernel), (by decide +kernel)⟩
  · exact ⟨wDma { wCh with flight := [wFl] }, 3, wDf (wDw (6 + 2 ^ 19) 0 3100 0x77 0), wDw (6 + 2 ^ 19) 0 3100 0x77 0, ⟨⟨by decide +kernel, by decide +kernel⟩, by decide +kernel, by decide +kernel, by decide +kernel, by decide +kernel⟩, (by decide +kernel)⟩
  · exact ⟨wCqs (wDma { wCh with poisoned := true, retries := 300 }), 3, wDf (wSig 3100), wSig 3100, 3100, ⟨⟨by decide +kernel, by decide +kernel⟩, by decide +kernel, by decide +kernel, by decide +kernel, by decide +kernel⟩, (by decide +kernel), (by decide +kernel), (by decide +kernel), (by decide +kernel), (by decide +kernel)⟩
  · exact ⟨wCqs (wDma wCh), 3, wDf (wSig 3101), wSig 3101, ⟨⟨by decide +kernel, by decide +kernel⟩, by decide +kernel, by decide +kernel, by decide +kernel, by decide +kernel⟩, (by decide +kernel), (by decide +kernel), (by decide +kernel), (by decide +kernel)⟩
  · exact ⟨(wDma { wCh with poisoned := true, retries := 300 }).wrN Reg.DMA_FLAGS 0x30, 3, wDf (wDw (6 + 2 ^ 24 + 8 * 2 ^ 26 + 2 ^ 19) 0 0 9 0), wDw (6 + 2 ^ 24 + 8 * 2 ^ 26 + 2 ^ 19) 0 0 9 0, ⟨⟨by decide +kernel, by decide +kernel⟩, by decide +kernel, by decide +kernel, by decide +kernel, by decide +kernel⟩, (by decide +kernel), (by decide +kernel), (by decide +kernel)⟩
  · exact ⟨wDma { wCh with poisoned := true }, 3, wDf (wDw 7 0 0 0 0), wDw 7 0 0 0 0, ⟨⟨by decide +kernel, by decide +kernel⟩, by decide +kernel, by decide +kernel, by decide +kernel, by decide +kernel⟩, (by decide +kernel), (by decide +kernel)⟩
  · exact ⟨wDma wCh, 3, wDf (wDw (8 + 2 ^ 19) 0 0 0 0), wDw (8 + 2 ^ 19) 0 0 0 0, ⟨⟨by decide +kernel, by decide +kernel⟩, by decide +kernel, by decide +kernel, by decide +kernel, by decide +kernel⟩, (by decide +kernel), (by decide +kernel)⟩

end W25

namespace W26

def wCh : DmaChan := { next := 4, inst := 9, nextBurst := 30, offA := 0x100, ctr := [(1, 3)], line := some 7 }
def wSt (x : DmaChan) (v : Nat) : State := (wDma x).setFld (Reg.DMA_CH_STATUS_STATE 3) v
def wB : DmaBurst := { id := 29, inst := 9, src := [⟨false, 0x1000, 16⟩], dst := [⟨true, 0x40000000, 16⟩], len := 16, count := 8 }
def wBs (l : List DmaBurst) : State := wDma { wCh with flight := l }
def wHl : State := { wBs [wB] with dram := (List.range 8).map fun k => (0x40000000 + k, 7) }
def wTm : State := { (wDma { wCh with line := some 30 }).setFld (Reg.DMA_TIMER_PERIOD_NS 2) 1000 with tb := { time := 7000000000 * 2 ^ 32, uptime := 6, past := [(4, 6999999998 * 2 ^ 32, 0)] } }
def wRq (s : State) : State := { s with flows := { s.flows with raised := [3, 7, 5] } }
def wQr (p : ReadPath) (r : Bool) : State := { ran 2 with host := { quarantine := [{ func := 3, tag := 44, path := .mailbox }, { func := 3, tag := 45, path := p, byReset := r }] } }

/-- The hypotheses of `Obligations.DmaChannelsStartStopAndAnswer` can be met, clause by clause. -/
theorem witness_DmaChannelsStartStopAndAnswer :
    (∃ (s : State) (ch : Fin 32) (r : Bool), s.reservedChan ch ≠ r) ∧
    (∃ (s : State) (ch : Fin 32), (s.chState ch = 0 ∨ s.chState ch = 4) ∧ (s.rd (Reg.DMA_CH_PROG_LO ch)).toNat % 32 = 0) ∧
    (∃ (s : State) (ch : Fin 32), (s.chState ch = 0 ∨ s.chState ch = 4) ∧ (s.rd (Reg.DMA_CH_PROG_LO ch)).toNat % 32 ≠ 0) ∧
    (∃ (s : State) (ch : Fin 32), s.chState ch ≠ 0 ∧ s.chState ch ≠ 4) ∧
    (∃ (s : State) (ch : Fin 32), s.chState ch = 2) ∧
    (∃ (s : State) (ch : Fin 32), s.chState ch = 1) ∧
    (∃ (s : State) (ch : Fin 32), s.chState ch ≠ 1 ∧ s.chState ch ≠ 2) ∧
    (∃ (s : State) (k : BitVec 6), (s.lineRaised k.toNat).2 = false) ∧
    (∃ (s : State) (k : BitVec 6), k.toNat < 12 ∧ s.flows.raised.contains k.toNat = true ∧ s.dmaQuiet ∧ ((∀ c, c < 32 → (s.chan c).line ≠ some k.toNat))) ∧
    (∃ (s : State) (k : BitVec 6) (ch : Fin 32), (s.lineRaised k.toNat).2 = true ∧ s.dmaQuiet ∧ ((∀ c, c < 32 → c ≠ ch → (s.chan c).line ≠ some k.toNat)) ∧ (s.chan ch).line = some k.toNat ∧ (s.chan ch).rest = 0 ∧ s.dmaPending ch < 255) ∧
    (∃ (s : State) (k : BitVec 6) (ch : Fin 32), (s.lineRaised k.toNat).2 = true ∧ s.dmaQuiet ∧ ((∀ c, c < 32 → c ≠ ch → (s.chan c).line ≠ some k.toNat)) ∧ (s.chan ch).line = some k.toNat ∧ (s.chan ch).rest = 0 ∧ s.dmaPending ch = 255 ∧ Table.get (fun _ => 0) s.lastPost (0x070300 + ch) = 0) ∧
    (∃ (s : State) (k : BitVec 6) (ch : Fin 32), (s.lineRaised k.toNat).2 = true ∧ ((∀ c, c < 32 → c ≠ ch → (s.chan c).line ≠ some k.toNat ∧ s.chState c ≠ 3 ∧ (s.chan c).held = false)) ∧ (s.chan ch).line = some k.toNat ∧ (s.chan ch).held = true ∧ (s.chan ch).signal = none ∧ dmaOp (s.chan ch).word = 5 ∧ dmaSub (s.chan ch).word = 0 ∧ s.chState ch = 2 ∧ s.dmaPending ch = 0) ∧
    (∃ (s : State) (k : Fin 4), s.crossed (s.fld (Reg.DMA_TIMER_PERIOD_NS k)) 0 = false) ∧
    (∃ (s : State) (k : Fin 4) (ch : Fin 32), s.crossed (s.fld (Reg.DMA_TIMER_PERIOD_NS k)) 0 = true ∧ s.dmaQuiet ∧ ((∀ c, c < 32 → c ≠ ch → (s.chan c).line ≠ some (28 + k.val))) ∧ (s.chan ch).line = some (28 + k.val) ∧ (s.chan ch).rest = 0 ∧ s.dmaPending ch < 255) ∧
    (∃ (s : State) (ch : Fin 32) (id : Nat), s.dmaQuiet ∧ s.burstAt ch id = none) ∧
    (∃ (s : State) (ch : Fin 32) (id : Nat) (off : Nat) (a : Nat) (d : List Byte) (b : DmaBurst), s.dmaQuiet ∧ s.burstAt ch id = some b ∧ b.dst = [⟨true, a, b.len⟩] ∧ off + d.length ≤ b.len ∧ 0 < d.length ∧ d.length < b.count) ∧
    (∃ (s : State) (ch : Fin 32) (id : Nat) (off : Nat) (d : List Byte) (b : DmaBurst), s.burstAt ch id = some b ∧ off + d.length ≤ b.len ∧ d.length = b.count) ∧
    (∃ (s : State) (ch : Fin 32) (id : Nat) (b : DmaBurst), s.burstAt ch id = some b ∧ s.fld (Reg.DMA_CH_CFG_RETRY_LIMIT ch) ≤ b.retries) ∧
    (∃ (s : State) (ch : Fin 32) (id : Nat) (b : DmaBurst), s.burstAt ch id = some b ∧ b.retries < s.fld (Reg.DMA_CH_CFG_RETRY_LIMIT ch) ∧ s.chState ch ≠ 3) ∧
    (∃ (s : State), Table.get (fun _ => 0) s.lastPost 0x0502 = 0) ∧
    (∃ (s : State) (fn : BitVec 6) (g : BitVec 10), (s.host.quarantine.find? fun x => Nat.beq x.func fn.toNat && Nat.beq x.tag g.toNat) = none) ∧
    (∃ (s : State) (fn : BitVec 6) (g : BitVec 10), (s.host.quarantine.find? fun x => Nat.beq x.func fn.toNat && Nat.beq x.tag g.toNat && Nat.ble x.expires s.tb.uptime) = none) ∧
    (∃ (s : State) (fn : BitVec 6) (g : BitVec 10) (x : Quarantine), (s.host.quarantine.find? fun x => Nat.beq x.func fn.toNat && Nat.beq x.tag g.toNat) = some x ∧ x.byReset = true) ∧
    (∃ (s : State) (fn : BitVec 6) (g : BitVec 10) (x : Quarantine) (c : Nat) (id : Nat), (s.host.quarantine.find? fun x => Nat.beq x.func fn.toNat && Nat.beq x.tag g.toNat) = some x ∧ x.byReset = false ∧ (x.path = .dma c id ∨ x.path = .dmaFetch c)) ∧
    (∃ (s : State) (fn : BitVec 6) (g : BitVec 10) (x : Quarantine), (s.host.quarantine.find? fun x => Nat.beq x.func fn.toNat && Nat.beq x.tag g.toNat && Nat.ble x.expires s.tb.uptime) = some x) := by
  refine ⟨?_, ?_, ?_, ?_, ?_, ?_, ?_, ?_, ?_, ?_, ?_, ?_, ?_, ?_, ?_, ?_, ?_, ?_, ?_, ?_, ?_, ?_, ?_, ?_, ?_⟩
  · exact ⟨(wDma wCh).setFld Reg.DMA_RESERVED_COUNT 29, 3, false, by decide +kernel⟩
  · exact ⟨(wSt { wCh with held := true, retries := 4 } 4).setDmaPending 3 9, 3, by decide +kernel⟩
  · exact ⟨(wSt wCh 0).wrN (Reg.DMA_CH_PROG_LO 3) 0x10, 3, by decide +kernel⟩
  · exact ⟨wSt wCh 1, 3, by decide +kernel⟩
  · exact ⟨wSt { wCh with held := true, word := 5 } 2, 3, by decide +kernel⟩
  · exact ⟨wBs [wB], 3, by decide +kernel⟩
  · exact ⟨wSt wCh 0, 3, by decide +kernel⟩
  · exact ⟨wDma wCh, 7, by decide +kernel⟩
  · exact ⟨wRq (wDma wCh), 5, (by decide +kernel), (by decide +kernel), (by unfold State.dmaQuiet; decide +kernel), (by decide +kernel)⟩
  · exact ⟨wRq (wDma wCh), 7, 3, (by decide +kernel), (by unfold State.dmaQuiet; decide +kernel), (by decide +kernel), (by decide +kernel), (by decide +kernel), (by decide +kernel)⟩
  · exact ⟨wRq ((wDma wCh).setDmaPending 3 255), 7, 3, (by decide +kernel), (by unfold State.dmaQuiet; decide +kernel), (by decide +kernel), (by decide +kernel), (by decide +kernel), (by decide +kernel), (by decide +kernel)⟩
  · exact ⟨wRq (wSt { wCh with held := true, word := 5 + 7 * 2 ^ 12 } 2), 7, 3, by decide +kernel⟩
  · exact ⟨wDma wCh, 2, by decide +kernel⟩
  · exact ⟨wTm, 2, 3, (by decide +kernel), (by unfold State.dmaQuiet; decide +kernel), (by decide +kernel), (by decide +kernel), (by decide +kernel), (by decide +kernel)⟩
  · exact ⟨wBs [wB], 3, 28, (by unfold State.dmaQuiet; decide +kernel), (by decide +kernel)⟩
  · exact ⟨wHl, 3, 29, 4, 0x40000000, [1, 2, 3], wB, (by unfold State.dmaQuiet; decide +kernel), (by decide +kernel), (by decide +kernel), (by decide +kernel), (by decide +kernel), (by decide +kernel)⟩
  · exact ⟨wHl, 3, 29, 8, [1, 2, 3, 4, 5, 6, 7, 8], wB, by decide +kernel⟩
  · exact ⟨wBs [{ wB with retries := 2 }], 3, 29, { wB with retries := 2 }, by decide +kernel⟩
  · exact ⟨wBs [{ wB with id := 28 }, { wB with retries := 1 }], 3, 29, { wB with retries := 1 }, by decide +kernel⟩
  · exact ⟨wDma wCh, by decide +kernel⟩
  · exact ⟨wQr .flowCmd false, 3, 46, by decide +kernel⟩
  · exact ⟨wQr (.dmaFetch 3) false |> fun s => { s with host := { s.host with quarantine := s.host.quarantine.map fun x => { x with expires := 5000000001 } } }, 3, 45, by decide +kernel⟩
  · exact ⟨wQr (.entry 4 5) true, 3, 45, { func := 3, tag := 45, path := .entry 4 5, byReset := true }, by decide +kernel⟩
  · exact ⟨wQr (.dma 3 5) false, 3, 45, { func := 3, tag := 45, path := .dma 3 5 }, 3, 5, by decide +kernel⟩
  · exact ⟨wQr (.dmaFetch 3) false, 3, 45, { func := 3, tag := 45, path := .dmaFetch 3 }, by decide +kernel⟩

end W26

namespace W27

def wQs (l : List (Nat × Queue)) : State := { ((ran 2).setFlag (Reg.PCIE_FUNC_BME.of 1) true).setFlag (Reg.PCIE_FUNC_BME.of 3) true with queues := l, cells := { free := 50 } }
def wTx : Queue := { state := 2, kind := 1, func := 1, log2 := 4, link := 1100, pi := 5, ci := 3, taken := 4, ringAddr := 0x10000, port := 2, cls := 3 }
def wCq : Queue := { state := 2, kind := 3, func := 1, log2 := 4, pi := 18, ci := 15, ringAddr := 0x20000, irqEn := true }
def wC : Cpl := { qid := 1030, kind := 1, status := 4, detail := 9, x8 := 3, body := 0x1234 }
def wFull : Queue := { wCq with pi := 31, ci := 15 }
def wEn : Entry := { pos := 4, q0 := 0x9000, q1 := 200 + 2 ^ 20, phase := .table, left := 1, sum := 140, hops := 3 }
def wBd : Entry := { pos := 4, q0 := 0x9000, q1 := 100, phase := .body }
def wEq (s : State) : State := (s.setFlag (Reg.QM_EVT_ROUTE_EN 0x0B) true).setFld (Reg.QM_EVT_ROUTE_EQ 0x0B) 1200
def wEv (s : State) : State := wEq { s with posted := [⟨0x0B01, 77⟩, ⟨0x0C01, 5⟩] }
def wEQ : Queue := { state := 2, kind := 4, func := 1, log2 := 4, pi := 20, ci := 9, ringAddr := 0x30000, seq := 65535 }
def wRxC : RxCopy := { frame := 8, bytes := (List.range 100).map (fun k => BitVec.ofNat 8 k), stamp := ⟨7, 8, 9⟩, ts := 2, source := 5, rxUp := 4 }
def wRxE : Entry := { pos := 4, q0 := 0x8000, q1 := 1536 }
def wRx : Queue := { state := 2, kind := 2, func := 1, log2 := 4, link := 1100, pi := 6, ci := 4, taken := 4, ringAddr := 0x10000, rxWait := [wRxC] }
def wRs (q : Queue) : State := { wQs [(1030, q), (1100, wCq)] with frames := [(8, { cells := 2, copies := 2 })] }
def wRxs (q : Queue) : State := (wRs q).setFld Reg.QM_RX_HOLD_HOLD_US 20

/-- The hypotheses of `Obligations.QueuesTakeCompleteAndDeliver` can be met, clause by clause. -/
theorem witness_QueuesTakeCompleteAndDeliver :
    (∃ (s : State) (fn : BitVec 6) (v : BitVec 64), s.dmaQuiet ∧ s.doorbellOk fn.toNat v.toNat = false) ∧
    (∃ (s : State) (fn : BitVec 6) (v : BitVec 64) (k : Nat) (new : Nat), s.dmaQuiet ∧ s.doorbellOk fn.toNat v.toNat = true ∧ k = v.toNat % 2 ^ 20 ∧ new = bits v.toNat 48 1 * (s.q k).n + bits v.toNat 32 16) ∧
    (∃ (s : State) (k : BitVec 20), (s.q k.toNat).kind ≠ 3) ∧
    (∃ (s : State) (k : BitVec 20) (c : Cpl) (l : List Cpl), s.dmaQuiet ∧ s.host.pmeEn = 0 ∧ (s.q k.toNat).kind = 3 ∧ (s.q k.toNat).ready = c :: l ∧ (s.q k.toNat).waiting = [] ∧ s.ringOpen (s.q k.toNat) = true ∧ (s.q k.toNat).loc = false ∧ (s.q k.toNat).armed = false ∧ c.retires = 0 ∧ c.hist = none) ∧
    (∃ (s : State) (k : BitVec 20) (c : Cpl) (l : List Cpl), s.dmaQuiet ∧ s.host.pmeEn = 0 ∧ (s.q k.toNat).kind = 3 ∧ (s.q k.toNat).ready = c :: l ∧ s.ringOpen (s.q k.toNat) = false ∧ (s.q k.toNat).waiting.length < 7) ∧
    (∃ (s : State) (k : BitVec 20) (c : Cpl) (l : List Cpl), s.canonical = true ∧ s.dmaQuiet ∧ s.host.pmeEn = 0 ∧ (s.q k.toNat).kind = 3 ∧ (s.q k.toNat).ready = c :: l ∧ s.ringOpen (s.q k.toNat) = false ∧ (s.q k.toNat).waiting.length = 7) ∧
    (∃ (s : State) (k : BitVec 20), ((s.q k.toNat).isWork = false ∨ ((s.q k.toNat).state ≠ 2 ∧ (s.q k.toNat).state ≠ 3))) ∧
    (∃ (s : State) (k : BitVec 20), (s.q k.toNat).isWork = true ∧ (s.q k.toNat).state = 2 ∧ (s.q k.toNat).entries = [] ∧ (s.q k.toNat).fetched = [] ∧ (s.q k.toNat).rxWait = [] ∧ (s.q k.toNat).taken < 2 * (s.q k.toNat).n) ∧
    (∃ (s : State) (k : BitVec 20) (v : BitVec 256), (s.q k.toNat).isWork = true ∧ (s.q k.toNat).state = 3 ∧ (s.q k.toNat).fetched = [] ∧ (s.q k.toNat).failed = [] ∧ 1 ≤ State.readable (s.q k.toNat) ∧ (s.q k.toNat).taken < 2 * (s.q k.toNat).n ∧ v.getLsbD 255 = Nat.beq (ownFor (s.q k.toNat).taken (s.q k.toNat).n) 1) ∧
    (∃ (s : State) (k : BitVec 20) (v : BitVec 256), (s.q k.toNat).kind = 5 ∧ (s.q k.toNat).state = 2 ∧ (s.q k.toNat).fetched = [] ∧ (s.q k.toNat).failed = [] ∧ 1 ≤ State.readable (s.q k.toNat) ∧ (s.q k.toNat).taken < 2 * (s.q k.toNat).n ∧ (s.q k.toNat).below (s.q k.toNat).taken = true ∧ cmdFault (Entry.ofBits (s.q k.toNat).taken v) = none ∧ v.getLsbD 255 = Nat.beq (ownFor (s.q k.toNat).taken (s.q k.toNat).n) 1) ∧
    (∃ (s : State) (k : BitVec 20) (v : BitVec 256), (s.q k.toNat).isWork = true ∧ (s.q k.toNat).state = 2 ∧ (s.q k.toNat).fetched = [] ∧ (s.q k.toNat).failed = [] ∧ 1 ≤ State.readable (s.q k.toNat) ∧ (s.q k.toNat).taken < 2 * (s.q k.toNat).n ∧ (s.q k.toNat).below (s.q k.toNat).taken = true ∧ v.getLsbD 255 = Nat.beq (ownFor (s.q k.toNat).taken (s.q k.toNat).n) 0) ∧
    (∃ (s : State) (k : BitVec 20) (p : Nat), s.entryAt k.toNat p = none) ∧
    (∃ (s : State) (k : BitVec 20) (p : Nat) (e : Entry), s.entryAt k.toNat p = some e ∧ e.phase = .table ∧ (s.q k.toNat).state = 2) ∧
    (∃ (s : State) (k : BitVec 20) (p : Nat) (v : BitVec 128) (e : Entry), s.entryAt k.toNat p = some e ∧ e.phase = .table ∧ e.left = 1 ∧ v.getLsbD 96 = false ∧ bits v.toNat 97 31 = 0 ∧ 0 < bits v.toNat 64 32) ∧
    (∃ (s : State) (k : BitVec 20) (p : Nat) (v : BitVec 128) (e : Entry), s.entryAt k.toNat p = some e ∧ e.phase = .table ∧ e.left = 1 ∧ v.getLsbD 96 = true ∧ (s.q k.toNat).state = 2) ∧
    (∃ (s : State) (k : BitVec 20) (p : Nat) (e : Entry), s.entryAt k.toNat p = some e ∧ (s.q k.toNat).kind = 1 ∧ e.phase = .body) ∧
    (∃ (s : State) (k : BitVec 20) (p : Nat) (e : Entry), s.entryAt k.toNat p = some e ∧ (s.q k.toNat).kind = 1 ∧ e.phase = .body ∧ s.payloadQueue k.toNat = true) ∧
    (∃ (s : State) (k : BitVec 20) (p : Nat) (b : List Byte) (e : Entry), s.entryAt k.toNat p = some e ∧ (s.q k.toNat).kind = 1 ∧ e.phase = .body ∧ s.payloadQueue k.toNat = false ∧ State.cellsFor ((b.take e.len).length + 4) ≤ s.cells.free ∧ e.q1.testBit 26 = false ∧ e.q1.testBit 27 = false) ∧
    (∃ (s : State), s.posted = []) ∧
    (∃ (s : State) (e : Event) (l : List Event), s.posted = e :: l ∧ s.eventRoute e = none) ∧
    (∃ (s : State) (e : Event) (l : List Event) (k : Nat), s.posted = e :: l ∧ s.eventRoute e = some k ∧ s.host.pmeEn = 0 ∧ (s.q k).state = 2 ∧ (s.q k).kind = 4 ∧ (s.q k).loc = false ∧ (s.q k).armed = false) ∧
    (∃ (s : State) (k : BitVec 20), (s.q k.toNat).kind ≠ 2) ∧
    (∃ (s : State) (k : BitVec 20) (c : RxCopy) (e : Entry), (s.q k.toNat).kind = 2 ∧ (s.q k.toNat).state = 2 ∧ s.host.pmeEn = 0 ∧ (s.q k.toNat).rxWait = [c] ∧ c.used = 0 ∧ c.written = 0 ∧ c.reply = none ∧ c.poisoned = false ∧ c.hist = false ∧ c.bytes ≠ [] ∧ (s.q k.toNat).fetched = [e] ∧ (s.q k.toNat).below e.pos = true ∧ rxFault e = none ∧ c.bytes.length ≤ e.len ∧ (s.q k.toNat).entries = [] ∧ (s.q k.toNat).link ≠ k.toNat ∧ s.canRequest (s.q k.toNat).func = true) ∧
    (∃ (s : State) (k : BitVec 20) (c : RxCopy), (s.q k.toNat).kind = 2 ∧ (s.q k.toNat).state = 2 ∧ s.host.pmeEn = 0 ∧ (s.q k.toNat).rxWait = [c] ∧ (s.q k.toNat).fetched = [] ∧ (s.q k.toNat).holdStart = none ∧ (s.q k.toNat).taken = (s.q k.toNat).pi) ∧
    (∃ (s : State) (k : BitVec 20) (c : RxCopy) (a : Nat), (s.q k.toNat).rxWait = [c] ∧ (s.q k.toNat).holdStart = some a ∧ s.tb.uptime < a + s.fld Reg.QM_RX_HOLD_HOLD_US * 1000) ∧
    (∃ (s : State) (k : BitVec 20), (s.q k.toNat).rxWait = []) ∧
    (∃ (s : State) (k : BitVec 20) (c : RxCopy) (a : Nat), (s.q k.toNat).rxWait = [c] ∧ (s.q k.toNat).holdStart = some a ∧ a + s.fld Reg.QM_RX_HOLD_HOLD_US * 1000 ≤ s.tb.uptime ∧ c.used = 0 ∧ c.flow = none) := by
  refine ⟨?_, ?_, ?_, ?_, ?_, ?_, ?_, ?_, ?_, ?_, ?_, ?_, ?_, ?_, ?_, ?_, ?_, ?_, ?_, ?_, ?_, ?_, ?_, ?_, ?_, ?_, ?_⟩
  · exact ⟨wQs [(1030, wTx)], 2, 1030, (by unfold State.dmaQuiet; decide +kernel), (by decide +kernel)⟩
  · exact ⟨wQs [(1030, wTx)], 1, 1030 + 3 * 2 ^ 32 + 2 ^ 48, 1030, 19, (by unfold State.dmaQuiet; decide +kernel), (by decide +kernel), (by decide +kernel), (by decide +kernel)⟩
  · exact ⟨wQs [(1100, wTx)], 1100, by decide +kernel⟩
  · exact ⟨wQs [(1030, wTx), (1100, { wCq with ready := [wC, wC] })], 1100, wC, [wC], (by unfold State.dmaQuiet; decide +kernel), (by decide +kernel), (by decide +kernel), (by decide +kernel), (by decide +kernel), (by decide +kernel), (by decide +kernel), (by decide +kernel), (by decide +kernel), (by decide +kernel)⟩
  · exact ⟨wQs [(1100, { wFull with ready := [wC, wC], waiting := [wC] })], 1100, wC, [wC], (by unfold State.dmaQuiet; decide +kernel), (by decide +kernel), (by decide +kernel), (by decide +kernel), (by decide +kernel), (by decide +kernel)⟩
  · exact ⟨wQs [(1030, wTx), (1031, { wTx with link := 1101 }), (1032, { wTx with state := 3 }), (1100, { wFull with ready := [{ wC with status := 6 }], waiting := List.replicate 7 wC })], 1100, { wC with status := 6 }, [], (by decide +kernel), (by unfold State.dmaQuiet; decide +kernel), (by decide +kernel), (by decide +kernel), (by decide +kernel), (by decide +kernel), (by decide +kernel)⟩
  · exact ⟨wQs [(1100, wCq)], 1100, by decide +kernel⟩
  · exact ⟨wQs [(1030, wTx), (1100, wCq)], 1030, by decide +kernel⟩
  · exact ⟨wQs [(1030, { wTx with state := 3 }), (1100, wCq)], 1030, (BitVec.ofNat 256 (0x9000 + 100 * 2 ^ 64 + 2 ^ 255)), by decide +kernel⟩
  · exact ⟨wQs [(1030, { wTx with kind := 5 }), (1100, wCq)], 1030, (BitVec.ofNat 256 (0x9000 + 336 * 2 ^ 64 + 2 ^ 84 + 2 ^ 255)), by decide +kernel⟩
  · exact ⟨wQs [(1030, wTx), (1100, wCq)], 1030, 5, by decide +kernel⟩
  · exact ⟨wQs [(1030, wTx)], 1030, 4, by decide +kernel⟩
  · exact ⟨wQs [(1030, { wTx with entries := [{ pos := 3 }, wEn] }), (1100, wCq)], 1030, 4, wEn, by decide +kernel⟩
  · exact ⟨wQs [(1030, { wTx with entries := [{ pos := 3 }, wEn] }), (1100, wCq)], 1030, 4, (BitVec.ofNat 128 (0x9100 + 60 * 2 ^ 64)), wEn, by decide +kernel⟩
  · exact ⟨(wQs [(1030, { wTx with entries := [wEn] }), (1100, wCq)]).setFld Reg.QM_HOP_LIMIT_LIMIT 3, 1030, 4, (BitVec.ofNat 128 (0x9100 + 6 * 2 ^ 64 + 2 ^ 96)), wEn, by decide +kernel⟩
  · exact ⟨wQs [(1030, { wTx with entries := [wBd] }), (1100, wCq)], 1030, 4, wBd, by decide +kernel⟩
  · exact ⟨((((wQs [(1030, { wTx with entries := [wBd] }), (1100, wCq)]).setFld Reg.RING_STATUS_STATE 5).wrN 0x840180 1).wrN 0x820004 0x100).wrN 0x820014 (2 ^ 31 + 1030), 1030, 4, wBd, by decide +kernel⟩
  · exact ⟨wQs [(1030, { wTx with entries := [wBd] }), (1100, wCq)], 1030, 4, (List.replicate 100 9), wBd, by decide +kernel⟩
  · exact ⟨{ ran 2 with posted := [] }, by decide +kernel⟩
  · exact ⟨wQs [], ⟨0x1234, 5⟩, [], by decide +kernel⟩
  · exact ⟨wEv (wQs [(1200, { wEQ with pi := 10 })]), ⟨0x0B01, 77⟩, [⟨0x0C01, 5⟩], 1200, by decide +kernel⟩
  · exact ⟨wQs [(1030, wTx)], 1030, by decide +kernel⟩
  · exact ⟨wRs { wRx with fetched := [wRxE] }, 1030, wRxC, wRxE, by decide +kernel⟩
  · exact ⟨wRs { wRx with pi := 4, ci := 4 }, 1030, wRxC, by decide +kernel⟩
  · exact ⟨wRxs { wRx with holdStart := some (5000000000 - 19999) }, 1030, wRxC, (5000000000 - 19999), by decide +kernel⟩
  · exact ⟨wRxs { wRx with rxWait := [] }, 1030, by decide +kernel⟩
  · exact ⟨wRxs { wRx with holdStart := some (5000000000 - 20000) }, 1030, wRxC, (5000000000 - 20000), by decide +kernel⟩

end W27

namespace W28

def wQm (fn st qid : Nat) (l : List (Nat × Queue)) : State := { ((ran 2).setFld (Reg.QM_QCMD_STATUS_STATE.of fn) st).setFld (Reg.QM_QCMD_QID_QID.of fn) qid with queues := l }
def wQx (v qid : Nat) (l : List (Nat × Queue)) : State := (wQm 1 2 qid l).setQctx 1 v
def wT (st : Nat) : Queue := { state := st, kind := 1, func := 1, log2 := 4, link := 1100, pi := 5, ci := 5, taken := 5, ringAddr := 0x10000, port := 2, cls := 3, armed := true, failed := [(5, 1, 2)] }
def wCq (st : Nat) : Queue := { state := st, kind := 3, func := 1, log2 := 4, pi := 18, ci := 15, ringAddr := 0x20000, irqEn := true, linkEn := true, link := 1200, done := 4, armed := true, seq := 5 }

/-- The hypotheses of `Obligations.QueueMailboxCreatesAndEndsQueues` can be met, clause by clause. -/
theorem witness_QueueMailboxCreatesAndEndsQueues :
    (∃ (s : State) (fn : BitVec 6), s.fld (Reg.QM_QCMD_STATUS_STATE.of fn.toNat) = 1) ∧
    (∃ (s : State) (fn : BitVec 6), s.fld (Reg.QM_QCMD_STATUS_STATE.of fn.toNat) ≠ 1 ∧ s.ownerOf (s.qmQid fn.toNat) ≠ some fn.toNat) ∧
    (∃ (s : State) (fn : BitVec 6), s.fld (Reg.QM_QCMD_STATUS_STATE.of fn.toNat) ≠ 1 ∧ s.ownerOf (s.qmQid fn.toNat) = some fn.toNat) ∧
    (∃ (s : State) (fn : BitVec 6) (k : Nat) (x : Queue), s.fld (Reg.QM_QCMD_STATUS_STATE.of fn.toNat) ≠ 1 ∧ k = s.qmQid fn.toNat ∧ s.ownerOf k = some fn.toNat ∧ x = s.q k) ∧
    (∃ (s : State) (k : BitVec 20), ((s.q k.toNat).state ≠ 5 ∨ (s.q k.toNat).pi ≠ (s.q k.toNat).ci)) ∧
    (∃ (s : State) (k : BitVec 20) (x : Queue), x = s.q k.toNat ∧ x.state = 5 ∧ x.pi = x.ci) := by
  refine ⟨?_, ?_, ?_, ?_, ?_, ?_⟩
  · exact ⟨wQm 1 1 1030 [], 1, by decide +kernel⟩
  · exact ⟨wQm 1 2 1024 [], 2, by decide +kernel⟩
  · exact ⟨wQm 1 0 1030 [(1030, wT 5)], 1, by decide +kernel⟩
  · exact ⟨wQx (0x9000 + 1 * 2 ^ 64 + 5 * 2 ^ 68 + 2 ^ 76 + 1100 * 2 ^ 96 + 3 * 2 ^ 256 + 6 * 2 ^ 260) 1030 [(1100, wCq 2)], 1, 1030, {}, by decide +kernel⟩
  · exact ⟨wQm 1 0 1030 [(1030, wT 4)], 1030, by decide +kernel⟩
  · exact ⟨wQm 1 1 1030 [(1030, { wT 5 with resetAfter := true, haltStatus := 4 })], 1030, { wT 5 with resetAfter := true, haltStatus := 4 }, by decide +kernel⟩

end W28

namespace W29

def wRst : State := ((((((ran 2).setFlag (Reg.PCIE_FUNC_BME.of 1) true).setFld (Reg.PCIE_FUNC_DSTATE.of 1) 3).setFld (Reg.PCIE_FUNC_IRQ_MODE.of 1) 3).setFlag (Reg.PCIE_WIN_ACTIVE_EN 2) true).setFld (Reg.PCIE_WIN_ACTIVE_OWNER 2) 1).setFlag Reg.PCIE_LINK_UP true
def wRs : State := { wRst with pwr := { wRst.pwr with aux := true, main := true }, host := { numVfs := 2, vectors := [(2048 + 4, { requests := 3 })] }, queues := [(1030, { state := 2, kind := 1, func := 1, log2 := 4, link := 1100, entries := [{ pos := 3 }], taken := 4, pi := 4, ci := 3 }), (1100, { state := 2, kind := 3, func := 1, log2 := 4 }), (3100, { state := 2, kind := 3, func := 3 })] }
def wD3 (m d : Nat) : State := { ((((ran m).setFld (Reg.PCIE_FUNC_DSTATE.of 0) 3).setFld (Reg.PCIE_FUNC_DSTATE.of 1) 3).setFld (Reg.PCIE_FUNC_DSTATE.of 2) 3).setFld (Reg.PCIE_FUNC_DSTATE.of 3) d with host := { ltrEnable := true } }

/-- The hypotheses of `Obligations.FunctionsResetSleepAndReturn` can be met, clause by clause. -/
theorem witness_FunctionsResetSleepAndReturn :
    (∃ (s : State), (s.mode = 6 ∨ s.running = false)) ∧
    (∃ (s : State), s.mode ≠ 6 ∧ s.running = true ∧ s.flag Reg.GLB_RESET_CFG_HOT_FULL = true) ∧
    (∃ (s : State), s.mode ≠ 6 ∧ s.running = true ∧ s.flag Reg.GLB_RESET_CFG_HOT_FULL = false) ∧
    (∃ (s : State) (fn : BitVec 6), s.enabledFuncs.contains fn.toNat = false) ∧
    (∃ (s : State) (fn : BitVec 6), s.enabledFuncs.contains fn.toNat = true) ∧
    (∃ (s : State) (fn : BitVec 6), s.enabledFuncs.contains fn.toNat = true ∧ s.queues = [] ∧ s.flows.deletes = [] ∧ s.dmaQuiet ∧ s.host.pmeEn = 0 ∧ (s.mode = 2 ∨ s.mode = 3) ∧ ((∀ f, f < 4 + s.host.numVfs → f ≠ fn.toNat → s.fld (Reg.PCIE_FUNC_DSTATE.of f) = 3))) ∧
    (∃ (s : State) (fn : BitVec 6), s.enabledFuncs.contains fn.toNat = true ∧ s.queues = [] ∧ s.flows.deletes = [] ∧ s.dmaQuiet ∧ s.host.pmeEn = 0 ∧ s.mode = 5) ∧
    (∃ (s : State) (fn : BitVec 6), s.enabledFuncs.contains fn.toNat = true ∧ s.queues = [] ∧ s.flows.deletes = [] ∧ s.dmaQuiet ∧ s.host.pmeEn = 0 ∧ ((s.mode = 2 ∨ s.mode = 3 → s.allD3hot = false)) ∧ ((s.mode = 5 → s.allD3hot = true))) ∧
    (∃ (s : State) (n : BitVec 16), (s.host.numVfs ≠ 0 ∨ n = 0 ∨ (s.imp.image.map (·.struct.totalVfs)).getD 0 < n.toNat)) ∧
    (∃ (s : State) (n : BitVec 16), s.host.numVfs = 0 ∧ n ≠ 0 ∧ n.toNat ≤ (s.imp.image.map (·.struct.totalVfs)).getD 0 ∧ s.mode ≠ 5 ∧ ((s.mode = 2 ∨ s.mode = 3 → s.allD3hot = false))) ∧
    (∃ (q : Bool) (r : Nat), r = (if q then Reg.PCIE_LTR_QUIET else Reg.PCIE_LTR_ACTIVE)) := by
  refine ⟨?_, ?_, ?_, ?_, ?_, ?_, ?_, ?_, ?_, ?_, ?_⟩
  · exact ⟨ran 6, by decide +kernel⟩
  · exact ⟨wRs.setFlag Reg.GLB_RESET_CFG_HOT_FULL true, by decide +kernel⟩
  · exact ⟨wRs, by decide +kernel⟩
  · exact ⟨wRs, 6, by decide +kernel⟩
  · exact ⟨wRs, 1, by decide +kernel⟩
  · exact ⟨wD3 2 0, 3, (by decide +kernel), (by decide +kernel), (by decide +kernel), (by unfold State.dmaQuiet; decide +kernel), (by decide +kernel), (by decide +kernel), (by decide +kernel)⟩
  · exact ⟨wD3 5 3, 3, (by decide +kernel), (by decide +kernel), (by decide +kernel), (by unfold State.dmaQuiet; decide +kernel), (by decide +kernel), (by decide +kernel)⟩
  · exact ⟨ran 2, 3, (by decide +kernel), (by decide +kernel), (by decide +kernel), (by unfold State.dmaQuiet; decide +kernel), (by decide +kernel), (by decide +kernel), (by decide +kernel)⟩
  · exact ⟨wRs, 1, by decide +kernel⟩
  · exact ⟨ran 2, 2, by decide +kernel⟩
  · exact ⟨true, Reg.PCIE_LTR_QUIET, by decide +kernel⟩

end W29

namespace W30

def wStg (w v o b : Nat) (s : State) : State := ((s.setFld (Reg.PCIE_WIN_STAGE_OWNER w) o).setFld (Reg.PCIE_WIN_STAGE_BASE w) b).setFld (Reg.PCIE_WIN_STAGE_EN w) v
def wWin (ro : Bool) : State := { ((((ran 2).setFlag (Reg.PCIE_WIN_ACTIVE_EN 2) true).setFld (Reg.PCIE_WIN_ACTIVE_OWNER 2) 1).setFld (Reg.PCIE_WIN_ACTIVE_BASE 2) 1).setFlag (Reg.PCIE_WIN_ACTIVE_RDONLY 2) ro |>.setFlag (Reg.PCIE_FUNC_MSE.of 1) true with dram := [(4100, 9), (4101, 8), (4102, 7)], poison := [(4102, true)] }
def wVec (x : Vector) (m : Nat) : State := { ((ran 2).setFld (Reg.PCIE_FUNC_IRQ_MODE.of 1) m).setFld ((Reg.PCIE_VEC_TIME_US 5).of 1) 100 with host := { vectors := [(2048 + 5, x), (2048 + 6, { requests := 1 })], msiMessages := [(1, 4)] } }
def wX : Vector := { requests := 3, first := 4999900000, unmasked := true }

/-- The hypotheses of `Obligations.WindowsAndVectorsServeTheHost` can be met, clause by clause. -/
theorem witness_WindowsAndVectorsServeTheHost :
    (∃ (s : State) (m : BitVec 4), ((∀ w, w < 4 → m.getLsbD w = true → s.windowOk w = true))) ∧
    (∃ (s : State) (m : BitVec 4) (w : Nat), w < 4 ∧ m.getLsbD w = true ∧ s.windowOk w = false) ∧
    (∃ (s : State) (fn : Fin 4), s.served fn = false) ∧
    (∃ (s : State) (w : Fin 4) (fn : Fin 4), s.served fn = true ∧ s.windowOpen w fn = false) ∧
    (∃ (s : State) (w : Fin 4) (fn : Fin 4), s.served fn = true ∧ s.windowOpen w fn = false ∧ Table.get (fun _ => 0) s.lastPost 0x0506 = 0) ∧
    (∃ (s : State) (w : Fin 4) (fn : Fin 4), s.served fn = true ∧ s.windowOpen w fn = true ∧ s.flag (Reg.PCIE_WIN_ACTIVE_RDONLY w) = true) ∧
    (∃ (s : State) (w : Fin 4) (fn : Fin 4) (o : BitVec 23) (d : List (Option Byte)) (a : Nat), s.served fn = true ∧ s.windowOpen w fn = true ∧ s.flag (Reg.PCIE_WIN_ACTIVE_RDONLY w) = false ∧ o.toNat + d.length ≤ 0x800000 ∧ a = s.fld (Reg.PCIE_WIN_ACTIVE_BASE w) * 4096 + o.toNat) ∧
    (∃ (s : State) (w : Fin 4) (fn : Fin 4), s.served fn = true ∧ s.windowOpen w fn = false) ∧
    (∃ (s : State) (w : Fin 4) (fn : Fin 4) (o : BitVec 23) (n : Fin 4097) (u : Bool) (p : Bool) (a : Nat), s.served fn = true ∧ s.windowOpen w fn = true ∧ a = s.fld (Reg.PCIE_WIN_ACTIVE_BASE w) * 4096 + o.toNat ∧ p = ((s.dramRead a n).2 || u)) ∧
    (∃ (s : State) (fn : BitVec 6), s.flag (Reg.PCIE_FUNC_MSE.of fn.toNat) = true ∧ s.fld (Reg.PCIE_FUNC_DSTATE.of fn.toNat) = 0) ∧
    (∃ (s : State) (fn : BitVec 6) (k : BadRequest), (k ≠ .memory ∨ s.flag (Reg.PCIE_FUNC_MSE.of fn.toNat) = false ∨ s.fld (Reg.PCIE_FUNC_DSTATE.of fn.toNat) ≠ 0)) ∧
    (∃ (s : State) (fn : BitVec 6) (v : BitVec 11), ((s.vec fn.toNat v.toNat).requests = 0 ∨ s.tb.uptime < (s.vec fn.toNat v.toNat).first + s.fld ((Reg.PCIE_VEC_TIME_US v.toNat).of fn.toNat) * 1000)) ∧
    (∃ (s : State) (fn : BitVec 6) (v : BitVec 11) (x : Vector), x = s.vec fn.toNat v.toNat ∧ 0 < x.requests ∧ x.first + s.fld ((Reg.PCIE_VEC_TIME_US v.toNat).of fn.toNat) * 1000 ≤ s.tb.uptime) ∧
    (∃ (s : State) (fn : BitVec 6) (v : BitVec 11) (x : Vector), x = s.vec fn.toNat v.toNat ∧ s.fld (Reg.PCIE_FUNC_IRQ_MODE.of fn.toNat) = 3) ∧
    (∃ (s : State) (fn : BitVec 6) (v : BitVec 11) (x : Vector), x = s.vec fn.toNat v.toNat ∧ s.fld (Reg.PCIE_FUNC_IRQ_MODE.of fn.toNat) = 2 ∧ x.pendingBit = false) ∧
    (∃ (s : State) (fn : BitVec 6), (∀ p ∈ s.host.vectors, p.1 / 2048 ≠ fn.toNat)) ∧
    (∃ (s : State) (fn : BitVec 6) (v : BitVec 11) (x : Vector), s.host.vectors = [(fn.toNat * 2048 + v.toNat, x)] ∧ s.fld (Reg.PCIE_FUNC_IRQ_MODE.of fn.toNat) ≠ 3 ∧ 0 < x.requests ∧ x.unmasked = true) := by
  refine ⟨?_, ?_, ?_, ?_, ?_, ?_, ?_, ?_, ?_, ?_, ?_, ?_, ?_, ?_, ?_, ?_, ?_⟩
  · exact ⟨wStg 1 1 0 393216 (wStg 3 0 2 5 (ran 2)), 0b1010, by decide +kernel⟩
  · exact ⟨wStg 1 1 1 393216 (wStg 2 1 0 393216 (ran 2)), 0b0110, 1, by decide +kernel⟩
  · exact ⟨ran 2, 1, by decide +kernel⟩
  · exact ⟨(ran 2).setFlag (Reg.PCIE_FUNC_MSE.of 1) true, 2, 1, by decide +kernel⟩
  · exact ⟨(ran 2).setFlag (Reg.PCIE_FUNC_MSE.of 1) true, 2, 1, by decide +kernel⟩
  · exact ⟨wWin true, 2, 1, by decide +kernel⟩
  · exact ⟨wWin false, 2, 1, 4, [some 4, none, some 6, some 7], 4100, by decide +kernel⟩
  · exact ⟨(wWin true).setFlag (Reg.PCIE_FUNC_MSE.of 2) true, 2, 2, by decide +kernel⟩
  · exact ⟨wWin true, 2, 1, 2, 4, false, false, 4098, by decide +kernel⟩
  · exact ⟨(ran 2).setFlag (Reg.PCIE_FUNC_MSE.of 7) true, 7, by decide +kernel⟩
  · exact ⟨(ran 2).setFlag (Reg.PCIE_FUNC_MSE.of 7) true, 6, .memory, by decide +kernel⟩
  · exact ⟨wVec { wX with first := 4999900001 } 3, 1, 5, by decide +kernel⟩
  · exact ⟨wVec wX 3, 1, 5, wX, by decide +kernel⟩
  · exact ⟨wVec { pendingBit := true } 3, 1, 5, { pendingBit := true }, by decide +kernel⟩
  · exact ⟨wVec { msiMasked := true, requests := 4 } 2, 1, 5, { msiMasked := true, requests := 4 }, by decide +kernel⟩
  · exact ⟨wVec wX 2, 2, by decide +kernel⟩
  · exact ⟨{ wVec wX 2 with host := { vectors := [(2048 + 5, wX)], intxDisable := 2 } }, 1, 5, wX, by decide +kernel⟩

end W30

namespace W31

def wCt : Cart := { power := true, perst := false, insertSince := 3900000000, poweredAt := 4000000000, perstAt := 4000000000, cmds := [], opened := some { seq := 9, records := 1, firstUp := 5, lastUp := 6 }, closed := [{ seq := 7 }, { seq := 8 }], label := some { segLog2 := 21, slotCount := 40, nextSlot := 3 }, ready := true }
def wBay (auto : Bool) (v : Nat) (c : Cart) : State := { ((((ran 2).setFlag Reg.SLOT_CTRL_AUTO auto).setFld Reg.SLOT_STATE_STATE v).setFlag Reg.SLOT_STATUS_DLLA true).setFld Reg.SLOT_REC_CFG_SEG_LOG2 21 with cart := c, pwr := { present := true } }
def wOff (s : State) : State := s.setFlag Reg.SLOT_STATUS_DLLA false

/-- The hypotheses of `Obligations.BayFollowsTheCartridge` can be met, clause by clause. -/
theorem witness_BayFollowsTheCartridge :
    (∃ (s : State) (b : Bool), s.operating = false ∧ b ≠ s.pwr.present) ∧
    (∃ (s : State) (b : Bool), s.operating = false ∧ b ≠ s.pwr.latchOpen) ∧
    (∃ (s : State), s.operating = false) ∧
    (∃ (s : State) (b : Bool), s.operating = true ∧ s.pwr.present ≠ b ∧ (b = true ∨ (s.slotAuto = true ∧ s.bay = 0) ∨ (s.slotAuto = false ∧ s.cart.power = false))) ∧
    (∃ (s : State), s.operating = true ∧ s.pwr.present = true ∧ s.slotAuto = true ∧ (s.bay = 6 ∨ s.bay = 9 ∨ s.bay = 10)) ∧
    (∃ (s : State), s.operating = true ∧ s.slotAuto = true ∧ s.bay = 3 ∧ s.cart.power = true ∧ s.cart.cmds = [] ∧ s.pwr.latchOpen = false ∧ s.pwr.present = true) ∧
    (∃ (s : State) (b : Bool), s.operating = true ∧ s.pwr.latchOpen ≠ b ∧ (b = false ∨ s.cart.power = false)) ∧
    (∃ (s : State), s.operating = true ∧ s.slotAuto = false) ∧
    (∃ (s : State), s.operating = true ∧ s.slotAuto = true ∧ (s.bay = 3 ∨ s.bay = 7 ∨ s.bay = 8)) ∧
    (∃ (s : State), s.operating = true ∧ s.slotAuto = true ∧ s.bay = 4 ∧ s.tb.uptime ≤ s.cart.stopAt + 5000000000 ∧ s.cart.stopFrom < 16) ∧
    (∃ (s : State), s.operating = true ∧ s.slotAuto = true ∧ s.bay = 6 ∧ s.pwr.present = true) ∧
    (∃ (s : State), s.operating = true ∧ s.slotAuto = true ∧ (s.bay = 0 ∨ s.bay = 1 ∨ s.bay = 2 ∨ s.bay = 5 ∨ s.bay = 9 ∨ s.bay = 10)) ∧
    (∃ (s : State), s.operating = true) ∧
    (∃ (s : State), s.operating = true ∧ s.slotAuto = true ∧ s.bay = 0 ∧ s.pwr.present = true ∧ s.pwr.latchOpen = false ∧ s.cart.insertSince + 1000000000 ≤ s.tb.uptime) ∧
    (∃ (s : State), (s.bay ≠ 0 ∨ s.pwr.present = false ∨ s.pwr.latchOpen = true ∨ s.tb.uptime < s.cart.insertSince + 1000000000)) ∧
    (∃ (s : State), s.cart.power = true ∧ s.cart.perst = true ∧ s.cart.poweredAt + 100000000 ≤ s.tb.uptime) ∧
    (∃ (s : State), (s.cart.power = false ∨ s.cart.perst = false ∨ s.tb.uptime < s.cart.poweredAt + 100000000)) ∧
    (∃ (s : State), s.cart.power = true ∧ s.cart.perst = false ∧ s.flag Reg.SLOT_STATUS_DLLA = false) ∧
    (∃ (s : State), (s.cart.power = false ∨ s.cart.perst = true ∨ s.flag Reg.SLOT_STATUS_DLLA = true)) ∧
    (∃ (s : State), s.slotAuto = true ∧ s.bay = 1 ∧ s.cart.perst = false ∧ s.cart.perstAt + 1000000000 ≤ s.tb.uptime) ∧
    (∃ (s : State), (s.bay ≠ 1 ∨ s.cart.perst = true ∨ s.tb.uptime < s.cart.perstAt + 1000000000)) ∧
    (∃ (s : State), s.flag Reg.SLOT_STATUS_DLLA = false) ∧
    (∃ (s : State), s.flag Reg.SLOT_STATUS_DLLA = true) ∧
    (∃ (s : State), s.bay = 4 ∧ s.cart.stopAt + 5000000000 < s.tb.uptime ∧ s.cart.cmds = [] ∧ s.cart.writing = none ∧ s.cart.shutAt = none) ∧
    (∃ (s : State) (g : RecSegment), s.bay = 4 ∧ s.cart.stopAt + 5000000000 < s.tb.uptime ∧ s.cart.closed = [g] ∧ g.ride = false ∧ s.cart.writing = none ∧ 0 < s.rideSize) ∧
    (∃ (s : State), (s.bay ≠ 4 ∨ s.tb.uptime ≤ s.cart.stopAt + 5000000000)) ∧
    (∃ (s : State), s.bay = 5 ∧ s.cart.shutAt.isSome = true) ∧
    (∃ (s : State) (a : Nat), s.bay = 5 ∧ s.cart.shutAt = some a ∧ a + 10000000000 ≤ s.tb.uptime) ∧
    (∃ (s : State), (s.bay ≠ 5 ∨ s.cart.shutAt = none)) := by
  refine ⟨?_, ?_, ?_, ?_, ?_, ?_, ?_, ?_, ?_, ?_, ?_, ?_, ?_, ?_, ?_, ?_, ?_, ?_, ?_, ?_, ?_, ?_, ?_, ?_, ?_, ?_, ?_, ?_, ?_⟩
  · exact ⟨{ ran 6 with pwr := {} }, true, by decide +kernel⟩
  · exact ⟨{ ran 1 with pwr := {} }, true, by decide +kernel⟩
  · exact ⟨ran 6, by decide +kernel⟩
  · exact ⟨{ wBay true 0 {} with pwr := {} }, true, by decide +kernel⟩
  · exact ⟨wBay true 9 {}, by decide +kernel⟩
  · exact ⟨wBay true 3 wCt, by decide +kernel⟩
  · exact ⟨{ wBay true 0 {} with pwr := { present := true, latchOpen := true } }, false, by decide +kernel⟩
  · exact ⟨wBay false 3 wCt, by decide +kernel⟩
  · exact ⟨wBay true 3 wCt, by decide +kernel⟩
  · exact ⟨wBay true 4 { wCt with stopAt := 1, stopFrom := 3 }, by decide +kernel⟩
  · exact ⟨wOff (wBay true 6 { wCt with power := false, perst := true }), by decide +kernel⟩
  · exact ⟨wBay true 2 wCt, by decide +kernel⟩
  · exact ⟨wBay true 3 { wCt with cmds := [{ id := 4, op := .writeSegment 7 }] }, by decide +kernel⟩
  · exact ⟨wBay true 0 { insertSince := 4000000000 }, by decide +kernel⟩
  · exact ⟨wBay true 0 { insertSince := 4000000001 }, by decide +kernel⟩
  · exact ⟨wBay true 1 { wCt with perst := true, poweredAt := 4900000000 }, by decide +kernel⟩
  · exact ⟨wBay true 1 { wCt with perst := true, poweredAt := 4900000001 }, by decide +kernel⟩
  · exact ⟨wOff (wBay true 1 wCt), by decide +kernel⟩
  · exact ⟨wBay true 1 wCt, by decide +kernel⟩
  · exact ⟨wOff (wBay true 1 wCt), by decide +kernel⟩
  · exact ⟨wOff (wBay true 1 { wCt with perstAt := 4000000001 }), by decide +kernel⟩
  · exact ⟨wOff (wBay true 2 wCt), by decide +kernel⟩
  · exact ⟨wBay true 3 { wCt with cmds := [{ id := 4, op := .writeSegment 7 }], writing := some (7, 3, 0) }, by decide +kernel⟩
  · exact ⟨{ wBay true 4 { wCt with stopAt := 1 } with tb := { uptime := 5000000002 } }, by decide +kernel⟩
  · exact ⟨{ wBay true 4 { wCt with stopAt := 1, closed := [{ seq := 7 }] } with imp := { image := some { wImg with parts := wImg.parts ++ [⟨4, 0, 2147483648, 67108864⟩] } }, tb := { uptime := 5000000002 } }, { seq := 7 }, by decide +kernel⟩
  · exact ⟨wBay true 4 { wCt with stopAt := 0 }, by decide +kernel⟩
  · exact ⟨wBay true 5 { wCt with shutAt := some 7 }, by decide +kernel⟩
  · exact ⟨{ wBay true 5 { wCt with shutAt := some 7 } with tb := { uptime := 10000000007 } }, 7, by decide +kernel⟩
  · exact ⟨wBay true 5 wCt, by decide +kernel⟩

end W31

namespace W32

def wLb : CartLabel := { segLog2 := 21, slotCount := 40, nextSlot := 3, created := Config.serial.toNat }
def wCt : Cart := { power := true, perst := false, lba := 512, label := some wLb, ready := true, nextCmd := 30 }
def wBay (v : Nat) (c : Cart) : State := { ((((ran 2).setFlag Reg.SLOT_CTRL_AUTO true).setFld Reg.SLOT_STATE_STATE v).setFlag Reg.SLOT_STATUS_DLLA true).setFld Reg.SLOT_REC_CFG_SEG_LOG2 21 with cart := c, pwr := { present := true } }
def wC (op : NvmeOp) : NvmeCmd := { id := 29, op := op, since := 4 }
def wB (v : Nat) (op : NvmeOp) (c : Cart) : State := wBay v { c with cmds := [wC op] }
def wSeg : RecSegment := { seq := 7, records := 2, body := List.replicate 70 3, firstUp := 5, lastUp := 6, flags := 2 }
def wRc : RecCopy := { frame := 8, bytes := [1, 2, 3], stream := 5, source := 3, rxUp := 44, stamp := ⟨7, 8, 9⟩, ts := 2 }
def wRec (c : Cart) (n : Nat) : State := { wBay 3 c with recCopies := [wRc, { wRc with frame := 9 }], frames := [(8, { cells := 1, copies := 2 })], imp := { image := some { wImg with parts := wImg.parts ++ [⟨5, 0, 2147483648, n⟩] } } }
def wVf : State := wB 3 (.readSegment 7) { wCt with writing := some (7, 39, 0), closed := [wSeg] }
def wVg : List Byte := wVf.segmentImage wSeg
def wVn : State := wB 3 (.readSegment 7) { wCt with writing := some (7, 39, 0), closed := [wSeg], ready := false }

/-- The hypotheses of `Obligations.RecorderWritesSegmentsAndLabels` can be met, clause by clause. -/
theorem witness_RecorderWritesSegmentsAndLabels :
    (∃ (s : State) (id : Nat), (s.cart.cmds.find? fun c => Nat.beq c.id id) = none) ∧
    (∃ (s : State) (c : NvmeCmd), s.cart.cmds = [c]) ∧
    (∃ (s : State) (c : NvmeCmd), s.cart.cmds = [c] ∧ State.nvmeRetried c.op = true ∧ c.again = false) ∧
    (∃ (s : State) (c : NvmeCmd), s.cart.cmds = [c] ∧ s.slotAuto = true ∧ c.op = .enable) ∧
    (∃ (s : State) (c : NvmeCmd) (cap : Nat), s.cart.cmds = [c] ∧ c.op = .identifyNamespace ∧ cap < 2 ^ 64) ∧
    (∃ (s : State) (c : NvmeCmd) (l : CartLabel), s.cart.cmds = [c] ∧ c.op = .readLabel 1 ∧ s.cart.copies = [some l] ∧ l.created = Config.serial.toNat ∧ l.segLog2 = s.fld Reg.SLOT_REC_CFG_SEG_LOG2 ∧ s.slotAuto = true ∧ s.bay = 2 ∧ s.cart.writing = none ∧ s.cart.closed = []) ∧
    (∃ (s : State) (c : NvmeCmd) (l : CartLabel), s.cart.cmds = [c] ∧ c.op = .readLabel 1 ∧ s.cart.copies = [some l] ∧ l.segLog2 ≠ s.fld Reg.SLOT_REC_CFG_SEG_LOG2 ∧ s.slotAuto = true ∧ s.bay = 2) ∧
    (∃ (s : State) (c : NvmeCmd) (l : CartLabel) (k : Nat) (slot : Nat), s.cart.cmds = [c] ∧ c.op = .writeSegment k ∧ s.cart.label = some l ∧ s.cart.writing = some (k, slot, 0) ∧ s.fld Reg.SLOT_REC_CTRL_VERIFY = 0) ∧
    (∃ (s : State) (c : NvmeCmd) (k : Nat) (slot : Nat) (n : Nat), s.cart.cmds = [c] ∧ c.op = .writeSegment k ∧ s.cart.writing = some (k, slot, n + 1)) ∧
    (∃ (s : State) (c : NvmeCmd) (g : RecSegment) (l : CartLabel), s.cart.cmds = [c] ∧ c.op = .flush g.seq ∧ s.cart.closed = [g] ∧ s.bay = 3 ∧ s.cart.label = some l ∧ l.nextSlot < l.slotCount ∧ Table.get (fun _ => 0) s.lastPost 0x0608 = 0 ∧ ((∀ k, k < 32 → (s.chan k).line ≠ some 27))) ∧
    (∃ (s : State) (c : NvmeCmd) (g : RecSegment) (b : List Byte) (i : List Byte) (l : CartLabel) (slot : Nat) (n : Nat), s.cart.cmds = [c] ∧ c.op = .readSegment g.seq ∧ s.cart.closed = [g] ∧ s.cart.writing = some (g.seq, slot, n) ∧ s.cart.label = some l ∧ i = s.segmentImage g ∧ crc32 ((b.take (leNat ((i.drop 24).take 4))).drop 64) = leNat ((i.drop 56).take 4)) ∧
    (∃ (s : State) (c : NvmeCmd) (g : RecSegment) (b : List Byte) (i : List Byte) (slot : Nat) (n : Nat), s.cart.cmds = [c] ∧ c.op = .readSegment g.seq ∧ s.cart.closed = [g] ∧ s.cart.writing = some (g.seq, slot, n) ∧ i = s.segmentImage g ∧ crc32 ((b.take (leNat ((i.drop 24).take 4))).drop 64) ≠ leNat ((i.drop 56).take 4) ∧ g.rewrites < 2 ∧ Table.get (fun _ => 0) s.lastPost 0x0605 = 0) ∧
    (∃ (s : State) (c : NvmeCmd) (g : RecSegment), s.cart.cmds = [c] ∧ c.op = .readSegment g.seq ∧ s.cart.closed = [g] ∧ g.rewrites = 2 ∧ s.slotAuto = true ∧ Table.get (fun _ => 0) s.lastPost 0x0605 = 0) ∧
    (∃ (s : State) (c : NvmeCmd), s.cart.cmds = [c] ∧ (s.tb.uptime < c.since + 5000000000 ∨ c.op = .shutdown)) ∧
    (∃ (s : State) (c : NvmeCmd), s.cart.cmds = [c] ∧ c.since + 5000000000 ≤ s.tb.uptime ∧ c.op ≠ .shutdown) ∧
    (∃ (s : State), (s.bay ≠ 8 ∨ s.cart.cmds ≠ [])) ∧
    (∃ (s : State), s.bay = 8 ∧ s.cart.cmds = []) ∧
    (∃ (s : State), s.recCopies = [] ∧ s.dmaQuiet) ∧
    (∃ (s : State) (c : RecCopy) (l : List RecCopy) (g : RecSegment), s.recCopies = c :: l ∧ s.dmaQuiet ∧ s.cart.opened = some g ∧ (64 + g.body.length + 32 + c.bytes.length + 7) / 8 * 8 ≤ s.segBytes) ∧
    (∃ (s : State) (c : RecCopy) (l : List RecCopy), s.recCopies = c :: l ∧ s.dmaQuiet ∧ s.cart.opened = none ∧ s.cart.closed = [] ∧ 0 < s.poolSize) ∧
    (∃ (s : State) (c : RecCopy) (l : List RecCopy), s.recCopies = c :: l ∧ s.dmaQuiet ∧ s.cart.opened = none ∧ s.cart.closed = [] ∧ s.poolSize = 0 ∧ s.cart.ridePosted = false) ∧
    (∃ (s : State), s.cart.opened = none) ∧
    (∃ (s : State) (g : RecSegment), s.cart.opened = some g ∧ (g.records = 0 ∨ s.tb.uptime < g.since + s.fld Reg.SLOT_REC_CFG_SEG_MAX_MS * 1000000)) ∧
    (∃ (s : State) (g : RecSegment), s.cart.opened = some g ∧ 0 < g.records ∧ s.dmaQuiet ∧ s.cart.closed = [] ∧ s.direct = true ∧ 1 < s.poolSize ∧ s.cart.ready = false ∧ s.bay = 3 ∧ g.since + s.fld Reg.SLOT_REC_CFG_SEG_MAX_MS * 1000000 ≤ s.tb.uptime ∧ ((∀ k, k < 32 → (s.chan k).line ≠ some 26))) ∧
    (∃ (s : State), s.partOf 4 = none ∧ s.partOf 5 = none ∧ Table.get (fun _ => 0) s.lastPost 0x0606 = 0) ∧
    (∃ (s : State) (p : Partition) (a : Nat) (n : Nat), (s.partOf 4 = some p ∨ s.partOf 5 = some p) ∧ p.base ≤ a ∧ a + n ≤ p.base + p.size) := by
  refine ⟨?_, ?_, ?_, ?_, ?_, ?_, ?_, ?_, ?_, ?_, ?_, ?_, ?_, ?_, ?_, ?_, ?_, ?_, ?_, ?_, ?_, ?_, ?_, ?_, ?_, ?_⟩
  · exact ⟨wB 3 .enable wCt, 28, by decide +kernel⟩
  · exact ⟨wB 1 .enable wCt, wC .enable, by decide +kernel⟩
  · exact ⟨wB 3 (.writeSegment 7) wCt, wC (.writeSegment 7), by decide +kernel⟩
  · exact ⟨wB 1 .enable wCt, wC .enable, by decide +kernel⟩
  · exact ⟨wB 2 .identifyNamespace wCt, wC .identifyNamespace, (100 * 2 ^ 20), by decide +kernel⟩
  · exact ⟨wB 2 (.readLabel 1) { wCt with label := none, copies := [some wLb], ready := false }, wC (.readLabel 1), wLb, (by decide +kernel), (by decide +kernel), rfl, rfl, (by decide +kernel), (by decide +kernel), (by decide +kernel), (by decide +kernel), (by decide +kernel)⟩
  · exact ⟨wB 2 (.readLabel 1) { wCt with label := none, copies := [some { wLb with segLog2 := 22 }], ready := false }, wC (.readLabel 1), { wLb with segLog2 := 22 }, (by decide +kernel), (by decide +kernel), rfl, (by decide +kernel), (by decide +kernel), (by decide +kernel)⟩
  · exact ⟨wB 3 (.writeSegment 7) { wCt with writing := some (7, 39, 0), closed := [wSeg] }, wC (.writeSegment 7), wLb, 7, 39, (by decide +kernel), (by decide +kernel), rfl, (by decide +kernel), (by decide +kernel)⟩
  · exact ⟨wB 3 (.writeSegment 7) { wCt with writing := some (7, 39, 4), closed := [wSeg] }, wC (.writeSegment 7), 7, 39, 3, by decide +kernel⟩
  · exact ⟨wB 3 (.flush 7) { wCt with writing := some (7, 39, 0), closed := [wSeg] }, wC (.flush 7), wSeg, wLb, (by decide +kernel), (by decide +kernel), (by decide +kernel), (by decide +kernel), rfl, (by decide +kernel), (by decide +kernel), (by decide +kernel)⟩
  · exact ⟨wVf, wC (.readSegment 7), wSeg, wVg ++ [5], wVg, wLb, 39, 0, (by decide +kernel), (by decide +kernel), (by decide +kernel), (by decide +kernel), rfl, rfl, (by decide +kernel)⟩
  · exact ⟨wVn, wC (.readSegment 7), wSeg, wVg.take 80 ++ [5], wVn.segmentImage wSeg, 39, 0, (by decide +kernel), (by decide +kernel), (by decide +kernel), (by decide +kernel), rfl, (by decide +kernel), (by decide +kernel), (by decide +kernel)⟩
  · exact ⟨wB 3 (.readSegment 7) { wCt with writing := some (7, 39, 0), closed := [{ wSeg with rewrites := 2 }] }, wC (.readSegment 7), { wSeg with rewrites := 2 }, by decide +kernel⟩
  · exact ⟨wBay 3 { wCt with cmds := [{ id := 29, op := .createCq, since := 1 }] }, { id := 29, op := .createCq, since := 1 }, by decide +kernel⟩
  · exact ⟨wBay 3 { wCt with cmds := [{ id := 29, op := .createCq, since := 0 }] }, { id := 29, op := .createCq, since := 0 }, by decide +kernel⟩
  · exact ⟨wB 8 .createCq wCt, by decide +kernel⟩
  · exact ⟨(wBay 8 wCt).wr64 Reg.SLOT_CAP_LO (100 * 2 ^ 20), by decide +kernel⟩
  · exact ⟨wBay 3 wCt, (by decide +kernel), (by unfold State.dmaQuiet; decide +kernel)⟩
  · exact ⟨wRec { wCt with opened := some wSeg } (64 * 2 ^ 20), wRc, [{ wRc with frame := 9 }], wSeg, (by decide +kernel), (by unfold State.dmaQuiet; decide +kernel), (by decide +kernel), (by decide +kernel)⟩
  · exact ⟨wRec { wCt with dropped := true } (64 * 2 ^ 20), wRc, [{ wRc with frame := 9 }], (by decide +kernel), (by unfold State.dmaQuiet; decide +kernel), (by decide +kernel), (by decide +kernel), (by decide +kernel)⟩
  · exact ⟨wRec wCt (3 * 2 ^ 20 - 1), wRc, [{ wRc with frame := 9 }], (by decide +kernel), (by unfold State.dmaQuiet; decide +kernel), (by decide +kernel), (by decide +kernel), (by decide +kernel), (by decide +kernel)⟩
  · exact ⟨wBay 3 wCt, by decide +kernel⟩
  · exact ⟨(wRec { wCt with opened := some { wSeg with since := 4000000001 } } 5).setFld Reg.SLOT_REC_CFG_SEG_MAX_MS 1000, { wSeg with since := 4000000001 }, by decide +kernel⟩
  · exact ⟨(wRec { wCt with ready := false, opened := some { wSeg with since := 4000000000 } } (64 * 2 ^ 20)).setFld Reg.SLOT_REC_CFG_SEG_MAX_MS 1000, { wSeg with since := 4000000000 }, (by decide +kernel), (by decide +kernel), (by unfold State.dmaQuiet; decide +kernel), (by decide +kernel), (by decide +kernel), (by decide +kernel), (by decide +kernel), (by decide +kernel), (by decide +kernel), (by decide +kernel)⟩
  · exact ⟨wBay 3 wCt, by decide +kernel⟩
  · exact ⟨wRec wCt (64 * 2 ^ 20), ⟨5, 0, 2147483648, 64 * 2 ^ 20⟩, 2147483648, (64 * 2 ^ 20), by decide +kernel⟩

end W32

namespace W33

def wSt (l : List (Nat × Nat)) (s : State) : State := l.foldl (fun s p => s.setEngState p.1 p.2) s
def wRl (s : State) : State := [0, 8].foldl (fun (s : State) f => ([0, 1, 2, 3].foldl (fun (s : State) k => (s.setFld (Reg.ENG_ROLE_ROLE (5 * f + k)) (0x10 + k)).setFld (Reg.ENG_ROLE_SLOT (5 * f + k)) k) s).setEngState (5 * f + 4) 3 |>.setFld (Reg.ENG_ROLE_SLOT (5 * f + 4)) 4) s
def wGd (st : Nat) (v : Bool) (g : Guard) : State := { (((((wRl (ran 2)).setFld Reg.GUARD_STATUS_STATE st).setFld Reg.GUARD_STATUS_STANDBY 8).setFlag Reg.GUARD_STATUS_STANDBY_VALID v).setFld Reg.GUARD_STALL_STALL_US 1000).setFld Reg.GUARD_EPOCH_EPOCH_US 2000 with guard := g }
def wQuiet : Guard := { ready := true, beat := [(0, 4999970121), (8, 4999970122)], alive := [(0, (6, 4999000000))], epoch := 40 }
def wBt (f : Nat) (r a : Bool) : Heartbeat := { folio := f, seq := 5, alive := [1, 2, 3], epoch := 9, ready := r, act := a }
def wTo : State := let s := wGd 2 false { resumed := true }; (wSt [(0, 6), (1, 6), (2, 6), (3, 6), (4, 6)] ((s.setFld Reg.GUARD_STATUS_ACTIVE 8).setFld Reg.GUARD_STATUS_STANDBY 0))
def wTo0 : State := wSt [(0, 0), (1, 0), (2, 0), (3, 0), (4, 3)] wTo
def wHo : State := { wGd 3 true { wQuiet with handover := some { since := 4990000000 }, epochUs := 1000 } with cnts := [] }

/-- The hypotheses of `Obligations.GuardWatchesTakesOverAndTests` can be met, clause by clause. -/
theorem witness_GuardWatchesTakesOverAndTests :
    (∃ (s : State) (b : Bool), (s.guardState = 0 ∨ s.operating = false ∨ s.hasLiaison (if b then s.ctrlStandby else s.ctrlActive) = false ∨ s.beatDue (if b then s.ctrlStandby else s.ctrlActive) = false)) ∧
    (∃ (s : State) (b : Bool) (f : Nat), f = (if b then s.ctrlStandby else s.ctrlActive) ∧ s.guardState ≠ 0 ∧ s.operating = true ∧ s.hasLiaison f = true ∧ s.beatDue f = true) ∧
    (∃ (s : State), s.guard.beats = []) ∧
    (∃ (s : State) (b : Heartbeat) (l : List Heartbeat), s.guard.beats = b :: l) ∧
    (∃ (s : State), (s.guardWatches = false ∨ s.silent s.ctrlActive = false)) ∧
    (∃ (s : State) (r : Fin 3), (s.guardWatches = false ∨ (Table.get (fun _ => (0, 0)) s.guard.alive r).1 = 0 ∨ s.tb.uptime < (Table.get (fun _ => (0, 0)) s.guard.alive r).2 + s.fld Reg.GUARD_STALL_STALL_US * 1000)) ∧
    (∃ (s : State), s.guardState = 1 ∧ s.standbyValid = true ∧ s.operating = true ∧ s.guard.handover = none ∧ s.imp.reimp.migratingOut = 0) ∧
    (∃ (s : State), s.guardState = 1 ∧ s.standbyValid = false ∧ s.operating = true ∧ s.silent s.ctrlActive = true) ∧
    (∃ (s : State), s.guardWatches = true ∧ s.standbyValid = true) ∧
    (∃ (s : State), (s.guardWatches = false ∨ s.standbyValid = false)) ∧
    (∃ (s : State), (s.guardState ≠ 2 ∨ s.guard.resumed = false)) ∧
    (∃ (s : State), s.guardState = 2 ∧ s.guard.resumed = true ∧ s.quireUp (quireOf s.ctrlStandby) = true ∧ s.units.folioOut.getLsbD s.ctrlStandby = false ∧ (∀ e ∈ State.folioEngines s.ctrlStandby, s.engState e ≠ 6)) ∧
    (∃ (s : State), s.operating = false) ∧
    (∃ (s : State), s.operating = true) ∧
    (∃ (s : State), (s.guard.handover = none ∨ s.guardState ≠ 3 ∨ s.operating = false)) ∧
    (∃ (s : State) (h : Handover), s.guard.handover = some h ∧ s.tb.uptime < h.since + 2 * s.guard.epochUs * 1000 + 2 * s.ringCycleNs) ∧
    (∃ (s : State) (h : Handover), s.guard.handover = some h ∧ s.guardState = 3 ∧ s.operating = true ∧ h.origin = 0 ∧ h.since + 2 * s.guard.epochUs * 1000 + 2 * s.ringCycleNs ≤ s.tb.uptime) ∧
    (∃ (s : State), (s.operating = false ∨ s.guardState = 0 ∨ s.tb.uptime % (s.guard.epochUs * 1000) ≠ 0)) ∧
    (∃ (s : State), s.operating = true ∧ s.guardState ≠ 0 ∧ s.tb.uptime % (s.guard.epochUs * 1000) = 0) ∧
    (∃ (s : State) (n : BitVec 32), (s.guard.copying = false ∨ n.toNat ≠ s.guard.epoch ∨ s.epochMayCross = false)) ∧
    (∃ (s : State) (n : BitVec 32), s.guard.copying = true ∧ n.toNat = s.guard.epoch ∧ s.epochMayCross = true) ∧
    (∃ (s : State) (n : BitVec 32), s.guard.copying = true ∧ n.toNat = s.guard.epoch ∧ s.epochMayCross = true) ∧
    (∃ (s : State) (n : BitVec 32) (h : Handover), (s.guard.copying = true ∧ n.toNat = s.guard.epoch ∨ s.guard.copying = false ∧ n.toNat = (s.guard.epoch + 1) % 2 ^ 32) ∧ s.epochMayCross = true ∧ s.guard.handover = some h ∧ h.origin = 0 ∧ s.guardState = 3 ∧ s.ringRuns = false) ∧
    (∃ (s : State), s.standbyValid = false) ∧
    (∃ (s : State) (e : Fin 160), s.standbyValid = true ∧ s.flag Reg.HLTH_TEST_CFG_KAT_EN = true ∧ s.mayTest e = true) ∧
    (∃ (s : State) (a : RowArray), s.standbyValid = true ∧ s.flag Reg.HLTH_TEST_CFG_MARCH_EN = true ∧ s.rowsUsed (State.rowKey a).1 < (State.rowKey a).2 ∧ Table.get (fun _ => 0) s.lastPost 0x0304 = 0 ∧ Table.get (fun _ => 0) s.lastPost 0x0307 = 0) ∧
    (∃ (s : State), s.standbyValid = true) ∧
    (∃ (k : Nat), 99000 ≤ k ∧ k ≤ 101400) ∧
    (∃ (s : State) (k : Nat), (k < 99000 ∨ 101400 < k) ∧ s.mode < 6 ∧ s.guardState ≠ 5) ∧
    (∃ (s : State) (q : Fin 16), s.rowsUsed q < 64 ∧ Table.get (fun _ => 0) s.lastPost 0x0304 = 0) ∧
    (∃ (s : State), 256 ≤ s.rowsUsed 208) ∧
    (∃ (s : State), s.guardState = 2 ∧ s.guard.resumed = true ∧ s.quireUp (quireOf s.ctrlStandby) = true ∧ s.units.folioOut.getLsbD s.ctrlStandby = false) := by
  refine ⟨?_, ?_, ?_, ?_, ?_, ?_, ?_, ?_, ?_, ?_, ?_, ?_, ?_, ?_, ?_, ?_, ?_, ?_, ?_, ?_, ?_, ?_, ?_, ?_, ?_, ?_, ?_, ?_, ?_, ?_, ?_, ?_⟩
  · exact ⟨wGd 0 true wQuiet, true, by decide +kernel⟩
  · exact ⟨wGd 1 true { wQuiet with beatSeq := [(8, 65535)] }, true, 8, by decide +kernel⟩
  · exact ⟨wGd 1 true wQuiet, by decide +kernel⟩
  · exact ⟨wGd 1 true { wQuiet with beats := [wBt 0 true true, wBt 8 true false] }, wBt 0 true true, [wBt 8 true false], by decide +kernel⟩
  · exact ⟨wGd 5 true wQuiet, by decide +kernel⟩
  · exact ⟨wGd 1 true { wQuiet with alive := [(0, (6, 4999000001))] }, 0, by decide +kernel⟩
  · exact ⟨wGd 1 true wQuiet, by decide +kernel⟩
  · exact ⟨wGd 1 false wQuiet, by decide +kernel⟩
  · exact ⟨wGd 1 true { wQuiet with beat := [(0, 4999970122), (8, 4999970121)] }, by decide +kernel⟩
  · exact ⟨wGd 1 false wQuiet, by decide +kernel⟩
  · exact ⟨wGd 2 false {}, by decide +kernel⟩
  · exact ⟨wTo0, by decide +kernel⟩
  · exact ⟨ran 6, by decide +kernel⟩
  · exact ⟨wGd 1 true wQuiet, by decide +kernel⟩
  · exact ⟨wGd 3 true wQuiet, by decide +kernel⟩
  · exact ⟨wGd 3 true { wQuiet with handover := some { since := 4998000001 }, epochUs := 1000 }, { since := 4998000001 }, by decide +kernel⟩
  · exact ⟨wHo, { since := 4990000000 }, by decide +kernel⟩
  · exact ⟨wGd 0 true wQuiet, by decide +kernel⟩
  · exact ⟨wGd 1 true { wQuiet with epochUs := 1000 }, by decide +kernel⟩
  · exact ⟨wGd 1 true { wQuiet with copying := true }, 41, by decide +kernel⟩
  · exact ⟨wGd 1 true { wQuiet with copying := true }, 40, by decide +kernel⟩
  · exact ⟨wGd 1 false { wQuiet with copying := true }, 40, by decide +kernel⟩
  · exact ⟨wGd 3 true { wQuiet with copying := true, handover := some { since := 4990000000 } }, 40, { since := 4990000000 }, by decide +kernel⟩
  · exact ⟨wGd 1 false wQuiet, by decide +kernel⟩
  · exact ⟨(wGd 1 true wQuiet).setFlag Reg.HLTH_TEST_CFG_KAT_EN true, 42, by decide +kernel⟩
  · exact ⟨(wGd 1 true { wQuiet with rows := [(48, 3)] }).setFlag Reg.HLTH_TEST_CFG_MARCH_EN true, .privateStore 0, by decide +kernel⟩
  · exact ⟨wGd 1 true wQuiet, by decide +kernel⟩
  · exact ⟨99000, by decide +kernel⟩
  · exact ⟨wGd 1 true wQuiet, 98999, by decide +kernel⟩
  · exact ⟨(wGd 1 true { wQuiet with rows := [(3, 63)] }).setFld Reg.HLTH_ROW_CFG_CE_LIMIT 16, 3, by decide +kernel⟩
  · exact ⟨{ wGd 1 true { wQuiet with rows := [(208, 256)] } with cells := { free := 3, allocated := 7 } }, by decide +kernel⟩
  · exact ⟨wTo, by decide +kernel⟩

end W33

namespace W34

def wPr (p : Pair) : State := { ((ran 2).setFlag Reg.GUARD_PAIR_CTRL_ENABLE true).setFld Reg.GUARD_STATUS_STATE 1 with pairLink := { lanes := 3, credits := 7 }, pair := p }
def wBd : Pair := { seen := some 4999700000, bound := true, active := true, priority := 4, arbEdge := some 4999999000 }
def wTh (a b : Nat) (m : Nat) (th : Bool) : State := { (((ran m).setFld (Reg.HLTH_TEMP_TEMP 2) a).setFld (Reg.HLTH_TEMP_MAX 2) b).setFld Reg.HLTH_TEMP_WARN_WARN 400 with pwr := { therm := th } }
def wCo (loc en : Bool) : State := ((((ran 2).setFlag Reg.HLTH_COLO_CTRL_EN en).setFlag Reg.HLTH_COLO_CTRL_LOC loc).setFld Reg.HLTH_COLO_CTRL_LOG2_SLOTS 3 |>.wr64 Reg.HLTH_COLO_ADDR_LO 0x60000000).wrN Reg.HLTH_COLO_SEQ 12 |>.setFlag (Reg.PCIE_FUNC_BME.of 3) true |>.setFld Reg.HLTH_COLO_CTRL_PERIOD_MS 1000
def wCd (loc en : Bool) : State := { wCo loc en with guard := { coloAt := some 4000000000 } }

/-- The hypotheses of `Obligations.PairVotesAndHealthIsReported` can be met, clause by clause. -/
theorem witness_PairVotesAndHealthIsReported :
    (∃ (s : State), (s.pairOn = false ∨ s.tb.uptime / 100000 < s.pair.sentSlot)) ∧
    (∃ (s : State), s.pairOn = true ∧ s.pair.sentSlot ≤ s.tb.uptime / 100000) ∧
    (∃ (s : State), s.pairOn = false) ∧
    (∃ (s : State) (i : Image), s.pairOn = true ∧ s.imp.image = some i ∧ i.bundleSet < 2 ^ 32 ∧ i.tipinSet < 2 ^ 32 ∧ s.pairLink.copies = []) ∧
    (∃ (s : State) (b : BitVec 32) (c : BitVec 32), s.pairOn = true ∧ ((∀ i, s.imp.image = some i → i.bundleSet ≠ b.toNat ∨ i.tipinSet ≠ c.toNat)) ∧ s.pairLink.copies = [] ∧ s.pair.bound = false ∧ s.flag Reg.GUARD_PAIR_STATUS_MISMATCH = false) ∧
    (∃ (s : State), (s.pair.seen = none ∨ s.pair.bound = false)) ∧
    (∃ (s : State) (a : Nat), s.pair.seen = some a ∧ s.tb.uptime < a + 300000) ∧
    (∃ (s : State) (a : Nat), s.pair.seen = some a ∧ s.pair.bound = true ∧ a + 300000 ≤ s.tb.uptime) ∧
    (∃ (s : State) (a : Nat), s.pair.arbEdge = some a ∧ a + 1000 ≤ s.tb.uptime ∧ s.tb.uptime ≤ a + 100000 ∧ s.flag Reg.GUARD_PAIR_CTRL_ENABLE = true ∧ s.flag Reg.GUARD_PAIR_CTRL_WITHDRAW = false ∧ s.flag Reg.GUARD_PAIR_CTRL_ARB_SRC = false ∧ s.operating = true ∧ s.guardState ≠ 5 ∧ s.pair.bound = false ∧ s.fld Reg.GUARD_PAIR_STATUS_ROLE = 0) ∧
    (∃ (s : State), s.pair.arbEdge = none) ∧
    (∃ (s : State) (a : Nat), s.pair.arbEdge = some a ∧ s.tb.uptime ≤ a + 100000) ∧
    (∃ (s : State) (a : Nat), s.pair.arbEdge = some a ∧ a + 100000 < s.tb.uptime) ∧
    (∃ (s : State), s.pairOn = true) ∧
    (∃ (s : State), s.pairOn = true) ∧
    (∃ (s : State), s.pairLink.copies = []) ∧
    (∃ (s : State) (k : Fin 2), s.pairLink.lanes &&& ~~~(1#2 <<< k.val) = 0 ∧ s.pairLink.copies = [] ∧ s.pair.bound = true) ∧
    (∃ (v : Word), v.getLsbD 0 = true) ∧
    (∃ (s : State) (v : Word), v.getLsbD 0 = false ∧ s.pairLink.copies = []) ∧
    (∃ (s : State), (s.mode < 2 ∨ s.mode = 6 ∨ s.coloDue = false)) ∧
    (∃ (s : State) (n : Nat), 2 ≤ s.mode ∧ s.mode ≠ 6 ∧ s.coloDue = true ∧ n = ((s.rd Reg.HLTH_COLO_SEQ).toNat + 1) % 2 ^ 32) ∧
    (∃ (s : State), s.mode = 6) ∧
    (∃ (s : State), s.mode ≠ 6) ∧
    (∃ (s : State), s.mode = 6) ∧
    (∃ (s : State), s.mode ≠ 6) := by
  refine ⟨?_, ?_, ?_, ?_, ?_, ?_, ?_, ?_, ?_, ?_, ?_, ?_, ?_, ?_, ?_, ?_, ?_, ?_, ?_, ?_, ?_, ?_, ?_, ?_⟩
  · exact ⟨ran 2, by decide +kernel⟩
  · exact ⟨wPr { wBd with sentSlot := 50000 }, by decide +kernel⟩
  · exact ⟨ran 2, by decide +kernel⟩
  · exact ⟨wPr wBd, wImg, (by decide +kernel), rfl, (by decide +kernel), (by decide +kernel), (by decide +kernel)⟩
  · exact ⟨wPr {}, 5, 6, by decide +kernel⟩
  · exact ⟨wPr {}, by decide +kernel⟩
  · exact ⟨wPr { wBd with seen := some 4999700001 }, 4999700001, by decide +kernel⟩
  · exact ⟨wPr wBd, 4999700000, by decide +kernel⟩
  · exact ⟨wPr { arbEdge := some 4999999000 }, 4999999000, by decide +kernel⟩
  · exact ⟨wPr {}, by decide +kernel⟩
  · exact ⟨wPr { arbEdge := some 4999900000 }, 4999900000, by decide +kernel⟩
  · exact ⟨wPr { wBd with arbEdge := some 4999899999, arbToggles := true }, 4999899999, by decide +kernel⟩
  · exact ⟨wPr wBd, by decide +kernel⟩
  · exact ⟨wPr wBd, by decide +kernel⟩
  · exact ⟨{ wPr wBd with pairLink := { credits := 7 } }, by decide +kernel⟩
  · exact ⟨{ wPr wBd with pairLink := { lanes := 2, credits := 7 } }, 1, by decide +kernel⟩
  · exact ⟨0xFFFFFFFF, by decide +kernel⟩
  · exact ⟨(wPr wBd).setFld Reg.GUARD_PAIR_STATUS_ROLE 1, 0xFFFFFFFE, by decide +kernel⟩
  · exact ⟨ran 1, by decide +kernel⟩
  · exact ⟨wCd false true, 13, by decide +kernel⟩
  · exact ⟨ran 6, by decide +kernel⟩
  · exact ⟨wTh 399 390 2 false, by decide +kernel⟩
  · exact ⟨ran 6, by decide +kernel⟩
  · exact ⟨(ran 2).wrN (Reg.HLTH_COLO_W 5) 0x12345678, by decide +kernel⟩

end W34

namespace W35

def wSv (s : State) : State := { ((s.setFlag (Reg.PCIE_FUNC_MSE.of 3) true).setFlag (Reg.PCIE_FUNC_MSE.of 1) true).setFlag (Reg.PCIE_FUNC_MSE.of 0) true with pwr := { s.pwr with aux := true, main := true }, host := { s.host with numVfs := 2 } }

/-- The hypotheses of `Obligations.HostReadsAndWritesRegisters` can be met, clause by clause. -/
theorem witness_HostReadsAndWritesRegisters :
    (∃ (s : State) (fn : BitVec 6) (p : Space), (s.running = false ∨ s.mode = 6 ∨ s.enabledFuncs.contains fn.toNat = false) ∧ p ≠ .config) ∧
    (∃ (s : State) (fn : BitVec 6) (p : Space), s.running = true ∧ s.mode ≠ 6 ∧ s.enabledFuncs.contains fn.toNat = true ∧ p ≠ .config ∧ (s.flag (Reg.PCIE_FUNC_MSE.of fn.toNat) = false ∨ s.fld (Reg.PCIE_FUNC_DSTATE.of fn.toNat) ≠ 0)) ∧
    (∃ (s : State) (fn : BitVec 6) (a : BitVec 26), s.served fn.toNat = true ∧ a.toNat % 4 = 0 ∧ a.toNat < 0x2000000) ∧
    (∃ (s : State) (fn : BitVec 6) (a : BitVec 26), s.running = true ∧ s.enabledFuncs.contains fn.toNat = true ∧ a.toNat % 4 = 0) ∧
    (∃ (s : State) (fn : BitVec 6) (a : BitVec 26) (v : Word), s.served fn.toNat = true ∧ a.toNat < 0x2000000 ∧ (a.toNat % 4 ≠ 0 ∨ blockOpen fn.toNat a.toNat = false ∨ writeRight fn.toNat a.toNat = false ∨ s.present fn.toNat a.toNat = false ∨ s.ignoresWrite fn.toNat a.toNat v.toNat = true)) ∧
    (∃ (s : State) (fn : BitVec 6) (a : BitVec 26) (l : List Byte), s.served fn.toNat = true ∧ a.toNat < 0x2000000 ∧ l.length < 4) ∧
    (∃ (s : State) (fn : BitVec 6) (a : BitVec 26), s.served fn.toNat = true ∧ a.toNat < 0x2000000 ∧ Table.get (fun _ => 0) s.lastPost 0x0506 = 0) ∧
    (∃ (s : State), s.served 3 = true ∧ s.operating = true) ∧
    (∃ (s : State), s.served 3 = true ∧ s.boot.mb = none ∧ s.mode ≠ 7) ∧
    (∃ (s : State), s.served 3 = true ∧ s.operating = true) ∧
    (∃ (s : State) (fn : BitVec 6), s.served fn.toNat = true ∧ s.operating = true ∧ s.fld (Reg.QM_QCMD_STATUS_STATE.of fn.toNat) ≠ 1) ∧
    (∃ (s : State) (f : Fin 4), s.served f = true) := by
  refine ⟨?_, ?_, ?_, ?_, ?_, ?_, ?_, ?_, ?_, ?_, ?_, ?_⟩
  · exact ⟨ran 6, 3, .bar0, by decide +kernel⟩
  · exact ⟨wSv (ran 2), 2, .bar0, by decide +kernel⟩
  · exact ⟨wSv (ran 2), 3, 0x1FFFFFC, by decide +kernel⟩
  · exact ⟨ran 2, 3, 0, by decide +kernel⟩
  · exact ⟨wSv (ran 2), 1, 0x10010, 5, by decide +kernel⟩
  · exact ⟨wSv (ran 2), 3, 0x10010, [1, 2, 3], by decide +kernel⟩
  · exact ⟨wSv (ran 2), 3, 0x10010, by decide +kernel⟩
  · exact ⟨wSv (ran 2), by decide +kernel⟩
  · exact ⟨wSv (ran 2), by decide +kernel⟩
  · exact ⟨wSv (ran 2), by decide +kernel⟩
  · exact ⟨wSv (ran 2), 3, by decide +kernel⟩
  · exact ⟨wSv (ran 2), 1, by decide +kernel⟩

end W35

namespace W36

def wStuck (n : Nat) : State := (ran 2).setFld Reg.IMP_REIMP_STATUS_STATE n
def wS36 (s : State) : State := { ((s.setFlag (Reg.PCIE_FUNC_MSE.of 3) true).setFlag (Reg.PCIE_FUNC_MSE.of 1) true).setFlag (Reg.PCIE_FUNC_MSE.of 0) true with pwr := { s.pwr with aux := true, main := true }, host := { s.host with numVfs := 2 } }
def wMb (op : MbOp) : State := { (wS36 (ran 2)).setFld Reg.IMP_MB_STATUS_STATE 1 with boot := { (ran 2).boot with mb := some op } }
def wRcd : EnrolRecord := { deviceId := 5, ownerDigest := 77, exclusive := false, body := 3, sealed := ⟨Config.rootDigest % 2 ^ 256, ⟨Config.rootDigest, 3⟩⟩ }
def wOp : MbOp := { cmd := 3, addr := 2, len := 3, enrol := some wRcd, vppMv := 1700 }
def wFall : State := { ran 2 with pending := [.mainPgFall] }
def wEn : State := { wMb { wOp with enrol := some { wRcd with deviceId := Config.identityId }, vppMv := 1854 } with fuses := {}, pending := [.perstAssert] }

/-- The hypotheses of `Obligations.StepRunsTheCommandAtTheFront` can be met, clause by clause. -/
theorem witness_StepRunsTheCommandAtTheFront :
    (∃ (s : State) (c : Instr) (l : List Instr), s.pending = c :: l) := by
  · exact ⟨{ ran 2 with pending := [.auxPgRise, .mainPgFall] }, .auxPgRise, [.mainPgFall], by decide +kernel⟩

/-- The hypotheses of `Obligations.AnIdleStepIsOneTickOfTheClock` can be met, clause by clause. -/
theorem witness_AnIdleStepIsOneTickOfTheClock :
    (∃ (s : State), s.pending = [] ∧ s.running = true) ∧
    (∃ (s : State), s.pending = [] ∧ s.running = false) := by
  refine ⟨?_, ?_⟩
  · exact ⟨ran 2, by decide +kernel⟩
  · exact ⟨{ State.reset with pwr := { main := false } }, by decide +kernel⟩

/-- The hypotheses of `Obligations.EveryStepKeepsTheCanonicalForm` can be met, clause by clause. -/
theorem witness_EveryStepKeepsTheCanonicalForm :
    (∃ (s : State) (t : State), s.canonical = true ∧ step s = .next t) := by
  · exact ⟨wFall, nxt (step wFall), (by decide +kernel), rfl⟩

/-- The hypotheses of `Obligations.CommandsKeepTheQueueAndWhatIsSent` can be met, clause by clause. -/
theorem witness_CommandsKeepTheQueueAndWhatIsSent :
    (∃ (c : Instr) (s : State) (t : State), exec c s = .next t) := by
  · exact ⟨.mainPgFall, wFall, nxt (exec .mainPgFall wFall), rfl⟩

/-- The hypotheses of `Obligations.OnlyTransitionsChangeTheMode` can be met, clause by clause. -/
theorem witness_OnlyTransitionsChangeTheMode :
    (∃ (c : Instr) (s : State) (t : State), movesMode c = false ∧ exec c s = .next t) := by
  · exact ⟨.dmaFlagsWrite 5, wFall, nxt (exec (.dmaFlagsWrite 5) wFall), (by decide +kernel), rfl⟩

/-- The hypotheses of `Obligations.OnlyTicksAdvanceTheUptime` can be met, clause by clause. -/
theorem witness_OnlyTicksAdvanceTheUptime :
    (∃ (s : State), s.running = true) ∧
    (∃ (c : Instr) (s : State) (t : State), exec c s = .next t) := by
  refine ⟨?_, ?_⟩
  · exact ⟨wFall, by decide +kernel⟩
  · exact ⟨.mainPgFall, wFall, nxt (exec .mainPgFall wFall), rfl⟩

/-- The hypotheses of `Obligations.FusesAreBurntOnceByEnrolment` can be met, clause by clause. -/
theorem witness_FusesAreBurntOnceByEnrolment :
    (∃ (c : Instr) (s : State) (t : State), exec c s = .next t) ∧
    (∃ (s : State) (t : State) (d : Nat), s.fuses.ownerDigest = some d ∧ step s = .next t) := by
  refine ⟨?_, ?_⟩
  · exact ⟨.mbTransferDone true, wEn, nxt (exec (.mbTransferDone true) wEn), rfl⟩
  · exact ⟨wFall, nxt (step wFall), 42, (by decide +kernel), rfl⟩

/-- The hypotheses of `Obligations.EnrolNeedsTheFuseVoltage` can be met, clause by clause. -/
theorem witness_EnrolNeedsTheFuseVoltage :
    (∃ (s : State) (op : MbOp) (r : EnrolRecord), s.boot.mb = some op ∧ op.transferred = false ∧ op.cmd = 3 ∧ op.enrol = some r ∧ (op.vppMv < 1746 ∨ 1854 < op.vppMv)) := by
  · exact ⟨wMb wOp, wOp, wRcd, rfl, (by decide +kernel), (by decide +kernel), rfl, (by decide +kernel)⟩

/-- The hypotheses of `Obligations.ABusyMailboxIsUnaffected` can be met, clause by clause. -/
theorem witness_ABusyMailboxIsUnaffected :
    (∃ (s : State) (op : MbOp), s.boot.mb = some op ∧ s.fld Reg.IMP_MB_STATUS_STATE = 1 ∧ s.served 3 = true) := by
  · exact ⟨wMb wOp, wOp, rfl, (by decide +kernel), (by decide +kernel)⟩

/-- The hypotheses of `Obligations.AReimpositionInProgressIsUnaffected` can be met, clause by clause. -/
theorem witness_AReimpositionInProgressIsUnaffected :
    (∃ (s : State), 1 ≤ s.fld Reg.IMP_REIMP_STATUS_STATE ∧ s.fld Reg.IMP_REIMP_STATUS_STATE ≤ 4) := by
  · exact ⟨wStuck 2, by decide +kernel⟩

/-- The hypotheses of `Obligations.AResetQuarantinesItsReads` can be met, clause by clause. -/
theorem witness_AResetQuarantinesItsReads :
    (∃ (s : State) (fn : BitVec 6), s.enabledFuncs.contains fn.toNat = true) ∧
    (∃ (s : State), s.running = true ∧ s.mode ≠ 6 ∧ s.flag Reg.GLB_RESET_CFG_HOT_FULL = false) ∧
    (∃ (s : State) (fn : BitVec 6) (g : BitVec 10) (x : Quarantine), x.byReset = true ∧ (s.host.quarantine.find? fun x => Nat.beq x.func fn.toNat && Nat.beq x.tag g.toNat) = some x) := by
  refine ⟨?_, ?_, ?_⟩
  · exact ⟨wS36 (ran 2), 0, by decide +kernel⟩
  · exact ⟨wS36 (ran 2), by decide +kernel⟩
  · exact ⟨{ ran 2 with host := { quarantine := [{ func := 1, tag := 9, path := .flowCmd, byReset := true }] } }, 1, 9, { func := 1, tag := 9, path := .flowCmd, byReset := true }, by decide +kernel⟩

/-- The hypotheses of `Obligations.TheChangeTimeIsTheSmallest` can be met, clause by clause. -/
theorem witness_TheChangeTimeIsTheSmallest :
    (∃ (cycle : Nat), 0 < cycle) := by
  · exact ⟨250, by decide +kernel⟩

end W36

end Sys2Proof.Tests
end

namespace Sys2Proof.Machine

/-! ### Short-form times (R14, R15) -/

/-- A number of 32 bits stands for the same signed number in the model and as a word. -/
theorem signed_toNat (x : BitVec 32) : signed 32 x.toNat = x.toInt := by
  have hx := x.isLt
  rw [BitVec.toInt_eq_toNat_cond, signed, Nat.mod_eq_of_lt hx]
  split <;> split <;> omega

/-- Only the low 32 bits count. -/
theorem signed_congr {a b : Nat} (h : a % 2 ^ 32 = b % 2 ^ 32) : signed 32 a = signed 32 b := by
  unfold signed; rw [h]

theorem shortDiff_toNat (target now : BitVec 32) :
    shortDiff target.toNat now.toNat = (target - now).toInt := by
  rw [← signed_toNat, shortDiff]
  apply signed_congr
  have ht := target.isLt
  have hn := now.isLt
  rw [BitVec.toNat_sub]
  omega

theorem shortDiff_self (now : Nat) : shortDiff now now = 0 := by
  rw [shortDiff, signed_congr (b := 0) (by omega)]
  rfl

/-- Settles O49: the model's signed difference is that of 32-bit words, and it is 0 of a target that equals now. -/
theorem shortTargetsAreDueBySignedDifference : Obligations.ShortTargetsAreDueBySignedDifference := by
  unfold Obligations.ShortTargetsAreDueBySignedDifference
  refine ⟨fun target now => ?_, shortDiff_toNat, fun now => ?_⟩
  · rw [shortDue, decide_eq_true_iff, shortDiff_toNat]
  · rw [shortDue, shortDiff_self]
    rfl

end Sys2Proof.Machine

namespace Sys2Proof.Machine

/-! ### What a set of parts written leaves -/

/-- What writes only the parts `m` leaves every part outside a larger list. -/
theorem Writes.sameBut {l m : List Part} {s t : State} (h : Writes m s t) (hm : m ⊆ l := by decide) :
    s.sameBut l t := ((Writes.refl l s).step h hm).same

/-- One operation after another: the parts of both are written. -/
theorem Writes.then {l m n : List Part} {s t u : State} (h : Writes l s t) (k : Writes m t u)
    (hl : l ⊆ n := by decide) (hm : m ⊆ n := by decide) : Writes n s u :=
  ((Writes.refl n s).step h hl).step k hm

/-! ### Events and outputs -/

theorem State.posts_postOpen {s t : State} (c : Nat) (h : t.posted = s.posted) : s.posts [c] (t.postOpen c) :=
  ⟨[⟨c, t.freeVal.toNat⟩], by rw [← h]; rfl, rfl⟩

/-- An event that has never been posted is under no limit yet. -/
theorem State.postOpenLimited_first (s : State) (c : Nat) (h : Table.get (fun _ => 0) s.lastPost c = 0) :
    (s.postOpenLimited c).posted = s.posted ++ [⟨c, s.freeVal.toNat⟩] := by
  simp [State.postOpenLimited, State.postLimited, h, State.draw, State.post]

/-- R454: a poisoned write is counted, and its first event posted. -/
theorem State.poisoned_counted (s : State) : ((s.count Cnt.PCIE_POISONED_RX).postOpenLimited 0x0506).cnt
    Cnt.PCIE_POISONED_RX = (s.cnt Cnt.PCIE_POISONED_RX + 1) % 2 ^ 64 := by
  have h : ∀ t : State, (t.postOpenLimited 0x0506).cnts = t.cnts := fun t => (t.postOpenLimited_writes _).same .cnts (by decide)
  rw [State.cnt, h]
  exact s.count_cnt_same _

theorem State.poisoned_posts (s : State) (h : Table.get (fun _ => 0) s.lastPost 0x0506 = 0) :
    s.posts [0x0506] ((s.count Cnt.PCIE_POISONED_RX).postOpenLimited 0x0506) :=
  ⟨_, (s.count Cnt.PCIE_POISONED_RX).postOpenLimited_first 0x0506 h, rfl⟩

theorem State.poisoned_writes (s : State) : Writes [.cnts, .posted, .lastPost, .free] s
    ((s.count Cnt.PCIE_POISONED_RX).postOpenLimited 0x0506) :=
  (s.count_writes _).then (State.postOpenLimited_writes _ _)

theorem State.countsBut_of_cnts {s t : State} {i : Nat} (h : t.cnts = (s.count i).cnts) : s.countsBut [i] t := by
  intro j hj
  rw [State.cnt, h]
  exact s.count_cnt_other (by simpa [eq_comm] using hj)

/-! ### Requests (R450) -/

theorem State.served_iff (s : State) (fn : Nat) : s.served fn = true ↔ s.running = true ∧ s.mode ≠ 6 ∧
    s.enabledFuncs.contains fn = true ∧ s.flag (Reg.PCIE_FUNC_MSE.of fn) = true ∧
    s.fld (Reg.PCIE_FUNC_DSTATE.of fn) = 0 := by
  simp [State.served, and_assoc, ← Bool.not_eq_true, Nat.beq_eq]

theorem State.pf_enabled (s : State) (fn : Fin 4) : s.enabledFuncs.contains fn.val = true := by
  simp [State.enabledFuncs]; omega

theorem State.unsupported_of_reached (s : State) {fn : Nat} (hr : s.running = true) (hm : s.mode ≠ 6)
    (he : s.enabledFuncs.contains fn = true) :
    s.unsupported fn = (s.count Cnt.PCIE_UR_SENT).emit (.unsupported fn) := by
  simp only [State.unsupported, hr, he]; simp [hm]

theorem State.unsupported_of_unreached (s : State) {fn : Nat}
    (h : s.running = false ∨ s.mode = 6 ∨ s.enabledFuncs.contains fn = false) : s.unsupported fn = s := by
  rcases h with h | h | h <;> simp only [State.unsupported, h] <;> simp

/-- An Unsupported Request is counted and sent. -/
theorem State.countUr_cnt (s : State) (o : Output) : ((s.count Cnt.PCIE_UR_SENT).emit o).cnt Cnt.PCIE_UR_SENT =
    (s.cnt Cnt.PCIE_UR_SENT + 1) % 2 ^ 64 := s.count_cnt_same _

theorem State.countUr_writes (s : State) (o : Output) :
    Writes [.cnts, .out] s ((s.count Cnt.PCIE_UR_SENT).emit o) :=
  (s.count_writes _).then (State.emit_writes _ _)

/-! ### DRAM windows (R469 to R471) -/

/-- Window after window takes what is staged for it. -/
def State.activate (s : State) (l : List Nat) : State :=
  l.foldl (fun s w => s.wr (Reg.PCIE_WIN_ACTIVE w) (s.rd (Reg.PCIE_WIN_STAGE w))) s

theorem State.activate_writes (s : State) (l : List Nat) : Writes [.regs] s (s.activate l) :=
  (Writes.refl _ s).foldl fun y w => y.wr_writes_ne _ _ (by simp only [Reg.PCIE_WIN_ACTIVE, Reg.GLB_MODE]; omega)

theorem State.activate_rd_other (s : State) {l : List Nat} {a : Nat} (h : ∀ w ∈ l, a ≠ Reg.PCIE_WIN_ACTIVE w) :
    (s.activate l).rd a = s.rd a := by
  induction l generalizing s with
  | nil => rfl
  | cons w l ih =>
    rw [List.forall_mem_cons] at h
    exact (ih _ h.2).trans (s.wr_rd_other _ h.1.symm)

/-- A staged window is no active one, so each activation takes the word staged at the start. -/
theorem State.activate_rd_mem (s : State) {l : List Nat} {w : Nat} (h : w ∈ l) :
    (s.activate l).rd (Reg.PCIE_WIN_ACTIVE w) = s.rd (Reg.PCIE_WIN_STAGE w) := by
  induction l generalizing s with
  | nil => cases h
  | cons x l ih =>
    have hx : (s.wr (Reg.PCIE_WIN_ACTIVE x) (s.rd (Reg.PCIE_WIN_STAGE x))).rd (Reg.PCIE_WIN_STAGE w) =
        s.rd (Reg.PCIE_WIN_STAGE w) := s.wr_rd_other _ (by simp only [Reg.PCIE_WIN_ACTIVE, Reg.PCIE_WIN_STAGE]; omega)
    by_cases hw : w ∈ l
    · exact (ih _ hw).trans hx
    · have hwx : w = x := (List.mem_cons.mp h).resolve_right hw
      subst hwx
      refine (State.activate_rd_other _ (l := l) fun k hk e => hw ?_).trans (s.wr_rd_same _ _)
      have hwk : w = k := by simp only [Reg.PCIE_WIN_ACTIVE] at e; omega
      exact hwk ▸ hk

/-- The windows of a mask that may not become active. -/
def State.refusedWindows (s : State) (mask : Nat) : List Nat :=
  (List.range 4).filter fun w => !s.windowOk w && mask.testBit w

theorem State.commitWindows_ok (s : State) (mask : Nat) (h : s.refusedWindows mask = []) :
    s.commitWindows mask = (s.activate ((List.range 4).filter mask.testBit)).postOpen 0x0504 := by
  rw [State.refusedWindows, ← List.filter_filter] at h
  simp only [State.commitWindows, h, if_true]
  rfl

theorem State.commitWindows_refused (s : State) (mask : Nat) (h : s.refusedWindows mask ≠ []) :
    s.commitWindows mask = ((s.setFld Reg.PCIE_WIN_STATUS_REFUSED
      ((s.refusedWindows mask).foldl (fun a w => a + 2 ^ w) 0)).setFld Reg.PCIE_WIN_STATUS_ERROR 1).postOpen 0x0505 := by
  rw [State.refusedWindows, ← List.filter_filter] at h ⊢
  simp only [State.commitWindows, h, if_false]

/-- The sum of the powers of two named by `p` is the mask of `p`. -/
theorem foldl_two_pow_range (p : Nat → Bool) (n : Nat) :
    ((List.range n).filter p).foldl (fun a w => a + 2 ^ w) 0 < 2 ^ n ∧
      ∀ k < n, (((List.range n).filter p).foldl (fun a w => a + 2 ^ w) 0).testBit k = p k := by
  induction n with
  | zero => exact ⟨Nat.one_pos, fun k hk => absurd hk (Nat.not_lt_zero k)⟩
  | succ n ih =>
    obtain ⟨hlt, hbit⟩ := ih
    rw [List.range_succ, List.filter_append, List.foldl_append]
    generalize ((List.range n).filter p).foldl (fun a w => a + 2 ^ w) 0 = m at hlt hbit
    cases hp : p n with
    | false =>
      simp only [List.filter, hp, List.foldl_nil]
      refine ⟨by omega, fun k hk => ?_⟩
      obtain hk | rfl := Nat.lt_succ_iff_lt_or_eq.mp hk
      · exact hbit k hk
      · rw [hp, Nat.testBit_lt_two_pow hlt]
    | true =>
      simp only [List.filter, hp, List.foldl_cons, List.foldl_nil, Nat.add_comm m]
      refine ⟨by omega, fun k hk => ?_⟩
      obtain hk | rfl := Nat.lt_succ_iff_lt_or_eq.mp hk
      · rw [Nat.testBit_two_pow_add_gt hk, hbit k hk]
      · rw [hp, Nat.testBit_two_pow_add_eq, Nat.testBit_lt_two_pow hlt, Bool.not_false]

theorem State.dramWrite_one (s : State) (a : Nat) (b : Byte) (p : Bool) (k : Nat) :
    (s.dramWrite a [b] p).dramByte k = if k = a then b else s.dramByte k := by
  split
  · subst k; exact Table.get_set_same _ _ _ _
  · exact Table.get_set_other _ _ _ (Ne.symm ‹_›)

/-- R471: a byte takes the value of the write where its enable is set. -/
theorem State.writeEnabled_dramByte (s : State) (a : Nat) (p : Bool) (d : List (Option Byte)) (k : Nat) :
    (s.writeEnabled a p d).dramByte k =
      if a ≤ k ∧ k < a + d.length then (d.getD (k - a) none).getD (s.dramByte k) else s.dramByte k := by
  induction d generalizing s a with
  | nil => rw [if_neg (by simp)]; rfl
  | cons b d ih =>
    have hrest : ∀ t : State, ((t.writeEnabled (a + 1) p d).dramByte k) = if k = a then t.dramByte k else
        if a ≤ k ∧ k < a + (b :: d).length then ((b :: d).getD (k - a) none).getD (t.dramByte k) else t.dramByte k := by
      intro t
      rw [ih, List.length_cons]
      by_cases hk : k = a
      · rw [if_pos hk, if_neg (by omega)]
      · rw [if_neg hk]
        by_cases hin : a + 1 ≤ k ∧ k < a + 1 + d.length
        · obtain ⟨j, rfl⟩ := Nat.exists_eq_add_of_le hin.1
          rw [if_pos hin, if_pos (by omega), Nat.add_sub_cancel_left, show a + 1 + j - a = j + 1 by omega]
          rfl
        · rw [if_neg hin, if_neg (by omega)]
    cases b with
    | none =>
      refine (hrest s).trans ?_
      by_cases hk : k = a
      · subst hk; simp
      · rw [if_neg hk]
    | some b =>
      refine (hrest (s.dramWrite a [b] p)).trans ?_
      rw [State.dramWrite_one]
      by_cases hk : k = a
      · subst hk; simp
      · simp only [if_neg hk]

/-- A window is open by registers alone. -/
theorem State.windowOpen_of_regs {s t : State} (h : t.regs = s.regs) (w fn : Nat) :
    t.windowOpen w fn = s.windowOpen w fn := by
  simp only [State.windowOpen, State.mode, State.flag, State.fld, State.rd, h]

/-! ### Bits of words -/

theorem testBit_putBits_one (w i v j : Nat) : (putBits w i 1 v).testBit j =
    if j = i then v.testBit 0 else w.testBit j := by
  have hb : ∀ x k : Nat, x.testBit k = decide (bits x k 1 = 1) := fun x k => by
    rw [Nat.testBit_eq_decide_div_mod_eq, bits, Nat.pow_one]
  rw [hb, hb w]
  rcases Nat.lt_trichotomy j i with h | rfl | h
  · rw [if_neg (by omega), bits_putBits_below _ _ _ _ _ _ (by omega)]
  · rw [if_pos rfl, bits_putBits_same, Nat.pow_one, Nat.testBit_zero]
  · rw [if_neg (by omega), bits_putBits_above _ _ _ _ _ _ (by omega)]

theorem ofNat_setBit_true (w : Word) {i : Nat} (h : i < 32) :
    BitVec.ofNat 32 (setBit w.toNat i true) = w ||| 1#32 <<< i := by
  apply BitVec.eq_of_getLsbD_eq
  intro j hj
  rw [BitVec.getLsbD_ofNat, setBit, testBit_putBits_one, BitVec.getLsbD_or, BitVec.getLsbD_shiftLeft,
    BitVec.testBit_toNat]
  by_cases hji : j = i
  · subst hji; simp [hj]
  · rw [if_neg hji]
    have : j < i ∨ j - i ≠ 0 := by omega
    rcases this with h | h <;> simp [hj, h, BitVec.getLsbD_one]

theorem getLsbD_putBit (w : BitVec 64) (b : Bool) {i : Nat} (h : i < 64) :
    (if b then w ||| 1#64 <<< i else w &&& ~~~(1#64 <<< i)).getLsbD i = b := by
  cases b <;> simp [h]

/-! ### Interrupt vectors (R458 to R461) -/

namespace State

@[simp] theorem setVec_vec_same (s : State) (fn v : Nat) (x : Vector) : (s.setVec fn v x).vec fn v = x :=
  Table.get_set_same _ _ _ _

theorem setVec_vec_other (s : State) {fn v f k : Nat} (x : Vector) (hf : f ≠ fn) (hv : v < 2048) (hk : k < 2048) :
    (s.setVec fn v x).vec f k = s.vec f k := Table.get_set_other _ _ _ (by omega)

@[simp] theorem setVec_fld (s : State) (fn v : Nat) (x : Vector) (g : Field) : (s.setVec fn v x).fld g = s.fld g := rfl
@[simp] theorem emit_vec (s : State) (o : Output) (fn v : Nat) : (s.emit o).vec fn v = s.vec fn v := rfl
@[simp] theorem setVec_fnMask (s : State) (fn v : Nat) (x : Vector) :
    (s.setVec fn v x).host.fnMask = s.host.fnMask := rfl

theorem deliver_msix (s : State) {fn : Nat} (v : Nat) (h : s.fld (Reg.PCIE_FUNC_IRQ_MODE.of fn) = 3) :
    s.deliver fn v = s.emit (.message fn v) := by rw [deliver, if_pos h]

theorem deliver_msi (s : State) {fn : Nat} (v : Nat) (h : s.fld (Reg.PCIE_FUNC_IRQ_MODE.of fn) = 2) :
    s.deliver fn v = s.emit (.message fn (v % max 1 (Table.get (fun _ => 1) s.host.msiMessages fn))) := by
  rw [deliver, if_neg (by omega), if_pos h]

theorem deliver_intx (s : State) {fn : Nat} (v : Nat) (h : s.fld (Reg.PCIE_FUNC_IRQ_MODE.of fn) < 2) :
    s.deliver fn v = s.wr (Reg.PCIE_INTX_PEND + fn * 0x4000000)
      (s.rd (Reg.PCIE_INTX_PEND + fn * 0x4000000) ||| 1#32 <<< (v % 32)) := by
  rw [deliver, if_neg (by omega), if_neg (by omega), ← ofNat_setBit_true _ (Nat.mod_lt _ (by decide))]
  rfl

@[simp] theorem deliver_vec (s : State) (fn v f k : Nat) : (s.deliver fn v).vec f k = s.vec f k := by
  rw [vec, (s.deliver_writes fn v).same .host (by decide)]; rfl

theorem vecMasked_msix (s : State) {fn : Nat} (v : Nat) (h : s.fld (Reg.PCIE_FUNC_IRQ_MODE.of fn) = 3) :
    s.vecMasked fn v = (!(s.vec fn v).unmasked || s.host.fnMask.getLsbD fn) := by rw [vecMasked, if_pos h]

theorem sendVector_masked (s : State) {fn v : Nat} (h : s.vecMasked fn v = true) :
    s.sendVector fn v = s.setVec fn v { s.vec fn v with requests := 0, first := 0, pendingBit := true } := by
  rw [sendVector, if_pos h]

theorem sendVector_unmasked (s : State) {fn v : Nat} (h : s.vecMasked fn v = false) :
    s.sendVector fn v =
      (s.setVec fn v { s.vec fn v with requests := 0, first := 0, pendingBit := false }).deliver fn v := by
  rw [sendVector, if_neg (by simp [h])]

theorem deliverPending_held (s : State) {fn v : Nat} (h : (s.vec fn v).pendingBit = false ∨ s.vecMasked fn v = true) :
    s.deliverPending fn v = s := by
  rw [deliverPending, if_neg]
  rcases h with h | h <;> simp [h]

theorem deliverPending_sent (s : State) {fn v : Nat} (hp : (s.vec fn v).pendingBit = true)
    (hm : s.vecMasked fn v = false) :
    s.deliverPending fn v = (s.setVec fn v { s.vec fn v with pendingBit := false }).deliver fn v := by
  rw [deliverPending, if_pos (by simp [hp, hm])]

/-- Another vector is touched by no sending. -/
theorem sendVector_vec_other (s : State) {fn v f k : Nat} (hf : f ≠ fn) (hv : v < 2048) (hk : k < 2048) :
    (s.sendVector fn v).vec f k = s.vec f k := by
  cases h : s.vecMasked fn v with
  | true => rw [sendVector_masked s h, setVec_vec_other s _ hf hv hk]
  | false => rw [sendVector_unmasked s h, deliver_vec, setVec_vec_other s _ hf hv hk]

end State

/-! ### The interrupt mode of a function (R458, R461) -/

/-- A change of the interrupt mode, before what is pending is sent in the new one. -/
def State.setMode (s : State) (fn : Nat) (msix mask msi : Bool) (messages : Nat) (intxDisable : Bool) : State :=
  let bit (w : BitVec 64) (b : Bool) : BitVec 64 := if b then w ||| 1#64 <<< fn else w &&& ~~~(1#64 <<< fn)
  let s := { s with host := { s.host with
      fnMask := bit s.host.fnMask mask, intxDisable := bit s.host.intxDisable intxDisable
      msiMessages := Table.set (fun _ => 1) s.host.msiMessages fn (max 1 messages) } }
  let s := s.setFld (Reg.PCIE_FUNC_IRQ_MODE.of fn) (irqMode fn msix msi intxDisable)
  let s := (s.setFlag (cfgMsix fn 31) msix).setFlag (cfgMsix fn 30) mask
  if fn < 4 then
    (s.setFlag (cfgMsi fn 16 1) msi).setFld (cfgMsi fn 20 3) (lowestBit 6 (max 1 messages) |>.getD 0)
  else s

namespace State

variable (s : State) (fn : Nat) (msix mask msi : Bool) (messages : Nat) (intxDisable : Bool)

theorem irqMode_eq : irqMode fn msix msi intxDisable =
    if msix then 3 else if 4 ≤ fn then 0 else if msi then 2 else if intxDisable then 0 else 1 := by
  have hb : Nat.blt fn 4 = !decide (4 ≤ fn) := by rw [Bool.eq_iff_iff]; simp [Nat.blt_eq]
  rw [irqMode, hb]
  by_cases h : 4 ≤ fn <;> cases msi <;> cases intxDisable <;> simp [h]

theorem changeMode_eq : s.changeMode fn msix mask msi messages intxDisable =
    ((s.setMode fn msix mask msi messages intxDisable).liveVectors fn).foldl (fun t v =>
      if s.fld (Reg.PCIE_FUNC_IRQ_MODE.of fn) ≠ irqMode fn msix msi intxDisable ∧ 0 < (t.vec fn v).requests
      then t.sendVector fn v else t.deliverPending fn v) (s.setMode fn msix mask msi messages intxDisable) := rfl

theorem setMode_host : (s.setMode fn msix mask msi messages intxDisable).host = { s.host with
    fnMask := if mask then s.host.fnMask ||| 1#64 <<< fn else s.host.fnMask &&& ~~~(1#64 <<< fn)
    intxDisable := if intxDisable then s.host.intxDisable ||| 1#64 <<< fn else s.host.intxDisable &&& ~~~(1#64 <<< fn)
    msiMessages := Table.set (fun _ => 1) s.host.msiMessages fn (max 1 messages) } := by
  unfold setMode; split <;> rfl

@[simp] theorem setMode_vec (f k : Nat) :
    (s.setMode fn msix mask msi messages intxDisable).vec f k = s.vec f k := by
  rw [vec, setMode_host]; rfl

theorem setMode_liveVectors :
    (s.setMode fn msix mask msi messages intxDisable).liveVectors fn = s.liveVectors fn := by
  rw [liveVectors, setMode_host]; rfl

theorem irqMode_reg_ne : (Reg.PCIE_FUNC_IRQ_MODE.of fn).reg ≠ Reg.GLB_MODE := by
  simp only [Field.of, Reg.PCIE_FUNC_IRQ_MODE, Reg.PCIE_FUNC, Reg.GLB_MODE]; omega

theorem cfgMsix_reg_ne (lo : Nat) : (cfgMsix fn lo).reg ≠ Reg.GLB_MODE := by
  simp only [cfgMsix, Reg.GLB_MODE]; omega

theorem cfgMsi_reg_ne (lo w : Nat) : (cfgMsi fn lo w).reg ≠ Reg.GLB_MODE := by
  simp only [cfgMsi, Reg.GLB_MODE]; omega

theorem setMode_writes : Writes [.regs, .host] s (s.setMode fn msix mask msi messages intxDisable) := by
  have hh : ∀ x, Writes [.regs, .host] s { s with host := x } := Writes.set_host (Writes.refl _ s) (by decide)
  have hx := fun x => Writes.step (Writes.step (Writes.step (hh x) (setFld_writes_ne _ _ (irqMode fn msix msi intxDisable)
    (irqMode_reg_ne fn)) (by decide)) (setFlag_writes_ne _ _ msix (cfgMsix_reg_ne fn 31)) (by decide))
    (setFlag_writes_ne _ _ mask (cfgMsix_reg_ne fn 30)) (by decide)
  exact Writes.ite (Writes.step (Writes.step (hx _) (setFlag_writes_ne _ _ _ (cfgMsi_reg_ne fn 16 1)) (by decide))
    (setFld_writes_ne _ _ _ (cfgMsi_reg_ne fn 20 3)) (by decide)) (hx _)

theorem setMode_irqMode : (s.setMode fn msix mask msi messages intxDisable).fld (Reg.PCIE_FUNC_IRQ_MODE.of fn) =
    irqMode fn msix msi intxDisable := by
  have hx : ∀ lo, (cfgMsix fn lo).reg ≠ (Reg.PCIE_FUNC_IRQ_MODE.of fn).reg := fun lo => by
    simp only [cfgMsix, Field.of, Reg.PCIE_FUNC_IRQ_MODE, Reg.PCIE_FUNC]; omega
  have hm : ∀ lo w, (cfgMsi fn lo w).reg ≠ (Reg.PCIE_FUNC_IRQ_MODE.of fn).reg := fun lo w => by
    simp only [cfgMsi, Field.of, Reg.PCIE_FUNC_IRQ_MODE, Reg.PCIE_FUNC]; omega
  have hlt : irqMode fn msix msi intxDisable < 4 := by
    unfold irqMode
    repeat' split
    all_goals decide
  unfold setMode
  split <;> simp only [setFlag, setFld_fld_reg _ _ (hx _), setFld_fld_reg _ _ (hm _ _)] <;>
    exact (setFld_fld_same _ _ _ (by simp [Field.of, Reg.PCIE_FUNC_IRQ_MODE])).trans (Nat.mod_eq_of_lt hlt)

end State

/-! ### The commands on windows, requests and vectors -/

section
variable (s : State)

theorem exec_winCommit (m : BitVec 4) : exec (.winCommit m) s = .next (s.commitWindows m.toNat) := by rfl

theorem exec_windowWrite (w fn : Fin 4) (o : BitVec 23) (d : List (Option Byte)) (p : Bool) :
    exec (.windowWrite w fn o d p) s =
      .next (if s.served fn then s.windowWrite w fn o.toNat d p else s.unsupported fn) := by rfl

theorem exec_windowRead (w fn : Fin 4) (o : BitVec 23) (n : Fin 4097) (u : Bool) :
    exec (.windowRead w fn o n u) s =
      .next (if s.served fn then s.windowRead w fn o.toNat n u else s.unsupported fn) := by rfl

theorem exec_unsupportedRequest (fn : BitVec 6) (k : BadRequest) : exec (.unsupportedRequest fn k) s =
    .next (if k = .memory ∧ s.flag (Reg.PCIE_FUNC_MSE.of fn.toNat) ∧ s.fld (Reg.PCIE_FUNC_DSTATE.of fn.toNat) = 0 then s
      else (s.count Cnt.PCIE_UR_SENT).emit (.unsupported fn.toNat)) := by rfl

theorem exec_vectorCoalesceTimeout (fn : BitVec 6) (v : BitVec 11) : exec (.vectorCoalesceTimeout fn v) s =
    .next (if 0 < (s.vec fn.toNat v.toNat).requests ∧ (s.vec fn.toNat v.toNat).first +
        s.fld ((Reg.PCIE_VEC_TIME_US v.toNat).of fn.toNat) * 1000 ≤ s.tb.uptime
      then s.sendVector fn.toNat v.toNat else s) := by rfl

theorem exec_vectorUnmask (fn : BitVec 6) (v : BitVec 11) : exec (.vectorUnmask fn v) s =
    .next ((s.setVec fn.toNat v.toNat (if s.fld (Reg.PCIE_FUNC_IRQ_MODE.of fn.toNat) = 2
      then { s.vec fn.toNat v.toNat with msiMasked := false }
      else { s.vec fn.toNat v.toNat with unmasked := true })).deliverPending fn.toNat v.toNat) := by rfl

theorem exec_interruptModeChange (fn m : BitVec 6) (a b c d : Bool) : exec (.interruptModeChange fn a b c m d) s =
    .next (s.changeMode fn.toNat a b c m.toNat d) := by rfl

end


/-! ### What these commands do -/

namespace State

theorem refusedWindows_eq_nil (s : State) (m : BitVec 4) (h : ∀ w, w < 4 → m.getLsbD w = true → s.windowOk w = true) :
    s.refusedWindows m.toNat = [] := by
  rw [refusedWindows, List.filter_eq_nil_iff]
  intro w hw
  rw [BitVec.testBit_toNat]
  cases hm : m.getLsbD w with
  | false => simp
  | true => simp [h w (List.mem_range.mp hw) hm]

theorem refusedWindows_ne_nil (s : State) {m : BitVec 4} {w : Nat} (hw : w < 4) (hm : m.getLsbD w = true)
    (h : s.windowOk w = false) : s.refusedWindows m.toNat ≠ [] :=
  List.ne_nil_of_mem (a := w) (by
    rw [refusedWindows, List.mem_filter, BitVec.testBit_toNat, hm, h]
    exact ⟨List.mem_range.mpr hw, rfl⟩)

/-- R469: a commit of windows that may all become active. -/
theorem commitWindows_ok_spec (s : State) (m : BitVec 4) (h : s.refusedWindows m.toNat = []) :
    (∀ w, w < 4 → (s.commitWindows m.toNat).rd (Reg.PCIE_WIN_ACTIVE w) =
      if m.getLsbD w then s.rd (Reg.PCIE_WIN_STAGE w) else s.rd (Reg.PCIE_WIN_ACTIVE w)) ∧
    s.posts [0x0504] (s.commitWindows m.toNat) ∧
    s.regsBut ((List.range 4).map Reg.PCIE_WIN_ACTIVE) (s.commitWindows m.toNat) := by
  have hw := s.activate_writes ((List.range 4).filter m.toNat.testBit)
  rw [s.commitWindows_ok _ h]
  refine ⟨fun w hw => ?_, posts_postOpen _ (hw.same .posted (by decide)), fun a ha => ?_⟩
  · rw [postOpen_rd]
    have hmem : w ∈ (List.range 4).filter m.toNat.testBit ↔ m.getLsbD w = true := by
      rw [List.mem_filter, BitVec.testBit_toNat, List.mem_range, and_iff_right hw]
    split
    · exact s.activate_rd_mem (hmem.mpr ‹_›)
    · refine s.activate_rd_other fun k hk e => ?_
      have hwk : w = k := by simp only [Reg.PCIE_WIN_ACTIVE] at e; omega
      exact absurd (hmem.mp (hwk ▸ hk)) ‹_›
  · refine s.activate_rd_other fun k hk e => ha ?_
    exact e ▸ List.mem_map_of_mem (List.mem_filter.mp hk).1

/-- R469: a commit that names a window that may not become active. -/
theorem commitWindows_refused_spec (s : State) (m : BitVec 4) (h : s.refusedWindows m.toNat ≠ []) :
    (∀ k, k < 4 → (s.commitWindows m.toNat).bit Reg.PCIE_WIN_STATUS_REFUSED k = (m.getLsbD k && !s.windowOk k)) ∧
    (s.commitWindows m.toNat).fld Reg.PCIE_WIN_STATUS_ERROR = 1 ∧ s.posts [0x0505] (s.commitWindows m.toNat) ∧
    s.regsBut [Reg.PCIE_WIN_STATUS] (s.commitWindows m.toNat) := by
  rw [s.commitWindows_refused _ h]
  refine ⟨fun k hk => ?_, ?_, posts_postOpen _ rfl, fun a ha => ?_⟩
  · obtain ⟨hlt, hbit⟩ := foldl_two_pow_range (fun w => !s.windowOk w && m.toNat.testBit w) 4
    rw [bit, postOpen_fld, setFld_fld_bits (f := Reg.PCIE_WIN_STATUS_ERROR) (g := Reg.PCIE_WIN_STATUS_REFUSED) _ _
      (by decide) rfl (by decide), setFld_fld_same _ _ _ (by decide)]
    rw [show Reg.PCIE_WIN_STATUS_REFUSED.width = 4 from rfl, refusedWindows, Nat.mod_eq_of_lt hlt, hbit k hk,
      BitVec.testBit_toNat, Bool.and_comm]
  · rw [postOpen_fld, setFld_fld_same _ _ _ (by decide)]; rfl
  · have hne : a ≠ Reg.PCIE_WIN_STATUS := by simpa using ha
    rw [postOpen_rd, setFld_rd_other _ _ hne.symm, setFld_rd_other _ _ hne.symm]

theorem windowWrite_closed (s : State) {w fn : Nat} (o : Nat) (d : List (Option Byte))
    (h : s.windowOpen w fn = false) : s.windowWrite w fn o d false = s := by
  simp [windowWrite, h]

theorem windowWrite_poisoned_closed (s : State) {w fn : Nat} (o : Nat) (d : List (Option Byte))
    (h : s.windowOpen w fn = false) :
    s.windowWrite w fn o d true = (s.count Cnt.PCIE_POISONED_RX).postOpenLimited 0x0506 := by
  have hr := windowOpen_of_regs (s.poisoned_writes.same .regs (by decide)) w fn
  simp [windowWrite, hr, h]

theorem windowWrite_readOnly (s : State) {w fn : Nat} (o : Nat) (d : List (Option Byte))
    (h : s.windowOpen w fn = true) (hr : s.flag (Reg.PCIE_WIN_ACTIVE_RDONLY w) = true) :
    s.windowWrite w fn o d false = s.count Cnt.PCIE_WIN_RO_DROP := by
  simp [windowWrite, h, hr]

theorem windowWrite_open (s : State) {w fn o : Nat} {d : List (Option Byte)} (h : s.windowOpen w fn = true)
    (hr : s.flag (Reg.PCIE_WIN_ACTIVE_RDONLY w) = false) (hl : o + d.length ≤ 0x800000) :
    s.windowWrite w fn o d false = s.writeEnabled (s.windowBase w + o) false d := by
  simp [windowWrite, h, hr, List.take_of_length_le (show d.length ≤ 0x800000 - o by omega)]

theorem windowRead_closed (s : State) {w fn : Nat} (o n : Nat) (u : Bool) (h : s.windowOpen w fn = false) :
    s.windowRead w fn o n u = s.emit (.completion fn (List.replicate n 0) false) := by
  rw [windowRead, if_pos h]

theorem windowRead_open (s : State) {w fn : Nat} (o n : Nat) (u : Bool) (h : s.windowOpen w fn = true) :
    s.windowRead w fn o n u = (if (s.dramRead (s.windowBase w + o) n).2 || u then s.count Cnt.PCIE_POISONED_TX
      else s).emit (.completion fn ((List.range n).map fun k => s.dramByte (s.windowBase w + o + k))
        ((s.dramRead (s.windowBase w + o) n).2 || u)) := by
  rw [windowRead, if_neg (by simp [h])]
  simp only [dramRead, List.map_map]
  rfl

/-- R460, R461: what a message that falls due leaves, in each interrupt mode. -/
theorem sendVector_spec (s : State) (fn v : Nat) :
    (s.vecMasked fn v = true → (s.sendVector fn v).vec fn v =
        { s.vec fn v with requests := 0, first := 0, pendingBit := true } ∧ s.sameBut [.host] (s.sendVector fn v)) ∧
    (s.vecMasked fn v = false → (s.sendVector fn v).vec fn v =
        { s.vec fn v with requests := 0, first := 0, pendingBit := false } ∧
      (s.fld (Reg.PCIE_FUNC_IRQ_MODE.of fn) = 3 → (s.sendVector fn v).out = s.out ++ [.message fn v] ∧
        s.sameBut [.out, .host] (s.sendVector fn v)) ∧
      (s.fld (Reg.PCIE_FUNC_IRQ_MODE.of fn) = 2 → (s.sendVector fn v).out = s.out ++
          [.message fn (v % max 1 (Table.get (fun _ => 1) s.host.msiMessages fn))] ∧
        s.sameBut [.out, .host] (s.sendVector fn v)) ∧
      (s.fld (Reg.PCIE_FUNC_IRQ_MODE.of fn) < 2 → (s.sendVector fn v).rd (Reg.PCIE_INTX_PEND + fn * 0x4000000) =
          s.rd (Reg.PCIE_INTX_PEND + fn * 0x4000000) ||| 1#32 <<< (v % 32) ∧
        s.sameBut [.regs, .host] (s.sendVector fn v))) := by
  refine ⟨fun hm => ?_, fun hm => ?_⟩
  · rw [sendVector_masked s hm]
    exact ⟨setVec_vec_same _ _ _ _, (setVec_writes _ _ _ _).sameBut⟩
  · rw [sendVector_unmasked s hm]
    generalize ({ s.vec fn v with requests := 0, first := 0, pendingBit := false } : Vector) = x
    have hv := s.setVec_writes fn v x
    refine ⟨by rw [deliver_vec, setVec_vec_same], fun h => ?_, fun h => ?_, fun h => ?_⟩
    · rw [deliver_msix (s.setVec fn v x) v h]
      exact ⟨rfl, (hv.then (n := [.out, .host]) (emit_writes _ _)).same⟩
    · rw [deliver_msi (s.setVec fn v x) v h]
      exact ⟨rfl, (hv.then (n := [.out, .host]) (emit_writes _ _)).same⟩
    · rw [deliver_intx (s.setVec fn v x) v h]
      exact ⟨wr_rd_same _ _ _, (hv.then (n := [.regs, .host]) (wr_writes_ne _ _ _
        (by simp only [Reg.PCIE_INTX_PEND, Reg.GLB_MODE]; omega))).same⟩

/-- R461: in MSI-X mode an unmasked vector sends what is pending. -/
theorem unmask_msix_pending (s : State) {fn v : Nat} (h : s.fld (Reg.PCIE_FUNC_IRQ_MODE.of fn) = 3)
    (hp : (s.vec fn v).pendingBit = true) (hm : s.host.fnMask.getLsbD fn = false) :
    ∃ t, t = (s.setVec fn v { s.vec fn v with unmasked := true }).deliverPending fn v ∧
      t.vec fn v = { s.vec fn v with unmasked := true, pendingBit := false } ∧
      t.out = s.out ++ [.message fn v] ∧ s.sameBut [.out, .host] t := by
  refine ⟨_, rfl, ?_⟩
  rw [deliverPending_sent _ (by simpa using hp)
    (by rw [vecMasked_msix _ v (by simpa using h)]; simpa using hm), deliver_msix _ _ (by simpa using h)]
  refine ⟨by simp, rfl, ?_⟩
  exact ((setVec_writes _ _ _ _).then (n := [.out, .host]) ((setVec_writes _ _ _ _).then (n := [.out, .host])
    (emit_writes _ _))).same

end State

/-- R461: a change to MSI-X sends the message of the one vector of the function that has requests. -/
theorem State.changeMode_msix_sends (s : State) (fn : BitVec 6) (v : BitVec 11) {x : Vector} (msi d : Bool) (m : Nat)
    (hv : s.host.vectors = [(fn.toNat * 2048 + v.toNat, x)]) (hm : s.fld (Reg.PCIE_FUNC_IRQ_MODE.of fn.toNat) ≠ 3)
    (hr : 0 < x.requests) (hu : x.unmasked = true) :
    (s.changeMode fn.toNat true false msi m d).out = s.out ++ [.message fn.toNat v.toNat] ∧
      (s.changeMode fn.toNat true false msi m d).vec fn.toNat v.toNat =
        { x with requests := 0, first := 0, pendingBit := false } := by
  have hx : s.vec fn.toNat v.toNat = x := by rw [vec, hv]; exact if_pos rfl
  have hlive : s.liveVectors fn.toNat = [v.toNat] := by
    have hlt := v.isLt
    rw [liveVectors, hv]
    simp [show (fn.toNat * 2048 + v.toNat) / 2048 = fn.toNat by omega,
      show (fn.toNat * 2048 + v.toNat) % 2048 = v.toNat by omega]
  have hset := s.setMode_writes fn.toNat true false msi m d
  have hmode : (s.setMode fn.toNat true false msi m d).fld (Reg.PCIE_FUNC_IRQ_MODE.of fn.toNat) = 3 :=
    s.setMode_irqMode _ _ _ _ _ _
  have hmasked : (s.setMode fn.toNat true false msi m d).vecMasked fn.toNat v.toNat = false := by
    rw [vecMasked_msix _ _ hmode, setMode_vec, hx, hu, setMode_host]
    exact getLsbD_putBit _ false fn.isLt
  obtain ⟨-, hsent⟩ := (s.setMode fn.toNat true false msi m d).sendVector_spec fn.toNat v.toNat
  obtain ⟨hvec, hmsix, -⟩ := hsent hmasked
  rw [changeMode_eq, setMode_liveVectors, hlive, List.foldl_cons, List.foldl_nil,
    if_pos ⟨hm, by rw [setMode_vec, hx]; exact hr⟩, hvec, (hmsix hmode).1, setMode_vec, hx, hset.same .out (by decide)]
  exact ⟨rfl, rfl⟩

/-- Settles O31, clause by clause from what each command does: the commit of the windows, a request that is not
served, accesses of closed, read-only and open windows, and the vectors as a message falls due, is unmasked or
meets a change of the mode. -/
theorem windowsAndVectorsServeTheHost : Obligations.WindowsAndVectorsServeTheHost := by
  unfold Obligations.WindowsAndVectorsServeTheHost
  refine ⟨fun s m h => ?_, fun s m w hw hm h => ?_, fun s w fn o d p u n h i hi => ?_, fun s w fn o d h hc => ?_,
    fun s w fn o d h hc hl => ?_, fun s w fn o d h ho hr => ?_, fun s w fn o d a h ho hr hl ha => ?_,
    fun s w fn o n u h hc => ?_, fun s w fn o n u p a h ho ha hp => ?_, fun s fn hm hd => ?_, fun s fn k h => ?_,
    fun s fn v h => ?_, fun s fn v x hx hr hd => ?_, fun s fn v x hx h => ?_, fun s fn v x hx h hp => ?_,
    fun s fn m a b c d h => ?_, fun s fn m v x c d h hm hr hu => ?_⟩
  · obtain ⟨hrd, hposts, hregs⟩ := s.commitWindows_ok_spec m (s.refusedWindows_eq_nil m h)
    exact ⟨_, exec_winCommit s m, hrd, hposts, hregs, (s.commitWindows_writes _).same⟩
  · obtain ⟨hbit, herr, hposts, hregs⟩ := s.commitWindows_refused_spec m (s.refusedWindows_ne_nil hw hm h)
    exact ⟨_, exec_winCommit s m, hbit, herr, hposts, hregs, (s.commitWindows_writes _).same⟩
  · have he : exec i s = .next (s.unsupported fn) := by
      simp only [List.mem_cons, List.not_mem_nil, or_false] at hi
      rcases hi with rfl | rfl
      · simp [exec_windowWrite, h]
      · simp [exec_windowRead, h]
    rw [he]
    refine ⟨fun hn => ?_, fun hr hm => ⟨_, rfl, ?_⟩⟩
    · rw [s.unsupported_of_unreached (hn.imp_right Or.inl)]
    · rw [s.unsupported_of_reached hr hm (s.pf_enabled fn)]
      exact ⟨rfl, s.countUr_cnt _, State.countsBut_of_cnts rfl, (s.countUr_writes _).same⟩
  · rw [exec_windowWrite, if_pos h, s.windowWrite_closed _ _ hc]
  · rw [exec_windowWrite, if_pos h, s.windowWrite_poisoned_closed _ _ hc]
    exact ⟨_, rfl, s.poisoned_counted, s.poisoned_posts hl, s.poisoned_writes.same⟩
  · rw [exec_windowWrite, if_pos h, s.windowWrite_readOnly _ _ ho hr]
    exact ⟨_, rfl, s.count_cnt_same _, State.countsBut_of_cnts rfl, (s.count_writes _).same⟩
  · rw [exec_windowWrite, if_pos h, s.windowWrite_open ho hr hl]
    subst ha
    exact ⟨_, rfl, s.writeEnabled_dramByte _ _ d, (s.writeEnabled_writes _ _ _).same⟩
  · rw [exec_windowRead, if_pos h, s.windowRead_closed _ _ _ hc]
    exact ⟨_, rfl, rfl, (s.emit_writes _).same⟩
  · rw [exec_windowRead, if_pos h, s.windowRead_open _ _ _ ho]
    subst ha
    change p = ((s.dramRead (s.windowBase w + o.toNat) n).2 || u) at hp
    rw [← hp]
    cases p with
    | false => exact ⟨_, rfl, rfl, nofun, fun _ => rfl, (s.emit_writes _).sameBut⟩
    | true =>
      exact ⟨_, rfl, rfl, fun _ => s.count_cnt_same _, nofun, ((s.count_writes _).then (n := [.cnts, .out])
        (State.emit_writes _ _)).same⟩
  · rw [exec_unsupportedRequest, if_pos ⟨rfl, hm, hd⟩]
  · rw [exec_unsupportedRequest, if_neg (fun ⟨hk, hm, hd⟩ => by simp [hk, hm, hd] at h)]
    exact ⟨_, rfl, rfl, s.countUr_cnt _, State.countsBut_of_cnts rfl, (s.countUr_writes _).same⟩
  · rw [exec_vectorCoalesceTimeout, if_neg (by omega)]
  · subst hx
    obtain ⟨hmasked, hsent⟩ := s.sendVector_spec fn.toNat v.toNat
    rw [exec_vectorCoalesceTimeout, if_pos ⟨hr, hd⟩]
    exact ⟨_, rfl, hmasked, hsent, fun f k hf hk => s.sendVector_vec_other hf v.isLt hk⟩
  · subst hx
    rw [exec_vectorUnmask, if_neg (by omega)]
    refine ⟨_, rfl, fun hp hm => ?_, fun hh => ?_⟩
    · obtain ⟨t, rfl, hvec, hout, hsame⟩ := s.unmask_msix_pending h hp hm
      exact ⟨hvec, hout, hsame⟩
    · rw [State.deliverPending_held _ (by
        rw [State.vecMasked_msix _ _ (by simpa using h)]
        simpa using hh)]
      exact ⟨State.setVec_vec_same _ _ _ _, (s.setVec_writes _ _ _).same⟩
  · subst hx
    rw [exec_vectorUnmask, if_pos h, State.deliverPending_held _ (.inl (by simpa using hp))]
    exact ⟨_, rfl, State.setVec_vec_same _ _ _ _, (s.setVec_writes _ _ _).same⟩
  · have hlive : s.liveVectors fn.toNat = [] := by
      simpa [State.liveVectors, List.filter_eq_nil_iff] using h
    rw [exec_interruptModeChange, State.changeMode_eq, State.setMode_liveVectors, hlive]
    refine ⟨_, rfl, ?_, ?_, ?_, ?_, (s.setMode_writes _ _ _ _ _ _).same⟩
    · refine (s.setMode_irqMode _ _ _ _ _ _).trans ?_
      exact State.irqMode_eq _ _ _ _
    · rw [List.foldl_nil, State.setMode_host]; exact getLsbD_putBit _ _ fn.isLt
    · rw [List.foldl_nil, State.setMode_host]; exact getLsbD_putBit _ _ fn.isLt
    · rw [List.foldl_nil, State.setMode_host]; exact Table.get_set_same _ _ _ _
  · obtain ⟨hout, hvec⟩ := s.changeMode_msix_sends fn v c d m.toNat h hm hr hu
    exact ⟨_, exec_interruptModeChange s fn m true false c d, hout, hvec, (s.changeMode_writes _ _ _ _ _ _).same⟩

end Sys2Proof.Machine

namespace Sys2Proof.Machine

/-! ### Latched words (R10) -/

namespace State

/-- The state with other words latched. -/
def withLatch (s : State) (l : Table (Option Word)) : State := { s with latch := l }

/-- What the trace port has sent depends on the trace and the uptime alone. -/
theorem traceDrain_obs_congr {s t : State} (ho : t.obs = s.obs) (hb : t.tb = s.tb) (k : Nat) :
    (t.traceDrain k).obs = (s.traceDrain k).obs := by
  induction k generalizing s t with
  | zero => exact ho
  | succ k ih =>
    simp only [traceDrain, ho, hb]
    cases s.obs.fifo with
    | nil => exact ho
    | cons r rest =>
      dsimp only
      split
      · exact ih rfl rfl
      · exact ho

theorem computed_withLatch (s : State) (l : Table (Option Word)) (a : Nat) :
    (s.withLatch l).computed a = s.computed a := by
  have ht : (s.withLatch l).traceNow.traceUsed = s.traceNow.traceUsed := by
    simp only [traceUsed, traceNow]
    rw [traceDrain_obs_congr (s := s) (t := s.withLatch l) rfl rfl]
    rfl
  unfold computed
  rw [ht]
  rfl

/-- No register shows what is latched. -/
@[simp] theorem liveWord_withLatch (s : State) (l : Table (Option Word)) (fn a : Nat) :
    (s.withLatch l).liveWord fn a = s.liveWord fn a := by
  unfold liveWord
  rw [computed_withLatch]
  rfl

theorem latchWords_eq (s : State) (fn lo k : Nat) :
    s.latchWords fn lo k = s.withLatch (s.latchWords fn lo k).latch := by
  induction k with
  | zero => rfl
  | succ k ih => rw [latchWords]; dsimp only; rw [ih]; rfl

end State

/-- Below the part of a key that names the function, each offset has a key of its own. -/
theorem keyOf_inj {fn a b : Nat} (ha : a < 0x4000000) (hb : b < 0x4000000) (h : keyOf fn a = keyOf fn b) : a = b := by
  unfold keyOf at h
  split at h <;> split at h <;> omega

namespace State

theorem latchWords_get (s : State) {fn lo k j : Nat} (hk : lo + 4 * k < 0x4000000) (h1 : 1 ≤ j) (hj : j ≤ k) :
    Table.get (fun _ => none) (s.latchWords fn lo k).latch (keyOf fn (lo + 4 * j)) =
      some (BitVec.ofNat 32 (s.liveWord fn (lo + 4 * j))) := by
  induction k with
  | zero => omega
  | succ k ih =>
    rw [latchWords]
    dsimp only
    by_cases hjk : j = k + 1
    · rw [hjk, Table.get_set_same, latchWords_eq, liveWord_withLatch]
    · rw [Table.get_set_other _ _ _ fun e => hjk (by have := keyOf_inj (by omega) (by omega) e; omega)]
      exact ih (by omega) (by omega)

theorem unlatch_get_last (s : State) (fn lo k : Nat) :
    Table.get (fun _ => none) (s.unlatch fn lo (k + 1)).latch (keyOf fn (lo + 4 * (k + 1))) = none :=
  Table.get_set_same (fun _ => none) _ _ none

end State

/-! ### Register groups (R10) -/

theorem groupAt_words {base count stride words a : Nat} {g : Nat × Nat} (h : groupAt base count stride words a = some g) :
    g.2 = words := by
  unfold groupAt at h
  split at h
  · cases h; rfl
  · cases h

/-- A group, where there is one, has at most 128 words. -/
def SmallGroup (o : Option (Nat × Nat)) : Prop := ∀ g, o = some g → g.2 ≤ 128

theorem smallGroup_groupAt (base count stride words a : Nat) (h : words ≤ 128 := by decide) :
    SmallGroup (groupAt base count stride words a) := fun _ e => groupAt_words e ▸ h

theorem SmallGroup.or {o p : Option (Nat × Nat)} (ho : SmallGroup o) (hp : SmallGroup p) : SmallGroup (o.or p) := by
  cases o with
  | none => exact hp
  | some g => exact ho

theorem smallGroup_latchGroup (a : Nat) : SmallGroup (latchGroup? a) := by
  unfold latchGroup?
  dsimp only
  repeat' split
  all_goals
    repeat' with_reducible apply SmallGroup.or
    all_goals exact smallGroup_groupAt _ _ _ _ _

/-! ### Bytes of words (R9, R545) -/

theorem leBytes_length (n v : Nat) : (leBytes n v).length = n := by
  induction n generalizing v with
  | zero => rfl
  | succ n ih => simp [leBytes, ih]

theorem leNat_leBytes (n v : Nat) : leNat (leBytes n v) = v % 256 ^ n := by
  induction n generalizing v with
  | zero => simp [leBytes, leNat, Nat.mod_one]
  | succ n ih =>
    rw [leBytes, leNat, ih, BitVec.toNat_ofNat, Nat.pow_succ' (m := 256)]
    exact (Nat.mod_mul (x := v) (a := 256) (b := 256 ^ n)).symm


/-- A 32-bit word read from its four bytes. -/
theorem leNat_leBytes_word (v : Word) : leNat ((leBytes 4 v.toNat).take 4) = v.toNat := by
  rw [List.take_of_length_le (Nat.le_of_eq (leBytes_length 4 _)), leNat_leBytes, Nat.mod_eq_of_lt (show v.toNat < 256 ^ 4 from v.isLt)]

/-! ### Host accesses (R8 to R10, R450, R454) -/

theorem exec_groupReadLatch (s : State) (fn : BitVec 6) (p : Space) (a : BitVec 26) (n : Fin 4097) :
    exec (.groupReadLatch fn p a n) s = .next (s.hostRead fn.toNat p a.toNat n) := by rfl

theorem exec_registerWrite (s : State) (fn : BitVec 6) (p : Space) (a : BitVec 26) (l : List Byte) (x : Bool) :
    exec (.registerWrite fn p a l x) s = .next (s.hostRegWrite fn.toNat p a.toNat l x) := by rfl

namespace State

theorem served_reaches {s : State} {fn : Nat} (h : s.served fn = true) :
    (s.running && s.enabledFuncs.contains fn) = true := by
  obtain ⟨hr, -, he, -⟩ := (s.served_iff fn).mp h
  rw [hr, he, Bool.and_self]

/-- A function that is not reached, or whose memory space is closed, is served no memory request. -/
theorem served_false {s : State} {fn : Nat} (h : (s.running = false ∨ s.mode = 6 ∨
    s.enabledFuncs.contains fn = false) ∨ s.flag (Reg.PCIE_FUNC_MSE.of fn) = false ∨
    s.fld (Reg.PCIE_FUNC_DSTATE.of fn) ≠ 0) : s.served fn = false := by
  rw [← Bool.not_eq_true, served_iff]
  rintro ⟨hr, hm, he, hf, hd⟩
  rw [hr, he, hf] at h
  simp [hm, hd] at h

theorem hostRead_unserved (s : State) {fn : Nat} {p : Space} (a n : Nat) (hp : p ≠ .config) (h : s.served fn = false) :
    s.hostRead fn p a n = s.unsupported fn := by rw [hostRead, if_pos ⟨hp, h⟩]

theorem hostRegWrite_unserved (s : State) {fn : Nat} {p : Space} (a : Nat) (l : List Byte) (x : Bool)
    (hp : p ≠ .config) (h : s.served fn = false) : s.hostRegWrite fn p a l x = s.unsupported fn := by
  rw [hostRegWrite, if_pos ⟨hp, h⟩]

/-- R9: an aligned read of one word of a space. -/
theorem readWords_one (s : State) (fn : Nat) (p : Space) (a : Nat) : s.readWords fn p a 1 =
    ((s.readSpace fn p a).1, leBytes 4 (s.readSpace fn p a).2) := by
  simp only [readWords, List.append_nil]

theorem hostRead_word (s : State) {fn a : Nat} {p : Space} (hs : p ≠ .config → s.served fn = true)
    (hr : (s.running && s.enabledFuncs.contains fn) = true) (h4 : a % 4 = 0) (ha : p = .bar0 → a < 0x2000000) :
    s.hostRead fn p a 4 = (s.readSpace fn p a).1.emit (.completion fn (leBytes 4 (s.readSpace fn p a).2) false) := by
  rw [hostRead, if_neg (fun h => by simp [hs h.1] at h), if_neg (by rw [hr]; decide),
    if_neg (fun h => Nat.not_le.mpr (ha h.1) h.2), h4, show a / 4 * 4 = a by omega]
  dsimp only
  rw [show (0 + 4 + 3) / 4 = 1 from rfl, readWords_one, List.drop_zero, List.take_of_length_le (Nat.le_of_eq (leBytes_length 4 _))]

theorem hostRead_bar0 (s : State) {fn a : Nat} (hs : s.served fn = true) (h4 : a % 4 = 0) (ha : a < 0x2000000) :
    s.hostRead fn .bar0 a 4 = (s.readWord fn a).1.emit (.completion fn (leBytes 4 (s.readWord fn a).2) false) :=
  s.hostRead_word (fun _ => hs) (served_reaches hs) h4 fun _ => ha

theorem hostRead_config (s : State) {fn a : Nat} (hr : (s.running && s.enabledFuncs.contains fn) = true)
    (h4 : a % 4 = 0) :
    s.hostRead fn .config a 4 = s.emit (.completion fn (leBytes 4 (s.cfgWord fn a)) false) :=
  s.hostRead_word (fun h => absurd rfl h) hr h4 nofun

theorem hostRead_window (s : State) {fn a : Nat} (n : Nat) (hs : s.served fn = true) (ha : 0x2000000 ≤ a) :
    s.hostRead fn .bar0 a n = s.windowRead ((a - 0x2000000) / 0x800000) fn ((a - 0x2000000) % 0x800000) n false := by
  rw [hostRead, if_neg (fun h => by simp [hs] at h), if_neg (by rw [served_reaches hs]; decide), if_pos ⟨rfl, ha⟩]

theorem hostRegWrite_window (s : State) {fn a : Nat} (l : List Byte) (x : Bool) (hs : s.served fn = true)
    (ha : 0x2000000 ≤ a) : s.hostRegWrite fn .bar0 a l x =
      s.windowWrite ((a - 0x2000000) / 0x800000) fn ((a - 0x2000000) % 0x800000) (l.map some) x := by
  rw [hostRegWrite, if_neg (fun h => by simp [hs] at h), if_neg (by rw [served_reaches hs]; decide), if_pos ⟨rfl, ha⟩]

theorem hostRegWrite_bar0 (s : State) {fn a : Nat} (l : List Byte) (x : Bool) (hs : s.served fn = true)
    (ha : a < 0x2000000) : s.hostRegWrite fn .bar0 a l x =
      if x then (s.count Cnt.PCIE_POISONED_RX).postOpenLimited 0x0506
      else if a % 4 ≠ 0 then s else s.writeWords fn .bar0 a l (l.length / 4) := by
  rw [hostRegWrite, if_neg (fun h => by simp [hs] at h), if_neg (by rw [served_reaches hs]; decide),
    if_neg (fun h => Nat.not_le.mpr ha h.2)]

/-- R9: an aligned write of one word of the register space. -/
theorem hostRegWrite_word (s : State) {fn a : Nat} (v : Word) (hs : s.served fn = true) (h4 : a % 4 = 0)
    (ha : a < 0x2000000) :
    s.hostRegWrite fn .bar0 a (leBytes 4 v.toNat) false = s.writeWord fn a v.toNat := by
  rw [hostRegWrite_bar0 s _ _ hs ha, if_neg (by decide), if_neg (by omega), leBytes_length]
  simp only [writeWords, writeSpace, leNat_leBytes_word]

/-! ### Reads of the register space -/

theorem readWord_undecoded (s : State) {fn a : Nat} (h : s.decodes fn a false = false) : s.readWord fn a = (s, 0) := by
  rw [readWord, if_pos h]

theorem drawFor_none (s : State) {a : Nat} (ht : a ≠ Reg.PCIE_TAGS) (ha : a < 0xA1000 ∨ 0xA1800 ≤ a) :
    s.drawFor a = s := by
  rw [drawFor, if_neg ht, if_neg (by omega)]

theorem readWord_ungrouped (s : State) {fn a : Nat} (hd : s.decodes fn a false = true) (hg : latchGroup? a = none)
    (hl : a ≠ Reg.OBS_LEDGER_NUM) (ht : a ≠ Reg.PCIE_TAGS) (ha : a < 0xA1000 ∨ 0xA1800 ≤ a) :
    s.readWord fn a = (s, s.liveWord fn a) := by
  rw [readWord, if_neg (by simp [hd])]
  simp only [if_neg hl, hg, s.drawFor_none ht ha]

/-- Neither OBS_LEDGER_NUM nor PCIE_TAGS, whose reads act, is a word of a group. -/
theorem grouped_ne {a : Nat} {g : Nat × Nat} (hg : latchGroup? a = some g) :
    a ≠ Reg.OBS_LEDGER_NUM ∧ a ≠ Reg.PCIE_TAGS := by
  have hl : latchGroup? Reg.OBS_LEDGER_NUM = none := by decide
  have ht : latchGroup? Reg.PCIE_TAGS = none := by decide
  exact ⟨fun e => by simp [e, hl] at hg, fun e => by simp [e, ht] at hg⟩

theorem readWord_first (s : State) {fn a n : Nat} (hd : s.decodes fn a false = true)
    (hg : latchGroup? a = some (a, n)) (ha : a < 0xA1000 ∨ 0xA1800 ≤ a) :
    s.readWord fn a = (s.latchWords fn a (n - 1), s.liveWord fn a) := by
  obtain ⟨hl, ht⟩ := grouped_ne hg
  rw [readWord, if_neg (by simp [hd])]
  simp only [if_neg hl, hg, s.drawFor_none ht ha, if_pos]

theorem readWord_last (s : State) {fn a lo n : Nat} (hd : s.decodes fn a false = true)
    (hg : latchGroup? a = some (lo, n)) (hlast : a = lo + 4 * (n - 1)) (hne : a ≠ lo)
    (ha : a < 0xA1000 ∨ 0xA1800 ≤ a) : s.readWord fn a = (s.unlatch fn lo (n - 1),
      ((Table.get (fun _ => none) s.latch (keyOf fn a)).map (·.toNat)).getD (s.liveWord fn a)) := by
  obtain ⟨hl, ht⟩ := grouped_ne hg
  rw [readWord, if_neg (by simp [hd])]
  simp only [if_neg hl, hg, s.drawFor_none ht ha, if_neg hne, if_pos hlast]
  cases Table.get (fun _ => none) s.latch (keyOf fn a) <;> rfl

end State

end Sys2Proof.Machine

namespace Sys2Proof.Machine

/-! ### Writes of the register space (R6, R7, R10, R580) -/

namespace State

/-- The device takes a write of `v` at offset `a` through function `fn`. -/
def takesWrite (s : State) (fn a v : Nat) : Bool :=
  s.decodes fn a true && writeRight fn a && s.present fn a && !s.ignoresWrite fn a v

/-- What a write of a register that is in no group does, by its block. -/
def act (s : State) (fn a v : Nat) : State :=
  if a < 0xA0000 then s.actLow fn a v
  else if a < 0x100000 then s.actMid fn a v
  else if a < 0x1C0000 then s.actPort fn a v
  else if a < 0x500000 then s.actHigh fn a v
  else s.ringTableWrite a v

theorem writeWord_refused (s : State) {fn a v : Nat} (h : s.takesWrite fn a v = false) : s.writeWord fn a v = s := by
  exact if_pos h

theorem writeWord_ungrouped (s : State) {fn a v : Nat} (h : s.takesWrite fn a v = true)
    (hp : a < 0x100000 ∨ 0x1C0000 ≤ a) (hg : stageGroup? a = none) : s.writeWord fn a v = s.act fn a v := by
  rw [takesWrite] at h
  rw [writeWord, h, if_neg (by decide), if_neg (by omega), hg]
  rfl

theorem writeWord_grouped (s : State) {fn a v lo n : Nat} (h : s.takesWrite fn a v = true)
    (hp : a < 0x100000 ∨ 0x1C0000 ≤ a) (hg : stageGroup? a = some (lo, n)) : s.writeWord fn a v =
      if a = lo + 4 * (n - 1) then (s.stageWord (keyOf fn a) (BitVec.ofNat 32 (v &&& rwMask a))).commitGroup fn lo n
      else s.stageWord (keyOf fn a) (BitVec.ofNat 32 (v &&& rwMask a)) := by
  rw [takesWrite] at h
  rw [writeWord, h, if_neg (by decide), if_neg (by omega), hg]

/-- In the modes in which the network runs every block decodes. -/
theorem decodes_operating (s : State) (fn a : Nat) (w : Bool) (h : s.operating = true) :
    s.decodes fn a w = blockOpen fn a := by
  have hm : ¬(s.mode = 0 ∨ s.mode = 1) ∧ s.mode ≠ 7 := by
    simp [operating] at h; omega
  rw [decodes, if_neg hm.1, if_neg hm.2, Bool.and_true]

theorem takesWrite_operating (s : State) {fn a v : Nat} (h : s.operating = true) (hb : blockOpen fn a = true)
    (hr : writeRight fn a = true) (hp : s.present fn a = true) (hi : s.ignoresWrite fn a v = false) :
    s.takesWrite fn a v = true := by
  rw [takesWrite, decodes_operating s fn a true h, hb, hr, hp, hi]; rfl

end State

/-- A register in no group at offset `a`, which function `fn` may write. -/
abbrev UngroupedAt (fn a : Nat) : Prop :=
  (blockOpen fn a = true ∧ writeRight fn a = true) ∧ stageGroup? a = none ∧ (a < 0x100000 ∨ 0x1C0000 ≤ a) ∧
    a % 4 = 0 ∧ a < 0x2000000

/-- A write of such a register acts at once. -/
theorem exec_registerWrite_act (s : State) {fn : BitVec 6} {a : Nat} (v : Word) (hs : s.served fn.toNat = true)
    (ho : s.operating = true) (ha : UngroupedAt fn.toNat a) (hp : s.present fn.toNat a = true)
    (hi : s.ignoresWrite fn.toNat a v.toNat = false) :
    exec (.registerWrite fn .bar0 (BitVec.ofNat 26 a) (leBytes 4 v.toNat) false) s =
      .next (s.act fn.toNat a v.toNat) := by
  obtain ⟨⟨hb, hr⟩, hg, hport, h4, hlt⟩ := ha
  rw [exec_registerWrite, BitVec.toNat_ofNat, Nat.mod_eq_of_lt (by omega), s.hostRegWrite_word v hs h4 hlt,
    s.writeWord_ungrouped (s.takesWrite_operating ho hb hr hp hi) hport hg]

/-- Registers of PF3 whose write does nothing but change their fields. -/
def plainRegisters : List Nat := [Reg.GLB_RESET_CFG, Reg.GUARD_EPOCH, Reg.GUARD_STALL, Reg.GUARD_REPLAY,
  Reg.HLTH_COLO_CTRL, Reg.HLTH_TEST_CFG, Reg.HLTH_TEMP_WARN, Reg.QM_RX_HOLD, Reg.QM_HOP_LIMIT, Reg.FLOW_LEND]

theorem plainRegisters_at : ∀ a ∈ plainRegisters, UngroupedAt 3 a ∧ perFunction a = false ∧ a ≠ Reg.GLB_MODE := by
  decide

theorem plainRegisters_act (s : State) (v : Nat) : ∀ a ∈ plainRegisters,
    s.present 3 a = true ∧ s.ignoresWrite 3 a v = false ∧ s.act 3 a v = s.plainWrite 3 a v := by
  simp only [plainRegisters, List.forall_mem_cons]
  exact ⟨⟨rfl, rfl, rfl⟩, ⟨rfl, rfl, rfl⟩, ⟨rfl, rfl, rfl⟩, ⟨rfl, rfl, rfl⟩, ⟨rfl, rfl, rfl⟩, ⟨rfl, rfl, rfl⟩,
    ⟨rfl, rfl, rfl⟩, ⟨rfl, rfl, rfl⟩, ⟨rfl, rfl, rfl⟩, ⟨rfl, rfl, rfl⟩, List.forall_mem_nil _⟩

/-- The registers of PF3 whose write is a command of its own, with the command that a write of `n` is. -/
noncomputable def commandWrites (n : Nat) : List (Nat × Instr) :=
  [(Reg.GLB_QRESET, .quireReset (BitVec.ofNat 16 n)), (Reg.GUARD_PAIR_CTRL, .guardPairCtrlWrite (BitVec.ofNat 32 n)),
   (Reg.PCIE_LTR_ACTIVE, .ltrWrite false (BitVec.ofNat 16 n)), (Reg.PCIE_LTR_QUIET, .ltrWrite true (BitVec.ofNat 16 n)),
   (Reg.PCIE_WIN_COMMIT, .winCommit (BitVec.ofNat 4 n)), (Reg.DMA_FLAGS, .dmaFlagsWrite (BitVec.ofNat 32 n)),
   (Reg.TB_RATE, .tbRate (BitVec.ofNat 32 n)), (Reg.TB_HOST_STATUS, .tbHostStatusWrite (BitVec.ofNat 2 n)),
   (Reg.PTP_CTRL, .ptpCtrlWrite (BitVec.ofNat 32 n)), (Reg.RING_ETHERTYPE, .ringEthertypeWrite (BitVec.ofNat 16 n))]

theorem commandWrites_at (s : State) (n : Nat) : ∀ p ∈ commandWrites n,
    UngroupedAt 3 p.1 ∧ s.present 3 p.1 = true ∧ s.ignoresWrite 3 p.1 n = false := by
  simp only [commandWrites, List.forall_mem_cons]
  refine ⟨?_, ?_, ?_, ?_, ?_, ?_, ?_, ?_, ?_, ?_, List.forall_mem_nil _⟩ <;> exact ⟨by decide, rfl, rfl⟩

theorem commandWrites_act (s : State) (n : Nat) : ∀ p ∈ commandWrites n,
    s.act 3 p.1 n = after (exec p.2 s) s := by
  simp only [commandWrites, List.forall_mem_cons]
  exact ⟨rfl, rfl, rfl, rfl, rfl, rfl, rfl, rfl, rfl, rfl, List.forall_mem_nil _⟩

theorem commandWrites_next (s : State) (n : Nat) : ∀ p ∈ commandWrites n,
    .next (after (exec p.2 s) s) = exec p.2 s := by
  simp only [commandWrites, List.forall_mem_cons]
  exact ⟨rfl, rfl, rfl, rfl, rfl, rfl, rfl, rfl, rfl, rfl, List.forall_mem_nil _⟩

/-- The queue mailbox stands in the block of every function, and every function may write it. -/
theorem qcmd_at (s : State) (fn : Nat) {v : Nat} (h : s.fld (Reg.QM_QCMD_STATUS_STATE.of fn) ≠ 1) :
    UngroupedAt fn Reg.QM_QCMD ∧ s.present fn Reg.QM_QCMD = true ∧ s.ignoresWrite fn Reg.QM_QCMD v = false := by
  refine ⟨⟨⟨?_, rfl⟩, by decide, by decide, by decide, by decide⟩, rfl, ?_⟩
  · rw [blockOpen, if_neg (fun h => absurd h.2 (by decide))]; rfl
  · change Nat.beq (s.fld (Reg.QM_QCMD_STATUS_STATE.of fn)) 1 = false
    rwa [← Bool.not_eq_true, Nat.beq_eq]

/-- R410: the operation that a write of QM_QCMD names. -/
theorem qcmd_act (s : State) (fn : BitVec 6) : ∀ p ∈ [(1, Instr.qmCreate fn), (2, .qmEnable fn), (3, .qmShutdown fn),
    (4, .qmReset fn), (5, .qmDestroy fn), (6, .qmModify fn), (7, .qmQuery fn)],
    p.1 < 2 ^ 32 ∧ .next (s.act fn.toNat Reg.QM_QCMD p.1) = exec p.2 s := by
  simp only [List.forall_mem_cons]
  exact ⟨⟨by decide, rfl⟩, ⟨by decide, rfl⟩, ⟨by decide, rfl⟩, ⟨by decide, rfl⟩, ⟨by decide, rfl⟩, ⟨by decide, rfl⟩,
    ⟨by decide, rfl⟩, List.forall_mem_nil _⟩

/-! ### Staging and committing a group of two words (R10) -/

namespace State

theorem stageWord_get_same (s : State) (a : Nat) (v : Word) :
    Table.get (fun _ => none) (s.stageWord a v).stage a = some v :=
  Table.get_set_same (fun _ => none) s.stage a (some v)

theorem stageWord_get_other (s : State) {a b : Nat} (v : Word) (h : a ≠ b) :
    Table.get (fun _ => none) (s.stageWord a v).stage b = Table.get (fun _ => none) s.stage b :=
  Table.get_set_other (fun _ => none) s.stage (some v) h

theorem staged_of_get {s : State} {a : Nat} {v : Word} (h : Table.get (fun _ => none) s.stage a = some v) :
    s.staged a = v := by rw [staged, h]; rfl

/-- A group of two staged words comes into force as a whole. -/
theorem commitWords_two (s : State) {a : Nat} {v w : Word} (hv : Table.get (fun _ => none) s.stage a = some v)
    (hw : Table.get (fun _ => none) s.stage (a + 4) = some w) :
    (s.commitWords a 2).rd a = v ∧ (s.commitWords a 2).rd (a + 4) = w ∧
      s.regsBut [a, a + 4] (s.commitWords a 2) := by
  have hw' : ((s.wr a v).unstage a).staged (a + 4) = w :=
    staged_of_get ((Table.get_set_other (fun _ => none) s.stage none (by omega)).trans hw)
  have hrd : ∀ b, (s.commitWords a 2).rd b = ((s.wr a v).wr (a + 4) w).rd b := fun b => by
    simp only [commitWords, staged_of_get hv, hw']
    rfl
  refine ⟨?_, ?_, fun b hb => ?_⟩
  · rw [hrd, wr_rd_other _ _ (by omega), wr_rd_same]
  · rw [hrd, wr_rd_same]
  · simp only [List.mem_cons, List.not_mem_nil, or_false, not_or] at hb
    rw [hrd, wr_rd_other _ _ (Ne.symm hb.2), wr_rd_other _ _ (Ne.symm hb.1)]

end State

theorem ofNat_and_toNat (v : Word) (m : Nat) : BitVec.ofNat 32 (v.toNat &&& m) = v &&& BitVec.ofNat 32 m := by
  apply BitVec.eq_of_getLsbD_eq
  intro i hi
  rw [BitVec.getLsbD_ofNat, BitVec.getLsbD_and, BitVec.getLsbD_ofNat, Nat.testBit_and, BitVec.testBit_toNat]
  cases v.getLsbD i <;> simp

/-! ### The mailbox's address (R107, R132) -/

namespace State

/-- With no mailbox command in progress, PF3 may write the mailbox's address in every mode but Dormant and Held. -/
theorem takesWrite_mailbox (s : State) (v : Nat) (hm : s.boot.mb = none) (h7 : s.mode ≠ 7) :
    s.takesWrite 3 Reg.IMP_MB_ADDR_LO v = true ∧ s.takesWrite 3 Reg.IMP_MB_ADDR_HI v = true := by
  have hd : ∀ a, a < 0x20000 → blockOpen 3 a = true → s.decodes 3 a true = true := fun a ha hb => by
    rw [decodes, hb, if_neg h7]
    split <;> simp [ha, Nat.blt_eq]
  have hi : ∀ a, a = Reg.IMP_MB_ADDR_LO ∨ a = Reg.IMP_MB_ADDR_HI → s.ignoresWrite 3 a v = false := fun a ha => by
    
    rcases ha with rfl | rfl <;> change (s.boot.mb.isSome || false) = false <;> rw [hm] <;> rfl
  refine ⟨?_, ?_⟩ <;> rw [takesWrite, hd _ (by decide) rfl, hi _ (by simp)] <;> rfl

/-- The low word of the mailbox's address waits for the high one. -/
theorem exec_mbAddrLo (s : State) (v : Word) (hs : s.served 3 = true) (hm : s.boot.mb = none) (h7 : s.mode ≠ 7) :
    exec (.registerWrite 3 .bar0 0x10010 (leBytes 4 v.toNat) false) s = .next (s.stageWord Reg.IMP_MB_ADDR_LO
      (v &&& BitVec.ofNat 32 (rwMask Reg.IMP_MB_ADDR_LO))) := by
  have hg : stageGroup? Reg.IMP_MB_ADDR_LO = some (0x10010, 2) := by decide
  rw [exec_registerWrite]
  change Host.Outcome.next (s.hostRegWrite 3 .bar0 Reg.IMP_MB_ADDR_LO _ false) = _
  rw [s.hostRegWrite_word v hs (by decide) (by decide), s.writeWord_grouped (s.takesWrite_mailbox _ hm h7).1 (by decide)
    hg, if_neg (by decide), ofNat_and_toNat]
  rfl

/-- The high word of the mailbox's address commits both. -/
theorem exec_mbAddrHi (s : State) (w : Word) (hs : s.served 3 = true) (hm : s.boot.mb = none) (h7 : s.mode ≠ 7) :
    exec (.registerWrite 3 .bar0 0x10014 (leBytes 4 w.toNat) false) s = .next ((s.stageWord Reg.IMP_MB_ADDR_HI
      (w &&& BitVec.ofNat 32 (rwMask Reg.IMP_MB_ADDR_HI))).commitWords Reg.IMP_MB_ADDR_LO 2) := by
  have hg : stageGroup? Reg.IMP_MB_ADDR_HI = some (0x10010, 2) := by decide
  rw [exec_registerWrite]
  change Host.Outcome.next (s.hostRegWrite 3 .bar0 Reg.IMP_MB_ADDR_HI _ false) = _
  rw [s.hostRegWrite_word w hs (by decide) (by decide), s.writeWord_grouped (s.takesWrite_mailbox _ hm h7).2 (by decide)
    hg, if_pos (by decide), ofNat_and_toNat]
  rfl

end State

/-- Where a window of the register space lies, and where it does not. -/
theorem windowAddr_toNat (w : Fin 4) (o : BitVec 23) :
    (BitVec.ofNat 26 (0x2000000 + w * 0x800000 + o.toNat)).toNat = 0x2000000 + w * 0x800000 + o.toNat := by
  have ho := o.isLt
  rw [BitVec.toNat_ofNat]
  omega

/-! ### Reads of the register space, by what the word is in -/

namespace State

section
variable (s : State) {fn a : Nat} (hs : s.served fn = true) (h4 : a % 4 = 0) (ha : a < 0x2000000)
include hs h4 ha

/-- R8: what does not decode reads 0. -/
theorem read_undecoded (hd : s.decodes fn a false = false) :
    (s.hostRead fn .bar0 a 4).out = s.out ++ [.completion fn [0, 0, 0, 0] false] ∧
      s.sameBut [.out] (s.hostRead fn .bar0 a 4) := by
  rw [s.hostRead_bar0 hs h4 ha, s.readWord_undecoded hd, show leBytes 4 0 = [0, 0, 0, 0] by decide]
  exact ⟨rfl, (s.emit_writes _).same⟩

theorem read_ungrouped (hd : s.decodes fn a false = true) (hg : latchGroup? a = none) (hl : a ≠ Reg.OBS_LEDGER_NUM)
    (ht : a ≠ Reg.PCIE_TAGS) (hr : a < 0xA1000 ∨ 0xA1800 ≤ a) :
    (s.hostRead fn .bar0 a 4).out = s.out ++ [.completion fn (leBytes 4 (s.liveWord fn a)) false] ∧
      s.sameBut [.out] (s.hostRead fn .bar0 a 4) := by
  rw [s.hostRead_bar0 hs h4 ha, s.readWord_ungrouped hd hg hl ht hr]
  exact ⟨rfl, (s.emit_writes _).same⟩

/-- R10: a read of the first word of a group latches the others. -/
theorem read_first {n : Nat} (hd : s.decodes fn a false = true) (hg : latchGroup? a = some (a, n))
    (hr : a < 0xA1000 ∨ 0xA1800 ≤ a) :
    (s.hostRead fn .bar0 a 4).out = s.out ++ [.completion fn (leBytes 4 (s.liveWord fn a)) false] ∧
      (∀ j, j < n → 1 ≤ j → Table.get (fun _ => none) (s.hostRead fn .bar0 a 4).latch (keyOf fn (a + 4 * j)) =
        some (BitVec.ofNat 32 (s.liveWord fn (a + 4 * j)))) ∧
      s.sameBut [.latch, .out] (s.hostRead fn .bar0 a 4) := by
  have hn : n ≤ 128 := smallGroup_latchGroup a _ hg
  have hw := s.latchWords_writes fn a (n - 1)
  rw [s.hostRead_bar0 hs h4 ha, s.readWord_first hd hg hr]
  refine ⟨?_, fun j hj h1 => ?_, (hw.then (n := [.latch, .out]) (emit_writes _ _)).same⟩
  · rw [← hw.same .out (by decide)]; rfl
  · exact s.latchWords_get (by omega) h1 (by omega)

/-- R10: a read of the last word of a group answers what is latched, and ends the latching. -/
theorem read_last {lo n : Nat} (hd : s.decodes fn a false = true) (hg : latchGroup? a = some (lo, n))
    (hlast : a = lo + 4 * (n - 1)) (hne : a ≠ lo) (hr : a < 0xA1000 ∨ 0xA1800 ≤ a) :
    (s.hostRead fn .bar0 a 4).out = s.out ++ [.completion fn (leBytes 4 (((Table.get (fun _ => none) s.latch
        (keyOf fn a)).map (·.toNat)).getD (s.liveWord fn a))) false] ∧
      Table.get (fun _ => none) (s.hostRead fn .bar0 a 4).latch (keyOf fn a) = none ∧
      s.sameBut [.latch, .out] (s.hostRead fn .bar0 a 4) := by
  have hw := s.unlatch_writes fn lo (n - 1)
  rw [s.hostRead_bar0 hs h4 ha, s.readWord_last hd hg hlast hne hr]
  refine ⟨?_, ?_, (hw.then (n := [.latch, .out]) (emit_writes _ _)).same⟩
  · rw [← hw.same .out (by decide)]; rfl
  · obtain ⟨k, hk⟩ := Nat.exists_eq_add_of_lt (show 0 < n - 1 by omega)
    rw [show n - 1 = k + 1 by omega] at hlast ⊢
    rw [hlast]
    exact s.unlatch_get_last fn lo k

end

/-- R6, R580: a plain write of a register changes its fields where they are in range. -/
theorem plainWrite_spec (s : State) {a : Nat} {d : RegDef} (v : Word) (hf : perFunction a = false)
    (hm : a ≠ Reg.GLB_MODE) (hd : regDef? a = some d) :
    (d.inRange v.toNat = true → (s.plainWrite 3 a v.toNat).rd a = d.take (s.rd a) v) ∧
      (d.inRange v.toNat = false → s.plainWrite 3 a v.toNat = s) ∧ s.regsBut [a] (s.plainWrite 3 a v.toNat) ∧
      s.sameBut [.regs] (s.plainWrite 3 a v.toNat) := by
  have hk : keyOf 3 a = a := by rw [keyOf, hf]; rfl
  have hp : s.plainWrite 3 a v.toNat = if d.inRange v.toNat then s.wr a (d.take (s.rd a) v) else s := by
    simp only [plainWrite, hd, hk, BitVec.ofNat_toNat, BitVec.setWidth_eq]
  rw [hp]
  cases d.inRange v.toNat with
  | false => exact ⟨nofun, fun _ => rfl, fun _ _ => rfl, (Writes.refl _ s).same⟩
  | true => exact ⟨fun _ => s.wr_rd_same _ _, nofun, fun b hb => s.wr_rd_other _ (by simpa [eq_comm] using hb),
      (s.wr_writes_ne _ _ hm).same⟩

end State

/-- Settles O36, clause by clause: requests that are not served, reads by what the word is in, configuration reads,
writes that are ignored, poisoned or plain, the mailbox's address, registers whose write is a command, and windows. -/
theorem hostReadsAndWritesRegisters : Obligations.HostReadsAndWritesRegisters := by
  unfold Obligations.HostReadsAndWritesRegisters
  refine ⟨fun s fn p a n l x h hp => ?_, fun s fn p a n l x hr hm he hp h i hi => ?_, fun s fn a hs h4 ha => ?_,
    fun s fn a hr he h4 => ?_, fun s fn a v hs ha h => ?_, fun s fn a l hs ha hl => ?_, fun s fn a l hs ha hl => ?_,
    fun s v hs ho a ha d hd => ?_, fun s v w hs hm h7 => ?_, fun s v hs ho p hp => ?_, fun s fn hs ho hst p hp => ?_,
    fun s w f o l n x hs => ?_⟩
  · have hs := State.served_false (.inl h)
    rw [exec_groupReadLatch, exec_registerWrite, s.hostRead_unserved _ _ hp hs, s.hostRegWrite_unserved _ _ _ hp hs,
      s.unsupported_of_unreached h]
    exact ⟨rfl, rfl⟩
  · have hs := State.served_false (.inr h)
    have hi' : exec i s = .next (s.unsupported fn.toNat) := by
      simp only [List.mem_cons, List.not_mem_nil, or_false] at hi
      rcases hi with rfl | rfl
      · rw [exec_groupReadLatch, s.hostRead_unserved _ _ hp hs]
      · rw [exec_registerWrite, s.hostRegWrite_unserved _ _ _ hp hs]
    rw [hi', s.unsupported_of_reached hr hm he]
    exact ⟨_, rfl, rfl, s.countUr_cnt _, (s.countUr_writes _).same⟩
  · refine ⟨_, exec_groupReadLatch s fn .bar0 a 4, s.read_undecoded hs h4 ha, s.read_ungrouped hs h4 ha,
      fun hd hg hr => ?_, fun hd hg hr => ?_⟩
    · obtain ⟨⟨lo, n⟩, hgrp, hlo⟩ := Option.map_eq_some_iff.mp hg
      obtain rfl : lo = a.toNat := hlo
      rw [hgrp]
      exact s.read_first hs h4 ha hd hgrp hr
    · cases hgrp : latchGroup? a.toNat with
      | none => simp [hgrp] at hg
      | some g =>
        obtain ⟨hlast, hne⟩ : a.toNat = g.1 + 4 * (g.2 - 1) ∧ a.toNat ≠ g.1 := by
          simpa only [hgrp, Option.any_some, Bool.and_eq_true, decide_eq_true_eq] using hg
        exact s.read_last hs h4 ha hd hgrp hlast hne hr
  · rw [exec_groupReadLatch]
    exact ⟨_, congrArg _ (s.hostRead_config (by rw [hr, he]; rfl) h4), rfl, (s.emit_writes _).same⟩
  · rw [exec_registerWrite]
    by_cases h4 : a.toNat % 4 = 0
    · rw [s.hostRegWrite_word v hs h4 ha, s.writeWord_refused]
      rcases h with h | h | h | h | h
      · exact absurd h4 h
      all_goals simp [State.takesWrite, State.decodes, h]
    · rw [s.hostRegWrite_bar0 _ _ hs ha, if_neg (by decide), if_pos h4]
  · rw [exec_registerWrite, s.hostRegWrite_bar0 _ _ hs ha, if_neg (by decide), Nat.div_eq_of_lt hl]
    exact congrArg _ (ite_self _)
  · rw [exec_registerWrite, s.hostRegWrite_bar0 _ _ hs ha, if_pos rfl]
    exact ⟨_, rfl, s.poisoned_counted, s.poisoned_posts hl, s.poisoned_writes.same⟩
  · obtain ⟨hat, hf, hm⟩ := plainRegisters_at a ha
    obtain ⟨hp, hi, hact⟩ := plainRegisters_act s v.toNat a ha
    exact ⟨_, (exec_registerWrite_act s (fn := 3) v hs ho hat hp hi).trans (congrArg _ hact),
      s.plainWrite_spec v hf hm hd⟩
  · have hlo := State.stageWord_get_same s Reg.IMP_MB_ADDR_LO (v &&& BitVec.ofNat 32 (rwMask Reg.IMP_MB_ADDR_LO))
    have hstage := s.stageWord_writes Reg.IMP_MB_ADDR_LO (v &&& BitVec.ofNat 32 (rwMask Reg.IMP_MB_ADDR_LO))
    generalize ht : s.stageWord Reg.IMP_MB_ADDR_LO _ = t at hlo hstage
    obtain ⟨hrdLo, hrdHi, hregs⟩ := (t.stageWord Reg.IMP_MB_ADDR_HI
      (w &&& BitVec.ofNat 32 (rwMask Reg.IMP_MB_ADDR_HI))).commitWords_two (a := Reg.IMP_MB_ADDR_LO)
      ((t.stageWord_get_other _ (by decide)).trans hlo) (t.stageWord_get_same _ _)
    subst ht
    exact ⟨_, _, s.exec_mbAddrLo v hs hm h7, hstage.same, State.staged_of_get hlo,
      State.exec_mbAddrHi _ w hs hm h7, hrdLo, hrdHi, hregs,
      ((hstage.then (n := [.stage]) (State.stageWord_writes _ _ _)).then (n := [.regs, .stage])
        (State.commitWords_writes_ne _ _ _ (by decide))).same⟩
  · have hp' : p ∈ commandWrites v.toNat := by
      simpa only [commandWrites, BitVec.ofNat_toNat, BitVec.setWidth_eq] using hp
    obtain ⟨hat, hpres, hi⟩ := commandWrites_at s v.toNat p hp'
    rw [exec_registerWrite_act s (fn := 3) v hs ho hat hpres hi]
    exact (congrArg _ (commandWrites_act s _ p hp')).trans (commandWrites_next s _ p hp')
  · obtain ⟨hlt, hact⟩ := qcmd_act s fn p hp
    obtain ⟨hat, hpres, hi⟩ := qcmd_at s fn.toNat (v := (BitVec.ofNat 32 p.1).toNat) hst
    have hv : (BitVec.ofNat 32 p.1).toNat = p.1 := Nat.mod_eq_of_lt hlt
    have he := exec_registerWrite_act s (BitVec.ofNat 32 p.1) hs ho hat hpres hi
    rw [hv] at he
    exact he.trans hact
  · have hf : (BitVec.ofNat 6 f).toNat = f.val := by rw [BitVec.toNat_ofNat]; omega
    have ho := o.isLt
    have hw : (0x2000000 + w.val * 0x800000 + o.toNat - 0x2000000) / 0x800000 = w ∧
      (0x2000000 + w.val * 0x800000 + o.toNat - 0x2000000) % 0x800000 = o.toNat := by omega
    rw [exec_registerWrite, exec_groupReadLatch, exec_windowWrite, exec_windowRead, if_pos hs, if_pos hs,
      windowAddr_toNat, hf, s.hostRegWrite_window _ _ hs (by omega), s.hostRead_window _ hs (by omega), hw.1, hw.2]
    exact ⟨rfl, rfl⟩

end Sys2Proof.Machine
